-- ==== Sys2Proof/Word.lean ====
section
/-! DEFINITION. The word types of the GQ-4096 (02_numbers R33, 06_vector R116, 00_scope R3) and the identities of its
agents: plain abbreviations, no arithmetic of the machine's own. -/

namespace Sys2Proof

/-- One byte of memory (R3). -/
abbrev Byte := BitVec 8

/-- A general register, an address, a 64-bit limb (R3, 05_strand Table 5.2). -/
abbrev Word := BitVec 64

/-- A vector register: 1,024 bits (06_vector R116). -/
abbrev VWord := BitVec 1024

/-- A position of a tile on the package: die * 1024 + row * 32 + column (01_part R15, R16).
The root monitor core, which executes the same encodings on its own private memory (11_context R212), is held at
the position 4096, outside the four dies. -/
abbrev TileId := Nat

/-- Number of strands of a tile (05_strand: control strand 0 and helpers 1 to 10). -/
abbrev StrandNo := Fin 11

/-- A cluster: die * 128 + cluster number (01_part R15, 12_queue R243). -/
abbrev ClusterId := Nat

/-- The exact value of a floating-point operand (02_numbers R27, R29): NaN, an infinity, or (-1)^neg * m * 2^e, where
m = 0 is a signed zero. -/
inductive Val where
  | nan
  | inf (neg : Bool)
  | fin (neg : Bool) (m : Nat) (e : Int)
  deriving DecidableEq, Repr

/-- A floating-point format (02_numbers Table 2.1): significand bits with the hidden one, exponent of the least
subnormal, bits of the largest finite value, whether overflow saturates (R43, R44), the bits of infinity and of the
canonical NaN, and the width. -/
structure Fmt where
  p : Nat
  emin : Int
  maxBits : Nat
  sat : Bool
  infBits : Nat
  nanBits : Nat
  width : Nat
  deriving DecidableEq, Repr

end Sys2Proof
end

