-- ==== Sys2Proof/Config.lean ====
section
/-! DEFINITION. What the spec leaves to the implementation and never gives a value for: opaque constants, so that no
proof can see a value. The counter of a state (`State.free`) picks a fresh one for each use of `freeNat`. -/

namespace Sys2Proof.Config

/-- The free values of the spec: energy drawn (R359, R360), sensor readings (R361), outcome of a structural test (R362),
tiles taken of an offer (R264), range of gather patterns of a context (R189), replies the runtime owes (R226); log entry 2. -/
opaque freeNat : Nat → Nat

/-- The fuse of position `i` (32·row + column) of die `d` (R16); log entry 6. -/
opaque fuse : Nat → Nat → Bool

/-- Positions of die `d` whose fuse is set. -/
def fuseCount (d : Nat) : Nat := ((List.range 1024).filter (fuse d)).length

/-- Fused: position `i` of die `d` is enabled. The part guarantees that at least 960 of a die are (R1, R16), so at least
3,840 of the package: fuses that set fewer are of no part, and then every position counts (log entry 6). -/
def fusedEnable (d i : Nat) : Bool := fuse d i || decide (fuseCount d < 960)

/-- Fused: the upper half of the store of a tile is present (R17); log entry 6. -/
opaque fusedUpper : Nat → Bool

/-- Fused: SHA-384 hash of the firmware's public key (R216); log entry 5. -/
opaque fusedKeyHash : BitVec 384

/-- Fused: the identity key, a P-384 secret key (R217); log entry 5. -/
opaque identityKey : BitVec 384

/-- The signer's choice of the per-signature secret (R217); log entry 5. -/
opaque signNonce : BitVec 384 → BitVec 384

/-- The link, by its place among those usable, that a flow takes, from its source and its destination (R329: a hash that the
spec does not give); log entry 2. -/
opaque flowHash : Nat → Nat → Nat

/-- The chip that a scale-up port joins to this one (Table 18.1); log entry 2. -/
opaque portPeer : Nat → Nat

/-- The correctly rounded result of 2^a or log2 a (R40) where the model's interval arithmetic cannot decide the
rounding; log entry 12. The first argument is 0 for 2^a and 1 for log2 a, then the rounding code, then a. -/
opaque hardCase : Nat → Nat → BitVec 32 → BitVec 32

end Sys2Proof.Config
end

