-- ==== Sys2Proof/Syntax/Operand.lean ====
section
/-! DEFINITION. The operands of the instructions (03_encoding R56 to R63) and the data that the part's events carry
(95_what_each_step_holds): plain data, each with decidable equality. -/

namespace Sys2Proof

/-- The predicate field of every instruction (03_encoding R63, Table 3.1): register PR and negate PN. -/
structure Pred where
  pr : BitVec 3
  pn : Bool
  deriving DecidableEq, Repr

/-- A g register in a source position with its empty-behaviour bit, 1 traps EMPTY (R58, Table 3.1, R64). -/
structure GSrc where
  r : BitVec 5
  e : Bool
  deriving DecidableEq, Repr

/-- A w register in a source position with its empty-behaviour bit (R58, R64). -/
structure WSrc where
  r : BitVec 4
  e : Bool
  deriving DecidableEq, Repr

/-- A vector position: w0-w15 or q0-q7 (06_vector R117). -/
inductive VReg where
  | w (r : BitVec 4)
  | q (r : BitVec 3)
  deriving DecidableEq, Repr

/-- A vector source with its empty-behaviour bit. -/
structure VSrc where
  r : VReg
  e : Bool
  deriving DecidableEq, Repr

/-- A source that is a g or a vector register (07_accumulator R144: w, q, or g0). -/
inductive Scale where
  | one
  | reg (v : VSrc)
  deriving DecidableEq, Repr

/-- Second operand of the forms of R61: register B, or IMM26 with FN[3] = 1. -/
inductive AluB where
  | reg (b : GSrc)
  | imm (i : BitVec 26)
  deriving DecidableEq, Repr

/-- Operands of the forms of R61 and R99: width code FN[2:0], destination, sources. -/
structure AluOps where
  wd : BitVec 3
  d : BitVec 5
  a : GSrc
  b : AluB
  deriving DecidableEq, Repr

/-- Operands of the three-register vector forms (R119): type, destination, sources. -/
structure VOps where
  ty : BitVec 4
  d : VReg
  a : VSrc
  b : VSrc
  deriving DecidableEq, Repr

/-- Destination of `ldg` (05_strand R106): a g register with a width code, or a w register of 128 bytes. -/
inductive MemDst where
  | g (wd : BitVec 3) (d : BitVec 5)
  | v (d : BitVec 4)
  deriving DecidableEq, Repr

/-- Data of `stg` and `msg` (R106, R109): a g register with a width code, or a w register of 128 bytes. -/
inductive MemSrc where
  | g (wd : BitVec 3) (b : GSrc)
  | v (b : WSrc)
  deriving DecidableEq, Repr

/-- Data of `addd` (R108): TY and a g register, or `.la` and a w register. -/
inductive AddSrc where
  | g (ty : BitVec 4) (b : GSrc)
  | la (b : WSrc)
  deriving DecidableEq, Repr

/-- Masks of `mmam` (07_accumulator R136): IMM64, or a g register other than g0. -/
inductive MaskSrc where
  | imm (m : Word)
  | reg (c : GSrc)
  deriving DecidableEq, Repr

/-- Addend selection of `vshift` (R121): register B, or SUB[5:0] with FN[2] = 1. -/
inductive ShiftB where
  | reg (b : VSrc)
  | imm (s : BitVec 6)
  deriving DecidableEq, Repr

/-- The register an instruction, a load or a reply fills (R95). -/
inductive Dst where
  | none
  | g (r : BitVec 5)
  | w (r : BitVec 4)
  | q (r : BitVec 3)
  deriving DecidableEq, Repr

/-- Cause codes (19_faults Table 19.1); VABORT carries its low seven bits. -/
inductive Cause where
  | sramdue | residue | dmrmis | linkloss | galley | timeout | mismatch | conflict | trap | kfail
  | illegal | fetchalign | empty | priv | prot | misalign | overlay | orphan | haltlive | lock
  | detban | watch | ptstate | sample | stream | copy | crc | gather | coll | rearrive | swtrap | brk
  | badpart | sramstd | commitres | hbmdue | dielost | sweepfail
  | sramce | hbmce | late | linkdeg | wptrec
  | vabort (u : BitVec 7)
  deriving DecidableEq, Repr

/-- Who sent a remote access (04_tile R85, 10_visibility R194, R196): context, physical tile, strand, virtual tile
index, the instruction's address, superstep and attempt, sequence number, and the number under which the sender
counts the access as outstanding. `engine` is true for a copy-engine or drain access pushed by the strand. -/
structure Origin where
  ctx : Nat
  tile : TileId
  strand : StrandNo
  vidx : BitVec 20
  pc : BitVec 21
  ss : BitVec 48
  att : Nat
  seq : Nat
  op : Nat
  engine : Bool
  deriving DecidableEq, Repr

/-- What a remote write does to its bytes: plain bytes, one nibble (R107), an integer delta add (R108), the two LA384
elements of `addd.la`, or the one element of a `drain` delta with the drain's destination and the element's residue
(R148, R149). -/
inductive Payload where
  | bytes (n : Nat) (data : VWord)
  | nibble (hi : Bool) (v : BitVec 4)
  | addInt (wide : Bool) (v : Word)
  | addLa (data : VWord)
  | drainLa (base : Word) (data : BitVec 512) (res : BitVec 8)
  deriving DecidableEq, Repr

/-- A remote write on its way (R85, R196). -/
structure Packet where
  src : Origin
  ea : Word
  body : Payload
  /-- lines of its target, the sender's own, that its strand has read since it was sent, in DET mode (10_visibility R208) -/
  rd : List Nat := []
  deriving DecidableEq, Repr

/-- A remote load on its way (R106): `n` bytes, extended from width code `wd` into `dst`. -/
structure LoadReq where
  src : Origin
  ea : Word
  n : Nat
  wd : BitVec 3
  dst : Dst
  deriving DecidableEq, Repr

/-- A counted message on its way (R109); `n = 0` carries no data. -/
structure MsgReq where
  src : Origin
  ea : Word
  n : Nat
  data : VWord
  ct : BitVec 4
  deriving DecidableEq, Repr

/-- Acknowledgements (R196), and the refusal of R85. -/
inductive Ack where
  | accept
  | conflict
  | galley
  | refused
  | detban
  deriving DecidableEq, Repr

/-- A stream binding of a tile (09_stream R173): a q register of a strand, or the filler of fa or fb. -/
inductive StreamRef where
  | q (n : StrandNo) (k : Fin 8)
  | fa
  | fb
  deriving DecidableEq, Repr

/-- The fields of a barrier message that combine (15_barrier Table 15.1). `bid` is meaningful when `wild` is false. -/
structure BarMsg where
  ss : BitVec 48
  att : Nat
  bid : BitVec 2
  wild : Bool
  cause : BitVec 8
  opc : BitVec 4
  count : Nat
  opnd : Word
  deriving DecidableEq, Repr

/-- A node of the barrier tree (R267): a position on a die, or the barrier unit of the I/O chiplet. -/
inductive BarNode where
  | pos (die row col : Nat)
  | io
  deriving DecidableEq, Repr

/-- A `bcfg` write on its way to the decision point (R286). -/
structure BcfgWrite where
  ord : Nat
  tile : TileId
  op : Nat
  ss : BitVec 48
  att : Nat
  bid : BitVec 2
  val : Word
  deriving DecidableEq, Repr

/-- A work object (12_queue R233): its level (0 node, 1 graph, 2 phase, 3 job) and its numbers. -/
structure ObjId where
  level : BitVec 2
  job : BitVec 32
  phase : BitVec 16
  graph : BitVec 16
  node : BitVec 12
  deriving DecidableEq, Repr

/-- Completion status of a work object (Table 12.3). -/
inductive ObjStatus where
  | pending | done | failed | cancelled
  deriving DecidableEq, Repr

/-- What an unprivileged agent asks the monitor for (11_context Table 11.1, R212). -/
inductive MonReq where
  | new (a b : Word)
  | seg (a b : Word)
  | go (ctx : Nat)
  | save (ctx : Nat)
  | rest (ctx : Nat)
  | kill (ctx : Nat) (c : BitVec 8)
  | test (cluster : ClusterId)
  | grant (ctx : Nat) (tiles : List TileId)
  /-- an uncorrectable error found in a context (R354, R355): not asked for, told -/
  | fatal (ctx : Nat) (c : Cause)
  deriving DecidableEq, Repr

/-- Who waits on an engine access to a page (16_page R293, R294): the copy channel, a stream, an overlay load or the
outbound queue of a tile, an `offl`, `retn` or `pin` request being outside this list. -/
inductive Accessor where
  | chan
  | stream (s : StreamRef)
  /-- the oldest piece written through a q register (R175, R177) -/
  | out (n : StrandNo) (k : Fin 8)
  | ovl (id : Nat)
  | outq
  /-- the tree table of a collective (R308) -/
  | coll (id : BitVec 64)
  /-- an engine of another chip (R291) -/
  | chip (c : BitVec 8)
  deriving DecidableEq, Repr

/-- What a strand had done when it pushed a command or bound a stream, which waits for it (R175, R182, R191): accesses by
number, and how many pieces it had written through each q register. -/
structure Before where
  ops : List Nat := []
  outs : List Nat := []
  deriving DecidableEq, Repr

/-- An engine access that reaches the home page unit (R293). -/
structure PageAcc where
  ctx : Nat
  tile : TileId
  who : Accessor
  va : Word
  write : Bool
  /-- the chip that made it, where that is another one (R293 to R295) -/
  chip : Option (BitVec 8) := none
  deriving DecidableEq, Repr

/-- A write-back line on its way to HBM (10_visibility R195), with the chip it comes from (R295). -/
structure WriteBack where
  ctx : Nat
  chip : BitVec 8
  tile : TileId
  vidx : BitVec 20
  seq : Nat
  va : Word
  n : Nat
  data : BitVec 512
  /-- who pushed it, told of its refusal (R294) -/
  strand : StrandNo := 0
  pc : BitVec 21 := 0
  deriving DecidableEq, Repr

/-- A trap record (19_faults Table 19.2). -/
structure TrapRec where
  code : BitVec 8
  cls : BitVec 3
  defer : Bool
  ctx : BitVec 5
  att : BitVec 4
  ss : BitVec 48
  strand : BitVec 4
  vidx : BitVec 20
  phys : BitVec 20
  pc : BitVec 21
  info : BitVec 32
  colmap : BitVec 32
  deriving DecidableEq, Repr

/-- What the 256 bytes of a flit say (18_link R330, Table 18.2): the CRC's verdict and the header fields, with the payload. -/
structure Flit where
  good : Bool
  seqd : Bool
  seq : BitVec 12
  vc : BitVec 2
  ackv : Bool
  ack : BitVec 12
  nak : Bool
  cvc : BitVec 2
  crd : BitVec 8
  payload : List Byte
  deriving DecidableEq, Repr

/-- An input of a collective node (17_collective R313, R316, R318). `src` numbers the member or child node. -/
inductive CollMsg where
  | expo (src : Nat) (ex : List (Option Int))
  | vals (src : Nat) (v : List (BitVec 32))
  | cutoff (member : Nat) (c : BitVec 6)
  deriving DecidableEq, Repr

/-- Where a soft error strikes (19_faults R354): a pool word, a slot of the galley by its number, or its tag; an entry of a norm
file or a lane of the Welford state (R170); the residue unit beside the array (0), the adder (1), the drain interface (2) or
the commit engine (3), where it spoils the next check (R138); or the HBM of a context, where it is told of at its detection
(R355; log entry 31). -/
inductive ErrPlace where
  | pool (ofs : Nat)
  | slot (k : Nat) (word : Nat)
  | tag (k : Nat)
  | norm (fb : Bool) (i : Nat)
  | welford (i : Nat)
  | check (u : BitVec 2)
  | hbm (ctx : Nat)
  deriving DecidableEq, Repr

/-- A RELEASE as it reaches a tile (15_barrier Table 15.1, R278): the superstep and attempt it closes, the cause (0 is
commit), whether every arrival was a wildcard, the barrier taken, the result, the BCFG values from now on, and whether
the launch or the group ends or is reshaped with it (Table 14.1). -/
structure Release where
  ss : BitVec 48
  att : Nat
  cause : BitVec 8
  wild : Bool
  bid : BitVec 2
  result : Word
  bcfg : List Word
  ends : Bool
  reshapes : Bool
  deriving DecidableEq, Repr

/-- What a strand asks the dispatcher, the monitor or the page unit for, answered within 256 cy (12_queue R240,
16_page R301, 20_energy R363): the reply carries a value settled when the request was taken, or names a record to be
read when the reply leaves. -/
inductive DispQuery where
  | value (v : Word)
  /-- a value for whose reply the barrier arrival does not wait (page, energy and test forms) -/
  | status (v : Word)
  | record (ctx : Nat) (o : ObjId)
  | qst (ctx : Nat) (q : Nat)
  | clst (ctx : Nat) (g : Word)
  | kernel (ctx : Nat) (kimg : Word) (w : BitVec 2)
  | test (ctx : Nat) (g : Word) (u : BitVec 4)
  | pstat (ctx : Nat) (va : Word)
  | pdev (ctx : Nat) (dev : Nat)
  | ckst (ctx : Nat)
  deriving DecidableEq, Repr

end Sys2Proof
end

