-- ==== Sys2Proof/Syntax.lean ====
section
/-! DEFINITION. The instruction set: one constructor per row of the opcode table. Rows 0 to 223 are the instruction
forms of Table 3.5 with their FN variants (03_encoding R66, and the chapter of each group); the others name the
steps of the part's other agents (95_what_each_step_holds), whose operands Sys2Proof/Syntax/Event.lean gives. -/

namespace Sys2Proof

/-- The instructions and the hardware steps of the GQ-4096. -/
inductive Instr where
  /-- NOP (R68). -/
  | nop (p : Pred)
  /-- ADD (R99). -/
  | add (p : Pred) (o : AluOps)
  /-- SUB (R99). -/
  | sub (p : Pred) (o : AluOps)
  /-- MUL (R99). -/
  | mul (p : Pred) (o : AluOps)
  /-- MULH (R99). -/
  | mulh (p : Pred) (o : AluOps)
  /-- DIV (R99). -/
  | div (p : Pred) (o : AluOps)
  /-- REM (R99). -/
  | rem (p : Pred) (o : AluOps)
  /-- AND (R99). -/
  | and (p : Pred) (o : AluOps)
  /-- OR (R99). -/
  | or (p : Pred) (o : AluOps)
  /-- XOR (R99). -/
  | xor (p : Pred) (o : AluOps)
  /-- ANDN (R99). -/
  | andn (p : Pred) (o : AluOps)
  /-- SHL (R99). -/
  | shl (p : Pred) (o : AluOps)
  /-- SHR (R99). -/
  | shr (p : Pred) (o : AluOps)
  /-- SRA (R99). -/
  | sra (p : Pred) (o : AluOps)
  /-- ROT (R99). -/
  | rot (p : Pred) (o : AluOps)
  /-- CMP (R101). -/
  | cmp (p : Pred) (cond : BitVec 4) (d : BitVec 3) (a : GSrc) (b : GSrc) (imm : BitVec 26)
  /-- SEL (R101). -/
  | sel (p : Pred) (d : BitVec 5) (a : GSrc) (b : GSrc) (s : BitVec 3) (neg : Bool)
  /-- MIN (R99). -/
  | min (p : Pred) (o : AluOps)
  /-- MAX (R99). -/
  | max (p : Pred) (o : AluOps)
  /-- BITC_CLZ (R101). -/
  | bitcClz (p : Pred) (d : BitVec 5) (a : GSrc)
  /-- BITC_CTZ (R101). -/
  | bitcCtz (p : Pred) (d : BitVec 5) (a : GSrc)
  /-- BITC_POPC (R101). -/
  | bitcPopc (p : Pred) (d : BitVec 5) (a : GSrc)
  /-- EXT (R101). -/
  | ext (p : Pred) (sx : Bool) (d : BitVec 5) (a : GSrc) (pos : BitVec 6) (len : BitVec 7)
  /-- INS (R101). -/
  | ins (p : Pred) (d : BitVec 5) (a : GSrc) (pos : BitVec 6) (len : BitVec 7)
  /-- LI (R101). -/
  | li (p : Pred) (d : BitVec 5) (v : Word)
  /-- LEA (R101). -/
  | lea (p : Pred) (sc : BitVec 2) (d : BitVec 5) (a : GSrc) (b : GSrc) (imm : BitVec 26)
  /-- GTA_IDX (R102). -/
  | gtaIdx (p : Pred) (d : BitVec 5) (a : GSrc) (b : GSrc)
  /-- GTA_REL (R102). -/
  | gtaRel (p : Pred) (d : BitVec 5) (b : GSrc) (drow : BitVec 5) (dcol : BitVec 5)
  /-- PLOG (R101). -/
  | plog (p : Pred) (tt : BitVec 4) (d : BitVec 3) (a : BitVec 3) (b : BitVec 3)
  /-- MFS (R92). -/
  | mfs (p : Pred) (d : BitVec 5) (n : BitVec 12)
  /-- MTS (R92). -/
  | mts (p : Pred) (a : GSrc) (n : BitVec 12)
  /-- ADDC (R100). -/
  | addc (p : Pred) (wd : BitVec 3) (d : BitVec 5) (a : GSrc) (b : GSrc) (pc : BitVec 3)
  /-- BR (R103). -/
  | br (p : Pred) (imm : BitVec 26)
  /-- JMP (R103). -/
  | jmp (p : Pred) (a : GSrc) (imm : BitVec 26)
  /-- CALL (R103). -/
  | call (p : Pred) (d : BitVec 5) (imm : BitVec 26)
  /-- CALL_R (R103). -/
  | callR (p : Pred) (d : BitVec 5) (a : GSrc)
  /-- RET (R103). -/
  | ret (p : Pred) (a : GSrc)
  /-- LOOP (R103). -/
  | loop (p : Pred) (d : BitVec 5) (imm : BitVec 26)
  /-- HALT (R93). -/
  | halt (p : Pred)
  /-- YIELD (R103). -/
  | yield (p : Pred)
  /-- WAITC (R104). -/
  | waitc (p : Pred) (sub : Bool) (a : GSrc) (b : GSrc) (ct : BitVec 4) (pf : BitVec 3) (imm : BitVec 36)
  /-- OVL_LOC (R89). -/
  | ovlLoc (p : Pred) (a : GSrc) (b : GSrc) (ct : BitVec 4) (base : BitVec 36)
  /-- OVL_HBM (R89). -/
  | ovlHbm (p : Pred) (a : GSrc) (b : GSrc) (ct : BitVec 4) (base : BitVec 36)
  /-- LD (R105). -/
  | ld (p : Pred) (wd : BitVec 3) (d : BitVec 5) (a : GSrc) (imm : BitVec 26)
  /-- ST (R105). -/
  | st (p : Pred) (wd : BitVec 3) (a : GSrc) (b : GSrc) (imm : BitVec 26)
  /-- LDG (R106). -/
  | ldg (p : Pred) (d : MemDst) (a : GSrc) (imm : BitVec 36)
  /-- STG (R106). -/
  | stg (p : Pred) (a : GSrc) (b : MemSrc) (imm : BitVec 36)
  /-- ST4 (R107). -/
  | st4 (p : Pred) (a : GSrc) (b : GSrc) (imm : BitVec 26)
  /-- ST4_G (R107). -/
  | st4G (p : Pred) (a : GSrc) (b : GSrc) (imm : BitVec 26)
  /-- LDL (R111). -/
  | ldl (p : Pred) (wd : BitVec 3) (d : BitVec 5) (a : GSrc) (imm : BitVec 26)
  /-- STU (R111). -/
  | stu (p : Pred) (wd : BitVec 3) (a : GSrc) (b : GSrc) (imm : BitVec 26)
  /-- ADDD (R108). -/
  | addd (p : Pred) (a : GSrc) (b : AddSrc) (imm : BitVec 36)
  /-- LDW (R105). -/
  | ldw (p : Pred) (d : BitVec 4) (a : GSrc) (imm : BitVec 26)
  /-- STW (R105). -/
  | stw (p : Pred) (a : GSrc) (b : WSrc) (imm : BitVec 26)
  /-- FENCE (R112). -/
  | fence (p : Pred) (sc : BitVec 2)
  /-- LB_LOAD (R110). -/
  | lbLoad (p : Pred) (wd : BitVec 3) (d : BitVec 5) (a : GSrc) (imm : BitVec 26)
  /-- LB_STORE (R110). -/
  | lbStore (p : Pred) (wd : BitVec 3) (a : GSrc) (b : GSrc) (imm : BitVec 26)
  /-- MSG (R109). -/
  | msg (p : Pred) (ct : BitVec 4) (a : GSrc) (b : MemSrc) (imm : BitVec 36)
  /-- MSG_Z (R109). -/
  | msgZ (p : Pred) (ct : BitVec 4) (a : GSrc) (imm : BitVec 36)
  /-- WPT_SET (R113). -/
  | wptSet (p : Pred) (n : BitVec 2) (a : GSrc) (b : GSrc) (fl : BitVec 2)
  /-- WPT_CLR (R113). -/
  | wptClr (p : Pred) (n : BitVec 2)
  /-- WPT_RD (R113). -/
  | wptRd (p : Pred) (n : BitVec 2) (d : BitVec 5)
  /-- VADD (R119). -/
  | vadd (p : Pred) (sat : Bool) (o : VOps) (rm : BitVec 3) (c : Option WSrc)
  /-- VSUB (R119). -/
  | vsub (p : Pred) (sat : Bool) (o : VOps) (rm : BitVec 3) (c : Option WSrc)
  /-- VMUL (R119). -/
  | vmul (p : Pred) (sat : Bool) (o : VOps) (rm : BitVec 3) (c : Option WSrc)
  /-- VFMA (R119). -/
  | vfma (p : Pred) (k : BitVec 4) (rm : BitVec 3) (o : VOps) (c : VSrc)
  /-- VMIN (R119). -/
  | vmin (p : Pred) (o : VOps)
  /-- VMAX (R119). -/
  | vmax (p : Pred) (o : VOps)
  /-- VDIV (R119). -/
  | vdiv (p : Pred) (rm : BitVec 3) (o : VOps)
  /-- VSQRT (R119). -/
  | vsqrt (p : Pred) (rm : BitVec 3) (d : VReg) (a : VSrc)
  /-- VRSQ (R119). -/
  | vrsq (p : Pred) (rm : BitVec 3) (d : VReg) (a : VSrc)
  /-- VEXP2 (R119). -/
  | vexp2 (p : Pred) (rm : BitVec 3) (d : VReg) (a : VSrc)
  /-- VLOG2 (R119). -/
  | vlog2 (p : Pred) (rm : BitVec 3) (d : VReg) (a : VSrc)
  /-- VCMP (R121). -/
  | vcmp (p : Pred) (k : BitVec 4) (o : VOps)
  /-- VSEL (R121). -/
  | vsel (p : Pred) (o : VOps) (c : VSrc)
  /-- VCVT (R124). -/
  | vcvt (p : Pred) (ty : BitVec 4) (tgt : BitVec 4) (k : BitVec 3) (rm : BitVec 3) (d : VReg) (a : VSrc) (b : Option VSrc) (c : Option WSrc)
  /-- VCVT_XS (R124). -/
  | vcvtXs (p : Pred) (ty : BitVec 4) (tgt : BitVec 4) (k : BitVec 3) (rm : BitVec 3) (d : VReg) (a : VSrc) (c : Option WSrc)
  /-- VQNT (R125). -/
  | vqnt (p : Pred) (d : VReg) (a : WSrc)
  /-- VQNT_S (R125). -/
  | vqntS (p : Pred) (d : BitVec 5) (a : WSrc)
  /-- VDQ (R125). -/
  | vdq (p : Pred) (d : VReg) (a : VSrc) (b : GSrc) (k : BitVec 2)
  /-- VRED_SUM (R123). -/
  | vredSum (p : Pred) (ty : BitVec 4) (rm : BitVec 3) (d : BitVec 5) (a : VSrc)
  /-- VRED_MIN (R123). -/
  | vredMin (p : Pred) (ty : BitVec 4) (d : BitVec 5) (a : VSrc)
  /-- VRED_MAX (R123). -/
  | vredMax (p : Pred) (ty : BitVec 4) (d : BitVec 5) (a : VSrc)
  /-- VRED_AMAX (R123). -/
  | vredAmax (p : Pred) (ty : BitVec 4) (d : BitVec 5) (a : VSrc)
  /-- VPERM (R122). -/
  | vperm (p : Pred) (o : VOps)
  /-- VSHUF (R122). -/
  | vshuf (p : Pred) (pat : BitVec 4) (ty : BitVec 4) (d : VReg) (a : VSrc) (b : Option VSrc) (s : BitVec 7)
  /-- VBCAST (R122). -/
  | vbcast (p : Pred) (ty : BitVec 4) (d : VReg) (a : GSrc)
  /-- VBCAST_LANE (R122). -/
  | vbcastLane (p : Pred) (ty : BitVec 4) (d : VReg) (a : VSrc) (k : BitVec 7)
  /-- VLOGIC (R121). -/
  | vlogic (p : Pred) (tt : BitVec 4) (d : VReg) (a : VSrc) (b : VSrc)
  /-- VSHIFT (R121). -/
  | vshift (p : Pred) (k : BitVec 2) (ty : BitVec 4) (d : VReg) (a : VSrc) (b : ShiftB)
  /-- VMOVG_GET (R122). -/
  | vmovgGet (p : Pred) (ty : BitVec 4) (d : BitVec 5) (a : VSrc) (k : BitVec 7)
  /-- VMOVG_PUT (R122). -/
  | vmovgPut (p : Pred) (ty : BitVec 4) (d : BitVec 4) (a : GSrc) (k : BitVec 7)
  /-- VRNG (R126). -/
  | vrng (p : Pred) (nx : Bool) (d : VReg) (a : GSrc) (b : GSrc)
  /-- VLA (R127). -/
  | vla (p : Pred) (a : VSrc) (c : GSrc) (sub : BitVec 12)
  /-- VLA_P (R127). -/
  | vlaP (p : Pred) (a : VSrc) (b : VSrc) (c : GSrc) (sub : BitVec 12)
  /-- VLARD (R129). -/
  | vlard (p : Pred) (rm : BitVec 3) (d : VReg) (a : GSrc) (c : GSrc) (sub : BitVec 12)
  /-- MMA (R135). -/
  | mma (p : Pred) (ty : BitVec 4) (x : Bool) (n : BitVec 2)
  /-- MMAM (R136). -/
  | mmam (p : Pred) (ty : BitVec 4) (x : Bool) (n : BitVec 2) (m : MaskSrc)
  /-- SAA (R144). -/
  | saa (p : Pred) (ty : BitVec 4) (n : BitVec 2) (off : BitVec 5) (a : Scale) (b : GSrc) (c : GSrc)
  /-- ACC (R144). -/
  | acc (p : Pred) (ty : BitVec 4) (n : BitVec 2) (off : BitVec 5) (b : GSrc) (c : GSrc)
  /-- LARD (R146). -/
  | lard (p : Pred) (z : Bool) (rm : BitVec 3) (off : BitVec 5) (a : GSrc) (b : GSrc) (c : GSrc)
  /-- LAZERO (R145). -/
  | lazero (p : Pred) (off : BitVec 5) (c : GSrc)
  /-- DRAIN (R148). -/
  | drain (p : Pred) (z : Bool) (ct : BitVec 4) (a : GSrc) (b : GSrc) (imm : BitVec 36)
  /-- PTMOV_ST (R147). -/
  | ptmovSt (p : Pred) (ty : BitVec 4) (n : BitVec 2) (c : GSrc)
  /-- PTMOV_LD (R147). -/
  | ptmovLd (p : Pred) (ty : BitVec 4) (n : BitVec 2) (c : GSrc)
  /-- PTMOV_GET (R147). -/
  | ptmovGet (p : Pred) (ty : BitVec 4) (n : BitVec 2) (r : BitVec 5) (d : BitVec 4)
  /-- MREP_A (R132). -/
  | mrepA (p : Pred) (n : BitVec 8) (w : BitVec 2)
  /-- MREP_B (R132). -/
  | mrepB (p : Pred) (n : BitVec 8) (w : BitVec 2)
  /-- RCHK_RD (R140). -/
  | rchkRd (p : Pred) (d : BitVec 5)
  /-- RCHK_CLR (R140). -/
  | rchkClr (p : Pred) (d : BitVec 5)
  /-- RCHK_INJ (R140). -/
  | rchkInj (p : Pred) (u : BitVec 2)
  /-- MWAIT_ARR (R150). -/
  | mwaitArr (p : Pred)
  /-- MWAIT_ADD (R150). -/
  | mwaitAdd (p : Pred)
  /-- MWAIT_ALL (R150). -/
  | mwaitAll (p : Pred)
  /-- NRM_CUR (R155). -/
  | nrmCur (p : Pred) (a : GSrc) (b : GSrc)
  /-- NRM_ST (R155). -/
  | nrmSt (p : Pred) (a : GSrc) (b : GSrc) (c : GSrc)
  /-- NRM_LD (R155). -/
  | nrmLd (p : Pred) (a : GSrc) (b : GSrc) (c : GSrc)
  /-- ATB (R160). -/
  | atb (p : Pred) (ct : BitVec 4) (a : GSrc) (b : GSrc) (c : GSrc)
  /-- SMP (R162). -/
  | smp (p : Pred) (ty : BitVec 4) (x : Bool) (n : BitVec 2) (a : GSrc) (b : BitVec 5) (c : GSrc)
  /-- SMPL (R166). -/
  | smpl (p : Pred) (ty : BitVec 4) (x : Bool) (n : BitVec 2) (ct : BitVec 4) (a : GSrc) (b : BitVec 5) (c : GSrc)
  /-- SVAR_UP (R167). -/
  | svarUp (p : Pred) (n : BitVec 2) (r : BitVec 5)
  /-- SVAR_RD (R167). -/
  | svarRd (p : Pred) (d : BitVec 5)
  /-- SVAR_INV (R167). -/
  | svarInv (p : Pred) (d : BitVec 5)
  /-- SVAR_ST (R167). -/
  | svarSt (p : Pred) (c : GSrc)
  /-- SVAR_LD (R167). -/
  | svarLd (p : Pred) (c : GSrc)
  /-- SCLR_VAR (R168). -/
  | sclrVar (p : Pred)
  /-- SCLR_ERR (R168). -/
  | sclrErr (p : Pred)
  /-- SCLR_ALL (R168). -/
  | sclrAll (p : Pred)
  /-- SDRAW (R163). -/
  | sdraw (p : Pred) (nx : Bool) (d : BitVec 4) (a : GSrc) (b : BitVec 5) (c : GSrc)
  /-- SBIND_IN (R173). -/
  | sbindIn (p : Pred) (cnt : Bool) (ct : BitVec 4) (d : BitVec 3) (a : GSrc) (b : GSrc) (c : GSrc) (start : Word)
  /-- SBIND_OUT (R173). -/
  | sbindOut (p : Pred) (cnt : Bool) (ct : BitVec 4) (d : BitVec 3) (a : GSrc) (b : GSrc) (c : GSrc) (start : Word)
  /-- SBIND_FA (R173). -/
  | sbindFa (p : Pred) (sink : Bool) (cnt : Bool) (ct : BitVec 4) (a : GSrc) (b : GSrc) (c : GSrc) (start : Word)
  /-- SBIND_FB (R173). -/
  | sbindFb (p : Pred) (sink : Bool) (cnt : Bool) (ct : BitVec 4) (a : GSrc) (b : GSrc) (c : GSrc) (start : Word)
  /-- SUNBIND (R177). -/
  | sunbind (p : Pred) (d : BitVec 3)
  /-- SUNBIND_FA (R177). -/
  | sunbindFa (p : Pred)
  /-- SUNBIND_FB (R177). -/
  | sunbindFb (p : Pred)
  /-- SUNBIND_POS (R177). -/
  | sunbindPos (p : Pred) (d : BitVec 5) (a : BitVec 3)
  /-- SUNBIND_POSA (R177). -/
  | sunbindPosa (p : Pred) (d : BitVec 5)
  /-- SUNBIND_POSB (R177). -/
  | sunbindPosb (p : Pred) (d : BitVec 5)
  /-- CPY (R185). -/
  | cpy (p : Pred) (fn : BitVec 4) (fl : BitVec 4) (ct : BitVec 4) (a : GSrc) (b : GSrc) (c : GSrc) (crc : BitVec 32) (gate : BitVec 3)
  /-- CPYM (R185). -/
  | cpym (p : Pred) (fn : BitVec 4) (fl : BitVec 4) (ct : BitVec 4) (a : GSrc) (b : GSrc) (c : GSrc) (ty : BitVec 4) (x : Bool) (n : BitVec 2) (gate : BitVec 3)
  /-- SXW_SET (R188). -/
  | sxwSet (p : Pred) (k : BitVec 3) (a : GSrc)
  /-- SXW_CLR (R188). -/
  | sxwClr (p : Pred) (k : BitVec 3)
  /-- SXW_RD (R188). -/
  | sxwRd (p : Pred) (k : BitVec 3) (d : BitVec 5)
  /-- CNT_SET (R179). -/
  | cntSet (p : Pred) (n : BitVec 4) (m : BitVec 8) (a : GSrc)
  /-- CNT_ADD (R179). -/
  | cntAdd (p : Pred) (n : BitVec 4) (m : BitVec 8) (a : GSrc)
  /-- CNT_RD (R179). -/
  | cntRd (p : Pred) (n : BitVec 4) (d : BitVec 5)
  /-- SGT_SET (R190). -/
  | sgtSet (p : Pred) (e : BitVec 4) (desc : Word)
  /-- SGT_GO (R190). -/
  | sgtGo (p : Pred) (e : BitVec 4) (dst : BitVec 2) (ct : BitVec 4) (a : GSrc) (b : GSrc) (c : GSrc)
  /-- SGT_RD (R190). -/
  | sgtRd (p : Pred) (e : BitVec 4) (d : BitVec 5)
  /-- SGT_FLT (R190). -/
  | sgtFlt (p : Pred) (s : BitVec 3) (d : BitVec 5)
  /-- ENG_ST (R186). -/
  | engSt (p : Pred) (d : BitVec 5)
  /-- ENG_FLT (R186). -/
  | engFlt (p : Pred) (d : BitVec 5)
  /-- ENG_CRC (R186). -/
  | engCrc (p : Pred) (d : BitVec 5)
  /-- ENG_Q (R186). -/
  | engQ (p : Pred)
  /-- BAR (R283). -/
  | bar (p : Pred) (n : BitVec 2)
  /-- BARV (R283). -/
  | barv (p : Pred) (n : BitVec 2) (d : BitVec 5) (a : GSrc)
  /-- BARA (R283). -/
  | bara (p : Pred) (n : BitVec 2) (a : GSrc)
  /-- BARA_N (R283). -/
  | baraN (p : Pred) (n : BitVec 2)
  /-- WAITB (R284). -/
  | waitb (p : Pred) (n : BitVec 2) (d : BitVec 5)
  /-- VABORT (R285). -/
  | vabort (p : Pred) (u : BitVec 7)
  /-- BCFG (R286). -/
  | bcfg (p : Pred) (n : BitVec 2) (a : GSrc) (op : BitVec 4)
  /-- BRED (R287). -/
  | bred (p : Pred) (n : BitVec 2) (d : BitVec 5)
  /-- BRED_CFG (R287). -/
  | bredCfg (p : Pred) (n : BitVec 2) (d : BitVec 5)
  /-- BRED_ST (R287). -/
  | bredSt (p : Pred) (d : BitVec 5)
  /-- GLCHK (R287). -/
  | glchk (p : Pred) (d : BitVec 5)
  /-- COLL (R322). -/
  | coll (p : Pred) (s : BitVec 3) (a : GSrc)
  /-- WAITP (R323). -/
  | waitp (p : Pred) (k : BitVec 6) (j : BitVec 6) (pf : BitVec 3) (a : GSrc) (b : GSrc)
  /-- PCAN (R324). -/
  | pcan (p : Pred) (s : BitVec 3) (c : BitVec 6)
  /-- PRD_F32 (R325). -/
  | prdF32 (p : Pred) (s : BitVec 3) (k : BitVec 6) (d : BitVec 4) (a : GSrc)
  /-- PRD_LA (R325). -/
  | prdLa (p : Pred) (s : BitVec 3) (k : BitVec 6) (a : GSrc) (c : GSrc)
  /-- CSTAT (R326). -/
  | cstat (p : Pred) (s : BitVec 3) (d : BitVec 5)
  /-- CSTAT_PC (R326). -/
  | cstatPc (p : Pred) (d : BitVec 5) (a : GSrc)
  /-- START (R114). -/
  | start (p : Pred) (n : BitVec 6) (a : GSrc) (imm : BitVec 26)
  /-- HSTOP (R115). -/
  | hstop (p : Pred) (n : BitVec 6)
  /-- HSTOP_ALL (R115). -/
  | hstopAll (p : Pred)
  /-- ENQ (R241). -/
  | enq (p : Pred) (q : BitVec 4) (d : BitVec 5) (a : GSrc)
  /-- CCNT (R242). -/
  | ccnt (p : Pred) (lv : BitVec 2) (d : BitVec 5) (a : GSrc) (b : GSrc)
  /-- CCNT_Q (R240). -/
  | ccntQ (p : Pred) (q : BitVec 4) (d : BitVec 5)
  /-- CANCEL (R242). -/
  | cancel (p : Pred) (lv : BitVec 2) (d : BitVec 5) (a : GSrc) (b : GSrc)
  /-- VTID_SHAPE (R262). -/
  | vtidShape (p : Pred) (d : BitVec 5)
  /-- VTID_ORD (R262). -/
  | vtidOrd (p : Pred) (d : BitVec 5) (a : GSrc)
  /-- VTID_IDX (R262). -/
  | vtidIdx (p : Pred) (d : BitVec 5) (a : GSrc)
  /-- VTID_HOST (R262). -/
  | vtidHost (p : Pred) (d : BitVec 5) (a : GSrc)
  /-- OFFER (R263). -/
  | offer (p : Pred) (a : GSrc)
  /-- OFFER_RD (R263). -/
  | offerRd (p : Pred) (d : BitVec 5)
  /-- IMP (R298). -/
  | imp (p : Pred) (a : GSrc)
  /-- OFFL (R302). -/
  | offl (p : Pred) (ct : BitVec 4) (d : BitVec 5) (a : GSrc) (imm : BitVec 36)
  /-- RETN (R302). -/
  | retn (p : Pred) (ct : BitVec 4) (d : BitVec 5) (a : GSrc) (imm : BitVec 36)
  /-- PSTAT (R304). -/
  | pstat (p : Pred) (d : BitVec 5) (a : GSrc)
  /-- PSTAT_DEV (R304). -/
  | pstatDev (p : Pred) (d : BitVec 5)
  /-- PIN (R303). -/
  | pin (p : Pred) (d : BitVec 5) (a : GSrc)
  /-- PIN_CLR (R303). -/
  | pinClr (p : Pred) (d : BitVec 5) (a : GSrc)
  /-- PIN_UNS (R303). -/
  | pinUns (p : Pred) (d : BitVec 5) (a : GSrc)
  /-- CKPT_GO (R305). -/
  | ckptGo (p : Pred) (ct : BitVec 4) (d : BitVec 5)
  /-- CKPT_RD (R305). -/
  | ckptRd (p : Pred) (d : BitVec 5)
  /-- LNKRD (R344). -/
  | lnkrd (p : Pred) (r : BitVec 3) (d : BitVec 5) (a : GSrc)
  /-- LNKSET (R344). -/
  | lnkset (p : Pred) (d : BitVec 5) (a : GSrc) (b : GSrc)
  /-- LNKSET_UP (R344). -/
  | lnksetUp (p : Pred) (d : BitVec 5) (a : GSrc)
  /-- LNKSET_DOWN (R344). -/
  | lnksetDown (p : Pred) (d : BitVec 5) (a : GSrc)
  /-- LNKRET (R344). -/
  | lnkret (p : Pred) (n : BitVec 7) (d : BitVec 5) (a : GSrc)
  /-- TRAP (R225). -/
  | trap (p : Pred) (n : BitVec 24)
  /-- TRET (R225). -/
  | tret (p : Pred)
  /-- SYS (R226). -/
  | sys (p : Pred) (s : BitVec 16) (d : BitVec 5) (a : GSrc)
  /-- CTXS_RD (R224). -/
  | ctxsRd (p : Pred) (w : Bool) (d : BitVec 5) (a : GSrc)
  /-- CTXS_NEW (R218). -/
  | ctxsNew (p : Pred) (d : BitVec 5) (a : GSrc) (b : GSrc)
  /-- CTXS_SEG (R220). -/
  | ctxsSeg (p : Pred) (a : GSrc) (b : GSrc)
  /-- CTXS_GO (R218). -/
  | ctxsGo (p : Pred) (d : BitVec 5) (a : GSrc)
  /-- CTXS_SAVE (R218). -/
  | ctxsSave (p : Pred) (d : BitVec 5) (a : GSrc)
  /-- CTXS_REST (R218). -/
  | ctxsRest (p : Pred) (d : BitVec 5) (a : GSrc)
  /-- KILL (R227). -/
  | kill (p : Pred) (c : BitVec 8)
  /-- KILL_CTX (R227). -/
  | killCtx (p : Pred) (a : GSrc) (c : BitVec 8)
  /-- IDLE_RD (R243). -/
  | idleRd (p : Pred) (d : BitVec 5) (a : GSrc)
  /-- IDLE_SET (R243). -/
  | idleSet (p : Pred) (a : GSrc)
  /-- TST_REQ (R363). -/
  | tstReq (p : Pred) (d : BitVec 5) (a : GSrc)
  /-- TST_RD (R363). -/
  | tstRd (p : Pred) (u : BitVec 4) (d : BitVec 5) (a : GSrc)
  /-- ECNT_K (R363). -/
  | ecntK (p : Pred) (w : BitVec 2) (d : BitVec 5) (a : GSrc)
  /-- ECNT_RES (R363). -/
  | ecntRes (p : Pred) (d : BitVec 5) (a : GSrc)
  /-- ECNT_THM (R363). -/
  | ecntThm (p : Pred) (d : BitVec 5) (a : GSrc)
  /-- ECNT_TS (R363). -/
  | ecntTs (p : Pred) (s : BitVec 4) (d : BitVec 5) (a : GSrc)
  /-- ECNT_SET (R363). -/
  | ecntSet (p : Pred) (r : Bool) (a : GSrc) (b : GSrc)
  /-- DBG_RD (R228). -/
  | dbgRd (p : Pred) (d : BitVec 5)
  /-- DBG_MARK (R228). -/
  | dbgMark (p : Pred) (a : GSrc) (v : BitVec 36)
  /-- DBG_BRK (R228). -/
  | dbgBrk (p : Pred) (v : BitVec 36)
  /-- DEFERRED_TRAP (R349). -/
  | deferredTrap
  /-- RESULT_DELIVERY (R95). -/
  | resultDelivery
  /-- REMOTE_LOAD_ARRIVAL (R85). -/
  | remoteLoadArrival
  /-- REMOTE_LOAD_RETURN (R106). -/
  | remoteLoadReturn
  /-- DELTA_ARRIVAL (R196). -/
  | deltaArrival
  /-- FORESHORE_WRITE_ARRIVAL (R201). -/
  | foreshoreWriteArrival
  /-- MSG_ARRIVAL (R109). -/
  | msgArrival
  /-- ACK_ARRIVAL (R196). -/
  | ackArrival
  /-- LOCK_GRANT (R111). -/
  | lockGrant
  /-- OVL_DONE (R89). -/
  | ovlDone
  /-- IDLE_WATCHDOG_EXPIRY (R87). -/
  | idleWatchdogExpiry
  /-- WAITC_TIMEOUT (R104). -/
  | waitcTimeout
  /-- WAITP_TIMEOUT (R323). -/
  | waitpTimeout
  /-- FIFO_UNIT_COMPLETE (R131). -/
  | fifoUnitComplete
  /-- ARRAY_OP_START (R133). -/
  | arrayOpStart
  /-- PARTIAL_TILE_WRITTEN (R134). -/
  | partialTileWritten
  /-- ADDER_CMD_START (R142). -/
  | adderCmdStart
  /-- ADDER_CMD_PERFORMED (R143). -/
  | adderCmdPerformed
  /-- DRAIN_START (R148). -/
  | drainStart
  /-- DRAIN_SOURCE_READ_DONE (R148). -/
  | drainSourceReadDone
  /-- ATB_BUILD_START (R160). -/
  | atbBuildStart
  /-- ATB_DONE (R160). -/
  | atbDone
  /-- SMP_AT_HEAD (R162). -/
  | smpAtHead
  /-- SMPL_BATCH_DECISION (R166). -/
  | smplBatchDecision
  /-- SMPL_DONE (R166). -/
  | smplDone
  /-- STREAM_PIECE_FETCHED (R175). -/
  | streamPieceFetched
  /-- STREAM_OUT_PIECE_PERFORMED (R174). -/
  | streamOutPiecePerformed
  /-- COPY_CMD_START (R180). -/
  | copyCmdStart
  /-- COPY_CMD_PERFORMED (R182). -/
  | copyCmdPerformed
  /-- COPY_ACCESS_REFUSED (R183). -/
  | copyAccessRefused
  /-- CPYM_FOLLOWON (R185). -/
  | cpymFollowon
  /-- GATHER_REFUSED (R189). -/
  | gatherRefused
  /-- SLUICE_TERM_FIRE (R187). -/
  | sluiceTermFire
  /-- ARRIVE_SEND (R270). -/
  | arriveSend
  /-- BARRIER_NODE_ARRIVE (R265). -/
  | barrierNodeArrive
  /-- ARRIVE_AT_DECISION (R273). -/
  | arriveAtDecision
  /-- ABORT_AT_DECISION (R273). -/
  | abortAtDecision
  /-- BARRIER_TIMEOUT (R276). -/
  | barrierTimeout
  /-- DECISION_RELEASE (R273). -/
  | decisionRelease
  /-- PARK_ASSERT (R272). -/
  | parkAssert
  /-- PARK_WITHDRAW (R272). -/
  | parkWithdraw
  /-- BCFG_CONTROL_ARRIVAL (R286). -/
  | bcfgControlArrival
  /-- GLCHK_REPLY (R287). -/
  | glchkReply
  /-- RELEASE_COMMIT_AT_TILE (R278). -/
  | releaseCommitAtTile
  /-- RELEASE_ABORT_AT_TILE (R278). -/
  | releaseAbortAtTile
  /-- GROUP_START (R255). -/
  | groupStart
  /-- CLUSTER_START_GATE_OPEN (R256). -/
  | clusterStartGateOpen
  /-- GIVE_UP_REQUEST (R255). -/
  | giveUpRequest
  /-- MOVE_REQUEST (R260). -/
  | moveRequest
  /-- RESHAPE_DONE (R261). -/
  | reshapeDone
  /-- FOLD_TURN_CHANGE (R258). -/
  | foldTurnChange
  /-- LAUNCH_MESSAGE_OFFER (R230). -/
  | launchMessageOffer
  /-- POOL_INTAKE (R231). -/
  | poolIntake
  /-- ADMISSION_STEP (R236). -/
  | admissionStep
  /-- NODE_COMPLETION (R234). -/
  | nodeCompletion
  /-- CANCEL_AT_DISPATCHER (R235). -/
  | cancelAtDispatcher
  /-- DISPATCHER_REPLY (R240). -/
  | dispatcherReply
  /-- CLUSTER_WAKE (R78). -/
  | clusterWake
  /-- CLUSTER_USABLE (R78). -/
  | clusterUsable
  /-- CLUSTER_RETAIN (R238). -/
  | clusterRetain
  /-- CLUSTER_GATE (R238). -/
  | clusterGate
  /-- TEST_START (R238). -/
  | testStart
  /-- TEST_DONE (R362). -/
  | testDone
  /-- COLD_RESET (R216). -/
  | coldReset
  /-- MONITOR_IMAGE_RECEIVE (R216). -/
  | monitorImageReceive
  /-- MONITOR_REQUEST (R212). -/
  | monitorRequest
  /-- ATTESTATION_REQUEST (R217). -/
  | attestationRequest
  /-- KERNEL_LOAD_REQUEST (R246). -/
  | kernelLoadRequest
  /-- KERNEL_RESET_REQUEST (R248). -/
  | kernelResetRequest
  /-- KERNEL_RETIRE_REQUEST (R248). -/
  | kernelRetireRequest
  /-- SYS_REPLY (R226). -/
  | sysReply
  /-- SAVE_COMPLETE (R218). -/
  | saveComplete
  /-- SWEEP_TOKEN_AT_TILE (R222). -/
  | sweepTokenAtTile
  /-- SWEEP_SWT_EXPIRY (R222). -/
  | sweepSwtExpiry
  /-- SWEEP_CLEAN_RESULT (R222). -/
  | sweepCleanResult
  /-- PURGE_CONFIRMED (R218). -/
  | purgeConfirmed
  /-- PAGE_ACCESS (R293). -/
  | pageAccess
  /-- OFFL_COPY_DONE (R293). -/
  | offlCopyDone
  /-- RETN_COPY_DONE (R293). -/
  | retnCopyDone
  /-- WRITEBACK_DRAIN (R195). -/
  | writebackDrain
  /-- PAGE_TABLE_WRITE (R290). -/
  | pageTableWrite
  /-- FAULT_REFUSE (R294). -/
  | faultRefuse
  /-- CHECKPOINT_DONE (R299). -/
  | checkpointDone
  /-- COLL_ALL_LAUNCHED (R310). -/
  | collAllLaunched
  /-- COLL_SOURCE_READ (R311). -/
  | collSourceRead
  /-- ADDER_DIGIT_EMIT (R314). -/
  | adderDigitEmit
  /-- PLANE_LANDED (R315). -/
  | planeLanded
  /-- COLL_DEADLINE_EXPIRY (R317). -/
  | collDeadlineExpiry
  /-- CONTRIBUTION_ACCEPTED (R310). -/
  | contributionAccepted
  /-- COLL_CONSUMER_DONE (R310). -/
  | collConsumerDone
  /-- FLIT_RECEIVE (R332). -/
  | flitReceive
  /-- REPLAY_TIMEOUT (R332). -/
  | replayTimeout
  /-- LINK_TRAINING_DONE (R336). -/
  | linkTrainingDone
  /-- LINK_RETRAIN_DONE (R336). -/
  | linkRetrainDone
  /-- AUTO_STEP_DOWN (R339). -/
  | autoStepDown
  /-- AUTO_STEP_UP (R339). -/
  | autoStepUp
  /-- RESERVOIR_TICK (R359). -/
  | reservoirTick
  /-- BACKGROUND_SCRUB_READ (R354). -/
  | backgroundScrubRead
  /-- TRAP_RECORD_ARRIVAL (R352). -/
  | trapRecordArrival
  /-- ROW_COLLECTOR_FORWARD (R352). -/
  | rowCollectorForward
  /-- TRAP_UNIT_DELIVER (R352). -/
  | trapUnitDeliver
  /-- FETCH_FAULT (R55). -/
  | fetchFault
  /-- SOFT_ERROR (R354). -/
  | softError
  /-- FREE_LIST_FILL (R292). -/
  | freeListFill
  /-- TABLE_BASE_WRITE (R288). -/
  | tableBaseWrite
  /-- CHIP_NUMBER_ASSIGN (R20). -/
  | chipNumberAssign
  /-- RUNTIME_IMAGE_LOAD (R216). -/
  | runtimeImageLoad
  /-- COLL_NODE_INPUT (R313). -/
  | collNodeInput
  /-- ROUTE_TABLE_CHANGE (R329). -/
  | routeTableChange
  deriving DecidableEq, Repr

end Sys2Proof
end

