-- ==== Sys2Proof/WellFormed.lean ====
section
/-! DEFINITION. Which instructions the field rules R58 to R62 of 03_encoding let pass: check 6 of R55, whatever the
predicate says. A rule of a chapter that is no rule about a field (an index out of range, an odd counter register) is
the instruction's own trap, check 10 of R55, and stands in its meaning. The steps of the other agents are no
instructions and have no encoding. -/

namespace Sys2Proof

/-- Type codes 0 to 7 are the integer types (Table 3.3). -/
def isIntTy (ty : BitVec 4) : Bool := decide (ty.toNat < 8)

/-- Width in bits of a lane of a type code (Tables 3.3, 6.1). -/
def laneBits (ty : BitVec 4) : Nat :=
  match ty.toNat with
  | 0 => 64 | 1 => 32 | 2 => 16 | 3 => 8 | 4 => 64 | 5 => 32 | 6 => 16 | 7 => 8
  | 8 => 32 | 9 => 16 | 10 => 8 | 11 => 8 | 12 => 4 | 13 => 512 | _ => 0

/-- RM is a code of Table 2.2 on a floating-point type and reserved on an integer type (R60, R117, R120). -/
def roundWf (ty : BitVec 4) (rm : BitVec 3) : Bool := if isIntTy ty then rm == 0 else decide (rm.toNat ≤ 4)

/-- `vcvt` keeps lanes of its destination when its target lanes are the narrower, or the target is `.mxf4`; such a
destination is a w register (R118). RM is reserved between integer types, which do not round (R60, R124). -/
def cvtWf (ty tgt : BitVec 4) (rm : BitVec 3) (d : VReg) : Bool :=
  decide (ty.toNat ≤ 12) && (if isIntTy ty && isIntTy tgt then rm == 0 else decide (rm.toNat ≤ 4)) &&
  (match d with | .w _ => true | .q _ => !(decide (laneBits tgt < laneBits ty) || tgt == 12))

/-- The field rules of R58 to R62, per instruction. False of a hardware step: it has no encoding. -/
def wellFormed (i : Instr) : Bool :=
  match i with
  | .nop _ => true
  | .add _ _ => true
  | .sub _ _ => true
  | .mul _ _ => true
  | .mulh _ _ => true
  | .div _ _ => true
  | .rem _ _ => true
  | .and _ _ => true
  | .or _ _ => true
  | .xor _ _ => true
  | .andn _ _ => true
  | .shl _ _ => true
  | .shr _ _ => true
  | .sra _ _ => true
  | .rot _ _ => true
  | .cmp _ cond _ _ _ _ => cond.toNat < 10
  | .sel _ _ _ _ _ _ => true
  | .min _ _ => true
  | .max _ _ => true
  | .bitcClz _ _ _ => true
  | .bitcCtz _ _ _ => true
  | .bitcPopc _ _ _ => true
  | .ext _ _ _ _ _ _ => true
  | .ins _ _ _ _ _ => true
  | .li _ _ _ => true
  | .lea _ _ _ _ _ _ => true
  | .gtaIdx _ _ _ _ => true
  | .gtaRel _ _ _ _ _ => true
  | .plog _ _ _ _ _ => true
  | .mfs _ _ _ => true
  | .mts _ _ _ => true
  | .addc _ _ _ _ _ _ => true
  | .br _ _ => true
  | .jmp _ _ _ => true
  | .call _ _ _ => true
  | .callR _ _ _ => true
  | .ret _ _ => true
  | .loop _ _ _ => true
  | .halt _ => true
  | .yield _ => true
  | .waitc _ _ _ _ _ _ _ => true
  | .ovlLoc _ _ _ _ _ => true
  | .ovlHbm _ _ _ _ _ => true
  | .ld _ _ _ _ _ => true
  | .st _ _ _ _ _ => true
  | .ldg _ _ _ _ => true
  | .stg _ _ _ _ => true
  | .st4 _ _ _ _ => true
  | .st4G _ _ _ _ => true
  | .ldl _ _ _ _ _ => true
  | .stu _ _ _ _ _ => true
  | .addd _ _ b _ => (match b with | .g ty _ => ty == 0 || ty == 1 || ty == 4 || ty == 5 | .la _ => true)
  | .ldw _ _ _ _ => true
  | .stw _ _ _ _ => true
  | .fence _ _ => true
  | .lbLoad _ _ _ _ _ => true
  | .lbStore _ _ _ _ _ => true
  | .msg _ _ _ _ _ => true
  | .msgZ _ _ _ _ => true
  | .wptSet _ _ _ _ _ => true
  | .wptClr _ _ => true
  | .wptRd _ _ _ => true
  | .vadd _ sat o rm c => (o.ty == 8 || o.ty == 9 || o.ty == 1 || o.ty == 2 || o.ty == 3 || o.ty == 5 || o.ty == 6 || o.ty == 7) && roundWf o.ty rm && (!sat || isIntTy o.ty) && (c.isSome == (rm == 4 && o.ty == 8))
  | .vsub _ sat o rm c => (o.ty == 8 || o.ty == 9 || o.ty == 1 || o.ty == 2 || o.ty == 3 || o.ty == 5 || o.ty == 6 || o.ty == 7) && roundWf o.ty rm && (!sat || isIntTy o.ty) && (c.isSome == (rm == 4 && o.ty == 8))
  | .vmul _ sat o rm c => (o.ty == 8 || o.ty == 9 || o.ty == 1 || o.ty == 2 || o.ty == 3 || o.ty == 5 || o.ty == 6 || o.ty == 7) && roundWf o.ty rm && (!sat || isIntTy o.ty) && (c.isSome == (rm == 4 && o.ty == 8))
  | .vfma _ k rm o _ => (o.ty == 8 || o.ty == 9) && rm.toNat ≤ 4 && k.toNat < 3
  | .vmin _ o => o.ty.toNat ≤ 9
  | .vmax _ o => o.ty.toNat ≤ 9
  | .vdiv _ rm o => o.ty == 8 && rm.toNat ≤ 4
  | .vsqrt _ rm _ _ => rm.toNat ≤ 4
  | .vrsq _ rm _ _ => rm.toNat ≤ 4
  | .vexp2 _ rm _ _ => rm.toNat ≤ 4
  | .vlog2 _ rm _ _ => rm.toNat ≤ 4
  | .vcmp _ k o => o.ty.toNat ≤ 9 && k.toNat < 7
  | .vsel _ o _ => o.ty.toNat ≤ 11
  | .vcvt _ ty tgt _ rm d _ b c => cvtWf ty tgt rm d && (b.isSome == (ty == 12)) && (c.isSome == (rm == 4 && ty == 8))
  | .vcvtXs _ ty tgt _ rm d _ c => cvtWf ty tgt rm d && (c.isSome == (rm == 4 && ty == 8))
  | .vqnt _ _ _ => true
  | .vqntS _ _ _ => true
  | .vdq _ _ _ _ _ => true
  | .vredSum _ ty rm _ _ => ty.toNat ≤ 9 && roundWf ty rm
  | .vredMin _ ty _ _ => ty.toNat ≤ 9
  | .vredMax _ ty _ _ => ty.toNat ≤ 9
  | .vredAmax _ ty _ _ => ty.toNat ≤ 9
  | .vperm _ o => o.ty.toNat ≤ 11
  | .vshuf _ pat ty _ _ b s => ty.toNat ≤ 11 && pat.toNat < 6 && (b.isSome == decide (pat.toNat < 4)) && (pat == 5 || s == 0)
  | .vbcast _ ty _ _ => ty.toNat ≤ 11
  | .vbcastLane _ ty _ _ _ => ty.toNat ≤ 11
  | .vlogic _ _ _ _ _ => true
  | .vshift _ _ ty _ _ _ => ty.toNat ≤ 7
  | .vmovgGet _ ty _ _ _ => ty.toNat ≤ 11
  | .vmovgPut _ ty _ _ _ => ty.toNat ≤ 11
  | .vrng _ _ _ _ _ => true
  | .vla _ _ _ _ => true
  | .vlaP _ _ _ _ _ => true
  | .vlard _ rm _ _ _ _ => rm.toNat ≤ 4
  | .mma _ ty x _ => (ty == 10 || ty == 11 || ((ty == 9 || ty == 12 || ty == 7) && !x))
  | .mmam _ ty x _ m => (ty == 10 || ty == 11 || ((ty == 9 || ty == 12 || ty == 7) && !x)) && (match m with | .imm _ => true | .reg c => c.r != 0)
  | .saa _ ty _ _ _ _ _ => ty == 8 || ty == 5
  | .acc _ ty _ _ _ _ => ty == 8 || ty == 5
  | .lard _ _ rm _ _ _ _ => rm.toNat ≤ 4
  | .lazero _ _ _ => true
  | .drain _ _ _ _ _ _ => true
  | .ptmovSt _ ty _ _ => ty == 8 || ty == 5
  | .ptmovLd _ ty _ _ => ty == 8 || ty == 5
  | .ptmovGet _ ty _ _ _ => ty == 8 || ty == 5
  | .mrepA _ _ _ => true
  | .mrepB _ _ _ => true
  | .rchkRd _ _ => true
  | .rchkClr _ _ => true
  | .rchkInj _ _ => true
  | .mwaitArr _ => true
  | .mwaitAdd _ => true
  | .mwaitAll _ => true
  | .nrmCur _ _ _ => true
  | .nrmSt _ _ _ _ => true
  | .nrmLd _ _ _ _ => true
  | .atb _ _ _ _ _ => true
  | .smp _ ty _ _ _ _ _ => ty == 10 || ty == 11
  | .smpl _ ty _ _ _ _ _ _ => ty == 10 || ty == 11
  | .svarUp _ _ _ => true
  | .svarRd _ _ => true
  | .svarInv _ _ => true
  | .svarSt _ _ => true
  | .svarLd _ _ => true
  | .sclrVar _ => true
  | .sclrErr _ => true
  | .sclrAll _ => true
  | .sdraw _ _ _ _ _ _ => true
  | .sbindIn _ cnt ct _ _ _ _ _ => cnt || ct == 0
  | .sbindOut _ cnt ct _ _ _ _ _ => cnt || ct == 0
  | .sbindFa _ _ cnt ct _ _ _ _ => cnt || ct == 0
  | .sbindFb _ _ cnt ct _ _ _ _ => cnt || ct == 0
  | .sunbind _ _ => true
  | .sunbindFa _ => true
  | .sunbindFb _ => true
  | .sunbindPos _ _ _ => true
  | .sunbindPosa _ _ => true
  | .sunbindPosb _ _ => true
  | .cpy _ _ _ _ _ _ _ _ _ => true
  | .cpym _ fn fl _ _ _ _ _ _ _ _ => fn.extractLsb' 2 2 == 3 && !fl.getLsbD 2
  | .sxwSet _ _ _ => true
  | .sxwClr _ _ => true
  | .sxwRd _ _ _ => true
  | .cntSet _ _ _ _ => true
  | .cntAdd _ _ _ _ => true
  | .cntRd _ _ _ => true
  | .sgtSet _ _ _ => true
  | .sgtGo _ _ _ _ _ _ _ => true
  | .sgtRd _ _ _ => true
  | .sgtFlt _ _ _ => true
  | .engSt _ _ => true
  | .engFlt _ _ => true
  | .engCrc _ _ => true
  | .engQ _ => true
  | .bar _ _ => true
  | .barv _ _ _ _ => true
  | .bara _ _ _ => true
  | .baraN _ _ => true
  | .waitb _ _ _ => true
  | .vabort _ _ => true
  | .bcfg _ _ _ _ => true
  | .bred _ _ _ => true
  | .bredCfg _ _ _ => true
  | .bredSt _ _ => true
  | .glchk _ _ => true
  | .coll _ _ _ => true
  | .waitp _ _ _ _ _ _ => true
  | .pcan _ _ _ => true
  | .prdF32 _ _ _ _ _ => true
  | .prdLa _ _ _ _ c => !c.e
  | .cstat _ _ _ => true
  | .cstatPc _ _ _ => true
  | .start _ _ _ _ => true
  | .hstop _ _ => true
  | .hstopAll _ => true
  | .enq _ _ _ _ => true
  | .ccnt _ _ _ _ _ => true
  | .ccntQ _ _ _ => true
  | .cancel _ _ _ _ _ => true
  | .vtidShape _ _ => true
  | .vtidOrd _ _ _ => true
  | .vtidIdx _ _ _ => true
  | .vtidHost _ _ _ => true
  | .offer _ _ => true
  | .offerRd _ _ => true
  | .imp _ _ => true
  | .offl _ _ _ _ _ => true
  | .retn _ _ _ _ _ => true
  | .pstat _ _ _ => true
  | .pstatDev _ _ => true
  | .pin _ _ _ => true
  | .pinClr _ _ _ => true
  | .pinUns _ _ _ => true
  | .ckptGo _ _ _ => true
  | .ckptRd _ _ => true
  | .lnkrd _ r _ _ => r.toNat < 6
  | .lnkset _ _ _ _ => true
  | .lnksetUp _ _ _ => true
  | .lnksetDown _ _ _ => true
  | .lnkret _ n _ _ => n.toNat < 68
  | .trap _ _ => true
  | .tret _ => true
  | .sys _ _ _ _ => true
  | .ctxsRd _ _ _ _ => true
  | .ctxsNew _ _ _ _ => true
  | .ctxsSeg _ _ _ => true
  | .ctxsGo _ _ _ => true
  | .ctxsSave _ _ _ => true
  | .ctxsRest _ _ _ => true
  | .kill _ _ => true
  | .killCtx _ _ _ => true
  | .idleRd _ _ _ => true
  | .idleSet _ _ => true
  | .tstReq _ _ _ => true
  | .tstRd _ _ _ _ => true
  | .ecntK _ _ _ _ => true
  | .ecntRes _ _ _ => true
  | .ecntThm _ _ _ => true
  | .ecntTs _ _ _ _ => true
  | .ecntSet _ _ _ b => !b.e
  | .dbgRd _ _ => true
  | .dbgMark _ _ _ => true
  | .dbgBrk _ _ => true
  | .deferredTrap => false
  | .resultDelivery => false
  | .remoteLoadArrival => false
  | .remoteLoadReturn => false
  | .deltaArrival => false
  | .foreshoreWriteArrival => false
  | .msgArrival => false
  | .ackArrival => false
  | .lockGrant => false
  | .ovlDone => false
  | .idleWatchdogExpiry => false
  | .waitcTimeout => false
  | .waitpTimeout => false
  | .fifoUnitComplete => false
  | .arrayOpStart => false
  | .partialTileWritten => false
  | .adderCmdStart => false
  | .adderCmdPerformed => false
  | .drainStart => false
  | .drainSourceReadDone => false
  | .atbBuildStart => false
  | .atbDone => false
  | .smpAtHead => false
  | .smplBatchDecision => false
  | .smplDone => false
  | .streamPieceFetched => false
  | .streamOutPiecePerformed => false
  | .copyCmdStart => false
  | .copyCmdPerformed => false
  | .copyAccessRefused => false
  | .cpymFollowon => false
  | .gatherRefused => false
  | .sluiceTermFire => false
  | .arriveSend => false
  | .barrierNodeArrive => false
  | .arriveAtDecision => false
  | .abortAtDecision => false
  | .barrierTimeout => false
  | .decisionRelease => false
  | .parkAssert => false
  | .parkWithdraw => false
  | .bcfgControlArrival => false
  | .glchkReply => false
  | .releaseCommitAtTile => false
  | .releaseAbortAtTile => false
  | .groupStart => false
  | .clusterStartGateOpen => false
  | .giveUpRequest => false
  | .moveRequest => false
  | .reshapeDone => false
  | .foldTurnChange => false
  | .launchMessageOffer => false
  | .poolIntake => false
  | .admissionStep => false
  | .nodeCompletion => false
  | .cancelAtDispatcher => false
  | .dispatcherReply => false
  | .clusterWake => false
  | .clusterUsable => false
  | .clusterRetain => false
  | .clusterGate => false
  | .testStart => false
  | .testDone => false
  | .coldReset => false
  | .monitorImageReceive => false
  | .monitorRequest => false
  | .attestationRequest => false
  | .kernelLoadRequest => false
  | .kernelResetRequest => false
  | .kernelRetireRequest => false
  | .sysReply => false
  | .saveComplete => false
  | .sweepTokenAtTile => false
  | .sweepSwtExpiry => false
  | .sweepCleanResult => false
  | .purgeConfirmed => false
  | .pageAccess => false
  | .offlCopyDone => false
  | .retnCopyDone => false
  | .writebackDrain => false
  | .pageTableWrite => false
  | .faultRefuse => false
  | .checkpointDone => false
  | .collAllLaunched => false
  | .collSourceRead => false
  | .adderDigitEmit => false
  | .planeLanded => false
  | .collDeadlineExpiry => false
  | .contributionAccepted => false
  | .collConsumerDone => false
  | .flitReceive => false
  | .replayTimeout => false
  | .linkTrainingDone => false
  | .linkRetrainDone => false
  | .autoStepDown => false
  | .autoStepUp => false
  | .reservoirTick => false
  | .backgroundScrubRead => false
  | .trapRecordArrival => false
  | .rowCollectorForward => false
  | .trapUnitDeliver => false
  | .fetchFault => false
  | .softError => false
  | .freeListFill => false
  | .tableBaseWrite => false
  | .chipNumberAssign => false
  | .runtimeImageLoad => false
  | .collNodeInput => false
  | .routeTableChange => false

end Sys2Proof
end

