-- ==== Sys2Proof/Machine/Num.lean ====
section
/-! DEFINITION. Number formats and arithmetic (02_numbers R27 to R52): exact values, rounding, the exact-then-round
rule, conversions, block formats, long accumulators. Everything is exact integer arithmetic. -/

namespace Sys2Proof.Machine

open Sys2Proof

/-- FP32 (Table 2.1). -/
def fp32 : Fmt := { p := 24, emin := -149, maxBits := 0x7F7FFFFF, sat := false, infBits := 0x7F800000, nanBits := 0x7FC00000, width := 32 }
/-- BF16 (Table 2.1). -/
def bf16 : Fmt := { p := 8, emin := -133, maxBits := 0x7F7F, sat := false, infBits := 0x7F80, nanBits := 0x7FC0, width := 16 }
/-- E4M3 (Table 2.1, R43). -/
def e4m3 : Fmt := { p := 4, emin := -9, maxBits := 0x7E, sat := true, infBits := 0x7E, nanBits := 0x7F, width := 8 }
/-- E5M2 (Table 2.1, R43). -/
def e5m2 : Fmt := { p := 3, emin := -16, maxBits := 0x7B, sat := true, infBits := 0x7C, nanBits := 0x7E, width := 8 }
/-- E2M1 (Table 2.1, R44); it has no NaN and no infinity, and its saturation is R44's. -/
def e2m1 : Fmt := { p := 2, emin := -1, maxBits := 7, sat := true, infBits := 7, nanBits := 0, width := 4 }

/-- The floating-point format of a type code (Table 3.3). -/
def fmtOf (ty : BitVec 4) : Fmt :=
  match ty.toNat with | 9 => bf16 | 10 => e4m3 | 11 => e5m2 | 12 => e2m1 | _ => fp32

/-- The exact value of a floating-point pattern (R27, R29). -/
def decodeFp (f : Fmt) (bits : Nat) : Val :=
  let neg := (bits / 2 ^ (f.width - 1)) % 2 == 1
  let mag := bits % 2 ^ (f.width - 1)
  if f.width = 4 then
    if mag < 2 then .fin neg mag (-1) else .fin neg (2 + mag % 2) (mag / 2 - 2 : Int)
  else if f.maxBits < mag ∧ ¬ (mag = f.infBits ∧ f.infBits ≠ f.maxBits) then .nan
  else if mag = f.infBits ∧ f.infBits ≠ f.maxBits then .inf neg
  else
    let ex := mag / 2 ^ (f.p - 1)
    let m := mag % 2 ^ (f.p - 1)
    if ex = 0 then .fin neg m f.emin else .fin neg (2 ^ (f.p - 1) + m) (f.emin + (ex : Int) - 1)

/-- A scaled pair `(num, den)` whose quotient is n / d * 2^k. -/
def scale2 (n d : Nat) (k : Int) : Nat × Nat :=
  if 0 ≤ k then (n * 2 ^ k.toNat, d) else (n, d * 2 ^ (-k).toNat)

/-- Floor of log2 (n / d) for n, d > 0. -/
def floorLog2 (n d : Nat) : Int :=
  let l : Int := (Nat.log2 n : Int) - (Nat.log2 d : Int)
  let q := scale2 n d (-l)
  if q.1 < q.2 then l - 1 else l

/-- Add a sign bit to the bits of a magnitude. -/
def withSign (f : Fmt) (neg : Bool) (mag : Nat) : Nat := if neg then mag + 2 ^ (f.width - 1) else mag

/-- Does the rounding mode take the neighbour farther from zero? `rem / den` is the exact fraction of the step from the
nearer neighbour, not zero; `odd` says that the nearer neighbour has an odd last bit (R35, R36). -/
def roundsAway (mode : BitVec 3) (neg odd : Bool) (rem den : Nat) (u : BitVec 32) : Bool :=
  match mode.toNat with
  | 0 => if 2 * rem = den then odd else decide (den < 2 * rem)
  | 1 => false
  | 2 => !neg
  | 3 => neg
  | _ => decide (u.toNat < rem * 2 ^ 32 / den)

/-- Round the magnitude n / d * 2^e, n and d positive, to a format in a mode (R35 to R37, R43, R44). -/
def roundMag (f : Fmt) (mode : BitVec 3) (u : BitVec 32) (neg : Bool) (n d : Nat) (e : Int) : Nat :=
  let l := floorLog2 n d + e
  if ¬ f.sat ∧ 128 ≤ l then
    -- beyond the virtual neighbour 2^128 (R37); STO there gives the infinity (log entry 13)
    let toInf := match mode.toNat with | 1 => false | 2 => !neg | 3 => neg | _ => true
    withSign f neg (if toInf then f.infBits else f.maxBits)
  else
    let ulp := max (l - ((f.p : Int) - 1)) f.emin
    let q := scale2 n d (e - ulp)
    let near := q.1 / q.2
    let rem := q.1 % q.2
    let up := rem ≠ 0 && roundsAway mode neg (near % 2 == 1) rem q.2 u
    let sig := if up then near + 1 else near
    let bits :=
      if f.width = 4 then -- E2M1: the same packing with the hidden bit
        (ulp - f.emin).toNat * 2 ^ (f.p - 1) + sig
      else (ulp - f.emin).toNat * 2 ^ (f.p - 1) + sig
    withSign f neg (if f.maxBits < bits then (if f.sat then f.maxBits else f.infBits) else bits)

/-- Round an exact value (R28, R35 to R38, R41, R43). -/
def roundVal (f : Fmt) (mode : BitVec 3) (u : BitVec 32) : Val → Nat
  | .nan => f.nanBits
  | .inf neg => withSign f neg f.infBits
  | .fin neg m e => if m = 0 then withSign f neg 0 else roundMag f mode u neg m 1 e

/-- The exact product of two values (R39): 0 times an infinity is NaN, a zero takes the XOR of the signs (R38). -/
def mulVal : Val → Val → Val
  | .nan, _ => .nan
  | _, .nan => .nan
  | .inf a, .inf b => .inf (a != b)
  | .inf a, .fin b m _ => if m = 0 then .nan else .inf (a != b)
  | .fin a m _, .inf b => if m = 0 then .nan else .inf (a != b)
  | .fin a m e, .fin b n k => .fin (a != b) (m * n) (e + k)

/-- The value with its sign reversed. -/
def negVal : Val → Val
  | .nan => .nan
  | .inf a => .inf (!a)
  | .fin a m e => .fin (!a) m e

/-- The magnitude of a value. -/
def absVal : Val → Val
  | .nan => .nan
  | .inf _ => .inf false
  | .fin _ m e => .fin false m e

/-- A finite value as a signed integer multiple of 2^k, for k at most its exponent. -/
def scaledInt (k : Int) : Val → Int
  | .fin neg m e => (if neg then -1 else 1) * ((m * 2 ^ (e - k).toNat : Nat) : Int)
  | _ => 0

/-- Least exponent among finite non-zero values. -/
def minExp (ts : List Val) : Int :=
  ts.foldl (fun k t => match t with | .fin _ m e => if m = 0 then k else min k e | _ => k) 4096

/-- Is the value an infinity of this sign? -/
def isInf (neg : Bool) : Val → Bool
  | .inf a => a == neg
  | _ => false

/-- Is the value a zero of this sign? -/
def isZeroSigned (neg : Bool) : Val → Bool
  | .fin a m _ => a == neg && m == 0
  | _ => false

/-- Is the value zero? -/
def isZero : Val → Bool
  | .fin _ m _ => m == 0
  | _ => false

/-- Is the value finite? -/
def isFin : Val → Bool
  | .fin _ _ _ => true
  | _ => false

/-- The exact sum of values, each a term of R39, as a value; the sign of an exact zero follows R38 in `mode`. -/
def sumVal (mode : BitVec 3) (ts : List Val) : Val :=
  if ts.any (· == .nan) then .nan
  else if ts.any (isInf false) then (if ts.any (isInf true) then .nan else .inf false)
  else if ts.any (isInf true) then .inf true
  else
    let k := minExp ts
    let s := ts.foldl (fun a t => a + scaledInt k t) 0
    if s = 0 then
      if ts.all (isZeroSigned true) then .fin true 0 0
      else if ts.all (isZeroSigned false) then .fin false 0 0
      else .fin (mode == 3) 0 0
    else .fin (decide (s < 0)) s.natAbs k

/-- ExactThenRound of R39. -/
def exactThenRound (f : Fmt) (mode : BitVec 3) (u : BitVec 32) (ts : List Val) : Nat :=
  roundVal f mode u (sumVal mode ts)

/-- Exact comparison of two finite values or infinities: a < b. False when either is NaN. -/
def ltVal (a b : Val) : Bool :=
  match a, b with
  | .nan, _ => false
  | _, .nan => false
  | .inf x, .inf y => x && !y
  | .inf x, .fin _ _ _ => x
  | .fin _ _ _, .inf y => !y
  | .fin _ _ _, .fin _ _ _ =>
    let k := minExp [a, b]
    decide (scaledInt k a < scaledInt k b)

/-- Exact equality of two values as numbers; the two zeros are equal. -/
def eqVal (a b : Val) : Bool :=
  match a, b with
  | .inf x, .inf y => x == y
  | .fin _ _ _, .fin _ _ _ =>
    let k := minExp [a, b]
    decide (scaledInt k a = scaledInt k b)
  | _, _ => false

/-- Smaller of two patterns, -0 below +0, a NaN gives the canonical NaN (R119, R277). -/
def minFp (f : Fmt) (a b : Nat) : Nat :=
  let x := decodeFp f a
  let y := decodeFp f b
  if x == .nan || y == .nan then f.nanBits
  else if ltVal x y then a else if ltVal y x then b
  else if isZeroSigned true x then a else b

/-- Larger of two patterns (R119, R277). -/
def maxFp (f : Fmt) (a b : Nat) : Nat :=
  let x := decodeFp f a
  let y := decodeFp f b
  if x == .nan || y == .nan then f.nanBits
  else if ltVal y x then a else if ltVal x y then b
  else if isZeroSigned true x then b else a

/-- Division of R40, rounded once. -/
def divFp (f : Fmt) (mode : BitVec 3) (u : BitVec 32) (a b : Val) : Nat :=
  match a, b with
  | .nan, _ => f.nanBits
  | _, .nan => f.nanBits
  | .inf _, .inf _ => f.nanBits
  | .inf x, .fin y _ _ => withSign f (x != y) f.infBits
  | .fin x _ _, .inf y => withSign f (x != y) 0
  | .fin x m e, .fin y n k =>
    if n = 0 then (if m = 0 then f.nanBits else withSign f (x != y) f.infBits)
    else if m = 0 then withSign f (x != y) 0
    else roundMag f mode u (x != y) m n (e - k)

/-- One bit of the integer square root, from the high bit down. -/
def isqrtStep (n : Nat) : Nat → Nat → Nat
  | 0, r => r
  | b + 1, r =>
    let t := r + 2 ^ b
    isqrtStep n b (if t * t ≤ n then t else r)

/-- Floor of the square root. -/
def isqrt (n : Nat) : Nat := isqrtStep n (Nat.log2 n / 2 + 1) 0

/-- Round a magnitude known to lie strictly between s * 2^e and (s + 1) * 2^e, or equal to s * 2^e when `exact`;
s has many more bits than the format. -/
def roundSticky (f : Fmt) (mode : BitVec 3) (neg exact : Bool) (s : Nat) (e : Int) : Nat :=
  roundMag f mode 0 neg (if exact then 2 * s else 2 * s + 1) 1 (e - 1)

/-- Square root of R40. -/
def sqrtFp (f : Fmt) (mode : BitVec 3) (a : Val) : Nat :=
  match a with
  | .nan => f.nanBits
  | .inf neg => if neg then f.nanBits else f.infBits
  | .fin neg m e =>
    if m = 0 then withSign f neg 0
    else if neg then f.nanBits
    else
      let odd := e % 2 ≠ 0
      let m' := (if odd then 2 * m else m) * 2 ^ 200
      let e' := (if odd then e - 1 else e) - 200
      let s := isqrt m'
      roundSticky f mode false (s * s == m') s (e' / 2)

/-- Reciprocal square root of R40. -/
def rsqFp (f : Fmt) (mode : BitVec 3) (a : Val) : Nat :=
  match a with
  | .nan => f.nanBits
  | .inf neg => if neg then f.nanBits else 0
  | .fin neg m e =>
    if m = 0 then withSign f neg f.infBits
    else if neg then f.nanBits
    else
      let odd := e % 2 ≠ 0
      let m' := if odd then 2 * m else m
      let e' := if odd then e - 1 else e
      let s := isqrt (2 ^ 300 / m')
      roundSticky f mode false (s * s * m' == 2 ^ 300) s (-(e' / 2) - 150)

/-- Working precision, in bits after the point, of the interval arithmetic for R40's 2^x and log2 x. -/
def ivBits : Nat := 240

/-- Sum of z / 1! + z^2 / 2! + ... scaled by 2^240; each term is truncated. -/
def expSeries (z : Nat) : Nat → Nat → Nat → Nat
  | 0, _, _ => 0
  | fuel + 1, i, t => t + expSeries z fuel (i + 1) (t * z / 2 ^ ivBits / i)

/-- Sum of z^(2i+1) / (2i+1) scaled by 2^240; each term is truncated. -/
def atanhSeries (z2 : Nat) : Nat → Nat → Nat → Nat
  | 0, _, _ => 0
  | fuel + 1, i, t => t / (2 * i + 1) + atanhSeries z2 fuel (i + 1) (t * z2 / 2 ^ ivBits)

/-- Twice the artanh of p / q (q at least 3p), scaled by 2^240, within 2^10 below the exact value. -/
def twoAtanh (p q : Nat) : Nat :=
  let z := p * 2 ^ ivBits / q
  2 * atanhSeries (z * z / 2 ^ ivBits) 90 0 z

/-- ln 2 scaled by 2^240, within 2^10 below. -/
def ln2Scaled : Nat := twoAtanh 1 3

/-- Round a positive or negative irrational number whose magnitude lies strictly between lo and hi (scaled by 2^240);
`opaque` stands in where the two ends round differently (log entry 12). -/
def roundBetween (f : Fmt) (mode : BitVec 3) (neg : Bool) (lo hi : Nat) (e : Int) (opaqueResult : BitVec 32) : Nat :=
  let a := roundSticky f mode neg false lo (e - ivBits)
  let b := roundSticky f mode neg false hi (e - ivBits)
  if a = b then a else opaqueResult.toNat

/-- 2^x of R40. -/
def exp2Fp (mode : BitVec 3) (bits : Nat) : Nat :=
  match decodeFp fp32 bits with
  | .nan => fp32.nanBits
  | .inf neg => if neg then 0 else fp32.infBits
  | .fin neg m e =>
    if m = 0 then 0x3F800000
    else
      let x : Int := scaledInt (-149) (.fin neg m e)
      let n := x / (2 ^ 149 : Int)
      let fr := (x % (2 ^ 149 : Int)).toNat
      if fr = 0 then roundMag fp32 mode 0 false 1 1 (max (-2000) (min n 2000))
      else
        let z := fr * 2 ^ (ivBits - 149) * ln2Scaled / 2 ^ ivBits
        let lo := 2 ^ ivBits + expSeries z 80 2 z
        roundBetween fp32 mode false lo (lo + 2 ^ 16) (max (-2000) (min n 2000)) (Config.hardCase 0 mode.toNat (BitVec.ofNat 32 bits))

/-- log2 x of R40. -/
def log2Fp (mode : BitVec 3) (bits : Nat) : Nat :=
  match decodeFp fp32 bits with
  | .nan => fp32.nanBits
  | .inf neg => if neg then fp32.nanBits else fp32.infBits
  | .fin neg m e =>
    if m = 0 then withSign fp32 true fp32.infBits
    else if neg then fp32.nanBits
    else
      let l := Nat.log2 m
      let k : Int := l + e
      if m = 2 ^ l then
        if k = 0 then 0 else roundMag fp32 mode 0 (decide (k < 0)) k.natAbs 1 0
      else
        -- y = m / 2^l lies strictly between 1 and 2; log2 y = 2 artanh((y-1)/(y+1)) / ln 2
        let num := twoAtanh (m - 2 ^ l) (m + 2 ^ l)
        let lo : Int := (num * 2 ^ ivBits / (ln2Scaled + 2 ^ 10) : Nat)
        let hi : Int := ((num + 2 ^ 10) * 2 ^ ivBits / ln2Scaled + 1 : Nat)
        let a := k * (2 ^ ivBits : Int) + lo
        let b := k * (2 ^ ivBits : Int) + hi
        let h := Config.hardCase 1 mode.toNat (BitVec.ofNat 32 bits)
        if 0 ≤ a then roundBetween fp32 mode false a.toNat b.toNat 0 h
        else roundBetween fp32 mode true (-b).toNat (-a).toNat 0 h

/-- Round a value to an integer in a mode (R42), unbounded; NaN and infinities are the caller's. -/
def roundInt (mode : BitVec 3) (u : BitVec 32) (neg : Bool) (m : Nat) (e : Int) : Int :=
  let q := scale2 m 1 e
  let near := q.1 / q.2
  let rem := q.1 % q.2
  let r := if rem ≠ 0 && roundsAway mode neg (near % 2 == 1) rem q.2 u then near + 1 else near
  if neg then -(r : Int) else r

/-- Saturate an integer to the range of an integer type of `w` bits (R42, R119, R124). -/
def saturate (signed : Bool) (w : Nat) (x : Int) : Int :=
  let lo : Int := if signed then -(2 ^ (w - 1) : Int) else 0
  let hi : Int := if signed then 2 ^ (w - 1) - 1 else 2 ^ w - 1
  max lo (min x hi)

/-- Floating point to an integer of `w` bits (R42). -/
def fpToInt (mode : BitVec 3) (u : BitVec 32) (signed : Bool) (w : Nat) : Val → Int
  | .nan => 0
  | .inf neg => saturate signed w (if neg then -(2 ^ 70 : Int) else 2 ^ 70)
  | .fin neg m e => saturate signed w (roundInt mode u neg m (min e 200))

/-- Integer to floating point (R42). -/
def intToFp (f : Fmt) (mode : BitVec 3) (u : BitVec 32) (x : Int) : Nat :=
  if x = 0 then 0 else roundMag f mode u (decide (x < 0)) x.natAbs 1 0

/-- Is code 0 to 3 natural and 4 to 7 signed (Table 3.3)? -/
def isSigned (ty : BitVec 4) : Bool := decide (4 ≤ ty.toNat)

/-- A bit pattern of `w` bits read signed or natural (R33). -/
def readInt (signed : Bool) (w : Nat) (x : Nat) : Int :=
  let v := x % 2 ^ w
  if signed && decide (2 ^ (w - 1) ≤ v) then (v : Int) - 2 ^ w else v

/-- An integer as a pattern of `w` bits (R33). -/
def wrapInt (w : Nat) (x : Int) : Nat := (x % (2 ^ w : Int)).toNat

/-- An E8M0 scale applied to a value (R31, R32). -/
def scaleE8 (s : BitVec 8) (v : Val) : Val :=
  if s = 0xFF then .nan
  else match v with
    | .fin neg m e => .fin neg m (e + (s.toNat : Int) - 127)
    | x => x

/-- QuantMX of R44: the scale byte and the 32 element codes. -/
def quantMx (mode : BitVec 3) (us : List (BitVec 32)) (xs : List Nat) : BitVec 8 × List (BitVec 4) :=
  let vs := xs.map (decodeFp fp32)
  if vs.any (fun v => !isFin v) then (0xFF, xs.map (fun _ => 0))
  else
    let amax := vs.foldl (fun a v => if ltVal a (absVal v) then absVal v else a) (.fin false 0 0)
    let x : Int :=
      match amax with
      | .fin _ m e => if m = 0 then -127 else max (-127) (min (Nat.log2 m + e - 2) 127)
      | _ => -127
    (BitVec.ofInt 8 (x + 127),
     (List.zip vs us).map (fun vu =>
       match vu.1 with
       | .fin neg m e => BitVec.ofNat 4 (roundVal e2m1 mode vu.2 (.fin neg m (e - x)))
       | _ => 0))

/-- QuantE4M3 of R45: the scale's FP32 bits and the codes. -/
def quantE4m3 (xs : List Nat) : Nat × List Nat :=
  let vs := xs.map (decodeFp fp32)
  if vs.any (fun v => !isFin v) then (0x7FC00000, xs.map (fun _ => 0x7F))
  else
    let amax := vs.foldl (fun a v => if ltVal a (absVal v) then absVal v else a) (.fin false 0 0)
    let s :=
      if isZero amax then 0x3F800000
      else
        let r := divFp fp32 0 0 amax (.fin false 448 0)
        if r = 0 then 1 else r
    (s, vs.map (fun v => divFp e4m3 0 0 v (decodeFp fp32 s)))

/-- One lane of `vdq` (R45). -/
def dequant (s : Nat) (q : Nat) : Nat :=
  roundVal fp32 0 0 (mulVal (decodeFp e4m3 q) (decodeFp fp32 s))

/-- LA384: the signed integer N of an element (R47). -/
def laInt (e : BitVec 512) : Int := (e.setWidth 384).toInt

/-- LA384: the flags limb (R47, Table 2.4). -/
def laFlags (e : BitVec 512) : BitVec 4 := e.extractLsb' 384 4

/-- LA384: an element from N and its flags; limb 7 is zero (R47). -/
def laMake (n : Int) (fl : BitVec 4) : BitVec 512 :=
  (fl ++ BitVec.ofInt 384 n).setWidth 512

/-- AddLA of R48. -/
def addLa (e : BitVec 512) (a : Val) : BitVec 512 :=
  match a with
  | .nan => laMake (laInt e) (laFlags e ||| 4)
  | .inf neg => laMake (laInt e) (laFlags e ||| (if neg then 2 else 1))
  | .fin neg m ex =>
    let q := scale2 m 1 (ex + 256)
    let t := q.1 / q.2
    if 2 ^ 383 ≤ t then laMake (laInt e) (laFlags e ||| 8 ||| (if neg then 2 else 1))
    else laMake (laInt e + (if neg then -(t : Int) else t)) (laFlags e)

/-- `addd.la` and a drain's delta (R108, R149): limbs add, flags OR, limb 7 zero. -/
def addLaElem (e x : BitVec 512) : BitVec 512 := laMake (laInt e + laInt x) (laFlags e ||| laFlags x)

/-- ReadLA of R49; a NaN or infinite sigma gives the canonical NaN (R129, R146). -/
def readLa (e : BitVec 512) (sigma : Val) (mode : BitVec 3) : Nat :=
  let fl := laFlags e
  if !isFin sigma then fp32.nanBits
  else if fl.getLsbD 2 || (fl.getLsbD 0 && fl.getLsbD 1) then fp32.nanBits
  else if fl.getLsbD 0 then fp32.infBits
  else if fl.getLsbD 1 then withSign fp32 true fp32.infBits
  else
    let n := laInt e
    match mulVal (.fin (decide (n < 0)) n.natAbs (-256)) sigma with
    | .fin neg m ex => if m = 0 then 0 else roundMag fp32 mode 0 neg m 1 ex
    | _ => fp32.nanBits

/-- Extra limbs that the carry of an addition reaches (R127, R142): limbs changed beyond those the addend covers. -/
def extraLimbs (old new : BitVec 512) (a : Val) : Nat :=
  match a with
  | .fin _ m ex =>
    let q := scale2 m 1 (ex + 256)
    let t := q.1 / q.2
    let cover := if t = 0 then 0 else Nat.log2 t / 64 + 1
    ((List.range 6).filter (fun i => cover ≤ i && old.extractLsb' (64 * i) 64 != new.extractLsb' (64 * i) 64)).length
  | _ => 0

/-- Residue of an integer (R137). -/
def residue (x : Int) : Nat := (x % 255).toNat

/-- ex(x) of R51: the least exponent with |x| < 2^ex, for a finite non-zero value. -/
def exOf : Val → Option Int
  | .fin _ m e => if m = 0 then none else some (Nat.log2 m + e + 1)
  | _ => none

/-- Ceil of log2 of a positive count (R51, R313). -/
def ceilLog2 (n : Nat) : Nat := if n ≤ 1 then 0 else Nat.log2 (n - 1) + 1

/-- A contribution truncated toward zero to a multiple of 2^(E-48), in those units (R51). -/
def planeInt (ex : Int) : Val → Int
  | .fin neg m e =>
    let q := scale2 m 1 (e - (ex - 48))
    let t : Int := (q.1 / q.2 : Nat)
    if neg then -t else t
  | _ => 0

/-- The specials code of a value (Table 2.5). -/
def specialOf : Val → Nat
  | .nan => 3
  | .inf neg => if neg then 2 else 1
  | .fin _ _ _ => 0

/-- Specials combine (R52). -/
def joinSpecial (a b : Nat) : Nat := a ||| b

end Sys2Proof.Machine
end

