-- ==== Sys2Proof/Syntax/Event.lean ====
section
/-! DEFINITION. The steps of the agents other than the strands (opcode-table rows 224 to 332) with the data they act
on: what `State.agenda` holds and what `State.ev` holds while the step runs. -/

namespace Sys2Proof

/-- A hardware step with its operands. -/
inductive Ev where
  /-- DEFERRED_TRAP (R349). -/
  | deferredTrap (t : TileId) (n : StrandNo)
  /-- RESULT_DELIVERY (R95). -/
  | resultDelivery (t : TileId) (n : StrandNo) (gen : Nat) (d : Dst) (v : VWord)
  /-- REMOTE_LOAD_ARRIVAL (R85). -/
  | remoteLoadArrival (r : LoadReq)
  /-- REMOTE_LOAD_RETURN (R106). -/
  | remoteLoadReturn (r : LoadReq) (v : VWord) (a : Ack)
  /-- DELTA_ARRIVAL (R196). -/
  | deltaArrival (p : Packet)
  /-- FORESHORE_WRITE_ARRIVAL (R201). -/
  | foreshoreWriteArrival (p : Packet)
  /-- MSG_ARRIVAL (R109). -/
  | msgArrival (m : MsgReq)
  /-- ACK_ARRIVAL (R196). -/
  | ackArrival (src : Origin) (a : Ack) (info : BitVec 32)
  /-- LOCK_GRANT (R111). -/
  | lockGrant (t : TileId) (h : BitVec 8)
  /-- OVL_DONE (R89). -/
  | ovlDone (t : TileId) (id : Nat)
  /-- IDLE_WATCHDOG_EXPIRY (R87). -/
  | idleWatchdogExpiry (t : TileId)
  /-- WAITC_TIMEOUT (R104). -/
  | waitcTimeout (t : TileId) (n : StrandNo)
  /-- WAITP_TIMEOUT (R323). -/
  | waitpTimeout (t : TileId) (n : StrandNo)
  /-- FIFO_UNIT_COMPLETE (R131). -/
  | fifoUnitComplete (t : TileId) (fb : Bool)
  /-- ARRAY_OP_START (R133). -/
  | arrayOpStart (t : TileId)
  /-- PARTIAL_TILE_WRITTEN (R134). -/
  | partialTileWritten (t : TileId)
  /-- ADDER_CMD_START (R142). -/
  | adderCmdStart (t : TileId)
  /-- ADDER_CMD_PERFORMED (R143). -/
  | adderCmdPerformed (t : TileId)
  /-- DRAIN_START (R148). -/
  | drainStart (t : TileId)
  /-- DRAIN_SOURCE_READ_DONE (R148). -/
  | drainSourceReadDone (t : TileId)
  /-- ATB_BUILD_START (R160). -/
  | atbBuildStart (t : TileId)
  /-- ATB_DONE (R160). -/
  | atbDone (t : TileId)
  /-- SMP_AT_HEAD (R162). -/
  | smpAtHead (t : TileId)
  /-- SMPL_BATCH_DECISION (R166). -/
  | smplBatchDecision (t : TileId)
  /-- SMPL_DONE (R166). -/
  | smplDone (t : TileId)
  /-- STREAM_PIECE_FETCHED (R175). -/
  | streamPieceFetched (t : TileId) (r : StreamRef) (ok : Bool)
  /-- STREAM_OUT_PIECE_PERFORMED (R174). -/
  | streamOutPiecePerformed (t : TileId) (n : StrandNo) (k : Fin 8)
  /-- COPY_CMD_START (R180). -/
  | copyCmdStart (t : TileId)
  /-- COPY_CMD_PERFORMED (R182). -/
  | copyCmdPerformed (t : TileId)
  /-- COPY_ACCESS_REFUSED (R183). -/
  | copyAccessRefused (t : TileId) (c : Cause) (addr : Word)
  /-- CPYM_FOLLOWON (R185). -/
  | cpymFollowon (t : TileId)
  /-- GATHER_REFUSED (R189). -/
  | gatherRefused (t : TileId) (kind : BitVec 3)
  /-- SLUICE_TERM_FIRE (R187). -/
  | sluiceTermFire (t : TileId) (k : Fin 8)
  /-- ARRIVE_SEND (R270). -/
  | arriveSend (t : TileId)
  /-- BARRIER_NODE_ARRIVE (R265). -/
  | barrierNodeArrive (g : Nat) (node : BarNode) (m : BarMsg)
  /-- ARRIVE_AT_DECISION (R273). -/
  | arriveAtDecision (g : Nat) (m : BarMsg)
  /-- ABORT_AT_DECISION (R273). -/
  | abortAtDecision (g : Nat) (m : BarMsg)
  /-- BARRIER_TIMEOUT (R276). -/
  | barrierTimeout (g : Nat)
  /-- DECISION_RELEASE (R273). -/
  | decisionRelease (g : Nat)
  /-- PARK_ASSERT (R272). -/
  | parkAssert (t : TileId)
  /-- PARK_WITHDRAW (R272). -/
  | parkWithdraw (t : TileId)
  /-- BCFG_CONTROL_ARRIVAL (R286). -/
  | bcfgControlArrival (g : Nat) (w : BcfgWrite)
  /-- GLCHK_REPLY (R287). -/
  | glchkReply (g : Nat) (t : TileId) (n : StrandNo) (gen : Nat) (d : BitVec 5)
  /-- RELEASE_COMMIT_AT_TILE (R278). -/
  | releaseCommitAtTile (g : Nat) (t : TileId) (r : Release)
  /-- RELEASE_ABORT_AT_TILE (R278). -/
  | releaseAbortAtTile (g : Nat) (t : TileId) (r : Release)
  /-- GROUP_START (R255). -/
  | groupStart (g : Nat)
  /-- CLUSTER_START_GATE_OPEN (R256). -/
  | clusterStartGateOpen (g : Nat) (c : ClusterId)
  /-- GIVE_UP_REQUEST (R255). -/
  | giveUpRequest (g : Nat) (n : Nat)
  /-- MOVE_REQUEST (R260). -/
  | moveRequest (g : Nat) (ords : List Nat) (tiles : List TileId)
  /-- RESHAPE_DONE (R261). -/
  | reshapeDone (g : Nat)
  /-- FOLD_TURN_CHANGE (R258). -/
  | foldTurnChange (t : TileId)
  /-- LAUNCH_MESSAGE_OFFER (R230). -/
  | launchMessageOffer (ctx : Nat) (q : Nat) (m : BitVec 512)
  /-- POOL_INTAKE (R231). -/
  | poolIntake
  /-- ADMISSION_STEP (R236). -/
  | admissionStep
  /-- NODE_COMPLETION (R234). -/
  | nodeCompletion (ctx : Nat) (o : ObjId) (st : ObjStatus)
  /-- CANCEL_AT_DISPATCHER (R235). -/
  | cancelAtDispatcher (ctx : Nat) (o : ObjId)
  /-- DISPATCHER_REPLY (R240). -/
  | dispatcherReply (t : TileId) (n : StrandNo) (gen : Nat) (d : BitVec 5) (q : DispQuery)
  /-- CLUSTER_WAKE (R78). -/
  | clusterWake (c : ClusterId)
  /-- CLUSTER_USABLE (R78). -/
  | clusterUsable (c : ClusterId)
  /-- CLUSTER_RETAIN (R238). -/
  | clusterRetain (c : ClusterId)
  /-- CLUSTER_GATE (R238). -/
  | clusterGate (c : ClusterId)
  /-- TEST_START (R238). -/
  | testStart (c : ClusterId)
  /-- TEST_DONE (R362). -/
  | testDone (c : ClusterId)
  /-- COLD_RESET (R216). -/
  | coldReset
  /-- MONITOR_IMAGE_RECEIVE (R216). -/
  | monitorImageReceive (img : List Byte) (pubx : BitVec 384) (puby : BitVec 384) (r : BitVec 384) (s : BitVec 384)
  /-- MONITOR_REQUEST (R212). -/
  | monitorRequest (m : MonReq)
  /-- ATTESTATION_REQUEST (R217). -/
  | attestationRequest (ctx : Nat) (nonce : BitVec 384)
  /-- KERNEL_LOAD_REQUEST (R246). -/
  | kernelLoadRequest (ctx : Nat) (kimg : Word)
  /-- KERNEL_RESET_REQUEST (R248). -/
  | kernelResetRequest (ctx : Nat) (kimg : Word)
  /-- KERNEL_RETIRE_REQUEST (R248). -/
  | kernelRetireRequest (ctx : Nat) (kimg : Word)
  /-- SYS_REPLY (R226). -/
  | sysReply (t : TileId) (n : StrandNo) (gen : Nat) (d : BitVec 5) (svc : BitVec 16) (arg : Word) (v : Word) (after : Before)
  /-- SAVE_COMPLETE (R218). -/
  | saveComplete (ctx : Nat)
  /-- SWEEP_TOKEN_AT_TILE (R222). -/
  | sweepTokenAtTile (ctx : Nat) (t : TileId)
  /-- SWEEP_SWT_EXPIRY (R222). -/
  | sweepSwtExpiry (ctx : Nat)
  /-- SWEEP_CLEAN_RESULT (R222). -/
  | sweepCleanResult (ctx : Nat) (clean : Bool)
  /-- PURGE_CONFIRMED (R218). -/
  | purgeConfirmed (ctx : Nat)
  /-- PAGE_ACCESS (R293). -/
  | pageAccess (a : PageAcc)
  /-- OFFL_COPY_DONE (R293). -/
  | offlCopyDone (ctx : Nat) (va : Word)
  /-- RETN_COPY_DONE (R293). -/
  | retnCopyDone (ctx : Nat) (va : Word)
  /-- WRITEBACK_DRAIN (R195). -/
  | writebackDrain (w : WriteBack)
  /-- PAGE_TABLE_WRITE (R290). -/
  | pageTableWrite (ctx : Nat) (level : Fin 3) (va : Word) (e : Word)
  /-- FAULT_REFUSE (R294). -/
  | faultRefuse (ctx : Nat) (va : Word)
  /-- CHECKPOINT_DONE (R299). -/
  | checkpointDone (ctx : Nat)
  /-- COLL_ALL_LAUNCHED (R310). -/
  | collAllLaunched (ctx : Nat) (id : BitVec 64)
  /-- COLL_SOURCE_READ (R311). -/
  | collSourceRead (ctx : Nat) (id : BitVec 64) (mem : Nat) (seg : Nat)
  /-- ADDER_DIGIT_EMIT (R314). -/
  | adderDigitEmit (ctx : Nat) (id : BitVec 64) (node : Nat) (seg : Nat)
  /-- PLANE_LANDED (R315). -/
  | planeLanded (ctx : Nat) (id : BitVec 64) (mem : Nat) (seg : Nat)
  /-- COLL_DEADLINE_EXPIRY (R317). -/
  | collDeadlineExpiry (ctx : Nat) (id : BitVec 64) (node : Nat)
  /-- CONTRIBUTION_ACCEPTED (R310). -/
  | contributionAccepted (ctx : Nat) (id : BitVec 64) (mem : Nat)
  /-- COLL_CONSUMER_DONE (R310). -/
  | collConsumerDone (ctx : Nat) (id : BitVec 64) (mem : Nat)
  /-- FLIT_RECEIVE (R332). -/
  | flitReceive (l : Nat) (dir : Bool) (bytes : List Byte)
  /-- REPLAY_TIMEOUT (R332). -/
  | replayTimeout (l : Nat) (dir : Bool)
  /-- LINK_TRAINING_DONE (R336). -/
  | linkTrainingDone (l : Nat) (ok : Bool)
  /-- LINK_RETRAIN_DONE (R336). -/
  | linkRetrainDone (l : Nat) (ok : Bool)
  /-- AUTO_STEP_DOWN (R339). -/
  | autoStepDown (l : Nat)
  /-- AUTO_STEP_UP (R339). -/
  | autoStepUp (l : Nat)
  /-- RESERVOIR_TICK (R359). -/
  | reservoirTick
  /-- BACKGROUND_SCRUB_READ (R354). -/
  | backgroundScrubRead (t : TileId)
  /-- TRAP_RECORD_ARRIVAL (R352). -/
  | trapRecordArrival (r : TrapRec)
  /-- ROW_COLLECTOR_FORWARD (R352). -/
  | rowCollectorForward (die : Nat) (row : Nat)
  /-- TRAP_UNIT_DELIVER (R352). -/
  | trapUnitDeliver (die : Nat)
  /-- FETCH_FAULT (R55). -/
  | fetchFault (c : Cause)
  /-- SOFT_ERROR (R354). -/
  | softError (t : TileId) (p : ErrPlace) (due : Bool)
  /-- FREE_LIST_FILL (R292). -/
  | freeListFill (ctx : Nat) (dev : Nat) (frames : List Nat) (slots : List Nat)
  /-- TABLE_BASE_WRITE (R288). -/
  | tableBaseWrite (ctx : Nat) (v : Word)
  /-- CHIP_NUMBER_ASSIGN (R20). -/
  | chipNumberAssign (c : BitVec 8)
  /-- RUNTIME_IMAGE_LOAD (R216). -/
  | runtimeImageLoad (img : List Byte)
  /-- COLL_NODE_INPUT (R313). -/
  | collNodeInput (ctx : Nat) (id : BitVec 64) (node : Nat) (m : CollMsg)
  /-- ROUTE_TABLE_CHANGE (R329). -/
  | routeTableChange (routes : (List (Nat × Nat)))
  deriving DecidableEq, Repr

/-- The opcode-table row of a step. -/
def Ev.instr (e : Ev) : Instr :=
  match e with
  | .deferredTrap _ _ => .deferredTrap
  | .resultDelivery _ _ _ _ _ => .resultDelivery
  | .remoteLoadArrival _ => .remoteLoadArrival
  | .remoteLoadReturn _ _ _ => .remoteLoadReturn
  | .deltaArrival _ => .deltaArrival
  | .foreshoreWriteArrival _ => .foreshoreWriteArrival
  | .msgArrival _ => .msgArrival
  | .ackArrival _ _ _ => .ackArrival
  | .lockGrant _ _ => .lockGrant
  | .ovlDone _ _ => .ovlDone
  | .idleWatchdogExpiry _ => .idleWatchdogExpiry
  | .waitcTimeout _ _ => .waitcTimeout
  | .waitpTimeout _ _ => .waitpTimeout
  | .fifoUnitComplete _ _ => .fifoUnitComplete
  | .arrayOpStart _ => .arrayOpStart
  | .partialTileWritten _ => .partialTileWritten
  | .adderCmdStart _ => .adderCmdStart
  | .adderCmdPerformed _ => .adderCmdPerformed
  | .drainStart _ => .drainStart
  | .drainSourceReadDone _ => .drainSourceReadDone
  | .atbBuildStart _ => .atbBuildStart
  | .atbDone _ => .atbDone
  | .smpAtHead _ => .smpAtHead
  | .smplBatchDecision _ => .smplBatchDecision
  | .smplDone _ => .smplDone
  | .streamPieceFetched _ _ _ => .streamPieceFetched
  | .streamOutPiecePerformed _ _ _ => .streamOutPiecePerformed
  | .copyCmdStart _ => .copyCmdStart
  | .copyCmdPerformed _ => .copyCmdPerformed
  | .copyAccessRefused _ _ _ => .copyAccessRefused
  | .cpymFollowon _ => .cpymFollowon
  | .gatherRefused _ _ => .gatherRefused
  | .sluiceTermFire _ _ => .sluiceTermFire
  | .arriveSend _ => .arriveSend
  | .barrierNodeArrive _ _ _ => .barrierNodeArrive
  | .arriveAtDecision _ _ => .arriveAtDecision
  | .abortAtDecision _ _ => .abortAtDecision
  | .barrierTimeout _ => .barrierTimeout
  | .decisionRelease _ => .decisionRelease
  | .parkAssert _ => .parkAssert
  | .parkWithdraw _ => .parkWithdraw
  | .bcfgControlArrival _ _ => .bcfgControlArrival
  | .glchkReply _ _ _ _ _ => .glchkReply
  | .releaseCommitAtTile _ _ _ => .releaseCommitAtTile
  | .releaseAbortAtTile _ _ _ => .releaseAbortAtTile
  | .groupStart _ => .groupStart
  | .clusterStartGateOpen _ _ => .clusterStartGateOpen
  | .giveUpRequest _ _ => .giveUpRequest
  | .moveRequest _ _ _ => .moveRequest
  | .reshapeDone _ => .reshapeDone
  | .foldTurnChange _ => .foldTurnChange
  | .launchMessageOffer _ _ _ => .launchMessageOffer
  | .poolIntake => .poolIntake
  | .admissionStep => .admissionStep
  | .nodeCompletion _ _ _ => .nodeCompletion
  | .cancelAtDispatcher _ _ => .cancelAtDispatcher
  | .dispatcherReply _ _ _ _ _ => .dispatcherReply
  | .clusterWake _ => .clusterWake
  | .clusterUsable _ => .clusterUsable
  | .clusterRetain _ => .clusterRetain
  | .clusterGate _ => .clusterGate
  | .testStart _ => .testStart
  | .testDone _ => .testDone
  | .coldReset => .coldReset
  | .monitorImageReceive _ _ _ _ _ => .monitorImageReceive
  | .monitorRequest _ => .monitorRequest
  | .attestationRequest _ _ => .attestationRequest
  | .kernelLoadRequest _ _ => .kernelLoadRequest
  | .kernelResetRequest _ _ => .kernelResetRequest
  | .kernelRetireRequest _ _ => .kernelRetireRequest
  | .sysReply _ _ _ _ _ _ _ _ => .sysReply
  | .saveComplete _ => .saveComplete
  | .sweepTokenAtTile _ _ => .sweepTokenAtTile
  | .sweepSwtExpiry _ => .sweepSwtExpiry
  | .sweepCleanResult _ _ => .sweepCleanResult
  | .purgeConfirmed _ => .purgeConfirmed
  | .pageAccess _ => .pageAccess
  | .offlCopyDone _ _ => .offlCopyDone
  | .retnCopyDone _ _ => .retnCopyDone
  | .writebackDrain _ => .writebackDrain
  | .pageTableWrite _ _ _ _ => .pageTableWrite
  | .faultRefuse _ _ => .faultRefuse
  | .checkpointDone _ => .checkpointDone
  | .collAllLaunched _ _ => .collAllLaunched
  | .collSourceRead _ _ _ _ => .collSourceRead
  | .adderDigitEmit _ _ _ _ => .adderDigitEmit
  | .planeLanded _ _ _ _ => .planeLanded
  | .collDeadlineExpiry _ _ _ => .collDeadlineExpiry
  | .contributionAccepted _ _ _ => .contributionAccepted
  | .collConsumerDone _ _ _ => .collConsumerDone
  | .flitReceive _ _ _ => .flitReceive
  | .replayTimeout _ _ => .replayTimeout
  | .linkTrainingDone _ _ => .linkTrainingDone
  | .linkRetrainDone _ _ => .linkRetrainDone
  | .autoStepDown _ => .autoStepDown
  | .autoStepUp _ => .autoStepUp
  | .reservoirTick => .reservoirTick
  | .backgroundScrubRead _ => .backgroundScrubRead
  | .trapRecordArrival _ => .trapRecordArrival
  | .rowCollectorForward _ _ => .rowCollectorForward
  | .trapUnitDeliver _ => .trapUnitDeliver
  | .fetchFault _ => .fetchFault
  | .softError _ _ _ => .softError
  | .freeListFill _ _ _ _ => .freeListFill
  | .tableBaseWrite _ _ => .tableBaseWrite
  | .chipNumberAssign _ => .chipNumberAssign
  | .runtimeImageLoad _ => .runtimeImageLoad
  | .collNodeInput _ _ _ _ => .collNodeInput
  | .routeTableChange _ => .routeTableChange

end Sys2Proof
end

