-- ==== Sys2Proof/Machine/State.lean ====
section
/-! DEFINITION. The state of the package as plain data: everything the spec gives the machine, and the few fields of
the model's own (the agenda of work in flight, the free-value counter, the issue cursor), which say so. -/

namespace Sys2Proof.Machine

open Sys2Proof

/-- Why the machine stops. -/
inductive Fault where
  /-- Raised by no step and no instruction: everything the spec stops is a trap, an abort vote or a sweep, each a next
  state. Kept because a machine of this interface names its faults. Safe. -/
  | noStrand
  deriving DecidableEq, Repr

/-- Why an instruction has no meaning. -/
inductive Refusal where
  /-- Raised by the dispatcher of meanings for an instruction not modelled. Safe. -/
  | notModelled (mnemonic : String)
  /-- Raised by a form of the groups 0x40-0xAF that the root monitor core would execute: R212 and R343 give it only the
  groups 0x00-0x3F, 0xB0-0xBF and the link forms, and no effect or trap for the others. Safe. -/
  | outsideMonitorRepertoire
  deriving DecidableEq, Repr

/-- Byte-addressed memory: (address, byte) cells, addresses strictly rising, no cell equal to the byte 0 that an
unlisted address reads as (R78: power-on writes zero; log entry 8 for HBM). -/
abbrev Mem := List Host.Cell

/-- States of a strand (R93, Table 5.1); the order gives SST.STATE (R91). -/
inductive StrandSt where
  | free | started | ready | waiting | trapped | halted
  deriving DecidableEq, Repr

/-- What a WAITING strand waits on. The kinds give SST.WAIT (R91). -/
inductive Wait where
  /-- none (0) -/
  | idle
  /-- 1: a sibling access at the cluster start gate (R256). -/
  | gate (c : ClusterId)
  /-- 1: a word with an uncorrectable error (R354): until the abort or the sweep. -/
  | ecc
  /-- 1: a remote load whose access checks or trap are still out (R85). -/
  | rload
  /-- 1: a fence (R112): until the accesses and the adder commands numbered here are performed; then it completes. -/
  | fence (ops adds : List Nat)
  /-- 1: `ldl` on bit h of a tile (R111), with the access it completes. -/
  | lock (t : TileId) (h : BitVec 8) (ofs : Nat) (wd : BitVec 3) (d : BitVec 5)
  /-- 2: registers to become full (R64, R65). -/
  | regs (rs : List Dst)
  /-- 3: a q register with too few pieces, or without room (R64, R65). -/
  | stream (k : Fin 8) (need : Nat) (out : Bool)
  /-- 3: the FIFO's live binding to end (R173). -/
  | fifoBound (fb : Bool)
  /-- 3: no tapped fill in flight (R155, R160, R168). -/
  | tapped
  /-- 4: `waitc` (R104): threshold, counter, `.sub`, timeout predicate, start cycle and timeout. -/
  | counter (thr : BitVec 32) (ct : BitVec 4) (sub : Bool) (pf : BitVec 3) (start tmo : Nat)
  /-- 5: room in the array queue (R133). -/
  | roomArr
  /-- 5: room in the adder queue; `vla` also the limit of four (R127, R142). -/
  | roomAdd (vla : Bool)
  /-- 5: room in the copy-engine channel (R180). -/
  | roomChan
  /-- 5: an overlay load to complete (R89): for an `ovl`, or a fetch in the range. -/
  | ovl
  /-- 5: own adder commands and drains that overlap (R128, R143). -/
  | overlap (seqs : List Nat)
  /-- 5: array and adder commands issued before (R150); then the `mwait` completes. -/
  | mwait (arr add : List Nat)
  /-- 5: channel commands pushed before (R186); then the `eng.q` completes. -/
  | engq (seqs : List Nat)
  /-- 5: sampler commands issued before (R167); then the instruction goes on. -/
  | samp (seqs : List Nat)
  /-- 5: the cycles of a norm transfer (R155); then the instruction completes. -/
  | until (cyc : Nat)
  /-- 6: `bar`, or `barv` with its destination (R283). -/
  | bar (n : BitVec 2) (d : Option (BitVec 5))
  /-- 6: `waitb` (R284). -/
  | waitb (n : BitVec 2) (d : BitVec 5)
  /-- 6: a versioned write or a `vabort` after the arrival was sent (R204, R285): re-examined at the release. -/
  | release
  /-- 7: `waitp` (R323): precision counter, planes, predicate, start cycle and timeout. -/
  | precision (x : Nat) (k : Nat) (pf : BitVec 3) (start tmo : Nat)
  deriving DecidableEq, Repr

/-- A q register's binding (R174 to R176) with its pieces on their way. -/
structure QReg where
  valid : Bool := false
  /-- the record's contents as read when the binding was made or restored (R171, R172) -/
  rcd : BitVec 512 := 0
  out : Bool := false
  cnte : Bool := false
  exh : Bool := false
  ct : BitVec 4 := 0
  recOfs : BitVec 21 := 0
  next : Nat := 0
  ofs : Word := 0
  sbase : Word := 0
  /-- the binding met a refusal (R175) -/
  stopped : Bool := false
  /-- address of the `sbind` (R175) -/
  pc : BitVec 21 := 0
  /-- `.in`: pieces fetched and not taken (R174) -/
  have_ : List VWord := []
  /-- `.in`: index of the next piece to fetch -/
  ahead : Nat := 0
  /-- a fetch is parked -/
  busy : Bool := false
  /-- the address where it parked (R175) -/
  parkAt : Word := 0
  /-- `.out`: pieces written and not performed (R174) -/
  pend : List VWord := []
  /-- a line of a piece could not be written: the binding is never exhausted (R174, R197, R203) -/
  lost : Bool := false
  /-- `.in`: what its fetches come after (R191) -/
  after : Before := {}
  deriving DecidableEq, Repr

/-- A piece written to an `.out` binding that has ended since and not yet performed (R177). -/
structure OutPiece where
  k : Fin 8
  hbm : Bool
  addr : Nat
  data : VWord
  pc : BitVec 21
  ct : BitVec 4
  deriving DecidableEq, Repr

/-- An access that is not yet performed (R112, R204): its number, the tile it targets, what it is. -/
structure OpRec where
  id : Nat
  target : TileId
  load : Bool
  /-- the access goes to another chip: no fence waits for it (R112, R211) -/
  away : Bool := false
  deriving DecidableEq, Repr

/-- A refusal that has returned (R349): code, INFO, the refused instruction's address, and whether it ended an engine
command, which makes its record CLASS 2 (R351). -/
structure Deferred where
  code : Cause
  info : BitVec 32
  pc : BitVec 21
  engine : Bool
  deriving DecidableEq, Repr

/-- A strand (05_strand). -/
structure Strand where
  st : StrandSt := .free
  g : Vector Word 32 := Vector.replicate 32 0
  /-- empty bits (R95) -/
  gE : BitVec 32 := 0
  w : Vector VWord 16 := Vector.replicate 16 0
  wE : BitVec 16 := 0
  /-- p0 to p7; bit 0 is never read (R63) -/
  p : BitVec 8 := 0
  pc : BitVec 21 := 0
  inHandler : Bool := false
  tcause : Word := 0
  trappc : Word := 0
  q : Vector QReg 8 := Vector.replicate 8 {}
  /-- pieces of ended `.out` bindings that are still to be performed (R177) -/
  rest : List OutPiece := []
  /-- pieces written through each q register, ever (the model's own) -/
  outN : Vector Nat 8 := Vector.replicate 8 0
  /-- q registers whose oldest written piece is parked (R175, R294) -/
  outPark : BitVec 8 := 0
  wait : Wait := .idle
  /-- cycle in which the wait began (R96) -/
  since : Nat := 0
  /-- length in bytes of the waiting instruction (the model's own) -/
  wlen : Nat := 0
  /-- a wait on commands issued before has been served (the model's own) -/
  passed : Bool := false
  /-- first cycle in which the strand may issue (R86, R103 `yield`) -/
  notBefore : Nat := 0
  /-- watchpoints are suppressed for the next instruction (R113) -/
  suppress : Bool := false
  /-- the trap being handled is WATCH (R113, R225) -/
  watching : Bool := false
  /-- a refusal waiting for the next boundary (R349) -/
  deferred : Option Deferred := none
  /-- a refusal has been entered in this attempt (R349) -/
  refusedOnce : Bool := false
  /-- accesses not yet performed (R112) -/
  ops : List OpRec := []
  /-- results of earlier generations are discarded (R93: start, hstop, abort; the model's own number) -/
  gen : Nat := 0
  deriving DecidableEq, Repr

/-- A watchpoint and its record (R113, Table 5.7). -/
structure Wpt where
  base : Word := 0
  len : Word := 0
  fl : BitVec 2 := 0
  record : Word := 0
  deriving DecidableEq, Repr

/-- A collective request block as copied by `coll` (Table 17.1). -/
structure Crb where
  op : BitVec 8 := 0
  dtype : BitVec 8 := 0
  pmode : BitVec 8 := 0
  alg : BitVec 8 := 0
  npl : BitVec 8 := 0
  cdone : BitVec 8 := 0
  pcb : BitVec 8 := 0
  red : BitVec 8 := 0
  collid : BitVec 32 := 0
  count : BitVec 32 := 0
  ord0 : BitVec 32 := 0
  m : BitVec 32 := 0
  mstr : BitVec 32 := 0
  root : BitVec 32 := 0
  src : Word := 0
  dst : Word := 0
  mbma : Word := 0
  dln : BitVec 32 := 0
  tree : Word := 0
  treeh : BitVec 384 := 0
  deriving DecidableEq, Repr

/-- A collective slot of a virtual tile (R310, Table 17.4). -/
structure CollSlot where
  crb : Crb := {}
  /-- CST.STATE -/
  st : BitVec 3 := 0
  err : BitVec 5 := 0
  late : BitVec 16 := 0
  dlnp : Bool := false
  srcRead : Bool := false
  cut : BitVec 6 := 0
  /-- number of the running collective (the model's own) -/
  inst : BitVec 64 := 0
  /-- source lines read (Table 17.5) -/
  lines : Nat := 0
  deriving DecidableEq, Repr

/-- What a tile holds behind the vote (R241, R242, R263, R298, R305, R322): in issue order. -/
inductive Held where
  | enq (q : Nat) (m : BitVec 512)
  | cancel (o : ObjId)
  | imp (es : List Word)
  | ckpt (n : StrandNo) (gen : Nat) (d : BitVec 5) (ct : BitVec 4)
  | coll (s : BitVec 3)
  deriving DecidableEq, Repr

/-- The virtual-scope registers of a virtual tile (R90, Table 4.4) and what else its image and map carry. -/
structure VRegs where
  ss : BitVec 48 := 0
  att : BitVec 4 := 0
  v : BitVec 20 := 0
  idx : BitVec 20 := 0
  ord : Nat := 0
  partw : Word := 0
  ovb : Word := 0
  tvec : Word := 0
  idlw : Word := 20
  c : Vector (BitVec 32) 16 := Vector.replicate 16 0
  /-- increments of this cycle (R178, R179) -/
  cinc : Vector (BitVec 32) 16 := Vector.replicate 16 0
  terms : Vector Word 8 := Vector.replicate 8 0
  wpt : Vector Wpt 4 := Vector.replicate 4 {}
  dbgr : Word := 0
  /-- BST (Table 15.7) -/
  bstate : BitVec 2 := 0
  bbid : BitVec 2 := 0
  park : Bool := false
  voted : Bool := false
  ownc : BitVec 8 := 0
  lcause : BitVec 8 := 0
  latt : BitVec 4 := 0
  /-- operand of the arrival, and whether it is a wildcard (R270, R283) -/
  opnd : Word := 0
  wild : Bool := false
  res : Vector Word 4 := Vector.replicate 4 0
  bcfg : Vector Word 4 := Vector.replicate 4 0
  coll : Vector CollSlot 8 := Vector.replicate 8 {}
  pcnt : Vector (BitVec 16) 64 := Vector.replicate 64 0
  offer : BitVec 20 := 0
  held : List Held := []
  /-- causes raised in this cycle, with their records: the lowest is sent at its end (R271, R350) -/
  votes : List TrapRec := []
  /-- watchpoint records set since the last release (R358) -/
  wptNew : BitVec 4 := 0
  deriving DecidableEq, Repr

/-- Kinds of writes of R202; a nibble write names its half of the byte. -/
inductive WKind where
  | plain
  | nib (hi : Bool)
  | add
  deriving DecidableEq, Repr

/-- Who writes a tile's own store on a local path (R198, R202, R207): a strand of the tile, an engine for a strand (with
the cluster position of the tile whose channel it is), a sibling through its window. -/
inductive Writer where
  | strand (n : StrandNo)
  | engine (n : StrandNo) (pos : Nat)
  | sibling (vidx : BitVec 20) (n : StrandNo)
  deriving DecidableEq, Repr

/-- Kinds of galley slots (R194). -/
inductive SlotKind where
  | undo | plain | add | out
  deriving DecidableEq, Repr

/-- A galley slot in use with its tag (R194). `mask` is the nibble mask of a PLAIN slot, the covered nibbles of an ADD
slot, and OWNN of an UNDO slot. `addw` is 0 for an LA384 element, 4 or 8 for an integer `addd`. -/
structure Slot where
  num : Nat
  kind : SlotKind
  ofs : Nat
  ss : BitVec 48
  att : Nat
  sidx : BitVec 20 := 0
  seq : Nat := 0
  mask : BitVec 128 := 0
  data : BitVec 512 := 0
  addw : Nat := 0
  ord : Nat := 0
  ownp : Bool := false
  owna : Bool := false
  /-- residue of a drain's element (R149) -/
  res : BitVec 8 := 0
  /-- strands that wrote the line, and strands that wrote it otherwise than by adding (R207); of an inbound slot, of its
  sender -/
  wby : BitVec 11 := 0
  pby : BitVec 11 := 0
  /-- strands that wrote the line and then read it (R208) -/
  rby : BitVec 11 := 0
  deriving DecidableEq, Repr

/-- A lock bit that is set (R111): its number, the holder's cluster position and strand. -/
structure LockBit where
  h : BitVec 8
  pos : Nat
  strand : Nat
  deriving DecidableEq, Repr

/-- A complete operand unit (R130): 32 rows of 256 bytes and 32 scale rows of 16 bytes, and the binding that filled it. -/
structure Unit_ where
  rows : List (BitVec 2048)
  scales : List (BitVec 128)
  ty : BitVec 4
  bound : Bool
  tap : Bool
  sink : Bool
  deriving DecidableEq, Repr

/-- Who may fill a FIFO next (R175): the binding, or a channel command by its number. -/
inductive Filler where
  | binding
  | cmd (seq : Nat)
  deriving DecidableEq, Repr

/-- A FIFO binding (R173 to R177). -/
structure FBind where
  live : Bool := false
  /-- the binding met a refusal (R175) -/
  stopped : Bool := false
  rcd : BitVec 512 := 0
  strand : StrandNo := 0
  pc : BitVec 21 := 0
  ofs : Word := 0
  sbase : Word := 0
  cnte : Bool := false
  ct : BitVec 4 := 0
  start : Nat := 0
  next : Nat := 0
  sink : Bool := false
  tap : Bool := false
  slab : Bool := false
  ty : BitVec 4 := 0
  /-- slab indices waiting for a unit (R162) -/
  idxs : List (List Nat) := []
  busy : Bool := false
  /-- the address where a fetch parked (R175) -/
  parkAt : Word := 0
  /-- units that have left the FIFO (R177) -/
  left : Nat := 0
  /-- what its fetches come after (R191) -/
  after : Before := {}
  deriving DecidableEq, Repr

/-- An operand FIFO (R130 to R132). -/
structure Fifo where
  units : List Unit_ := []
  part : List (BitVec 2048) := []
  partSc : List (BitVec 128) := []
  /-- replay: units held, position, uses left (R132) -/
  held : List Unit_ := []
  pos : Nat := 0
  uses : Nat := 0
  /-- units that the operation at the array still reads: not yet freed (R131) -/
  reading : List Unit_ := []
  fillers : List Filler := []
  bind : FBind := {}
  deriving DecidableEq, Repr

/-- The sampler parameter record (Table 8.3). -/
structure SmplRec where
  tab : Word
  lat : Word
  nmin : Nat
  nmax : Nat
  prow : Nat
  tau : BitVec 32
  phi : BitVec 32
  deriving DecidableEq, Repr

/-- Commands of the array queue (R133). -/
inductive ArrOp where
  | mma (ty : BitVec 4) (x : Bool) (n : BitVec 2) (rows cols : BitVec 32)
  | mrep (fb : Bool) (n w : Nat)
  | ptst (ty : BitVec 4) (n : BitVec 2) (addr : Nat) (need : Nat)
  | ptld (ty : BitVec 4) (n : BitVec 2) (addr : Nat)
  | smp (ty : BitVec 4) (x : Bool) (n : BitVec 2) (key : Word) (ctr : BitVec 128) (tab : Nat)
  | smpl (ty : BitVec 4) (x : Bool) (n : BitVec 2) (key : Word) (ctr : BitVec 128) (ct : BitVec 4) (r : SmplRec)
  | svarUp (n : BitVec 2) (r : Nat) (need : Nat)
  | sclr (k : Nat)
  deriving DecidableEq, Repr

/-- A command of the array queue: number, issuing strand, address. -/
structure ArrCmd where
  op : ArrOp
  seq : Nat
  strand : StrandNo
  pc : BitVec 21
  /-- what it comes after (R191) -/
  after : Before := {}
  deriving DecidableEq, Repr

/-- The contents of a partial tile (R134). -/
structure PtVal where
  vals : List (BitVec 32)
  keep : BitVec 1024
  deriving DecidableEq, Repr

/-- An array operation under way: what it will write, whether its residue check failed, when it may write. -/
structure ArrFly where
  cmd : ArrCmd
  outs : List (Nat × PtVal)
  bad : Bool
  /-- partial tile index of a residue mismatch -/
  badPt : Nat
  due : Nat
  deriving DecidableEq, Repr

/-- Partial tile states (Table 7.2). -/
inductive PtSt where
  | invalid | pending | ready
  deriving DecidableEq, Repr

/-- A partial tile (R134): state and kind as seen at issue, the number of its last writer issued, the number of the
command whose result it holds, and that result. -/
structure PTile where
  st : PtSt := .invalid
  i32 : Bool := false
  last : Nat := 0
  wrote : Nat := 0
  val : PtVal := ⟨[], 0⟩
  deriving DecidableEq, Repr

/-- A `ptmov.get` waiting for its partial tile (R147). -/
structure PtGet where
  strand : StrandNo
  gen : Nat
  d : BitVec 4
  n : BitVec 2
  r : Nat
  need : Nat
  deriving DecidableEq, Repr

/-- Commands of the adder queue (R142). -/
inductive AddOp where
  | saa (n : BitVec 2) (i32 : Bool) (ea : Nat) (sig : Option VWord) (tau : Option (BitVec 32)) (need : Nat)
  | acc (n : BitVec 2) (i32 : Bool) (ea : Nat) (h : Int) (need : Nat)
  | lazero (ea : Nat)
  | lard (ead ea : Nat) (sig : Option (BitVec 32)) (rm : BitVec 3) (z : Bool)
  | vla (ea : Nat) (a : VWord) (b : Option VWord)
  deriving DecidableEq, Repr

/-- A command of the adder queue. `pts` is the partial tile as read when the command reached the adder. -/
structure AddCmd where
  op : AddOp
  seq : Nat
  strand : StrandNo
  pc : BitVec 21
  running : Bool := false
  due : Nat := 0
  pts : Option PtVal := none
  /-- cycle from which its operands were there and no drain held it up (R142) -/
  ready : Option Nat := none
  deriving DecidableEq, Repr

/-- A drain (R148): source, destination, progress. -/
structure Drain where
  ea : Nat
  dst : Word
  ct : BitVec 4
  z : Bool
  seq : Nat
  strand : StrandNo
  pc : BitVec 21
  running : Bool := false
  elem : Nat := 0
  /-- numbers of the deltas sent (R112) -/
  sent : List Nat := []
  deriving DecidableEq, Repr

/-- An `atb` command (R160). -/
structure Atb where
  tab : Nat
  s0 : Nat
  l : Nat
  ct : BitVec 4
  strand : StrandNo
  seq : Nat
  /-- the table's bytes, once the norm file is read, and the cycle in which the build ends -/
  built : Option (List Byte) := none
  due : Nat := 0
  deriving DecidableEq, Repr

/-- Draws waiting for a table (R163). -/
structure SdrawReq where
  strand : StrandNo
  gen : Nat
  d : BitVec 4
  key : Word
  ctr : BitVec 128
  tab : Nat
  after : Nat
  deriving DecidableEq, Repr

/-- A running `smpl` (R166). -/
structure SmplRun where
  batch : Nat := 0
  /-- cycle in which the batch started in the array -/
  start : Nat := 0
  /-- the batch is under way -/
  busy : Bool := false
  /-- the residue check of the batch failed -/
  bad : Bool := false
  /-- no further batch runs -/
  ended : Bool := false
  /-- the last estimate -/
  last : PtVal
  /-- the next batch has been drawn before the decision: the FIFOs before it, and the cycle from which it has the array -/
  undo : Option (Fifo × Fifo) := none
  next : Option Nat := none
  deriving DecidableEq, Repr

/-- The sampler (R153). The norm files list the entries that are not +0; a cursor reaches 4,096 once the file is full, which
SMST's 12 bits read as 0 (log entry 73). -/
structure Sampler where
  na : List (Nat × BitVec 32) := []
  nb : List (Nat × BitVec 32) := []
  cura : BitVec 13 := 0
  curb : BitVec 13 := 0
  n : BitVec 16 := 0
  mean : Vector (BitVec 32) 32 := Vector.replicate 32 0
  m2 : Vector (BitVec 32) 32 := Vector.replicate 32 0
  stop : Bool := false
  novf : Bool := false
  tapx : Bool := false
  spec : Bool := false
  badt : Bool := false
  atbs : List Atb := []
  draws : List SdrawReq := []
  run : Option SmplRun := none
  deriving DecidableEq, Repr

/-- A command of a copy-engine channel (R180 to R185, R190). -/
structure CopyCmd where
  seq : Nat
  strand : StrandNo
  pc : BitVec 21
  dsp : BitVec 2
  ssp : BitVec 2
  dst : Word
  src : Word
  len : Nat
  ct : BitVec 4
  fl : BitVec 4
  crc : BitVec 32
  gate : BitVec 3
  /-- the follow-on of `cpym`: TY, `.x`, partial tile -/
  follow : Option (BitVec 4 × Bool × BitVec 2) := none
  /-- a gather: relative entry number and the columns -/
  gather : Option (Nat × Nat) := none
  pushed : Nat := 0
  /-- what it comes after (R182, R191) -/
  after : Before := {}
  /-- a line could not be written: the command is never performed (R182, R197, R203) -/
  lost : Bool := false
  started : Bool := false
  /-- cycle from which its bytes move -/
  due : Nat := 0
  /-- a source word gives no value (R354) -/
  stuck : Bool := false
  /-- bytes moved -/
  done : Nat := 0
  /-- remote accesses not yet acknowledged: number and address -/
  wait : List (Nat × Word) := []
  deriving DecidableEq, Repr

/-- A channel of the cluster copy engine (R180, R184, R187, Tables 9.2 and 9.3). -/
structure Chan where
  cmds : List CopyCmd := []
  seq : Nat := 0
  park : Bool := false
  crc : BitVec 32 := 0xFFFFFFFF
  fault : Bool := false
  efr : Word := 0
  gates : Vector (BitVec 8) 8 := Vector.replicate 8 0
  govf : BitVec 8 := 0
  deriving DecidableEq, Repr

/-- An outstanding overlay load (R89). -/
structure Ovl where
  id : Nat
  base : Nat
  len : Nat
  src : Word
  hbm : Bool
  ct : BitVec 4
  strand : StrandNo
  pc : BitVec 21
  parked : Bool := false
  /-- slot of its virtual tile on the host (R258) -/
  slot : Nat := 0
  deriving DecidableEq, Repr

/-- A line of the outbound queue (R195): sender's number, HBM address, bytes. -/
structure OutLine where
  vidx : BitVec 20
  seq : Nat
  va : Word
  n : Nat
  data : BitVec 512
  /-- who pushed it, told of its refusal (R294) -/
  strand : StrandNo := 0
  pc : BitVec 21 := 0
  deriving DecidableEq, Repr

/-- A soft error standing in a 64-bit word (R354). -/
structure SoftErr where
  place : ErrPlace
  due : Bool
  deriving DecidableEq, Repr

/-- A reply that a strand of a slot was owed when its turn ended (R226, R301; the model's own): the strand, the incarnation
that asked, the register, the superstep. -/
structure Owed where
  strand : StrandNo
  gen : Nat
  d : BitVec 5
  ss : BitVec 48
  deriving DecidableEq, Repr

/-- A slot of a host (R257, R258): the virtual tile's registers while it is not resident, whether it has written its
working buffer in this superstep, whether its strand 0 had halted, whether buffer 1 is its standing buffer, and the strands
saved waiting for the release with the length of their instruction. -/
structure VSlot where
  regs : VRegs := {}
  wrote : Bool := false
  halted : Bool := false
  buf1 : Bool := false
  waits : List (StrandNo × Wait × Nat) := []
  /-- replies that its strands are owed since a turn of theirs ended -/
  asked : List Owed := []
  /-- how its turn of this superstep wrote each line, once it has ended (R202) -/
  prof : List (Nat × Bool × BitVec 128 × BitVec 128) := []
  deriving DecidableEq, Repr

/-- A tile position (04_tile). -/
structure Tile where
  /-- RUNNING (Table 4.1), with the group and context that own it -/
  running : Bool := false
  group : Nat := 0
  ctx : Nat := 0
  /-- primary and shadow of a DMR pair (R250) -/
  twin : Option TileId := none
  shadow : Bool := false
  /-- sum of the item CRCs of this superstep (R251) -/
  sig : BitVec 64 := 0
  mem : Mem := []
  errs : List SoftErr := []
  ceSent : Bool := false
  strands : Vector Strand 11 := Vector.replicate 11 {}
  holder : StrandNo := 10
  idle : Nat := 0
  /-- a strand has issued in this cycle (R87) -/
  didIssue : Bool := false
  /-- the resident virtual tile -/
  v : VRegs := {}
  slot : Nat := 0
  slots : List VSlot := []
  /-- the swap of R258 is under way -/
  turning : Bool := false
  galley : List Slot := []
  /-- the galley overflowed in this superstep (Table 10.1) -/
  shut : Bool := false
  outq : List OutLine := []
  locks : List LockBit := []
  /-- last holder of each lock bit (R111) -/
  lastHold : List LockBit := []
  seq : Nat := 0
  opNo : Nat := 0
  /-- a commit or an abort is under way until this cycle (R205, R206) -/
  busyUntil : Nat := 0
  fa : Fifo := {}
  fb : Fifo := {}
  arrQ : List ArrCmd := []
  arrSeq : Nat := 0
  arrFree : Nat := 0
  arrFly : List ArrFly := []
  /-- weights of the draws made for the command at the head (R162) -/
  drawn : Option (List (BitVec 32)) := none
  /-- a source of the array's or the adder's head command gives no value (R354) -/
  stuck : Bool := false
  pt : Vector PTile 4 := Vector.replicate 4 {}
  gets : List PtGet := []
  addQ : List AddCmd := []
  /-- cycle from which each of the adder's 64 lanes is free (R142) -/
  lanes : List Nat := []
  addSeq : Nat := 0
  drains : List Drain := []
  /-- ARST (Table 7.3) -/
  rcount : BitVec 16 := 0
  rpend : Bool := false
  rleft : Bool := false
  inja : Bool := false
  injd : Bool := false
  runit : BitVec 2 := 0
  rpti : BitVec 2 := 0
  rssl : BitVec 40 := 0
  samp : Sampler := {}
  chan : Chan := {}
  /-- sluice terms written in this cycle, as they were (R188) -/
  oldTerms : List (Nat × Word) := []
  /-- counters that sluice terms raise at the start of the next cycle (R187) -/
  raises : List (BitVec 4) := []
  ovls : List Ovl := []
  ovlNo : Nat := 0
  /-- requests whose reply the arrival waits for, each by its strand and generation (R226, R241, R298, R322) -/
  acks : List (StrandNo × Nat) := []
  ecnt : Word := 0
  /-- ECNT when the superstep opened (R360) -/
  ecnt0 : Word := 0
  /-- the cycle in which the superstep opens: its commit or abort work lasts until then (R205, R206, R360) -/
  opensAt : Nat := 0
  deriving DecidableEq, Repr

/-- States of a cluster (R78); RUNNING and AWAKE are told apart by the tiles. -/
inductive Power where
  | gated | retained | awake | test
  deriving DecidableEq, Repr

/-- A cluster (R78, R238, Tables 12.6 and 20.2). -/
structure Cluster where
  power : Power := .gated
  /-- a wake is under way and ends in this cycle -/
  usableAt : Option Nat := none
  idleSince : Nat := 0
  /-- cycle of its retention (R238, Table 12.4) -/
  retAt : Nat := 0
  placed : Option Nat := none
  tpend : Bool := false
  tfail : Bool := false
  records : Vector Word 9 := Vector.replicate 9 0
  /-- the start gate is open (R256) -/
  gate : Bool := false
  deriving DecidableEq, Repr

/-- The decision point's states (Table 15.4, Table 15.8). -/
inductive DpSt where
  | open_ | gathering | commit | abort
  deriving DecidableEq, Repr

/-- States of a group (Table 14.1). -/
inductive GroupSt where
  | placed | running | reshaping | ended
  deriving DecidableEq, Repr

/-- A PARK message on its way or standing (R272): when it is due, who sent it in which attempt, assert or withdraw. -/
structure ParkMsg where
  due : Nat
  tile : TileId
  ss : BitVec 48
  att : Nat
  on : Bool
  deriving DecidableEq, Repr

/-- Traffic on one leg of its way that the far end of the link has not acknowledged (R269, R329, R335): the flow's source and
destination as numbers, the link and the chiplet that it leaves from (4 is the I/O chiplet), the virtual channel, the group
whose traffic it is, the step that it brings and its cycle, the cycle in which it is across the link and that of the
acknowledgement. -/
structure Flow where
  src : Nat
  dst : Nat
  link : Nat
  from_ : Nat
  vc : BitVec 2
  group : Option Nat
  ev : Ev
  due : Nat
  across : Nat
  till : Nat
  deriving DecidableEq, Repr

/-- Traffic that its sender holds because no link of a path can carry it (R329, R336). -/
structure HeldSend where
  src : Nat
  dst : Nat
  die : Nat
  vc : BitVec 2
  group : Option Nat
  delay : Nat
  ev : Ev
  deriving DecidableEq, Repr

/-- A node of the barrier tree with what it has combined (R265, R267). -/
structure TreeNode where
  at_ : BarNode
  msg : BarMsg
  deriving DecidableEq, Repr

/-- What a decision took up (Table 14.1): a cancel, a save, tiles to give up, moves; whether its release ends the group,
whether every strand 0 had halted, whether the attempt budget was spent. A request that comes at or after the decision counts
toward the next. -/
structure Plan where
  cancel : Bool := false
  saving : Bool := false
  give : Nat := 0
  /-- a give-up request has come since the decision: it replaces what this one leaves unmet -/
  asked : Bool := false
  moves : List (Nat × TileId) := []
  ends : Bool := false
  halted : Bool := false
  fails : Bool := false
  deriving DecidableEq, Repr

/-- A group (14_group) with its decision point (R273). -/
structure Group where
  id : Nat
  ctx : Nat
  st : GroupSt := .placed
  base : Nat := 0
  v : Nat := 0
  pmin : Nat := 0
  hosts : List TileId := []
  shadows : List TileId := []
  kimg : Word := 0
  arg : Word := 0
  node : ObjId
  dev : Nat := 0
  give : Nat := 0
  moves : List (Nat × TileId) := []
  cancel : Bool := false
  /-- virtual ordinals whose standing image is in buffer 1 (R257) -/
  standing : List Nat := []
  dp : DpSt := .open_
  ss : BitVec 48 := 0
  att : Nat := 0
  count : Nat := 0
  opnd : Word := 0
  opc : BitVec 4 := 0
  bid : Option (BitVec 2) := none
  timer : Nat := 0
  tmo : Nat := 0
  cause : BitVec 8 := 0
  /-- virtual tile whose ABORT decided (R248) -/
  who : Option (BitVec 20) := none
  /-- cycle of the decision -/
  decideAt : Nat := 0
  parks : List TileId := []
  /-- PARK messages on their way (R272) -/
  parkMsgs : List ParkMsg := []
  nodes : List TreeNode := []
  bcfgW : List BcfgWrite := []
  bcfg : Vector Word 4 := Vector.replicate 4 0
  res : Vector Word 4 := Vector.replicate 4 0
  /-- tiles that have yet to run a release, each with it, in the order of the releases -/
  todo : List (TileId × Release) := []
  /-- held requests by virtual index, taken up at the commit's decision -/
  gathered : List (BitVec 20 × TileId × List Held) := []
  /-- energy in pJ that tiles have credited to each release under way (R360) -/
  energy : List (Release × Nat) := []
  replaying : Bool := false
  /-- primaries with DMRMIS in the previous attempt, and in this one (R251) -/
  dmrBad : List TileId := []
  dmrNow : List TileId := []
  plan : Plan := {}
  /-- tiles to be used after the reshape under way -/
  newHosts : List TileId := []
  saving : Bool := false
  /-- of a saved group: the registers of its virtual tiles by ordinal, for those that no image carries (R221) -/
  kept : List (Nat × VRegs) := []
  deriving DecidableEq, Repr

/-- Section of a kernel image (Table 13.2). -/
structure Section where
  kind : Nat
  pofs : Nat
  fofs : Nat
  slen : Nat
  deriving DecidableEq, Repr

/-- States of a kernel (Table 13.4). -/
inductive KernelSt where
  | loaded | running | retrying | failed | retired
  deriving DecidableEq, Repr

/-- A commit whose energy the record of its kernel has yet to take up (R252): its cycle, the group's node number, the group
and the superstep, and the energy in nJ once every tile has run the release. -/
structure Sample where
  at_ : Nat
  node : Nat
  group : Nat
  ss : BitVec 48
  energy : Option Nat := none
  deriving DecidableEq, Repr

/-- A loaded kernel and its record (R244, Table 13.5). -/
structure Kernel where
  kimg : Word
  st : KernelSt := .loaded
  det : Bool := false
  dmr : Bool := false
  att : Nat := 1
  partw : Word := 0
  ilen : Nat := 0
  entries : List (BitVec 32) := []
  ovb : Word := 0
  tvec : Word := 0
  idlw : Word := 20
  amask : BitVec 256 := 0
  secs : List Section := []
  /-- pages of the image with the bits that their entries had before the load (R246) -/
  pages : List (Word × Word) := []
  groups : Nat := 0
  fails : Nat := 0
  dmrmis : Nat := 0
  eavg : Option Word := none
  elost : Word := 0
  ncommit : Word := 0
  /-- commits not yet in the record, in the order in which they go there (R252) -/
  samples : List Sample := []
  deriving DecidableEq, Repr

/-- A queue of a context (R230). Reservations are counted until their commit. -/
structure Queue where
  open_ : Bool := false
  msgs : List (BitVec 512) := []
  rsv : Nat := 0
  deriving DecidableEq, Repr

/-- A work object and its record (R233, Table 12.3). -/
structure ObjRec where
  id : ObjId
  st : ObjStatus := .pending
  closed : Bool := false
  rep : Bool := false
  note : Bool := false
  naddr : Word := 0
  aux : BitVec 4 := 0
  ss : BitVec 48 := 0
  /-- a cancel has named it (R235) -/
  canc : Bool := false
  /-- for a job: its place among the context's completed jobs (R234) -/
  doneNo : Nat := 0
  deriving DecidableEq, Repr

/-- States of a context (Table 11.4); the order gives CTXST.STATE. -/
inductive CtxSt where
  | free | building | live | saving | saved | sweeping
  deriving DecidableEq, Repr

/-- A page transfer under way (R293). `cts` are the counters to raise when it ends, by virtual tile index. -/
structure Xfer where
  va : Word
  inbound : Bool
  /-- the frame freed or the slot freed at the end, and the slot or frame taken -/
  from_ : Nat
  to_ : Nat
  cts : List (BitVec 20 × BitVec 4)
  /-- the transfer runs at the page's home on another chip (R302) and ends at cycle `to_` -/
  away : Bool := false
  deriving DecidableEq, Repr

/-- A fault that awaits the runtime (R294, R304): the address, the reason (0 OFFLOADED, 1 UNMAPPED, 2 NOFRAME), the logical
device of the tile that made the access. -/
structure FaultRec where
  va : Word
  reason : Nat
  dev : Nat
  deriving DecidableEq, Repr

/-- An `offl` of a page that the running checkpoint has not copied (R299): whose it is, its destination, page and counter. -/
structure OfflWait where
  tile : TileId
  strand : StrandNo
  gen : Nat
  d : BitVec 5
  va : Word
  cts : List (BitVec 20 × BitVec 4)
  deriving DecidableEq, Repr

/-- A node of the tree within the chip (R309, R313): a contributor's leaf, by its place among the members, or a two-input
adder. -/
inductive CNodeKind where
  | leaf (mem : Nat)
  | adder (l r : Nat)
  deriving DecidableEq, Repr

/-- A node: its depth in adders above it (R318), and the digit planes it has sent of each segment. -/
structure CNode where
  kind : CNodeKind
  depth : Nat := 0
  sent : List Nat := []
  deriving DecidableEq, Repr

/-- A member of a collective: its virtual ordinal and index, its slot and request; its source's elements as FP32 and the
segments read (R311); per segment what has landed: 0 nothing, then the header and the specials plane, then digit planes. -/
structure CMem where
  ord : Nat
  idx : BitVec 20
  slot : BitVec 3
  crb : Crb
  vals : List (BitVec 32) := []
  read : Nat := 0
  landed : List Nat := []
  deriving DecidableEq, Repr

/-- A running collective (17_collective): whether all have launched, inputs received by the place of their member, whether
the node has closed, exponent E of each block, NPL of the header, FP32 results, cutoffs that consumers have set. -/
structure Coll where
  inst : BitVec 64
  group : Nat
  crb : Crb
  mems : List CMem := []
  all : Bool := false
  /-- the tree table's read was refused (R308) -/
  refused : Bool := false
  expos : List (Nat × List (Option Int)) := []
  vals : List (Nat × List (BitVec 32)) := []
  closed : Bool := false
  nodes : List CNode := []
  exps : List Int := []
  npl : Nat := 0
  out : List (BitVec 32) := []
  cuts : List (Nat × Nat) := []
  /-- members whose input came after the node went on without it (R317) -/
  lates : List Nat := []
  deriving DecidableEq, Repr

/-- A context (11_context). -/
structure Ctx where
  st : CtxSt := .free
  mode : BitVec 2 := 0
  debug : Bool := false
  trace : Bool := false
  sab : Word := 0
  z : Nat := 0
  /-- segment entries that are not zero, by virtual index, and those that wait for a release (R220) -/
  seg : List (Nat × Word) := []
  segPend : List (Nat × Word × Nat) := []
  enbl : Vector (BitVec 1024) 4 := Vector.replicate 4 0
  tbr : Word := 0
  frames : List (Nat × List Nat) := []
  slots : List (Nat × List Nat) := []
  /-- the device whose list each listed frame and slot came from (R292) -/
  frameFrom : List (Nat × Nat) := []
  slotFrom : List (Nat × Nat) := []
  /-- the range of gather patterns that the monitor gave it (R189): the first entry and how many -/
  sgtLo : Nat := 0
  sgtN : Nat := 0
  meas : BitVec 384 := 0
  queues : Vector Queue 16 := Vector.replicate 16 {}
  objs : List ObjRec := []
  jobsDone : Nat := 0
  kernels : List Kernel := []
  granted : List TileId := []
  colls : List Coll := []
  collNo : Nat := 0
  collLog : List (BitVec 32 × BitVec 8 × BitVec 384) := []
  xfers : List Xfer := []
  /-- write-backs released and not yet drained, in the order of R195 -/
  drains : List WriteBack := []
  /-- accesses parked (R294) or waiting for an INBOUND page (R293) -/
  parked : List PageAcc := []
  pinWait : List (TileId × StrandNo × Nat × BitVec 5 × Word) := []
  /-- faults awaiting the runtime (R294) -/
  faults : List FaultRec := []
  /-- pages imposed until the next commit of a group (R298) -/
  imposed : List (Nat × Word) := []
  /-- CKST, the pages of the last checkpoint (address, bytes by offset), the counter that its end raises (R299) -/
  ckst : Word := 0
  ckCopy : List (Word × Mem) := []
  ckCt : Option (BitVec 20 × BitVec 4) := none
  /-- where each page's bytes end in the running copy, the copy's bytes, how many were left at a cycle, of how many in all
  the copies running then (R23, R299) -/
  ckEnds : List (Word × Nat) := []
  ckSize : Nat := 0
  ckLeft : Nat := 0
  ckAt : Nat := 0
  ckAll : Nat := 0
  /-- `offl` requests that wait for the copy (R299) -/
  offlWait : List OfflWait := []
  /-- sweeping: which round, cycle of the token, tiles scrubbed and clean (R222) -/
  sweepRound : Nat := 0
  sweepTiles : List TileId := []
  /-- the monitor's map of saved groups (R221) -/
  savedGroups : List Group := []
  deriving DecidableEq, Repr

/-- A pool node of the dispatcher (R231, R236). -/
structure PoolNode where
  ctx : Nat
  dev : Nat
  prio : Nat
  order : Nat
  node : ObjId
  kimg : Word
  v : Nat
  pmin : Nat
  edecl : Nat
  trise : Nat
  arg : Word
  pred : List Nat
  byp : Nat := 0
  deriving DecidableEq, Repr

/-- The graph dispatcher (12_queue). -/
structure Dispatcher where
  pool : List PoolNode := []
  order : Nat := 0
  rr : Nat := 0
  /-- DPOL (Table 12.4) -/
  ten : Bool := false
  gatd : BitVec 16 := 1000
  retd : BitVec 16 := 50
  groupNo : Nat := 0
  /-- written by `idle.set`, for the next admission step (R243) -/
  dpolW : Option Word := none
  deriving DecidableEq, Repr

/-- A die (20_energy): EPWR, ERES, ETHM. -/
structure Die where
  enabled : BitVec 1024 := 0
  plim : BitVec 16 := 700
  eres : Int := 7000000000
  /-- picojoules that the tiles have drawn since the last tick (R359) -/
  drawn : Nat := 0
  tlim : BitVec 16 := 9500
  tmax : BitVec 16 := 0
  /-- HEAD: 0 at reset (Table 20.1), from the first tick on TLIM - TMAX, or 0 when that is negative (R361; log entry 82) -/
  head : BitVec 16 := 0
  ets : Vector (BitVec 16) 16 := Vector.replicate 16 0
  /-- largest reading of each of the last 100 µs (R361) -/
  peaks : List (BitVec 16) := []
  /-- EPWR and ETHM as written, from the next tick on (R363) -/
  plimW : Option (BitVec 16) := none
  tlimW : Option (BitVec 16) := none
  deriving DecidableEq, Repr

/-- Link states (Table 18.3); the order gives LST.STATE. -/
inductive LinkSt where
  | down | training | up | overtop | stepping | degraded | failed
  deriving DecidableEq, Repr

/-- A barrier message that waits at a link for the acknowledgement of earlier data (R269): the flits, the cycle by which the
other traffic is acknowledged, the die, the group and what the message brings after how many cycles more. -/
structure BarWait where
  seqs : List (BitVec 12)
  after : Nat
  die : Nat
  group : Option Nat
  delay : Nat
  ev : Ev
  deriving DecidableEq, Repr

/-- One direction of a link (R331, R332). -/
structure LinkDir where
  /-- flits that the sender holds: the link is not operational, the replay buffer is full, the channel has no credit, or a
  barrier message waits for data (R269, R331, R336) -/
  wait : List Flit := []
  /-- barrier messages of the package that wait for data (R269) -/
  barWait : List BarWait := []
  /-- flits with payload in this 64 µs interval (R339) -/
  paid : Nat := 0
  seq : BitVec 12 := 0
  buf : List (BitVec 12 × Flit) := []
  eseq : BitVec 12 := 0
  nakOut : Bool := false
  /-- rewinds since the last progress of ACK (R335) -/
  rewinds : Nat := 0
  /-- cycle from which RTO runs (R332) -/
  progress : Nat := 0
  /-- what each virtual channel has received, in order -/
  delivered : List (BitVec 2 × List Byte) := []
  /-- the sender's credits on each virtual channel (R331; log entry 94) -/
  credit : Vector Nat 4 := Vector.replicate 4 1024
  deriving DecidableEq, Repr

/-- A link (18_link, Tables 18.5 to 18.8). -/
structure Link where
  st : LinkSt := .down
  step : BitVec 3 := 0
  gcap : BitVec 3 := 6
  half : Bool := false
  spuse : BitVec 4 := 0
  spret : BitVec 4 := 0
  degc : BitVec 16 := 0
  ret : BitVec 64 := 0
  /-- lanes retired since the training or retrain under way began: the next one applies them (R337) -/
  retNew : BitVec 68 := 0
  lcrc : BitVec 64 := 0
  lrep : BitVec 64 := 0
  flits : BitVec 32 := 0
  rew : BitVec 32 := 0
  auto_ : Bool := true
  oven : Bool := false
  target : BitVec 3 := 2
  floor_ : BitVec 3 := 0
  rmax : BitVec 16 := 16
  /-- cold reset has ended and training has yet to start (Table 18.3) -/
  cold : Bool := false
  /-- failures in a row (Table 18.3) -/
  fails : Nat := 0
  /-- the step that the retrain under way brings -/
  want : BitVec 3 := 0
  /-- a step or a retirement waits for the next retrain (R337) -/
  pending : Bool := false
  /-- cycle of the last backoff, with the cap that it set (R337) -/
  backoff : Nat × BitVec 3 := (0, 6)
  /-- `lnkset.down` waits for the replay buffers to empty -/
  closing : Bool := false
  /-- cycle in which the training or the retrain ends -/
  busyUntil : Nat := 0
  d0 : LinkDir := {}
  d1 : LinkDir := {}
  deriving DecidableEq, Repr

/-- What is told to the outside (R222, R226, R228, R230, R234, R246, R247, R248, R294, R308, R353). -/
inductive Report where
  | offer (ctx q status : Nat)
  | completion (ctx : Nat) (o : ObjId) (rec : Word)
  | loadRefused (ctx : Nat) (kimg : Word) (check : Nat)
  | kernelFailed (ctx : Nat) (kimg : Word) (vidx : Option (BitVec 20)) (ss : BitVec 48) (cause : BitVec 8)
  | badpart (ctx : Nat) (kimg : Word)
  | killed (ctx : Nat) (cause : BitVec 8)
  | fatal (ctx : Nat) (cause : BitVec 8)
  | packageFatal
  | mark (ctx : Nat) (v : BitVec 36) (x : Word)
  | imageRefused
  | attestation (ctx : Nat) (rec : List Byte)
  | fault (ctx : Nat) (va : Word) (write : Bool) (reason : Nat) (tile : TileId) (chip : BitVec 8)
  | collDigest (ctx : Nat) (id : BitVec 32) (alg : BitVec 8) (digest : BitVec 384)
  /-- the 32 bytes of a trap record (Table 19.2), and from a trap unit the 128 of its bitmap (R352) -/
  | record (bytes : List Byte)
  | service (ctx : Nat) (tile : TileId) (strand : StrandNo) (s : BitVec 16) (arg : Word)
  | refusedRequest (ctx : Nat)
  deriving DecidableEq, Repr

/-- An entry of a row collector (R352): record and the cycle in which it was taken. -/
structure RowEntry where
  die : Nat
  row : Nat
  rcd : TrapRec
  at_ : Nat
  deriving DecidableEq, Repr

/-- An entry of a trap unit (R352): the first record, the reporters, the cycle in which it was taken, the group whose next
release delivers it. -/
structure UnitEntry where
  die : Nat
  rcd : TrapRec
  bitmap : BitVec 1024
  at_ : Nat
  group : Option Nat
  deriving DecidableEq, Repr

/-- Boot (R216): the ROM waits for an image, the image runs, the runtime is loaded. -/
inductive Boot where
  | waiting | monitor | runtime
  deriving DecidableEq, Repr

/-- Root monitor, boot and measurements (R216, R217). -/
structure Monitor where
  boot : Boot := .waiting
  m1 : BitVec 384 := 0
  m2 : BitVec 384 := 0
  /-- `ctxs.new` refused until cold reset (R222) -/
  dead : Bool := false
  deriving DecidableEq, Repr

/-- An HBM stack's gather unit (R189): pattern table and SGF. The stack's bytes are in `State.hbm`. -/
structure Stack where
  table : Vector Word 16 := Vector.replicate 16 0
  sgf : Word := 0
  deriving DecidableEq, Repr

/-- The package. -/
structure State where
  /-- CYC, unwrapped (R91 wraps it on reading) -/
  cycle : Nat
  /-- the strand whose instruction `exec` runs (the model's own) -/
  cur : TileId × StrandNo
  /-- tiles below this one have had their issue in this cycle (the model's own) -/
  issued : Nat
  /-- number of the next free value (the model's own; log entry 2) -/
  free : Nat
  /-- steps to come with their due cycle, in order (the model's own) -/
  agenda : List (Nat × Ev)
  /-- operands of the hardware step that `exec` runs (the model's own) -/
  ev : Option Ev
  chip : BitVec 8
  /-- tiles that differ from a tile at reset, by position; 4096 is the root monitor core -/
  tiles : List (TileId × Tile)
  /-- clusters that differ from a cluster at reset -/
  clusters : List (ClusterId × Cluster)
  dies : Vector Die 4
  /-- contexts 1 to 31 at their number; index 0 is unused -/
  ctxs : Vector Ctx 32
  groups : List Group
  disp : Dispatcher
  /-- HBM: byte a of stack k at address k * 2^40 + a (R19, R215) -/
  hbm : Mem
  stk : Vector Stack 8
  /-- the safe tier: byte o of slot n of context c at (c * 2^28 + n) * 2^15 + o (R292) -/
  tier : Mem
  links : Vector Link 64
  /-- the route table: chips with the port that leads to each (R329) -/
  routes : List (Nat × Nat)
  /-- unacknowledged traffic on the links, and traffic that no link can carry now (R329; the model's own) -/
  flows : List Flow
  held : List HeldSend
  rows : List RowEntry
  units : List UnitEntry
  mon : Monitor
  reports : List Report
  deriving DecidableEq, Repr

/-- Why a local access gives or writes nothing: no slot (R197), a conflict with its INFO (R203), an uncorrectable error
in a word that it reads, with the state in which it has been reported (R354). -/
inductive WErr where
  | galley (line : Nat)
  | conflict (info : BitVec 32)
  | ecc (s : State)
  deriving DecidableEq, Repr

/-- DET: may a strand read the working copy of a line, must it take the standing version, or does it conflict (R207,
R208)? The UNDO tag notes a strand that reads what it wrote. -/
inductive DetView where
  | work
  | stand (g : Slot)
  | clash (other : Nat)
  deriving DecidableEq, Repr

/-- What a write of a stream piece comes to: written, and whether every line was; refused at an address; parked at one. -/
inductive Put where
  | written (s : State) (whole : Bool)
  | refused (addr : Nat)
  | parked (va : Word)
  deriving DecidableEq, Repr

/-- What an instruction's body comes to (R55, R63, R64): it completes and the strand goes on at the successor; it
completes and the strand goes on at an address; it traps with no effect; it waits and is examined again; it waits and an
event completes it; it leaves the strand as the state says. -/
inductive Act where
  | done (s : State)
  | goto (pc : BitVec 21) (s : State)
  | trap (c : Cause) (info : BitVec 32)
  | wait (w : Wait)
  | block (w : Wait) (s : State)
  | stop (s : State)
  deriving DecidableEq, Repr

/-- Who may execute a form (R55 check 8, R212, R343): any agent; the strand 0 of any agent; a tile's strands only; a tile's
strand 0 only; the root monitor only. -/
inductive Who where
  | any
  | zero
  | tile
  | control
  | monitor
  deriving DecidableEq, Repr

/-- A source position (R64): the register and whether an empty one traps. -/
inductive Src where
  | g (r : GSrc)
  | w (r : WSrc)
  | v (r : VSrc)
  deriving DecidableEq, Repr

/-- What the translation of an HBM access comes to (R288 to R294): refused; parked on an entry that is not valid or on an
offloaded page; waiting for an inbound page or for a write-back of the byte (R195); held by another chip; or the page's
entry and where its frame lies: device and frame within it. -/
inductive XRes where
  | refused
  | unmapped
  | offloaded
  | inbound
  | behind
  | away (home : BitVec 8)
  | ok (entry : Word) (dev frame : Nat)
  deriving DecidableEq, Repr

/-- What the fetch at a strand's PC comes to (R55 checks 1 to 6, R88, R89): an instruction, a trap, or a wait. -/
inductive FetchRes where
  | run (i : Instr) (s : State)
  | fault (c : Cause)
  | stall (w : Wait) (s : State)
  deriving DecidableEq, Repr

/-- The enable bitmap that the fuses hold (R16). -/
def fusedBitmap (d : Nat) : BitVec 1024 :=
  BitVec.ofNat 1024 ((List.range 1024).foldl (fun a i => if Config.fusedEnable d i then a + 2 ^ i else a) 0)

/-- The machine right after cold reset (R16, R78, R216, R239, R280, R342, Tables 4.5, 12.4, 18.5 to 18.8, 20.1):
the boot ROM waits for a monitor image, every link is DOWN and is to train, nothing else runs. -/
def State.reset : State :=
  { cycle := 0, cur := (0, 0), issued := 0, free := 0
    agenda := []
    ev := none, chip := 0, tiles := [], clusters := []
    dies := Vector.ofFn (fun d => { enabled := fusedBitmap d.val })
    ctxs := Vector.replicate 32 {}, groups := [], disp := {}, hbm := [], stk := Vector.replicate 8 {}, tier := []
    links := Vector.replicate 64 { cold := true }
    routes := [], flows := [], held := [], rows := [], units := [], mon := {}, reports := [] }

end Sys2Proof.Machine
end

