-- ==== Sys2Proof/Machine/Ops.lean ====
section
/-! DEFINITION. The named operations over the state: maps and memory, access to tiles, strands, contexts and groups,
partitions (R80 to R82), the galley (R194 to R208), soft errors (R354), trap records and votes (R271, R351), the trap
entry (R347 to R349) and the return from it (R225). -/

namespace Sys2Proof.Machine

open Sys2Proof

/-! ### Maps and memory -/

/-- The value under a key, or a default. -/
def assocGet {α : Type} (d : α) (k : Nat) : List (Nat × α) → α
  | [] => d
  | e :: r => if e.1 = k then e.2 else assocGet d k r

/-- Set the value under a key; keys that were rising stay rising. -/
def assocSet {α : Type} (k : Nat) (v : α) : List (Nat × α) → List (Nat × α)
  | [] => [(k, v)]
  | e :: r => if e.1 = k then (k, v) :: r else if k < e.1 then (k, v) :: e :: r else e :: assocSet k v r

/-- One byte; an unlisted address reads 0 (R78; log entry 8). -/
def Mem.read (m : Mem) (a : Nat) : Byte := assocGet 0 a m

/-- Write one byte, keeping the canonical form. -/
def Mem.write (m : Mem) (a : Nat) (b : Byte) : Mem :=
  if b = 0 then m.filter (fun e => decide (e.1 ≠ a)) else assocSet a b m

/-- Addresses strictly rising. -/
def Mem.rising : List Nat → Bool
  | [] => true
  | [_] => true
  | a :: b :: r => decide (a < b) && Mem.rising (b :: r)

/-- The canonical form: addresses strictly rising, no byte 0 listed. -/
def Mem.wf (m : Mem) : Bool := Mem.rising (m.map (fun e => e.1)) && m.all (fun e => decide (e.2 ≠ 0))

/-- `n` bytes from an address. -/
def Mem.bytes (m : Mem) (a n : Nat) : List Byte := (List.range n).map (fun i => m.read (a + i))

/-- Write bytes from an address. -/
def Mem.store (m : Mem) (a : Nat) (bs : List Byte) : Mem :=
  match bs with
  | [] => m
  | b :: r => Mem.store (m.write a b) (a + 1) r

/-- Set `n` bytes to 0 (R78, R222). -/
def Mem.clear (m : Mem) (a n : Nat) : Mem := m.filter (fun e => decide (e.1 < a ∨ a + n ≤ e.1))

/-- The little-endian number of bytes. -/
def natOf (bs : List Byte) : Nat := bs.foldr (fun b a => b.toNat + 256 * a) 0

/-- The `n` little-endian bytes of a number. -/
def bytesOf (n x : Nat) : List Byte := (List.range n).map (fun i => BitVec.ofNat 8 (x / 256 ^ i))

/-! ### Tiles, strands, contexts, groups -/

/-- A tile position. -/
def State.tile (s : State) (t : TileId) : Tile := assocGet {} t s.tiles

/-- Replace a tile. -/
def State.setTile (s : State) (t : TileId) (x : Tile) : State := { s with tiles := assocSet t x s.tiles }

/-- Change a tile. -/
def State.modTile (s : State) (t : TileId) (f : Tile → Tile) : State := s.setTile t (f (s.tile t))

/-- Change the virtual-scope registers of a tile. -/
def State.modV (s : State) (t : TileId) (f : VRegs → VRegs) : State := s.modTile t (fun T => { T with v := f T.v })

/-- A strand. -/
def State.strand (s : State) (t : TileId) (n : StrandNo) : Strand := (s.tile t).strands[n.val]

/-- Change a strand of a tile. -/
def Tile.modStrand (T : Tile) (n : StrandNo) (f : Strand → Strand) : Tile :=
  { T with strands := T.strands.set n.val (f T.strands[n.val]) }

/-- Change a strand. -/
def State.modStrand (s : State) (t : TileId) (n : StrandNo) (f : Strand → Strand) : State :=
  s.modTile t (fun T => T.modStrand n f)

/-- A context; numbers above 31 name none. -/
def State.ctx (s : State) (c : Nat) : Ctx := (s.ctxs[c]?).getD {}

/-- Change a context. -/
def State.modCtx (s : State) (c : Nat) (f : Ctx → Ctx) : State :=
  { s with ctxs := s.ctxs.setIfInBounds c (f (s.ctx c)) }

/-- A group by its number. -/
def State.group (s : State) (g : Nat) : Option Group := s.groups.find? (fun x => x.id == g)

/-- Change a group. -/
def State.modGroup (s : State) (g : Nat) (f : Group → Group) : State :=
  { s with groups := s.groups.map (fun x => if x.id = g then f x else x) }

/-- A cluster. -/
def State.cluster (s : State) (c : ClusterId) : Cluster := assocGet {} c s.clusters

/-- Change a cluster. -/
def State.modCluster (s : State) (c : ClusterId) (f : Cluster → Cluster) : State :=
  { s with clusters := assocSet c (f (s.cluster c)) s.clusters }

/-- A die. -/
def State.die (s : State) (d : Nat) : Die := (s.dies[d]?).getD {}

/-- Change a die. -/
def State.modDie (s : State) (d : Nat) (f : Die → Die) : State :=
  { s with dies := s.dies.setIfInBounds d (f (s.die d)) }

/-- A kernel of a context by its image address (R246). -/
def Ctx.kernel (x : Ctx) (kimg : Word) : Option Kernel := x.kernels.find? (fun k => k.kimg == kimg)

/-- Change a kernel of a context. -/
def Ctx.modKernel (x : Ctx) (kimg : Word) (f : Kernel → Kernel) : Ctx :=
  { x with kernels := x.kernels.map (fun k => if k.kimg = kimg then f k else k) }

/-- The group that runs on a tile. -/
def State.groupOf (s : State) (t : TileId) : Option Group := if (s.tile t).running then s.group (s.tile t).group else none

/-- The kernel that runs on a tile. -/
def State.kernelOf (s : State) (t : TileId) : Option Kernel :=
  match s.groupOf t with
  | some g => (s.ctx g.ctx).kernel g.kimg
  | none => none

/-- Does the tile run a DET kernel (R207)? -/
def State.det (s : State) (t : TileId) : Bool := ((s.kernelOf t).map (fun k => k.det)).getD false

/-- Put a step into the agenda, due `d` cycles from now, behind those due no later. -/
def agendaAdd (due : Nat) (e : Ev) : List (Nat × Ev) → List (Nat × Ev)
  | [] => [(due, e)]
  | h :: r => if h.1 ≤ due then h :: agendaAdd due e r else (due, e) :: h :: r

/-- Schedule a step `d` cycles from now. -/
def State.post (s : State) (d : Nat) (e : Ev) : State := { s with agenda := agendaAdd (s.cycle + d) e s.agenda }

/-- Schedule a step now, before all others that are due. -/
def State.postFirst (s : State) (e : Ev) : State := { s with agenda := (s.cycle, e) :: s.agenda }

/-- Schedule steps for this cycle, in order. -/
def State.postAll (s : State) (es : List Ev) : State := es.foldl (fun s e => s.post 0 e) s

/-- Report to the outside. -/
def State.report (s : State) (r : Report) : State := { s with reports := s.reports ++ [r] }

/-- The next free value (log entry 2). -/
def State.freshNat (s : State) : Nat × State := (Config.freeNat s.free, { s with free := s.free + 1 })

/-! ### Positions (R15, R18, R106) -/

/-- The root monitor core's position. -/
def monitorTile : TileId := 4096

/-- Die of a tile. -/
def dieOf (t : TileId) : Nat := t / 1024

/-- Row of a tile on its die. -/
def rowOf (t : TileId) : Nat := t / 32 % 32

/-- Column of a tile on its die. -/
def colOf (t : TileId) : Nat := t % 32

/-- Cluster of a tile (R15). -/
def clusterOf (t : TileId) : ClusterId := dieOf t * 128 + rowOf t / 2 * 8 + colOf t / 4

/-- Position of a tile in its cluster (R15). -/
def posOf (t : TileId) : Nat := rowOf t % 2 * 4 + colOf t % 4

/-- The tile at a position of a cluster (R15). -/
def tileAt (c : ClusterId) (p : Nat) : TileId :=
  c / 128 * 1024 + (c % 128 / 8 * 2 + p / 4 % 2) * 32 + c % 8 * 4 + p % 4

/-- |a - b|. -/
def absDiff (a b : Nat) : Nat := a - b + (b - a)

/-- A link (Table 18.1). -/
def State.link (s : State) (l : Nat) : Link := (s.links[l]?).getD {}

/-- Change a link. -/
def State.modLink (s : State) (l : Nat) (f : Link → Link) : State :=
  { s with links := Vector.ofFn (fun i : Fin 64 => if i.val = l then f s.links[i] else s.links[i]) }

/-- A direction of a link. -/
def Link.dir (k : Link) (d : Bool) : LinkDir := if d then k.d1 else k.d0

/-- A link with another direction. -/
def Link.setDir (k : Link) (d : Bool) (x : LinkDir) : Link := if d then { k with d1 := x } else { k with d0 := x }

/-- Is a link neither FAILED nor DOWN (R329)? -/
def Link.usable (k : Link) : Bool := k.st != .failed && k.st != .down

/-- The path from a die to the I/O chiplet (Table 18.1). -/
def ioLinks (d : Nat) : List Nat := (List.range 8).map (fun m => 8 * d + m)

/-- The path between two ring neighbours (Table 18.1). -/
def ringLinks (a b : Nat) : List Nat := (List.range 4).map (fun m => 32 + 4 * (if (a + 1) % 4 = b then a else b) + m)

/-- May a link be given a flow (R329, R344)? -/
def Link.assignable (k : Link) : Bool := k.usable && !k.closing

/-- The link of a path on which a flow has traffic that is not acknowledged (R329). -/
def flowOn (s : State) (src dst : Nat) (p : List Nat) : Option Nat :=
  (s.flows.find? (fun f =>
    f.src == src && f.dst == dst && p.contains f.link && decide (s.cycle < f.till) && (s.link f.link).usable)).map (fun f => f.link)

/-- The link of a path that a flow takes (R329): the one that it is on, until its traffic there is acknowledged, else one by
the hash. -/
def flowLink (s : State) (src dst : Nat) (p : List Nat) : Option Nat :=
  match flowOn s src dst p with
  | some l => some l
  | none =>
    let us := p.filter (fun l => (s.link l).assignable)
    us[Config.flowHash src dst % us.length]?

/-- The cycle from which a link carries traffic (R21, R336): one under training holds it. -/
def linkFrom (s : State) (l : Nat) : Nat :=
  if (s.link l).st = .training ∨ (s.link l).st = .stepping then (s.link l).busyUntil else 0

/-- The paths that a flow between two chiplets crosses, each with the chiplet that it leaves (R13, R329): none, the ring path,
or, for a diagonal and for ring neighbours without a usable link, the two paths of the I/O chiplet, whose number is 4. -/
def pathsOf (s : State) (src dst a b : Nat) : List (Nat × List Nat) :=
  if a = b then []
  else if b = 4 then [(a, ioLinks a)]
  else if a = 4 then [(4, ioLinks b)]
  else
    let io := [(a, ioLinks a), (4, ioLinks b)]
    let ring := ringLinks a b
    if absDiff a b = 2 then io
    else if (flowOn s src dst ring).isSome then [(a, ring)]
    else if (flowOn s src dst (ioLinks a)).isSome || !ring.any (fun l => (s.link l).assignable) then io
    else [(a, ring)]

/-- The scale-up ports that lead to another chip (R329): the one that the route table names, else those that join it. -/
def portsTo (s : State) (chip : Nat) : List Nat :=
  match s.routes.find? (fun r => r.1 == chip) with
  | some r => [48 + r.2 % 16]
  | none => ((List.range 16).filter (fun p => Config.portPeer p == chip)).map (fun p => 48 + p)

/-- The number of another chip as a flow's destination. -/
def chipDst (chip : Nat) : Nat := 8192 + chip

/-- The paths that a packet crosses from a tile to a tile or to another chip. Where no port is known to lead to the chip, the
way from the I/O chiplet on is not modelled (log entry 71). -/
def packetPaths (s : State) (src a b : Nat) : List (Nat × List Nat) :=
  if b < 8192 then pathsOf s src b (dieOf a) (dieOf b)
  else
    let ports := portsTo s (b - 8192)
    (dieOf a, ioLinks (dieOf a)) :: (if ports.isEmpty then [] else [(4, ports)])

/-- The legs of a flow's way: the link, the chiplet it leaves, the cycle in which it is across, 96 after the link carries it
(R21, R106); none where no link of a path can carry it (R336). -/
def legsOf (s : State) (src dst : Nat) (ps : List (Nat × List Nat)) : Option (List (Nat × Nat × Nat)) :=
  ps.foldl (fun r p =>
    match r with
    | none => none
    | some ls =>
      let now := (ls.getLast?.map (fun x => x.2.2)).getD s.cycle
      (flowLink s src dst p.2).map (fun l => ls ++ [(l, p.1, (if now < linkFrom s l then linkFrom s l else now) + 96)])) (some [])

/-- Hops between two tiles on their dies (R106). -/
def meshHops (a b : Nat) : Nat := if b < 8192 then absDiff (rowOf a) (rowOf b) + absDiff (colOf a) (colOf b) else 0

/-- Cycles from a tile to another for its strands' packets, beside the fixed 8 (R21, R106). -/
def hopsOf (s : State) (a b : Nat) : Nat :=
  meshHops a b + ((((legsOf s (2 * a) b (packetPaths s (2 * a) a b)).bind (fun ls => ls.getLast?)).map (fun x => x.2.2)).getD
    s.cycle - s.cycle)

/-- Send a packet of a source toward a destination: what it brings comes after the hops, the crossings and `d` cycles (R106).
Traffic that no link can carry stays with its sender (R336). -/
def State.sendFlow (s : State) (src a b : Nat) (group : Option Nat) (d : Nat) (e : Ev) : State :=
  match legsOf s src b (packetPaths s src a b) with
  | none => { s with held := s.held ++ [{ src := src, dst := b, die := a, vc := 0, group := group, delay := d, ev := e }] }
  | some ls =>
    let n := d + meshHops a b + ((ls.getLast?.map (fun x => x.2.2)).getD s.cycle - s.cycle)
    let s' := s.post n e
    if ls.isEmpty then s'
    else
      { s' with flows := s.flows.filter (fun f => decide (s.cycle < f.till)) ++ ls.map (fun x =>
          { src := src, dst := b, link := x.1, from_ := x.2.1, vc := 0, group := group, ev := e, due := s.cycle + n
            across := x.2.2, till := x.2.2 + 96 }) }

/-- Send a packet from tile to tile, or to another chip, for an access of the tile `own`: the flow is that of the source's
strands or of its engines (R329). -/
def State.send (s : State) (a b : Nat) (engine : Bool) (own : TileId) (d : Nat) (e : Ev) : State :=
  s.sendFlow (2 * a + engine.toNat) a b (if (s.tile own).running then some (s.tile own).group else none) d e

/-- The cycle by which the packets that a link's data channel holds are acknowledged, in the direction from a chiplet (R269;
DEDUCED, log entry 65). -/
def dataUntil (s : State) (l die : Nat) : Nat :=
  s.flows.foldl (fun n f => if f.link = l ∧ f.from_ = die ∧ f.vc = 0 ∧ n < f.till then f.till else n) 0

/-- A barrier message leaves on a link of the die (R267, R269): it brings its step 96 cycles after the link carries it and the
acknowledgement of earlier packets, which comes by `after`, and `d` cycles more. -/
def State.barSend (s : State) (l die : Nat) (up : Bool) (group : Option Nat) (after d : Nat) (e : Ev) : State :=
  let from_ := if linkFrom s l < after then after else linkFrom s l
  let across := (if s.cycle < from_ then from_ else s.cycle) + 96
  let s' := s.post (across - s.cycle + d) e
  { s' with flows := s.flows.filter (fun f => decide (s.cycle < f.till)) ++
      [{ src := 16384 + (if up then die else 4), dst := 16384 + (if up then 4 else die), link := l, from_ := if up then die else 4
         vc := 1, group := group, ev := e, due := across + d, across := across, till := across + 96 }] }

/-- A barrier message crosses between a die and the I/O chiplet, from the die (`up`) or to it (R267): on one link, after every
flit sent there on the data channel before it has been acknowledged (R269). -/
def State.cross (s : State) (die : Nat) (up : Bool) (group : Option Nat) (d : Nat) (e : Ev) : State :=
  let src := 16384 + (if up then die else 4)
  let dst := 16384 + (if up then 4 else die)
  match flowLink s src dst (ioLinks die) with
  | none => { s with held := s.held ++ [{ src := src, dst := dst, die := die, vc := 1, group := group, delay := d, ev := e }] }
  | some l =>
    let after := dataUntil s l (if up then die else 4)
    let D := (s.link l).dir (!up)
    let seqs := (D.buf.filter (fun f => f.2.vc == 0)).map (fun f => f.1)
    if seqs.isEmpty then s.barSend l die up group after d e
    else
      s.modLink l (fun k => k.setDir (!up)
        { D with barWait := D.barWait ++ [{ seqs := seqs, after := after, die := die, group := group, delay := d, ev := e }] })

/-- What senders hold goes out again, in order (R329, R336): what still has no link stays. -/
def State.sendHeld (s : State) : State :=
  s.held.foldl
    (fun s h =>
      if h.vc = 1 then s.cross h.die (h.src != 16388) h.group h.delay h.ev
      else s.sendFlow h.src h.die h.dst h.group h.delay h.ev)
    { s with held := [] }

/-- CAP of a position (R17); the monitor core's own memory holds 256 KiB (R216). -/
def capOf (t : TileId) : Nat := if t = monitorTile then 0x40000 else if Config.fusedUpper t then 0x200000 else 0x100000

/-- CHIP:DIE:ROW:COL of a position (Table 19.2). -/
def physOf (s : State) (t : TileId) : BitVec 20 := s.chip ++ BitVec.ofNat 12 t

/-- Logical device of a die in a mode (Table 11.2). -/
def deviceOf (mode : BitVec 2) (d : Nat) : Nat := if mode = 0 then 0 else if mode = 1 then d / 2 else d

/-! ### Partitions (R75, R80, R81; Table 3.7) -/

/-- Granules of partition k: 0 code, 1 register file, 2 scratch, 3 accumulator, 4 galley, 5 foreshore. -/
def granOf (w : Word) (k : Nat) : Nat := w.toNat / 2 ^ (10 * k) % 128

/-- Span code of a partition. -/
def spanOf (w : Word) (k : Nat) : Nat := w.toNat / 2 ^ (10 * k + 7) % 8

/-- PARTW as the tile holds it: bits 63:60 are reserved (R8, Table 3.7). -/
def maskPartw (w : Word) : Word := w &&& 0x0FFFFFFFFFFFFFFF

/-- OVB as the tile holds it: bits 62:21 are reserved (R8, Table 4.5). -/
def maskOvb (w : Word) : Word := w &&& 0x80000000001FFFFF

/-- TVEC as the tile holds it: bits 63:21 are reserved (R8, Table 4.5). -/
def maskTvec (w : Word) : Word := w &&& 0x1FFFFF

/-- TCAUSE as a strand holds it: bits 62:40 are reserved (R8, Table 4.5). -/
def maskTcause (w : Word) : Word := w &&& 0x800000FFFFFFFFFF

/-- IDLW as the tile holds it: bits 63:6 are reserved (R8, Table 4.5). -/
def maskIdlw (w : Word) : Word := w &&& 0x3F

/-- A sluice term as the tile holds it: bits 57:40 and 23:18 are reserved (R8, Table 9.4). -/
def maskTerm (w : Word) : Word := w &&& 0xFC0000FFFF03FFFF

/-- A watchpoint record as the tile holds it: bits 35:21 are reserved (R8, Table 5.7). -/
def maskWptRecord (w : Word) : Word := w &&& 0xFFFFFFF0001FFFFF

/-- DBGR as the tile holds it: bits 62:52 are reserved (R8, R228). -/
def maskDbgr (w : Word) : Word := w &&& 0x800FFFFFFFFFFFFF

/-- Base of a partition. -/
def partBase (w : Word) (k : Nat) : Nat := 16384 * ((List.range k).foldl (fun a j => a + granOf w j) 0)

/-- Exclusive limit of a partition. -/
def partLimit (w : Word) (k : Nat) : Nat := partBase w k + 16384 * granOf w k

/-- The partition that holds the whole range, if one does (R81). -/
def partOf (w : Word) (ofs len : Nat) : Option Nat :=
  (List.range 6).find? (fun k => decide (partBase w k ≤ ofs ∧ ofs + len ≤ partLimit w k ∧ 0 < len))

/-- May strand loads and stores, remote accesses and engines reach the range (Table 4.2)? -/
def dataOk (w : Word) (ofs len : Nat) : Bool :=
  match partOf w ofs len with
  | some k => k == 2 || k == 3 || k == 5
  | none => false

/-- Does the range lie in a versioned partition (R193)? -/
def versionedAt (w : Word) (ofs : Nat) : Bool :=
  match partOf w ofs 1 with
  | some k => k == 2 || k == 3
  | none => false

/-- Does the offset lie in the foreshore? -/
def foreAt (w : Word) (ofs : Nat) : Bool := partOf w ofs 1 == some 5

/-- Where a byte of a slot's store lies in the pool: the foreshore copies of slots 1 on lie above the foreshore
partition (R259). -/
def poolAddr (w : Word) (slot ofs : Nat) : Nat := if foreAt w ofs then ofs + slot * (granOf w 5 * 16384) else ofs

/-- XB (R75); the monitor core's image fills its own memory (log entry 15). -/
def xbOf (s : State) (t : TileId) : Nat := if t = monitorTile then 0x40000 else partLimit (s.tile t).v.partw 0

/-- Does strand n exist (R82)? -/
def strandExists (s : State) (t : TileId) (n : Nat) : Bool :=
  decide (n < 11) && decide (4096 * (n + 1) ≤ granOf (s.tile t).v.partw 1 * 16384)

/-- May the tile's strands reach the range of the own store (R81)? -/
def ownOk (s : State) (t : TileId) (ofs len : Nat) : Bool :=
  if t = monitorTile then decide (ofs + len ≤ 0x40000) else dataOk (s.tile t).v.partw ofs len

/-! ### Causes, trap records, votes (R271, R345 to R352) -/

/-- Cause codes (Table 19.1). -/
def Cause.code : Cause → BitVec 8
  | .sramdue => 0x01 | .residue => 0x02 | .dmrmis => 0x03 | .linkloss => 0x04 | .galley => 0x05 | .timeout => 0x06
  | .mismatch => 0x07 | .conflict => 0x08 | .trap => 0x09 | .kfail => 0x0A | .illegal => 0x10 | .fetchalign => 0x11
  | .empty => 0x12 | .priv => 0x13 | .prot => 0x14 | .misalign => 0x15 | .overlay => 0x16 | .orphan => 0x17
  | .haltlive => 0x18 | .lock => 0x19 | .detban => 0x1A | .watch => 0x1B | .ptstate => 0x1C | .sample => 0x1D
  | .stream => 0x1E | .copy => 0x1F | .crc => 0x20 | .gather => 0x21 | .coll => 0x22 | .rearrive => 0x23
  | .swtrap => 0x24 | .brk => 0x25 | .badpart => 0x40 | .sramstd => 0x41 | .commitres => 0x42 | .hbmdue => 0x43
  | .dielost => 0x44 | .sweepfail => 0x45 | .sramce => 0x60 | .hbmce => 0x61 | .late => 0x62 | .linkdeg => 0x63
  | .wptrec => 0x64 | .vabort u => 0x80 + u.setWidth 8

/-- A trap record of a tile (Table 19.2). -/
def recordOf (s : State) (t : TileId) (c : Cause) (cls : BitVec 3) (defer : Bool) (n : Nat) (pc : BitVec 21)
    (info : BitVec 32) : TrapRec :=
  let T := s.tile t
  { code := Cause.code c, cls := cls, defer := defer, ctx := BitVec.ofNat 5 T.ctx, att := T.v.att, ss := T.v.ss,
    strand := BitVec.ofNat 4 n, vidx := T.v.idx, phys := physOf s t, pc := pc, info := info, colmap := 0 }

/-- The 32 bytes of a trap record (R351, Table 19.2). -/
def recBytes (r : TrapRec) : List Byte :=
  bytesOf 8 (r.code.toNat * 2 ^ 56 + r.cls.toNat * 2 ^ 53 + (if r.defer then 2 ^ 52 else 0) + r.ctx.toNat * 2 ^ 47 +
    r.att.toNat * 2 ^ 43) ++
  bytesOf 8 (r.ss.toNat * 2 ^ 16 + r.strand.toNat) ++
  bytesOf 8 (r.phys.toNat * 2 ^ 44 + r.vidx.toNat * 2 ^ 24 + r.pc.toNat) ++
  bytesOf 8 (r.info.toNat * 2 ^ 32 + r.colmap.toNat)

/-- Send a trap record towards its row collector (R352). -/
def sendRecord (s : State) (r : TrapRec) : State := s.post 1 (.trapRecordArrival r)

/-- The tile's vote becomes abort (R271): the cause is kept with its record; the lowest of a cycle is sent at its end. -/
def vote (s : State) (t : TileId) (c : Cause) (n : Nat) (pc : BitVec 21) (info : BitVec 32) : State :=
  if (s.tile t).running && !(s.tile t).v.voted then
    s.modV t (fun v => { v with votes := v.votes ++ [recordOf s t c 1 false n pc info] })
  else s

/-- An uncorrectable error that rollback cannot repair (R354, R355): the monitor is told, and sweeps. -/
def contextFatal (s : State) (ctx : Nat) (c : Cause) : State :=
  if ctx = 0 then s else s.post 0 (.monitorRequest (.fatal ctx c))

/-- AMASK of the kernel on a tile (R249); without a kernel every bit is 1. -/
def amaskBit (s : State) (t : TileId) (c : Cause) : Bool :=
  match s.kernelOf t with
  | some k => k.amask.getLsbD (Cause.code c).toNat
  | none => true

/-- The vote of a strand that enters TRAPPED (R249): GALLEY and CONFLICT vote as such. -/
def trappedVote (s : State) (t : TileId) (c : Cause) (n : StrandNo) (pc : BitVec 21) (info : BitVec 32) : State :=
  if c = .galley ∨ c = .conflict then vote s t c n.val pc info
  else if amaskBit s t c then vote s t .trap n.val pc info else vote s t .kfail n.val pc info

/-! ### Successor, trap entry and return (R54, R347 to R349, R225) -/

/-- The sequential successor of an instruction (R54): a block's tail is skipped. -/
def successor (pc : BitVec 21) (len : Nat) : BitVec 21 :=
  let e := pc.toNat + len
  BitVec.ofNat 21 (if e % 32 = 28 then e + 4 else e)

/-- TCAUSE (Table 4.5). -/
def tcauseOf (defer : Bool) (info : BitVec 32) (c : Cause) : Word :=
  (BitVec.ofBool defer).setWidth 64 <<< (63 : Nat) ||| (info.setWidth 64 <<< (8 : Nat)) ||| (Cause.code c).setWidth 64

/-- Is a precise trap handled (R347, R348)? -/
def trapHandled (T : Tile) (S : Strand) (c : Cause) : Bool :=
  !S.inHandler && (if c = .overlay then T.v.ovb.getLsbD 63 else decide (T.v.tvec.extractLsb' 0 21 ≠ 0))

/-- Taking a precise trap (R347, R348) at `pc`, whose successor is `succ`. -/
def takeTrap (s : State) (t : TileId) (n : StrandNo) (c : Cause) (info : BitVec 32) (pc succ : BitVec 21) : State :=
  let T := s.tile t
  let S := T.strands[n.val]
  let ret := if c = .swtrap then succ else pc
  let base : Strand :=
    { S with tcause := tcauseOf false info c, trappc := ret.setWidth 64, wait := .idle, passed := false }
  if trapHandled T S c then
    let s := s.modStrand t n (fun _ =>
      { base with inHandler := true, st := .ready, notBefore := s.cycle + 1, watching := decide (c = .watch),
                  pc := if c = .overlay then T.v.ovb.extractLsb' 0 21 else T.v.tvec.extractLsb' 0 21 })
    if c = .galley ∨ c = .conflict then vote s t c n.val ret info else s
  else
    let s := s.modStrand t n (fun _ => { base with st := .trapped })
    let s := sendRecord s (recordOf s t c 0 false n.val ret info)
    trappedVote s t c n ret info

/-- A deferred trap at an instruction boundary (R349): never handled. -/
def takeDeferred (s : State) (t : TileId) (n : StrandNo) (d : Deferred) : State :=
  let s := s.modStrand t n (fun S =>
    { S with st := .trapped, wait := .idle, deferred := none, refusedOnce := true,
             tcause := tcauseOf true d.info d.code, trappc := d.pc.setWidth 64 })
  let s := sendRecord s (recordOf s t d.code (if d.engine then 2 else 0) true n.val d.pc d.info)
  trappedVote s t d.code n d.pc d.info

/-- Is a strand live (R93)? -/
def liveSt (x : StrandSt) : Bool := x == .started || x == .ready || x == .waiting

/-- A refusal returns to a strand after its instruction has completed (R349). -/
def refuse (s : State) (t : TileId) (n : StrandNo) (d : Deferred) : State :=
  let S := s.strand t n
  if !(s.tile t).running then s
  else if !liveSt S.st then
    let s := sendRecord s (recordOf s t d.code (if d.engine then 2 else 0) true n.val d.pc d.info)
    if S.refusedOnce then s else trappedVote s t d.code n d.pc d.info
  else if S.refusedOnce || S.deferred.isSome then
    sendRecord s (recordOf s t d.code (if d.engine then 2 else 0) true n.val d.pc d.info)
  else (s.modStrand t n (fun S => { S with deferred := some d })).post 0 (.deferredTrap t n)

/-! ### Watchpoints (R113, R358) -/

/-- Does the range meet the watched bytes? -/
def Wpt.hits (w : Wpt) (ofs len : Nat) : Bool :=
  decide (ofs < w.base.toNat + w.len.toNat ∧ w.base.toNat < ofs + len)

/-- Does a strand's own store trap WATCH? -/
def watchTraps (v : VRegs) (ofs len : Nat) : Bool := v.wpt.any (fun w => w.fl.getLsbD 0 && w.hits ofs len)

/-- Set the records of the watchpoints that a write of another agent hits. -/
def watchRecord (v : VRegs) (ofs len src : Nat) (id : BitVec 20) (strand : Nat) : VRegs :=
  (List.range 4).foldl (fun v k =>
    match v.wpt[k]? with
    | some w =>
      if w.fl.getLsbD 1 && !w.record.getLsbD 63 && w.hits ofs len then
        let first := if ofs < w.base.toNat then w.base.toNat else ofs
        let r : Word := BitVec.ofNat 64 (2 ^ 63 + src * 2 ^ 60 + id.toNat * 2 ^ 40 + strand % 16 * 2 ^ 36 + first % 2 ^ 21)
        { v with wpt := v.wpt.setIfInBounds k { w with record := r }, wptNew := v.wptNew ||| (1 <<< k) }
      else v
    | none => v) v

/-! ### Soft errors (R354) -/

/-- Does the error stand in a 64-bit word of the range? -/
def errIn (ofs len : Nat) (e : SoftErr) : Bool :=
  match e.place with
  | .pool o => decide (o / 8 * 8 < ofs + len ∧ ofs < o / 8 * 8 + 8)
  | _ => false

/-- Is the line logged in this superstep? -/
def logged (T : Tile) (line : Nat) : Bool := T.galley.any (fun g => g.kind == .undo && g.ofs / 64 == line)

/-- Report a corrected error (R354): at most one record per superstep. -/
def correctable (s : State) (t : TileId) : State :=
  if (s.tile t).ceSent then s
  else sendRecord (s.modTile t (fun T => { T with ceSent := true })) (recordOf s t .sramce 4 false 0 0 0)

/-- A read of pool words finds their errors (R354). `fresh` classes the words as not logged (the copy into an UNDO
slot). False when a word gives no value. -/
def eccRead (s : State) (t : TileId) (fresh : Bool) (ofs len : Nat) : State × Bool :=
  let T := s.tile t
  let hit := T.errs.filter (errIn ofs len)
  if hit.isEmpty then (s, true)
  else
    let s := s.modTile t (fun T => { T with errs := T.errs.filter (fun e => !(errIn ofs len e && !e.due)) })
    let s := if hit.any (fun e => !e.due) then correctable s t else s
    match hit.find? (fun e => e.due) with
    | none => (s, true)
    | some e =>
      let o := match e.place with | .pool o => o | _ => 0
      if versionedAt T.v.partw o && logged T (o / 64) && !fresh then (vote s t .sramdue 0 0 0, false)
      else (contextFatal s T.ctx .sramstd, false)

/-- A read of a slot's words or tag (R354, R266): an inbound slot's error is SRAMDUE, any other slot's votes nothing and is
context-fatal. -/
def eccSlot (s : State) (t : TileId) (g : Slot) : State × Bool :=
  let here (e : SoftErr) : Bool :=
    match e.place with | .slot k _ => k == g.num | .tag k => k == g.num | _ => false
  let hit := (s.tile t).errs.filter here
  if hit.isEmpty then (s, true)
  else
    let s := s.modTile t (fun T => { T with errs := T.errs.filter (fun e => !(here e && !e.due)) })
    let s := if hit.any (fun e => !e.due) then correctable s t else s
    if hit.all (fun e => !e.due) then (s, true)
    else if g.kind = .plain ∨ g.kind = .add then (vote s t .sramdue 0 0 0, false)
    else (contextFatal s (s.tile t).ctx .sramstd, false)

/-- A write reads the words it covers in part, and renews those it covers whole (R354). -/
def eccWrite (s : State) (t : TileId) (ofs len : Nat) : State × Bool :=
  if (s.tile t).errs.isEmpty then (s, true)
  else
    let r1 := if ofs % 8 ≠ 0 then eccRead s t false (ofs / 8 * 8) 8 else (s, true)
    let e := ofs + len
    let r2 := if e % 8 ≠ 0 then eccRead r1.1 t false (e / 8 * 8) 8 else (r1.1, true)
    (r2.1.modTile t (fun T =>
      { T with errs := T.errs.filter (fun x =>
          match x.place with
          | .pool o => !decide (ofs ≤ o / 8 * 8 ∧ o / 8 * 8 + 8 ≤ e)
          | _ => true) }), r1.2 && r2.2)

/-! ### The galley (R194 to R197, R202, R203, R207, R208) -/

/-- Slots of the galley partition (R194). -/
def galleyCap (w : Word) : Nat := granOf w 4 * 256

/-- A slot not in use, if there is one: the lowest number. -/
def freeSlot (T : Tile) : Option Nat :=
  if galleyCap T.v.partw ≤ T.galley.length then none
  else (List.range (T.galley.length + 1)).find? (fun k => !T.galley.any (fun g => g.num == k))

/-- How one writer has written a line (R202): plainly, which nibbles by nibble stores, which by additive writes. -/
abbrev Profile := Bool × BitVec 128 × BitVec 128

/-- Has the writer written the line at all? -/
def Profile.some (p : Profile) : Bool := p.1 || p.2.1 != 0 || p.2.2 != 0

/-- Do two distinct writers conflict on a line (R202)? -/
def Profile.conflict (p q : Profile) : Bool :=
  p.some && q.some &&
    (p.1 || q.1 || (p.2.1 &&& q.2.1) != 0 || (p.2.1 &&& q.2.2) != 0 || (p.2.2 &&& q.2.1) != 0)

/-- Both writings together. -/
def Profile.join (p q : Profile) : Profile := (p.1 || q.1, p.2.1 ||| q.2.1, p.2.2 ||| q.2.2)

/-- What a slot says of its writer. -/
def Slot.profile (g : Slot) : Profile :=
  match g.kind with
  | .undo => (g.ownp, g.mask, if g.owna then BitVec.allOnes 128 else 0)
  | .plain => if g.ownp then (true, 0, 0) else (false, g.mask, 0)
  | .add => (false, 0, g.mask)
  | .out => (false, 0, 0)

/-- Nibbles of `len` bytes at `ofs` within their line. -/
def nibMask (ofs len : Nat) : BitVec 128 := BitVec.ofNat 128 ((2 ^ (2 * len) - 1) * 2 ^ (2 * (ofs % 64)))

/-- What a write says of its writer. An additive write on a local path covers the whole line (R202). -/
def WKind.profile (k : WKind) (ofs : Nat) : Profile :=
  match k with
  | .plain => (true, 0, 0)
  | .nib hi => (false, BitVec.ofNat 128 (2 ^ (2 * (ofs % 64) + (if hi then 1 else 0))), 0)
  | .add => (false, 0, BitVec.allOnes 128)

/-- Does the slot hold a write to the line of the resident virtual tile, in the superstep and attempt it runs? -/
def Slot.here (v : VRegs) (line : Nat) (g : Slot) : Bool :=
  g.ofs / 64 == line && g.kind != .out &&
    (g.kind == .undo || (g.ss == v.ss && g.att == v.att.toNat && g.ord == v.ord))

/-- Is the slot the owner's (R202)? -/
def Slot.own (v : VRegs) (g : Slot) : Bool := g.kind == .undo || g.sidx == v.idx

/-- Another tile whose writes to the line conflict with an owner's write. -/
def foreignConflict (T : Tile) (line : Nat) (p : Profile) : Bool :=
  T.galley.any (fun g => g.here T.v line && !g.own T.v && g.profile.conflict p)

/-- Bit of a strand. -/
def strandBit (n : Nat) : BitVec 11 := BitVec.ofNat 11 (2 ^ n)

/-- The lowest other strand of a set. -/
def otherStrand (b : BitVec 11) (n : Nat) : Option Nat :=
  (List.range 11).find? (fun k => b.getLsbD k && k != n)

/-- DET: the other strand with which a write by strand n conflicts (R207, R208). -/
def detConflict (T : Tile) (line n : Nat) (k : WKind) : Option Nat :=
  match T.galley.find? (fun g => g.kind == .undo && g.ofs / 64 == line) with
  | none => none
  | some g =>
    match otherStrand g.rby n with
    | some o => some o
    | none => otherStrand (if k = .add then g.pby else g.wby) n

/-- Does the slot hold a delta to the line that the tile `owner` sent in this superstep and attempt? -/
def Slot.deltaOf (v : VRegs) (owner : BitVec 20) (line : Nat) (g : Slot) : Bool :=
  (g.kind == .plain || g.kind == .add) && g.here v line && g.sidx == owner

/-- DET: the other strand of the tile that has written the line by deltas of its own, with which a write by strand n
conflicts (R207), or has read it after such a write (R208); `owner` names the tile whose deltas they are. -/
def ownDeltas (T : Tile) (v : VRegs) (owner : BitVec 20) (line n : Nat) (add : Bool) : Option Nat :=
  T.galley.findSome? (fun g =>
    if g.deltaOf v owner line then
      match otherStrand g.rby n with
      | some o => some o
      | none => if add && g.kind == .add then none else otherStrand g.wby n
    else none)

/-- The strand a local writer counts as. -/
def Writer.strandNo : Writer → Nat
  | .strand n => n.val
  | .engine n _ => n.val
  | .sibling _ n => n.val

/-- Is the writer a strand of the tile? -/
def Writer.isStrand : Writer → Bool
  | .strand _ => true
  | _ => false

/-- Log the first write to a line in an UNDO slot (R194, R197). -/
def logLine (s : State) (t : TileId) (line : Nat) : Except WErr State :=
  let T := s.tile t
  if logged T line then .ok s
  else
    match freeSlot T with
    | none => .error (.galley line)
    | some k =>
      let r := eccRead s t true (line * 64) 64
      if !r.2 then .error (.ecc r.1)
      else
        let old := BitVec.ofNat 512 (natOf (T.mem.bytes (line * 64) 64))
        .ok (r.1.modTile t (fun T =>
          { T with galley := T.galley ++
              [{ num := k, kind := .undo, ofs := line * 64, ss := T.v.ss, att := T.v.att.toNat, data := old }] }))

/-- Note in the UNDO tag who wrote the line and how (R194, R207). -/
def noteWrite (T : Tile) (line : Nat) (w : Writer) (k : WKind) (ofs : Nat) : Tile :=
  let b := strandBit w.strandNo
  { T with galley := T.galley.map (fun g =>
      if g.kind = .undo ∧ g.ofs / 64 = line then
        match k with
        | .plain => { g with ownp := true, wby := g.wby ||| b, pby := g.pby ||| b }
        | .nib _ => { g with mask := g.mask ||| (k.profile ofs).2.1, wby := g.wby ||| b, pby := g.pby ||| b }
        | .add => { g with owna := true, wby := g.wby ||| b }
      else g) }

/-- Change one nibble of a byte (R107). -/
def setNibble (hi : Bool) (v : BitVec 4) (b : Byte) : Byte :=
  if hi then v ++ b.extractLsb' 0 4 else b.extractLsb' 4 4 ++ v

/-- Put the bytes of a write into the pool. -/
def putBytes (m : Mem) (k : WKind) (ofs : Nat) (data : List Byte) : Mem :=
  match k, data with
  | .nib hi, d :: _ => m.write ofs (setNibble hi (d.extractLsb' 0 4) (m.read ofs))
  | _, _ => m.store ofs data

/-- What a watchpoint record says of a local writer (Table 5.7): source kind, identity, strand. -/
def Writer.watch : Writer → Nat × BitVec 20 × Nat
  | .strand n => (0, 0, n.val)
  | .engine n pos => (1, BitVec.ofNat 20 pos, n.val)
  | .sibling i n => (4, i, n.val)

/-- A write on a local path within one 64-byte line of the own store (R194, R197, R198, R202, R203, R207, R208): the
working copy is written and the first write is logged; the foreshore is written at once (R201). A strand's own store to
bytes watched with FL[0] = 0 sets no record: Table 5.7 has no SRC for it (log entry 70). -/
def lineWrite (s : State) (t : TileId) (w : Writer) (k : WKind) (ofs : Nat) (data : List Byte) : Except WErr State :=
  let T := s.tile t
  let line := ofs / 64
  let watch (T : Tile) : Tile :=
    if w.isStrand then T
    else { T with v := watchRecord T.v ofs data.length w.watch.1 w.watch.2.1 w.watch.2.2 }
  if t = monitorTile ∨ !versionedAt T.v.partw ofs then
    let a := poolAddr T.v.partw T.slot ofs
    let r := eccWrite s t a data.length
    if !r.2 then .error (.ecc r.1)
    else .ok (r.1.modTile t (fun T => watch { T with mem := putBytes T.mem k a data }))
  else
    let det := s.det t
    match (if !det then none else
        match detConflict T line w.strandNo k with
        | some o => some o
        | none => ownDeltas T T.v T.v.idx line w.strandNo (k == .add)) with
    | some o => .error (.conflict (BitVec.ofNat 32 (line + o * 65536)))
    | none =>
      if foreignConflict T line (k.profile ofs) then .error (.conflict (BitVec.ofNat 32 (line + 32768)))
      else if T.shut && !w.isStrand && !logged T line then .error (.galley line)
      else
        match logLine s t line with
        | .error e => .error e
        | .ok s =>
          let r := eccWrite s t ofs data.length
          if !r.2 then .error (.ecc r.1)
          else .ok (r.1.modTile t (fun T =>
            watch (noteWrite { T with mem := putBytes T.mem k ofs data } line w k ofs)))

/-- Cut bytes at the 64-byte lines: (offset, bytes) of each part. `fuel` is at least the number of lines. -/
def cutLines (fuel ofs : Nat) (data : List Byte) : List (Nat × List Byte) :=
  match fuel with
  | 0 => []
  | f + 1 =>
    if data.isEmpty then []
    else
      let room := 64 - ofs % 64
      (ofs, data.take room) :: cutLines f (ofs + room) (data.drop room)

/-- Words read: false when one gives no value (R354). -/
def wordsRead (s : State) (t : TileId) (rs : List (Nat × Nat)) : State × Bool :=
  if (s.tile t).errs.isEmpty then (s, true)
  else rs.foldl (fun r x => let q := eccRead r.1 t false x.1 x.2; (q.1, r.2 && q.2)) (s, true)

/-- The words that a write of `len` bytes at `ofs` reads (R354): the lines it logs, and words it covers in part. -/
def writeReads (T : Tile) (ofs len : Nat) : List (Nat × Nat) :=
  (cutLines (len / 64 + 2) ofs (List.replicate len 0)).flatMap (fun c =>
    if versionedAt T.v.partw c.1 && !logged T (c.1 / 64) then [(c.1 / 64 * 64, 64)]
    else if c.1 % 8 ≠ 0 ∨ c.2.length % 8 ≠ 0 then [(c.1, c.2.length)] else [])

/-- A strand's store on a local path: all of it or nothing. -/
def strandWrite (s : State) (t : TileId) (w : Writer) (k : WKind) (ofs : Nat) (data : List Byte) : Except WErr State :=
  (cutLines (data.length / 64 + 2) ofs data).foldl (fun r c =>
    match r with
    | .error e => .error e
    | .ok s => lineWrite s t w k c.1 c.2) (.ok s)

/-- A write of an engine, the adder, the sampler or a sibling (R197, R203): a line that may not be written is not, and
the owner votes abort; a word with an uncorrectable error withholds it too (R354). False when a line has not been written. -/
def engineWrite (s : State) (t : TileId) (w : Writer) (k : WKind) (ofs : Nat) (data : List Byte) : State × Bool :=
  (cutLines (data.length / 64 + 2) ofs data).foldl (fun r c =>
    match lineWrite r.1 t w k c.1 c.2 with
    | .ok s => (s, r.2)
    | .error (.galley l) =>
      (vote (r.1.modTile t (fun T => { T with shut := true })) t .galley 0 0 (BitVec.ofNat 32 l), false)
    | .error (.conflict i) => (vote r.1 t .conflict 0 0 i, false)
    | .error (.ecc s) => (s, false)) (s, true)

/-- The slots that tell of the own tile's writes to a line: the UNDO slot, and deltas to itself (R207, R208). -/
def ownSlots (T : Tile) (line : Nat) : List Slot :=
  T.galley.filter (fun g => g.kind == .undo && g.ofs / 64 == line || g.deltaOf T.v T.v.idx line)

/-- The view of a line that strand n reads in DET mode: a strand that has written it too meets the other writer (R207, R208). -/
def detView (T : Tile) (line n : Nat) : DetView :=
  let gs := ownSlots T line
  match gs.findSome? (fun g => otherStrand g.wby n) with
  | none => .work
  | some o =>
    if gs.any (fun g => g.wby.getLsbD n) then .clash o
    else
      match gs.find? (fun g => g.kind == .undo && (otherStrand g.wby n).isSome) with
      | some g => .stand g
      | none => .work

/-- Note that strand n read a line it wrote (R208). -/
def noteRead (T : Tile) (line n : Nat) : Tile :=
  { T with galley := T.galley.map (fun g =>
      if (g.kind == .undo && g.ofs / 64 == line || g.deltaOf T.v T.v.idx line) && g.wby.getLsbD n then
        { g with rby := g.rby ||| strandBit n }
      else g) }

/-- Note it for the strand's deltas to the own tile that have yet to arrive (R208). -/
def noteFlying (s : State) (t : TileId) (line n : Nat) : State :=
  { s with agenda := s.agenda.map (fun e =>
      match e.2 with
      | .deltaArrival p =>
        if p.src.tile = t ∧ p.src.strand.val = n ∧ p.ea.extractLsb' 44 20 = (s.tile t).v.idx then
          (e.1, .deltaArrival { p with rd := line :: p.rd })
        else e
      | _ => e) }

/-- A read on a local path within one line (R198, R207). -/
def lineRead (s : State) (t : TileId) (n ofs len : Nat) : Except WErr (State × List Byte) :=
  let T := s.tile t
  let line := ofs / 64
  let plain (s : State) : Except WErr (State × List Byte) :=
    let a := poolAddr T.v.partw T.slot ofs
    let r := eccRead s t false a len
    if r.2 then .ok (r.1, (s.tile t).mem.bytes a len) else .error (.ecc r.1)
  if s.det t && versionedAt T.v.partw ofs then
    match detView T line n with
    | .work => plain (noteFlying (s.modTile t (fun T => noteRead T line n)) t line n)
    | .clash o => .error (.conflict (BitVec.ofNat 32 (line + o * 65536)))
    | .stand g =>
      let r := eccSlot (noteFlying s t line n) t g
      if r.2 then .ok (r.1, ((bytesOf 64 g.data.toNat).drop (ofs % 64)).take len) else .error (.ecc r.1)
  else plain s

/-- A read on a local path: the working copy, or in DET mode what R207 gives. -/
def localRead (s : State) (t : TileId) (n ofs len : Nat) : Except WErr (State × List Byte) :=
  (cutLines (len / 64 + 2) ofs (List.replicate len 0)).foldl (fun r c =>
    match r with
    | .error e => .error e
    | .ok (s, bs) =>
      match lineRead s t n c.1 c.2.length with
      | .error e => .error e
      | .ok (s, b) => .ok (s, bs ++ b)) (.ok (s, []))

/-- The standing version of one byte (R193): from the UNDO slot of a logged line. -/
def standingByte (T : Tile) (a : Nat) : Byte :=
  match T.galley.find? (fun g => g.kind == .undo && g.ofs / 64 == a / 64) with
  | some g => g.data.extractLsb' (8 * (a % 64)) 8
  | none => T.mem.read a

/-- A read of the standing version (R198): the words, or their UNDO slots, are read. -/
def standingRead (s : State) (t : TileId) (ofs len : Nat) : State × Bool × List Byte :=
  let T := s.tile t
  let lines := (List.range (len / 64 + 2)).map (fun i => ofs / 64 + i)
  let r := lines.foldl (fun (r : State × Bool) l =>
    if ofs + len ≤ l * 64 then r
    else
      match T.galley.find? (fun g => g.kind == .undo && g.ofs / 64 == l) with
      | some g => let q := eccSlot r.1 t g; (q.1, r.2 && q.2)
      | none =>
        let a := if ofs < l * 64 then l * 64 else ofs
        let b := if ofs + len < l * 64 + 64 then ofs + len else l * 64 + 64
        let q := eccRead r.1 t false a (b - a); (q.1, r.2 && q.2)) (s, true)
  (r.1, r.2, (List.range len).map (fun i => standingByte T (ofs + i)))

/-! ### Ranges that an access waits for or may not write -/

/-- Ranges of the own store that an adder command reads or writes: bytes from an offset (R127, R141, R146). -/
def addRanges (o : AddOp) : List (Nat × Nat) :=
  match o with
  | .saa _ _ ea _ _ _ => [(ea, 65536)]
  | .acc _ _ ea _ _ => [(ea, 65536)]
  | .lazero ea => [(ea, 65536)]
  | .lard ead ea _ _ _ => [(ead, 4096), (ea, 65536)]
  | .vla ea _ _ => [(ea, 2048)]

/-- Do two ranges meet? -/
def meets (a la b lb : Nat) : Bool := decide (a < b + lb ∧ b < a + la)

/-- Adder commands of strand n, not yet performed, that meet the range (R128, R143). -/
def ownOverlap (T : Tile) (n : StrandNo) (ofs len : Nat) : List Nat :=
  (T.addQ.filter (fun c => c.strand == n && (addRanges c.op).any (fun r => meets r.1 r.2 ofs len))).map (fun c => c.seq)

/-- Is the virtual tile of ordinal `ord` a consumer of its request (R306)? -/
def Crb.consumer (c : Crb) (ord : Nat) : Bool :=
  c.op != 2 || decide (ord = c.ord0.toNat + c.root.toNat * c.mstr.toNat)

/-- Bytes of the landing range (R306). -/
def Crb.landLen (c : Crb) : Nat :=
  if c.pmode = 1 then (c.count.toNat + 255) / 256 * 3200 else 4 * c.count.toNat

/-- Does the range meet what a running or parked collective has claimed (R311)? -/
def claimed (v : VRegs) (ofs len : Nat) : Bool :=
  v.coll.any (fun c =>
    (c.st == 2 || c.st == 3) && c.crb.consumer v.ord &&
      (meets c.crb.dst.toNat c.crb.landLen ofs len ||
       (c.crb.mbma != 0 && meets c.crb.mbma.toNat ((c.crb.m.toNat + 7) / 8) ofs len)))

/-! ### Registers and counters -/

/-- A g register (R58: g0 is zero). -/
def Strand.rg (S : Strand) (r : BitVec 5) : Word := if r = 0 then 0 else S.g[r.toNat]

/-- Write a g register; a write to g0 is discarded (R58). -/
def Strand.wg (S : Strand) (r : BitVec 5) (v : Word) : Strand := if r = 0 then S else { S with g := S.g.set r.toNat v }

/-- A w register. -/
def Strand.rw (S : Strand) (r : BitVec 4) : VWord := S.w[r.toNat]

/-- Write a w register. -/
def Strand.ww (S : Strand) (r : BitVec 4) (v : VWord) : Strand := { S with w := S.w.set r.toNat v }

/-- A predicate; p0 reads true (R63). -/
def Strand.rp (S : Strand) (r : BitVec 3) : Bool := r == 0 || S.p.getLsbD r.toNat

/-- Write a predicate; a write to p0 is discarded (R58). -/
def Strand.wp (S : Strand) (r : BitVec 3) (b : Bool) : Strand :=
  if r = 0 then S
  else { S with p := (S.p &&& ~~~((1 : BitVec 8) <<< r.toNat)) ||| ((BitVec.ofBool b).setWidth 8 <<< r.toNat) }

/-- Mark a destination empty (R95); g0 never is. -/
def Strand.markEmpty (S : Strand) (d : Dst) : Strand :=
  match d with
  | .g r => if r = 0 then S else { S with gE := S.gE ||| ((1 : BitVec 32) <<< r.toNat) }
  | .w r => { S with wE := S.wE ||| ((1 : BitVec 16) <<< r.toNat) }
  | .q _ => S
  | .none => S

/-- Is a register empty? -/
def Strand.isEmpty (S : Strand) (d : Dst) : Bool :=
  match d with
  | .g r => r != 0 && S.gE.getLsbD r.toNat
  | .w r => S.wE.getLsbD r.toNat
  | .q _ => false
  | .none => false

/-- Deliver a value: write the register and mark it full (R95). -/
def Strand.deliver (S : Strand) (d : Dst) (v : VWord) : Strand :=
  match d with
  | .g r => { (S.wg r (v.setWidth 64)) with gE := S.gE &&& ~~~((1 : BitVec 32) <<< r.toNat) }
  | .w r => { (S.ww r v) with wE := S.wE &&& ~~~((1 : BitVec 16) <<< r.toNat) }
  | .q k =>
    { S with outN := S.outN.set k.toNat (S.outN[k.toNat] + 1)
             q := S.q.set k.toNat { S.q[k.toNat] with pend := S.q[k.toNat].pend ++ [v], next := S.q[k.toNat].next + 1 } }
  | .none => S

/-- A strand that waits for registers that are all full now issues in this cycle, the one its value is there for (R86, R95). -/
def Strand.woken (S : Strand) (now : Nat) : Strand :=
  match S.st, S.wait with
  | .waiting, .regs rs =>
    if rs.any (fun r => S.isEmpty r) then S else { S with st := .ready, wait := .idle, notBefore := now }
  | _, _ => S

/-- A value reaches a register of a strand (R95). -/
def State.fill (s : State) (t : TileId) (n : StrandNo) (d : Dst) (v : VWord) : State :=
  s.modStrand t n (fun S => (S.deliver d v).woken s.cycle)

/-- An increment of a counter (R178); this cycle's are kept for a `cnt.set` (R179). -/
def VRegs.raise (v : VRegs) (ct : BitVec 4) (x : BitVec 32) : VRegs :=
  { v with c := v.c.set ct.toNat (v.c[ct.toNat] + x), cinc := v.cinc.set ct.toNat (v.cinc[ct.toNat] + x) }

/-- Raise a counter of a tile by a number (R178). -/
def addCounter (s : State) (t : TileId) (ct : BitVec 4) (x : BitVec 32) : State := s.modV t (fun v => v.raise ct x)

/-- Place of a virtual tile (R253, R254): its group, its host and its slot there. -/
def locate (s : State) (ctx : Nat) (idx : BitVec 20) : Option (Group × TileId × Nat) :=
  match s.groups.find? (fun g =>
      g.ctx == ctx && g.st != .ended && decide (g.base * 1024 ≤ idx.toNat ∧ idx.toNat < g.base * 1024 + g.v)) with
  | none => none
  | some g =>
    let k := idx.toNat - g.base * 1024
    let p := g.hosts.length
    if p = 0 then none else (g.hosts[k % p]?).map (fun t => (g, t, k / p))

/-- The registers of a slot of a host: the resident's, or those held for it (R257). -/
def slotRegs (T : Tile) (k : Nat) : VRegs :=
  if T.slot = k then T.v else ((T.slots[k]?).map (fun x => x.regs)).getD {}

/-- Change the registers of a slot of a host. -/
def modSlot (s : State) (t : TileId) (k : Nat) (f : VRegs → VRegs) : State :=
  if (s.tile t).slot = k then s.modV t f
  else s.modTile t (fun T =>
    { T with slots := T.slots.mapIdx (fun i x => if i = k then { x with regs := f x.regs } else x) })

/-- Raise a counter of a virtual tile, wherever it is hosted and whatever slot is resident (R259), at its shadow too
(R250). -/
def raiseV (s : State) (ctx : Nat) (idx : BitVec 20) (ct : BitVec 4) : State :=
  match locate s ctx idx with
  | some (_, t, k) =>
    let s := modSlot s t k (fun v => v.raise ct 1)
    match (s.tile t).twin with
    | some u => modSlot s u k (fun v => v.raise ct 1)
    | none => s
  | none => s

/-- Width in bytes of a width code (R61). -/
def widthBytes (wd : BitVec 3) : Nat := match wd.toNat % 4 with | 0 => 8 | 1 => 4 | 2 => 2 | _ => 1

/-- Extend a loaded value by its width code (R61, R99). -/
def extendTo (wd : BitVec 3) (x : Nat) : Word :=
  BitVec.ofInt 64 (readInt (decide (4 ≤ wd.toNat)) (8 * widthBytes wd) x)

/-- Forget the accesses of a tile's engines that are parked or ask the page unit in this cycle, those of `f`. -/
def State.withdraw (s : State) (ctx : Nat) (t : TileId) (f : Accessor → Bool) : State :=
  let mine (a : PageAcc) : Bool := a.tile == t && f a.who
  let s := s.modCtx ctx (fun x => { x with parked := x.parked.filter (fun a => !mine a) })
  { s with agenda := s.agenda.filter (fun e => match e.2 with | .pageAccess a => !mine a | _ => true) }

end Sys2Proof.Machine
end

