-- ==== Sys2Proof/Machine/Hbm.lean ====
section
/-! DEFINITION. HBM and its translation: stacks (R19, R215), the table walk (R288 to R291), reads and writes of bytes by
context virtual address. -/

namespace Sys2Proof.Machine

open Sys2Proof

/-- Stacks of a logical device (Table 11.2): the first and how many. -/
def stacksOf (mode : BitVec 2) (dev : Nat) : Nat × Nat :=
  if mode = 0 then (0, 8) else if mode = 1 then (4 * dev, 4) else (2 * dev, 2)

/-- Logical devices of a mode. -/
def devicesOf (mode : BitVec 2) : Nat := if mode = 0 then 1 else if mode = 1 then 2 else 4

/-- Whole 32 KiB frames of a logical device: 48 GB, 48,000,000,000 bytes, per stack (R4, R19). -/
def framesOf (mode : BitVec 2) : Nat := (stacksOf mode 0).2 * 48000000000 / 32768

/-- The place of a physical address of a logical device (R215): key stack * 2^40 + a. -/
def hbmKey (mode : BitVec 2) (dev pa : Nat) : Nat :=
  let st := stacksOf mode dev
  let l := Nat.log2 st.2
  (st.1 + ((pa / 256) ^^^ (pa / 2 ^ 19)) % st.2) * 2 ^ 40 + pa / 2 ^ (8 + l) * 256 + pa % 256

/-- Device of a frame number, and the frame within it (log entry 10); none beyond the package's HBM. -/
def frameDev (mode : BitVec 2) (frame : Nat) : Option (Nat × Nat) :=
  let d := frame / framesOf mode
  if d < devicesOf mode then some (d, frame % framesOf mode) else none

/-- Number of a device's frame among all (log entry 10). -/
def frameNo (mode : BitVec 2) (dev frame : Nat) : Nat := dev * framesOf mode + frame

/-- `n` bytes of a frame. -/
def frameBytes (s : State) (mode : BitVec 2) (dev frame ofs n : Nat) : List Byte :=
  (List.range n).map (fun i => s.hbm.read (hbmKey mode dev (frame * 32768 + ofs + i)))

/-- Store bytes into a frame. -/
def frameStore (s : State) (mode : BitVec 2) (dev frame ofs : Nat) (bs : List Byte) : State :=
  let f (m : Mem) (i : Nat) : Mem := m.write (hbmKey mode dev (frame * 32768 + ofs + i)) (bs.getD i 0)
  { s with hbm := (List.range bs.length).foldl f s.hbm }

/-- Entry k of the table in a frame, given by its number. -/
def tableEntry (s : State) (mode : BitVec 2) (frame k : Nat) : Option Word :=
  (frameDev mode frame).map (fun d => BitVec.ofNat 64 (natOf (frameBytes s mode d.1 d.2 (8 * k) 8)))

/-- VALID, LEAF, FRAME and STATE of an entry (Table 16.1). -/
def peValid (e : Word) : Bool := e.getLsbD 63
/-- LEAF. -/
def peLeaf (e : Word) : Bool := e.getLsbD 62
/-- Pinned by the monitor or by `pin`. -/
def pePinned (e : Word) : Bool := e.getLsbD 61 || e.getLsbD 60
/-- MIG. -/
def peMig (e : Word) : Nat := (e.extractLsb' 52 3).toNat
/-- FRAME. -/
def peFrame (e : Word) : Nat := e.toNat % 2 ^ 28
/-- HOME. -/
def peHome (e : Word) : BitVec 8 := e.extractLsb' 44 8
/-- STATE. -/
def peState (e : Word) : Nat := (e.extractLsb' 55 3).toNat
/-- The entry with another STATE. -/
def peSetState (e : Word) (x : Nat) : Word :=
  (e &&& ~~~(0x7 <<< (55 : Nat) : Word)) ||| (BitVec.ofNat 64 (x % 8) <<< (55 : Nat))
/-- The entry with another FRAME. -/
def peSetFrame (e : Word) (x : Nat) : Word := (e &&& ~~~(0xFFFFFFF : Word)) ||| BitVec.ofNat 64 (x % 2 ^ 28)

/-- Does a leaf hold a reserved STATE or a MIG above 4 (Table 16.1, R290)? -/
def peBad (e : Word) : Bool := decide (5 ≤ (e.extractLsb' 55 3).toNat ∨ 5 ≤ peMig e)

/-- A leaf found by a walk: the entry, where it stands (table frame and index), and whether it maps 128 MiB. -/
abbrev Leaf := Word × Nat × Nat × Bool

/-- The walk of R288: a leaf, or why there is none. A malformed entry refuses the access (R290). -/
def walk (s : State) (ctx : Nat) (va : Word) : Except XRes Leaf :=
  let x := s.ctx ctx
  let a := va.toNat
  if 2 ^ 51 ≤ a then .error .refused
  else
    match tableEntry s x.mode x.tbr.toNat (a / 2 ^ 39) with
    | none => .error .refused
    | some e1 =>
      if !peValid e1 then .error .unmapped
      else if peLeaf e1 then .error .refused
      else
        match tableEntry s x.mode (peFrame e1) (a / 2 ^ 27 % 4096) with
        | none => .error .refused
        | some e2 =>
          if !peValid e2 then .error .unmapped
          else if peLeaf e2 then
            if peFrame e2 % 4096 ≠ 0 || peBad e2 then .error .refused else .ok (e2, peFrame e1, a / 2 ^ 27 % 4096, true)
          else
            match tableEntry s x.mode (peFrame e2) (a / 2 ^ 15 % 4096) with
            | none => .error .refused
            | some e3 =>
              if !peValid e3 then .error .unmapped
              else if !peLeaf e3 || peBad e3 then .error .refused
              else .ok (e3, peFrame e2, a / 2 ^ 15 % 4096, false)

/-- The chip that made an access. -/
def accSource (s : State) (a : PageAcc) : BitVec 8 :=
  match a.who with
  | .chip c => c
  | _ => a.chip.getD s.chip

/-- Rank of an event of a page among those of its cycle: source chip, die, tile and channel (R293). -/
def pageKey (s : State) (e : Ev) : Option Nat :=
  match e with
  | .pageAccess a =>
    some (((accSource s a).toNat * 8192 + a.tile) * 2 + match a.who with | .chip _ => 0 | .chan => 0 | _ => 1)
  | .writebackDrain w => some ((w.chip.toNat * 8192 + w.tile) * 2 + 1)
  | _ => none

/-- Put an event that reaches the page unit at cycle `c` into the agenda, in the order of R293. -/
def agendaPage (s : State) (c : Nat) (e : Ev) : List (Nat × Ev) → List (Nat × Ev)
  | [] => [(c, e)]
  | h :: r =>
    if c < h.1 then (c, e) :: h :: r
    else if h.1 < c then h :: agendaPage s c e r
    else
      match pageKey s h.2, pageKey s e with
      | some k, some j => if j < k then (c, e) :: h :: r else h :: agendaPage s c e r
      | _, _ => h :: agendaPage s c e r

/-- An engine's access goes to the page unit (R293). -/
def State.postPage (s : State) (a : PageAcc) : State := { s with agenda := agendaPage s s.cycle (.pageAccess a) s.agenda }

/-- A write-back reaches the page unit after `d` cycles (R195, R293). -/
def State.postDrain (s : State) (d : Nat) (w : WriteBack) : State :=
  { s with agenda := agendaPage s (s.cycle + d) (.writebackDrain w) s.agenda }

/-- Write a leaf entry where the walk found it. -/
def setLeaf (s : State) (ctx : Nat) (l : Leaf) (e : Word) : State :=
  let mode := (s.ctx ctx).mode
  match frameDev mode l.2.1 with
  | some d => frameStore s mode d.1 d.2 (8 * l.2.2.1) (bytesOf 8 e.toNat)
  | none => s

/-- Does a write-back of the context that has not drained touch the range (R195)? -/
def drainTouches (x : Ctx) (va n : Nat) : Bool :=
  x.drains.any (fun w => decide (w.va.toNat < va + n ∧ va < w.va.toNat + w.n))

/-- Translate an engine's access within one page (R288 to R295). A page whose home is another chip is reached there, whatever
the STATE that the copy of its entry here holds. An OUTBOUND page counts as resident: the access cancels its copy (Table
16.2). -/
def translate (s : State) (ctx : Nat) (va : Word) (n : Nat) (write : Bool) : XRes :=
  let x := s.ctx ctx
  match walk s ctx va with
  | .error e => e
  | .ok l =>
    let e := l.1
    if (if write then !e.getLsbD 58 else !e.getLsbD 59) then .refused
    else if peHome e ≠ s.chip then
      if !write && drainTouches x va.toNat n then .behind else .away (peHome e)
    else if peState e = 2 then .offloaded
    else if peState e = 3 then .inbound
    else if !write && drainTouches x va.toNat n then .behind
    else
      let frame := if l.2.2.2 then peFrame e + va.toNat / 2 ^ 15 % 4096 else peFrame e
      match frameDev x.mode frame with
      | some d => .ok e d.1 d.2
      | none => .refused

/-- Addresses of the page parts of a range: (address, bytes). -/
def pageParts (fuel : Nat) (va n : Nat) : List (Nat × Nat) :=
  match fuel with
  | 0 => []
  | f + 1 =>
    if n = 0 then []
    else
      let room := 32768 - va % 32768
      let k := if n < room then n else room
      (va, k) :: pageParts f (va + k) (n - k)

/-- What the home of a page on another chip does with an access, by its own copy of the table (R291): 0 serves it, 1 refuses
it, else holds it, as a parked access. A free value (log entry 56). -/
def homeTakes (s : State) (va : Word) : Nat := Config.freeNat (s.free + 2 ^ 36 + va.toNat / 32768) % 3

/-- The first part of a range that an engine cannot reach now, and why. A page of another chip is reached at its home (R291). -/
def firstBlocked (s : State) (ctx : Nat) (va : Word) (n : Nat) (write : Bool) : Option (Word × XRes) :=
  (pageParts (n / 32768 + 2) va.toNat n).findSome? (fun p =>
    match translate s ctx (BitVec.ofNat 64 p.1) p.2 write with
    | .ok _ _ _ => none
    | .away h => if homeTakes s (BitVec.ofNat 64 p.1) = 0 then none else some (BitVec.ofNat 64 p.1, .away h)
    | r => some (BitVec.ofNat 64 p.1, r))

/-- Does the page of an address have its home on another chip (R291)? -/
def pageAway (s : State) (ctx : Nat) (va : Word) : Bool :=
  match walk s ctx va with | .ok l => peHome l.1 != s.chip | .error _ => false

/-- Bytes of HBM by context virtual address; 0 where the walk fails (the callers have checked). What a page of another chip
holds is a free value (log entry 56). -/
def readHbm (s : State) (ctx : Nat) (va : Word) (n : Nat) : List Byte :=
  (pageParts (n / 32768 + 2) va.toNat n).flatMap (fun p =>
    if pageAway s ctx (BitVec.ofNat 64 p.1) then bytesOf p.2 (Config.freeNat (s.free + p.1 / 32768))
    else
    match walk s ctx (BitVec.ofNat 64 p.1) with
    | .ok l =>
      let frame := if l.2.2.2 then peFrame l.1 + p.1 / 2 ^ 15 % 4096 else peFrame l.1
      match frameDev (s.ctx ctx).mode frame with
      | some d => frameBytes s (s.ctx ctx).mode d.1 d.2 (p.1 % 32768) p.2
      | none => List.replicate p.2 0
    | .error _ => List.replicate p.2 0)

/-- Store bytes into HBM by context virtual address. Those of a page of another chip go there and leave nothing here (R291). -/
def writeHbm (s : State) (ctx : Nat) (va : Word) (bs : List Byte) : State :=
  ((pageParts (bs.length / 32768 + 2) va.toNat bs.length).foldl (fun (r : State × List Byte) p =>
    let s := r.1
    (match walk s ctx (BitVec.ofNat 64 p.1) with
     | .ok l =>
       if peHome l.1 ≠ s.chip then s else
       let frame := if l.2.2.2 then peFrame l.1 + p.1 / 2 ^ 15 % 4096 else peFrame l.1
       match frameDev (s.ctx ctx).mode frame with
       | some d => frameStore s (s.ctx ctx).mode d.1 d.2 (p.1 % 32768) (r.2.take p.2)
       | none => s
     | .error _ => s,
     r.2.drop p.2)) (s, bs)).1

/-- An OUTBOUND page that is accessed becomes RESIDENT (Table 16.2): the copy is cancelled, its slot is freed, the
counters of the `offl` are raised. -/
def cancelOutbound (s : State) (ctx : Nat) (va : Word) : State :=
  match walk s ctx va with
  | .error _ => s
  | .ok l =>
    if peState l.1 ≠ 1 ∨ peHome l.1 ≠ s.chip then s
    else
      let page := va.toNat / 32768
      let s := setLeaf s ctx l (peSetState l.1 0)
      let x := s.ctx ctx
      match x.xfers.find? (fun f => f.va.toNat / 32768 == page && !f.inbound && !f.away) with
      | none => s
      | some f =>
        let dev := assocGet (((frameDev x.mode (peFrame l.1)).map (fun d => d.1)).getD 0) f.to_ x.slotFrom
        let s := s.modCtx ctx (fun x =>
          { x with xfers := x.xfers.filter (fun g => !(g.va.toNat / 32768 == page && !g.inbound && !g.away))
                   slots := assocSet dev (assocGet [] dev x.slots ++ [f.to_]) x.slots })
        f.cts.foldl (fun s c => raiseV s ctx c.1 c.2) s

/-- Place in the save area of buffer `buf` of a virtual tile (R221, R257); buffer 0 is its slot. -/
def imageVa (x : Ctx) (idx : BitVec 20) (buf : Nat) : Word :=
  BitVec.ofNat 64 (x.sab.toNat + 0x1000 + (buf % 2 * 2 ^ 20 + idx.toNat) * (x.z * 4096))

/-- Place of the parked record of a collective slot (R221, R319). -/
def parkedVa (x : Ctx) (idx : BitVec 20) (k : Nat) : Word :=
  BitVec.ofNat 64 (x.sab.toNat + 0x1000 + 2 ^ 21 * (x.z * 4096) + (8 * idx.toNat + k) * 4096)

/-- The buffer that holds a virtual tile's standing image (R257). -/
def standingBuf (g : Group) (ord : Nat) : Nat := if g.standing.contains ord then 1 else 0

/-- A free value that an access to another chip used is not used again. -/
def State.awayUsed (s : State) : State := { s with free := s.free + 2 ^ 37 }

/-- Cancel the outbound copies of every page of a range that is accessed. -/
def touchPages (s : State) (ctx : Nat) (va : Word) (n : Nat) : State :=
  let ps := pageParts (n / 32768 + 2) va.toNat n
  let s' := ps.foldl (fun s p => cancelOutbound s ctx (BitVec.ofNat 64 p.1)) s
  if ps.any (fun p => pageAway s ctx (BitVec.ofNat 64 p.1)) then s'.awayUsed else s'

end Sys2Proof.Machine
end

