-- ==== Sys2Proof/Machine/Flags.lean ====
section
/-! DEFINITION. Predicates, the part's only flags (R30, R63): conditions of `cmp` and `plog` (R101), the carry of `addc`
(R100), conditions of `vcmp` (R121). -/

namespace Sys2Proof.Machine

open Sys2Proof

/-- Is an instruction's predicate true (R63)? -/
def predTrue (S : Strand) (p : Pred) : Bool := S.rp p.pr != p.pn

/-- The conditions of `cmp` over 64 bits (Table 5.5). -/
def cmpCond (c : BitVec 4) (x y : Word) : Bool :=
  match c.toNat with
  | 0 => x == y
  | 1 => x != y
  | 2 => decide (x.toInt < y.toInt)
  | 3 => decide (y.toInt ≤ x.toInt)
  | 4 => decide (x.toInt ≤ y.toInt)
  | 5 => decide (y.toInt < x.toInt)
  | 6 => decide (x.toNat < y.toNat)
  | 7 => decide (y.toNat ≤ x.toNat)
  | 8 => decide (x.toNat ≤ y.toNat)
  | _ => decide (y.toNat < x.toNat)

/-- A truth table of two predicates (Table 5.5). -/
def truth (tt : BitVec 4) (a b : Bool) : Bool := tt.getLsbD ((if a then 2 else 0) + (if b then 1 else 0))

/-- The carry-in of `addc` (R100): a carry predicate of p0 is no carry. -/
def carryIn (S : Strand) (pc : BitVec 3) : Nat := if pc ≠ 0 ∧ S.rp pc then 1 else 0

/-- The conditions of `vcmp` on an integer lane (R121). -/
def vcmpInt (k : BitVec 4) (x y : Int) : Bool :=
  match k.toNat with
  | 0 => decide (x = y)
  | 1 => decide (x ≠ y)
  | 2 => decide (x < y)
  | 3 => decide (x ≤ y)
  | 4 => decide (y < x)
  | _ => decide (y ≤ x)

/-- The conditions of `vcmp` on a floating-point lane (R121): a NaN makes all false but `ne` and `un`. -/
def vcmpFp (k : BitVec 4) (x y : Val) : Bool :=
  let un := x == .nan || y == .nan
  match k.toNat with
  | 0 => !un && eqVal x y
  | 1 => un || !eqVal x y
  | 2 => !un && ltVal x y
  | 3 => !un && (ltVal x y || eqVal x y)
  | 4 => !un && ltVal y x
  | 5 => !un && (ltVal y x || eqVal x y)
  | _ => un

end Sys2Proof.Machine
end

