-- ==== Sys2Proof/Machine/Operands.lean ====
section
/-! DEFINITION. The operand forms and the issue of an instruction: predicate, privilege, empty sources, busy
destinations (R55 checks 7 to 9, R63 to R65), stream registers as operands (R117, R174), results now or later (R95,
R118), and what an instruction's body leaves of the strand. -/

namespace Sys2Proof.Machine

open Sys2Proof

/-! ### Stream binding records (R171, R172) -/

/-- A limb of a record. -/
def recLimb (r : BitVec 512) (k : Nat) : Nat := r.toNat / 2 ^ (64 * k) % 2 ^ 64

/-- N0 to N3. -/
def recN (r : BitVec 512) (i : Nat) : Nat := recLimb r 1 / 2 ^ (16 * i) % 65536

/-- S0 to S3, signed. -/
def recS (r : BitVec 512) (i : Nat) : Int :=
  readInt true 32 (recLimb r (2 + i / 2) / 2 ^ (32 * (i % 2)))

/-- Pieces of the binding. -/
def recPieces (r : BitVec 512) : Nat := recN r 0 * recN r 1 * recN r 2 * recN r 3

/-- TYPE. -/
def recType (r : BitVec 512) : BitVec 4 := BitVec.ofNat 4 (recLimb r 4)

/-- HBM. -/
def recHbm (r : BitVec 512) : Bool := recLimb r 4 / 512 % 2 == 1
/-- SLAB. -/
def recSlab (r : BitVec 512) : Bool := recLimb r 4 / 1024 % 2 == 1
/-- TAP. -/
def recTap (r : BitVec 512) : Bool := recLimb r 4 / 2048 % 2 == 1

/-- Distance of piece p from BASE + OFS (R172). -/
def pieceDist (r : BitVec 512) (p : Nat) : Int :=
  let n0 := recN r 0
  let n1 := recN r 1
  let n2 := recN r 2
  (p % n0 : Nat) * recS r 0 + (p / n0 % n1 : Nat) * recS r 1 + (p / n0 / n1 % n2 : Nat) * recS r 2 +
    (p / n0 / n1 / n2 : Nat) * recS r 3

/-- Address of piece p (R172). -/
def pieceAddr (r : BitVec 512) (ofs : Word) (p : Nat) : Word :=
  BitVec.ofInt 64 ((recLimb r 0 : Int) + (ofs.toNat : Int) + pieceDist r p)

/-- Pieces written to an `.out` binding and not performed, once the binding ends (R177). -/
def outRest (q : QReg) (k : Fin 8) : List OutPiece :=
  q.pend.mapIdx (fun i v =>
    { k := k, hbm := recHbm q.rcd, addr := (pieceAddr q.rcd q.ofs (q.next - q.pend.length + i)).toNat, data := v,
      pc := q.pc, ct := if q.cnte then q.ct else 0 })

/-- End the binding of a q register (R177). -/
def Strand.unbindQ (S : Strand) (k : Fin 8) : Strand :=
  { S with q := S.q.set k {}, rest := S.rest ++ outRest S.q[k] k }

/-- The parked fetch of a binding that ends is discarded (R177). -/
def dropFetch (s : State) (t : TileId) (r : StreamRef) : State :=
  s.withdraw (s.tile t).ctx t (fun w => w == .stream r)

/-- End every binding of a strand. -/
def Strand.unbindAll (S : Strand) : Strand := (List.finRange 8).foldl Strand.unbindQ S

/-! ### Stream registers as operands (R64, R65, R174) -/

/-- Can the binding still give `need` pieces? -/
def qGives (q : QReg) (need : Nat) : Bool :=
  q.valid && !q.out && !q.stopped && decide (q.next + need ≤ recPieces q.rcd)

/-- Can the binding still take a piece? -/
def qTakes (q : QReg) : Bool :=
  q.valid && q.out && !q.stopped && decide (q.next < recPieces q.rcd)

/-- How often a q register stands among the sources. -/
def qNeed (k : BitVec 3) (srcs : List Src) : Nat :=
  (srcs.filter (fun x => match x with | .v v => v.r == .q k | _ => false)).length

/-- Is a source empty (R64)? A binding that will give no more is not empty: reading it traps STREAM (R174). -/
def srcEmpty (S : Strand) (srcs : List Src) (x : Src) : Bool :=
  match x with
  | .g r => S.isEmpty (.g r.r)
  | .w r => S.isEmpty (.w r.r)
  | .v v =>
    match v.r with
    | .w r => S.isEmpty (.w r)
    | .q k =>
      let q := S.q[k.toNat]
      let need := qNeed k srcs
      qGives q need && decide (q.have_.length < need)

/-- The empty-behaviour bit of a source. -/
def Src.e : Src → Bool
  | .g x => x.e
  | .w x => x.e
  | .v x => x.e

/-- The register of a source, as a destination names it. -/
def Src.dst : Src → Dst
  | .g x => .g x.r
  | .w x => .w x.r
  | .v x => match x.r with | .w r => .w r | .q k => .q k

/-- What a strand waits for when sources are empty (R64): registers, else a stream. -/
def emptyWait (S : Strand) (srcs : List Src) : Wait :=
  let es := (srcs.filter (srcEmpty S srcs)).map Src.dst
  let regs := es.filter (fun d => match d with | .q _ => false | _ => true)
  match regs, es with
  | [], .q k :: _ => .stream ⟨k.toNat, by omega⟩ (qNeed k srcs) false
  | _, _ => .regs regs

/-- The own trap of a stream register in a source or destination position (R174). -/
def streamTrap (S : Strand) (srcs : List Src) (dsts : List Dst) : Option (Cause × BitVec 32) :=
  let src (x : Src) : Option (Cause × BitVec 32) :=
    match x with
    | .v ⟨.q k, _⟩ =>
      let q := S.q[k.toNat]
      if q.valid && q.out then some (.illegal, 0)
      else if qGives q (qNeed k srcs) then none else some (.stream, 1)
    | _ => none
  let dst (d : Dst) : Option (Cause × BitVec 32) :=
    match d with
    | .q k =>
      let q := S.q[k.toNat]
      if q.valid && !q.out then some (.illegal, 0)
      else if qTakes q then none else some (.stream, 2)
    | _ => none
  match srcs.findSome? src with
  | some x => some x
  | none => dsts.findSome? dst

/-- A stream destination that is full (R65, R174). -/
def fullQ (S : Strand) (dsts : List Dst) : Option (BitVec 3) :=
  dsts.findSome? (fun d =>
    match d with
    | .q k => if 4 ≤ S.q[k.toNat].pend.length then some k else none
    | _ => none)

/-- Does a piece written now wait for the release: the arrival has been sent, the binding writes the versioned store or
HBM (R204)? -/
def lateQ (T : Tile) (S : Strand) (dsts : List Dst) : Bool :=
  T.v.bstate == 2 && dsts.any (fun d =>
    match d with
    | .q k =>
      let q := S.q[k.toNat]
      recHbm q.rcd || !foreAt T.v.partw ((pieceAddr q.rcd q.ofs q.next).toNat % 2 ^ 21)
    | _ => false)

/-! ### The issue of an instruction (R55 checks 7 to 10) -/

/-- The strand takes the issue slot of the cycle: it becomes the holder and the watchdog restarts (R86, R87). -/
def took (s : State) (t : TileId) (n : StrandNo) : State :=
  s.modTile t (fun T => { T with holder := n, idle := 0, didIssue := true })

/-- The strand waits and its instruction is examined again; the issue slot passes on (R64, R65). -/
def passOn (s : State) (t : TileId) (n : StrandNo) (len : Nat) (w : Wait) : State :=
  { s with issued := t }.modStrand t n (fun S => { S with st := .waiting, wait := w, since := s.cycle, wlen := len })

/-- What a body comes to, as the next state (R54, R55). -/
def finishAct (s0 : State) (t : TileId) (n : StrandNo) (len : Nat) (a : Act) : State :=
  let pc := (s0.strand t n).pc
  match a with
  | .done s => (took s t n).modStrand t n (fun S => { S with pc := successor pc len, passed := false })
  | .goto p s => (took s t n).modStrand t n (fun S => { S with pc := p, passed := false })
  | .trap c i => takeTrap (took s0 t n) t n c i pc (successor pc len)
  | .wait w => passOn s0 t n len w
  | .block w s =>
    (took s t n).modStrand t n (fun S => { S with st := .waiting, wait := w, since := s.cycle, wlen := len })
  | .stop s => took s t n

/-- What checks 7 to 9 of R55, R65 and R174 come to before the body runs. -/
def checkIssue (s : State) (t : TileId) (n : StrandNo) (p : Pred) (who : Who) (srcs : List Src) (dsts : List Dst) :
    Option Act :=
  let T := s.tile t
  let S := T.strands[n.val]
  if !predTrue S p then some (.done s)
  else if (who = .monitor ∧ t ≠ monitorTile) ∨ ((who = .control ∨ who = .zero) ∧ n.val ≠ 0) then some (.trap .priv 0)
  else if srcs.any (fun x => x.e && srcEmpty S srcs x) then some (.trap .empty 0)
  else if srcs.any (srcEmpty S srcs) then some (.wait (emptyWait S srcs))
  else
    match streamTrap S srcs dsts with
    | some x => some (.trap x.1 x.2)
    | none =>
      if dsts.any S.isEmpty then some (.wait (.regs (dsts.filter S.isEmpty)))
      else
        match fullQ S dsts with
        | some k => some (.wait (.stream ⟨k.toNat, by omega⟩ 0 true))
        | none => if lateQ T S dsts then some (.wait .release) else none

/-- An instruction at the strand that issues. -/
def issue (p : Pred) (len : Nat) (who : Who) (srcs : List Src) (dsts : List Dst)
    (body : State → TileId → StrandNo → Act) (s : State) : Host.Outcome State Fault Refusal :=
  let t := s.cur.1
  let n := s.cur.2
  match checkIssue s t n p who srcs dsts with
  | some a => .next (finishAct s t n len a)
  | none =>
    if (who = .tile ∨ who = .control) ∧ t = monitorTile then .refused .outsideMonitorRepertoire
    else .next (finishAct s t n len (body s t n))

/-! ### Reading sources -/

/-- A g source. -/
def gv (s : State) (t : TileId) (n : StrandNo) (r : GSrc) : Word := (s.strand t n).rg r.r

/-- A w source. -/
def wv (s : State) (t : TileId) (n : StrandNo) (r : WSrc) : VWord := (s.strand t n).rw r.r

/-- Take the next piece of an `.in` stream (R174): exhaustion raises the counter of `.c`. -/
def takePiece (s : State) (t : TileId) (n : StrandNo) (k : BitVec 3) : State × VWord :=
  let q := (s.strand t n).q[k.toNat]
  let last := decide (q.next + 1 = recPieces q.rcd)
  let q' := { q with next := q.next + 1, have_ := q.have_.drop 1, exh := q.exh || last }
  let s := s.modStrand t n (fun S => { S with q := S.q.set k.toNat q' })
  let s := if last && q.cnte && !q.exh then addCounter s t q.ct 1 else s
  (s, q.have_.headD 0)

/-- A vector source: a w register, or the next piece of a q register's stream. -/
def takeV (s : State) (t : TileId) (n : StrandNo) (v : VSrc) : State × VWord :=
  match v.r with
  | .w r => (s, (s.strand t n).rw r)
  | .q k => takePiece s t n k

/-- Second operand of the forms of R61: a register or the sign-extended immediate. -/
def aluVal (s : State) (t : TileId) (n : StrandNo) (b : AluB) : Word :=
  match b with
  | .reg r => gv s t n r
  | .imm i => i.signExtend 64

/-- Sources of the forms of R61. -/
def aluSrcs (o : AluOps) : List Src :=
  match o.b with
  | .reg r => [.g o.a, .g r]
  | .imm _ => [.g o.a]

/-- A w source that may be absent. -/
def optW (c : Option WSrc) : List Src := match c with | some x => [.w x] | none => []

/-- Its words of 32 bits. -/
def optWords (s : State) (t : TileId) (n : StrandNo) (c : Option WSrc) : List (BitVec 32) :=
  match c with
  | some x => (List.range 32).map (fun i => (wv s t n x).extractLsb' (32 * i) 32)
  | none => List.replicate 128 0

/-- A destination vector position. -/
def vdst : VReg → Dst
  | .w r => .w r
  | .q k => .q k

/-! ### Writing results -/

/-- Write a g register in the issue cycle (R95). -/
def setG (s : State) (t : TileId) (n : StrandNo) (d : BitVec 5) (v : Word) : State :=
  s.modStrand t n (fun S => S.wg d v)

/-- Write a predicate in the issue cycle. -/
def setP (s : State) (t : TileId) (n : StrandNo) (d : BitVec 3) (b : Bool) : State :=
  s.modStrand t n (fun S => S.wp d b)

/-- Mark a destination empty and deliver its value `lat` cycles later (R95, R118). -/
def laterD (s : State) (t : TileId) (n : StrandNo) (d : Dst) (v : VWord) (lat : Nat) : State :=
  let gen := (s.strand t n).gen
  (s.modStrand t n (fun S => S.markEmpty d)).post lat (.resultDelivery t n gen d v)

/-- A g result that takes `lat` cycles. -/
def laterG (s : State) (t : TileId) (n : StrandNo) (d : BitVec 5) (v : Word) (lat : Nat) : State :=
  if d = 0 then s else laterD s t n (.g d) (v.setWidth 1024) lat

/-- A vector result (R118): a w register after `lat` cycles; a q register takes it as its next piece. -/
def laterV (s : State) (t : TileId) (n : StrandNo) (d : VReg) (v : VWord) (lat : Nat) : State :=
  match d with
  | .w r => laterD s t n (.w r) v lat
  | .q k => s.modStrand t n (fun S => S.deliver (.q k) v)

end Sys2Proof.Machine
end

