-- ==== Sys2Proof/Machine/Control.lean ====
section
/-! DEFINITION. Control flow (R103, Table 5.6), `halt` (Table 5.1) and `waitc` (R104). -/

namespace Sys2Proof.Machine

open Sys2Proof

/-- The target of a branch (R103): PC + 4 * SignExt(IMM26), an alias offset. -/
def branchTarget (pc : BitVec 21) (imm : BitVec 26) : BitVec 21 := pc + (imm.signExtend 64 <<< (2 : Nat)).setWidth 21

/-- BR (R103). -/
def execBr (p : Pred) (imm : BitVec 26) (s : State) : Host.Outcome State Fault Refusal :=
  issue p 8 .any [] [] (fun s t n => .goto (branchTarget (s.strand t n).pc imm) s) s

/-- A jump to a register's value plus an immediate (R103): upper address bits trap PROT. -/
def jumpAct (s : State) (a : Word) (imm : BitVec 26) : Act :=
  if a.toNat < 2 ^ 21 then .goto ((a + imm.signExtend 64).setWidth 21) s else .trap .prot 0

/-- JMP (R103). -/
def execJmp (p : Pred) (a : GSrc) (imm : BitVec 26) (s : State) : Host.Outcome State Fault Refusal :=
  issue p 8 .any [.g a] [] (fun s t n => jumpAct s (gv s t n a) imm) s

/-- The link value of a call: the successor (R103). -/
def linkOf (s : State) (t : TileId) (n : StrandNo) : Word := (successor (s.strand t n).pc 8).setWidth 64

/-- CALL (R103). -/
def execCall (p : Pred) (d : BitVec 5) (imm : BitVec 26) (s : State) : Host.Outcome State Fault Refusal :=
  issue p 8 .any [] [.g d]
    (fun s t n => .goto (branchTarget (s.strand t n).pc imm) (setG s t n d (linkOf s t n))) s

/-- CALL_R (R103): g[D] is written after g[A] is read. -/
def execCallR (p : Pred) (d : BitVec 5) (a : GSrc) (s : State) : Host.Outcome State Fault Refusal :=
  issue p 8 .any [.g a] [.g d]
    (fun s t n => jumpAct (setG s t n d (linkOf s t n)) (gv s t n a) 0) s

/-- RET (R103). -/
def execRet (p : Pred) (a : GSrc) (s : State) : Host.Outcome State Fault Refusal :=
  issue p 8 .any [.g a] [] (fun s t n => jumpAct s (gv s t n a) 0) s

/-- LOOP (R103). -/
def execLoop (p : Pred) (d : BitVec 5) (imm : BitVec 26) (s : State) : Host.Outcome State Fault Refusal :=
  issue p 8 .any [] [.g d]
    (fun s t n =>
      if d = 0 then .trap .illegal 0
      else
        let v := (s.strand t n).rg d - 1
        let s' := setG s t n d v
        if v = 0 then .done s' else .goto (branchTarget (s.strand t n).pc imm) s') s

/-- Is a helper strand of the tile live (R93)? -/
def helperLive (T : Tile) : Bool := (T.strands.toList.drop 1).any (fun S => liveSt S.st)

/-- HALT (Table 5.1): HALTLIVE for strand 0 with a live helper. -/
def execHalt (p : Pred) (s : State) : Host.Outcome State Fault Refusal :=
  issue p 8 .any [] []
    (fun s t n =>
      if n.val = 0 ∧ helperLive (s.tile t) then .trap .haltlive 0
      else .done (s.modStrand t n (fun S => { S with st := .halted, wait := .idle }))) s

/-- YIELD (R103): not ready in the next cycle. -/
def execYield (p : Pred) (s : State) : Host.Outcome State Fault Refusal :=
  issue p 8 .any [] []
    (fun s t n => .done (s.modStrand t n (fun S => { S with notBefore := s.cycle + 2 }))) s

/-- WAITC (R104): the strand waits; the level is compared at the end of this and each later cycle (R178). -/
def execWaitc (p : Pred) (sub : Bool) (a b : GSrc) (ct : BitVec 4) (pf : BitVec 3) (imm : BitVec 36) (s : State) :
    Host.Outcome State Fault Refusal :=
  issue p 12 .any [.g a, .g b] []
    (fun s t n =>
      let thr := (gv s t n a + imm.setWidth 64).setWidth 32
      .block (.counter thr ct sub pf s.cycle (gv s t n b).toNat) s) s

end Sys2Proof.Machine
end

