-- ==== Sys2Proof/Machine/Crypto.lean ====
section
/-! DEFINITION. The named public algorithms the spec uses (00_scope): Philox4x32-10 (R126), the checksums of R184, R251
and 18_link, SHA-384 (R216, R217, R308) and ECDSA over P-384 (R216, R217). The spec names them and does not reprint
them: their constants are those of the published algorithms (log entry 14, PRESUMED). -/

namespace Sys2Proof.Machine

open Sys2Proof

/-- One round of Philox4x32: counter words and key words. -/
def philoxRound (c : BitVec 32 × BitVec 32 × BitVec 32 × BitVec 32) (k : BitVec 32 × BitVec 32) :
    BitVec 32 × BitVec 32 × BitVec 32 × BitVec 32 :=
  let p0 : BitVec 64 := (0xD2511F53 : BitVec 64) * c.1.setWidth 64
  let p1 : BitVec 64 := (0xCD9E8D57 : BitVec 64) * c.2.2.1.setWidth 64
  (p1.extractLsb' 32 32 ^^^ c.2.1 ^^^ k.1, p1.extractLsb' 0 32,
   p0.extractLsb' 32 32 ^^^ c.2.2.2 ^^^ k.2, p0.extractLsb' 0 32)

/-- `n` rounds, the key raised by the Weyl constants between rounds. -/
def philoxRounds (n : Nat) (c : BitVec 32 × BitVec 32 × BitVec 32 × BitVec 32) (k : BitVec 32 × BitVec 32) :
    BitVec 32 × BitVec 32 × BitVec 32 × BitVec 32 :=
  match n with
  | 0 => c
  | m + 1 => philoxRounds m (philoxRound c k) (k.1 + 0x9E3779B9, k.2 + 0xBB67AE85)

/-- Philox4x32-10 of a 128-bit counter, c0 its low word, and a 64-bit key, k0 its low word (R126). -/
def philox (ctr : BitVec 128) (key : Word) : List (BitVec 32) :=
  let r := philoxRounds 10
    (ctr.extractLsb' 0 32, ctr.extractLsb' 32 32, ctr.extractLsb' 64 32, ctr.extractLsb' 96 32)
    (key.extractLsb' 0 32, key.extractLsb' 32 32)
  [r.1, r.2.1, r.2.2.1, r.2.2.2]

/-- `n` blocks of four words from counter `ctr` on. -/
def philoxWords (n : Nat) (ctr : BitVec 128) (key : Word) : List (BitVec 32) :=
  (List.range n).flatMap (fun j => philox (ctr + BitVec.ofNat 128 j) key)

/-- `n` bits of a reflected CRC. -/
def crcBits (poly : BitVec 32) (n : Nat) (c : BitVec 32) : BitVec 32 :=
  match n with
  | 0 => c
  | m + 1 => crcBits poly m (if c.getLsbD 0 then (c >>> 1) ^^^ poly else c >>> 1)

/-- One byte of a reflected CRC. -/
def crcByte (poly : BitVec 32) (c : BitVec 32) (b : Byte) : BitVec 32 := crcBits poly 8 (c ^^^ b.setWidth 32)

/-- CRC-32C carried on over bytes, without the final inversion (R184). -/
def crc32c (c : BitVec 32) (bs : List Byte) : BitVec 32 := bs.foldl (crcByte 0x82F63B78) c

/-- CRC-32 of a flit's bytes (18_link): initial and final 0xFFFF_FFFF. -/
def crc32 (bs : List Byte) : BitVec 32 := bs.foldl (crcByte 0xEDB88320) 0xFFFFFFFF ^^^ 0xFFFFFFFF

/-- `n` bits of a CRC64, most significant bit first. -/
def crc64Bits (n : Nat) (c : Word) : Word :=
  match n with
  | 0 => c
  | m + 1 => crc64Bits m (if c.getLsbD 63 then (c <<< 1) ^^^ 0x42F0E1EBA9EA3693 else c <<< 1)

/-- CRC64 of R251: ECMA-182, initial value 0, no reflection, no final XOR. -/
def crc64 (bs : List Byte) : Word :=
  bs.foldl (fun c b => crc64Bits 8 (c ^^^ ((b.setWidth 64 : Word) <<< (56 : Nat)))) 0

/-- One bit of the integer cube root, from the high bit down. -/
def icbrtStep (n : Nat) : Nat → Nat → Nat
  | 0, r => r
  | b + 1, r =>
    let t := r + 2 ^ b
    icbrtStep n b (if t * t * t ≤ n then t else r)

/-- The first 80 primes: the round constants of SHA-384 are bits of their cube roots. -/
def shaPrimes : List Nat :=
  [2, 3, 5, 7, 11, 13, 17, 19, 23, 29, 31, 37, 41, 43, 47, 53, 59, 61, 67, 71, 73, 79, 83, 89, 97, 101, 103, 107, 109,
   113] ++
  [127, 131, 137, 139, 149, 151, 157, 163, 167, 173, 179, 181, 191, 193, 197, 199, 211, 223, 227, 229, 233, 239, 241,
   251, 257] ++
  [263, 269, 271, 277, 281, 283, 293, 307, 311, 313, 317, 331, 337, 347, 349, 353, 359, 367, 373, 379, 383, 389, 397,
   401, 409]

/-- Round constants of SHA-384: the first 64 bits of the fraction of the cube roots. -/
def shaK : List Word := shaPrimes.map (fun p => BitVec.ofNat 64 (icbrtStep (p * 2 ^ 192) 68 0))

/-- Initial hash value of SHA-384: the first 64 bits of the fraction of the square roots of the 9th to 16th primes. -/
def shaH : List Word := ((shaPrimes.drop 8).take 8).map (fun p => BitVec.ofNat 64 (isqrt (p * 2 ^ 128)))

/-- A big-endian number of bytes. -/
def beNat (bs : List Byte) : Nat := bs.foldl (fun a b => 256 * a + b.toNat) 0

/-- The `n` big-endian bytes of a number. -/
def beBytes (n x : Nat) : List Byte := (List.range n).map (fun i => BitVec.ofNat 8 (x / 2 ^ (8 * (n - 1 - i))))

/-- Message schedule: `n` further words after the sixteen of the block, newest first. -/
def shaSchedule (n : Nat) (w : List Word) : List Word :=
  match n with
  | 0 => w
  | m + 1 =>
    let w2 := w.getD 1 0
    let w7 := w.getD 6 0
    let w15 := w.getD 14 0
    let w16 := w.getD 15 0
    let s0 := w15.rotateRight 1 ^^^ w15.rotateRight 8 ^^^ (w15 >>> 7)
    let s1 := w2.rotateRight 19 ^^^ w2.rotateRight 61 ^^^ (w2 >>> 6)
    shaSchedule m ((s1 + w7 + s0 + w16) :: w)

/-- One round of SHA-384 on the working variables a to h. -/
def shaRound (v : List Word) (kw : Word) : List Word :=
  match v with
  | [a, b, c, d, e, f, g, h] =>
    let t1 := h + (e.rotateRight 14 ^^^ e.rotateRight 18 ^^^ e.rotateRight 41) + ((e &&& f) ^^^ (~~~e &&& g)) + kw
    let t2 := (a.rotateRight 28 ^^^ a.rotateRight 34 ^^^ a.rotateRight 39) + ((a &&& b) ^^^ (a &&& c) ^^^ (b &&& c))
    [t1 + t2, a, b, c, d + t1, e, f, g]
  | _ => v

/-- One 128-byte block. -/
def shaBlock (h : List Word) (block : List Byte) : List Word :=
  let w0 := ((List.range 16).map (fun i => BitVec.ofNat 64 (beNat ((block.drop (8 * i)).take 8)))).reverse
  let w := (shaSchedule 64 w0).reverse
  let v := (List.zipWith (fun k x => k + x) shaK w).foldl shaRound h
  List.zipWith (fun x y => x + y) h v

/-- `n` blocks. -/
def shaBlocks (n : Nat) (h : List Word) (bs : List Byte) : List Word :=
  match n with
  | 0 => h
  | m + 1 => shaBlocks m (shaBlock h (bs.take 128)) (bs.drop 128)

/-- SHA-384 of a byte string; byte 0 of the digest is its most significant byte. -/
def sha384 (bs : List Byte) : BitVec 384 :=
  let len := bs.length
  let pad := (112 + 127 - len % 128) % 128
  let m := bs ++ [0x80] ++ List.replicate pad 0 ++ beBytes 16 (8 * len)
  let h := shaBlocks (m.length / 128) shaH m
  BitVec.ofNat 384 ((h.take 6).foldl (fun a x => a * 2 ^ 64 + x.toNat) 0)

/-- b^e mod m with `n` bits of e, from the high bit down. -/
def powMod (m b e : Nat) : Nat → Nat → Nat
  | 0, acc => acc
  | n + 1, acc =>
    let sq := acc * acc % m
    powMod m b e n (if (e / 2 ^ n) % 2 = 1 then sq * b % m else sq)

/-- Inverse modulo a prime of 384 bits. -/
def invMod (m a : Nat) : Nat := powMod m (a % m) (m - 2) 384 1

/-- The field prime of P-384. -/
def p384 : Nat := 2 ^ 384 - 2 ^ 128 - 2 ^ 96 + 2 ^ 32 - 1

/-- The order of P-384. -/
def n384 : Nat :=
  0xFFFFFFFFFFFFFFFFFFFFFFFFFFFFFFFFFFFFFFFFFFFFFFFFC7634D81F4372DDF581A0DB248B0A77AECEC196ACCC52973

/-- The constant b of P-384. -/
def b384 : Nat :=
  0xB3312FA7E23EE7E4988E056BE3F82D19181D9C6EFE8141120314088F5013875AC656398D8A2ED19D2A85C8EDD3EC2AEF

/-- The base point of P-384. -/
def g384 : Nat × Nat :=
  (0xAA87CA22BE8B05378EB1C71EF320AD746E1D3B628BA79B9859F741E082542A385502F25DBF55296C3A545E3872760AB7,
   0x3617DE4A96262C6F5D9E98BF9292DC29F8F41DBD289A147CE9DA3113B5F0B8C00A60B1CE1D7E819D7A431D7C90EA0E5F)

/-- Addition of points of P-384; none is the point at infinity. -/
def ecAdd (a b : Option (Nat × Nat)) : Option (Nat × Nat) :=
  match a, b with
  | none, _ => b
  | _, none => a
  | some (x1, y1), some (x2, y2) =>
    if x1 = x2 ∧ (y1 + y2) % p384 = 0 then none
    else
      let l :=
        if x1 = x2 then (3 * x1 * x1 + (p384 - 3)) * invMod p384 (2 * y1) % p384
        else (y2 + (p384 - y1)) * invMod p384 (x2 + (p384 - x1)) % p384
      let x3 := (l * l + (p384 - x1) + (p384 - x2)) % p384
      some (x3, (l * (x1 + (p384 - x3)) + (p384 - y1)) % p384)

/-- `n` bits of k times a point, from the high bit down. -/
def ecMul (k : Nat) (p : Option (Nat × Nat)) : Nat → Option (Nat × Nat) → Option (Nat × Nat)
  | 0, acc => acc
  | n + 1, acc =>
    let d := ecAdd acc acc
    ecMul k p n (if (k / 2 ^ n) % 2 = 1 then ecAdd d p else d)

/-- Is the pair a point of P-384? -/
def ecOn (x y : Nat) : Bool :=
  x < p384 && y < p384 && (y * y) % p384 == (x * x * x + (p384 - 3) * x + b384) % p384

/-- ECDSA verification over P-384 with a SHA-384 digest. -/
def ecdsaVerify (digest pubx puby r s : BitVec 384) : Bool :=
  let rn := r.toNat
  let sn := s.toNat
  ecOn pubx.toNat puby.toNat && decide (0 < rn) && decide (rn < n384) && decide (0 < sn) && decide (sn < n384) &&
  (let w := invMod n384 sn
   let p := ecAdd (ecMul (digest.toNat * w % n384) (some g384) 384 none)
     (ecMul (rn * w % n384) (some (pubx.toNat, puby.toNat)) 384 none)
   match p with
   | none => false
   | some (x, _) => x % n384 == rn)

/-- ECDSA signature over P-384 of a digest, with a key and a per-signature secret. -/
def ecdsaSign (digest key nonce : BitVec 384) : BitVec 384 × BitVec 384 :=
  let k := nonce.toNat % n384
  match ecMul k (some g384) 384 none with
  | none => (0, 0)
  | some (x, _) =>
    let r := x % n384
    (BitVec.ofNat 384 r,
     BitVec.ofNat 384 (invMod n384 k * (digest.toNat + r * (key.toNat % n384)) % n384))

end Sys2Proof.Machine
end

