-- ==== Sys2Proof/Machine/Remote.lean ====
section
/-! DEFINITION. The remote path (R85, R106 to R110, R195, R196, R201 to R204, R250): segment checks, packets sent,
deltas accepted into the galley, foreshore writes applied, acknowledgements. -/

namespace Sys2Proof.Machine

open Sys2Proof

/-- Kinds of remote access a segment entry permits (Table 4.3): a load, a write, a message. -/
def segLoad : Nat := 0
/-- A store, nibble store, `addd` or `drain` delta. -/
def segWrite : Nat := 1
/-- A message: the foreshore only (R109). -/
def segMsg : Nat := 2

/-- Virtual tile index of a context tile address (R98). -/
def eaIdx (ea : Word) : BitVec 20 := ea.extractLsb' 44 20

/-- Offset of a context tile address (R18). -/
def eaOfs (ea : Word) : Nat := ea.toNat % 2 ^ 21

/-- Does the address name a tile of another chip: its segment entry is valid and says so (Table 4.3)? -/
def segAway (s : State) (ctx : Nat) (ea : Word) : Bool :=
  let e := assocGet 0 (eaIdx ea).toNat (s.ctx ctx).seg
  e.getLsbD 63 && e.extractLsb' 36 8 != s.chip

/-- The checks of the receiving interface (R85, R311): the host and slot that take the access; none when it is refused. -/
def segCheck (s : State) (ctx : Nat) (ea : Word) (kind n : Nat) : Option (TileId × Nat) :=
  let e := assocGet 0 (eaIdx ea).toNat (s.ctx ctx).seg
  let ofs := eaOfs ea
  match locate s ctx (eaIdx ea) with
  | none => none
  | some (_, t, k) =>
    let w := (slotRegs (s.tile t) k).partw
    let fore := foreAt w ofs
    let perm := if kind = segLoad then e.getLsbD 62 else if fore then e.getLsbD 60 else kind == segWrite && e.getLsbD 61
    if e.getLsbD 63 && (e.extractLsb' 24 20).setWidth 12 == BitVec.ofNat 12 t && e.extractLsb' 36 8 == s.chip &&
       (s.tile t).running && decide (ofs + n ≤ e.toNat % 2 ^ 22) && perm && dataOk w ofs n && decide (ofs + n ≤ capOf t) &&
       (kind == segLoad || !claimed (slotRegs (s.tile t) k) ofs n)
    then some (t, k) else none

/-- Where a packet is routed: the virtual tile's host, else the sender's own interface. -/
def routeOf (s : State) (ctx : Nat) (t : TileId) (ea : Word) : TileId :=
  match locate s ctx (eaIdx ea) with
  | some (_, h, _) => h
  | none => t

/-- Bytes of a write. -/
def Payload.len (b : Payload) : Nat :=
  match b with
  | .bytes n _ => n
  | .nibble _ _ => 1
  | .addInt wide _ => if wide then 8 else 4
  | .addLa _ => 128
  | .drainLa _ _ _ => 64

/-- Data of a write as an item of R251. -/
def Payload.data (b : Payload) : List Byte :=
  match b with
  | .bytes n d => bytesOf n d.toNat
  | .nibble _ v => [v.setWidth 8]
  | .addInt wide v => bytesOf (if wide then 8 else 4) v.toNat
  | .addLa d => bytesOf 128 d.toNat
  | .drainLa _ d _ => bytesOf 64 d.toNat

/-- An item of a DMR copy's signature (R251); data above 64 bytes is signed in items of 64 (log entry 18). -/
def noteItem (s : State) (t : TileId) (kind : Nat) (addr : Word) (data : List Byte) : State :=
  if (s.tile t).twin.isNone then s
  else
    let parts := (List.range ((data.length + 63) / 64 + (if data.isEmpty then 1 else 0))).map (fun i =>
      crc64 (bytesOf 8 kind ++ bytesOf 8 (addr.toNat + 64 * i) ++
        ((data.drop (64 * i)).take 64 ++ List.replicate 64 0).take 64))
    s.modTile t (fun T => { T with sig := parts.foldl (fun a x => a + x) T.sig })

/-- Does a copy's outbound effect stay in the tile (R250)? -/
def discards (s : State) (t : TileId) : Bool := (s.tile t).shadow

/-- The sender of an access issued now by strand n at address pc. -/
def originOf (s : State) (t : TileId) (n : StrandNo) (pc : BitVec 21) (engine : Bool) : Origin :=
  let T := s.tile t
  { ctx := T.ctx, tile := t, strand := n, vidx := T.v.idx, pc := pc, ss := T.v.ss, att := T.v.att.toNat, seq := T.seq,
    op := T.opNo, engine := engine }

/-- Take the next sequence and access numbers of a tile. -/
def bumpOp (s : State) (t : TileId) : State := s.modTile t (fun T => { T with seq := T.seq + 1, opNo := T.opNo + 1 })

/-- The chip that an address's segment entry names (Table 4.3), as a flow's destination. -/
def awayDst (s : State) (ctx : Nat) (ea : Word) : Nat :=
  chipDst ((assocGet 0 (eaIdx ea).toNat (s.ctx ctx).seg).extractLsb' 36 8).toNat

/-- Another chip's answer to a write (log entry 71): any acknowledgement, at any later cycle, with any INFO. The access goes
out by the links and the route table (R329). -/
def awayAck (s : State) (o : Origin) (ea : Word) : State :=
  let d := s.freshNat
  let a := d.2.freshNat
  let i := a.2.freshNat
  let ack := (([.accept, .refused, .galley, .conflict, .detban] : List Ack)[a.1 % 5]?).getD .accept
  i.2.send o.tile (awayDst s o.ctx ea) o.engine o.tile (16 + d.1)
    (.ackArrival o ack (if ack = .conflict then BitVec.ofNat 32 i.1 else 0))

/-- Another chip's answer to a load (log entry 71): any value or a refusal, at any later cycle. -/
def awayLoad (s : State) (r : LoadReq) : State :=
  let d := s.freshNat
  let a := d.2.freshNat
  let v := a.2.freshNat
  let x : VWord := match r.dst with | .g _ => (extendTo r.wd v.1).setWidth 1024 | _ => BitVec.ofNat 1024 v.1
  v.2.send r.src.tile (awayDst s r.src.ctx r.ea) false r.src.tile (19 + d.1)
    (if a.1 % 2 = 0 then .remoteLoadReturn r x .accept else .remoteLoadReturn r 0 .refused)

/-- Send a remote write (R106 to R108, R110, R148, R182). Answers the number under which it is outstanding; a copy's
shadow sends nothing (R250), and then none. -/
def sendPacket (s : State) (t : TileId) (n : StrandNo) (pc : BitVec 21) (ea : Word) (b : Payload) (engine : Bool) :
    State × Option Nat :=
  let s := noteItem s t 2 ea (Payload.data b)
  if discards s t then (s, none)
  else
    let o := originOf s t n pc engine
    let to_ := routeOf s o.ctx t ea
    let s := bumpOp s t
    let s := if engine then s else
      s.modStrand t n (fun S => { S with ops := S.ops ++
        [{ id := o.op, target := to_, load := false, away := segAway s o.ctx ea }] })
    if segAway s o.ctx ea then (awayAck s o ea, some o.op)
    else
      let p : Packet := { src := o, ea := ea, body := b }
      let fore := foreAt (s.tile to_).v.partw (eaOfs ea)
      (s.send t to_ engine t 8 (if fore then .foreshoreWriteArrival p else .deltaArrival p), some o.op)

/-- Send a message (R109). -/
def sendMsg (s : State) (t : TileId) (n : StrandNo) (pc : BitVec 21) (ea : Word) (len : Nat) (d : VWord) (ct : BitVec 4) :
    State :=
  let s := noteItem s t 2 ea (bytesOf len d.toNat)
  if discards s t then s
  else
    let o := originOf s t n pc false
    let to_ := routeOf s o.ctx t ea
    let s := (bumpOp s t).modStrand t n (fun S =>
      { S with ops := S.ops ++ [{ id := o.op, target := to_, load := false, away := segAway s o.ctx ea }] })
    if segAway s o.ctx ea then awayAck s o ea
    else s.send t to_ false t 8 (.msgArrival { src := o, ea := ea, n := len, data := d, ct := ct })

/-- An acknowledgement on its way back. -/
def sendAck (s : State) (o : Origin) (a : Ack) (t : TileId) (info : BitVec 32) : State :=
  s.send t o.tile false o.tile 8 (.ackArrival o a info)

/-! ### Residues (R138, R149) -/

/-- Residue of an LA384 element: the sum of its six limbs mod 255 (R138). -/
def elemResidue (d : BitVec 512) : BitVec 8 := BitVec.ofNat 8 (residue (d.toNat % 2 ^ 384))

/-- ARST records a residue mismatch (Table 7.3). -/
def arst (s : State) (t : TileId) (unit pti : Nat) : State :=
  s.modTile t (fun T =>
    { T with rcount := if T.rcount = 0xFFFF then T.rcount else T.rcount + 1, rpend := true
             runit := BitVec.ofNat 2 unit
             rpti := if unit = 0 then BitVec.ofNat 2 pti else T.rpti
             rssl := T.v.ss.setWidth 40 })

/-- A residue mismatch (R138): ARST records it, and the tile votes abort. -/
def mismatch (s : State) (t : TileId) (unit pti : Nat) : State := vote (arst s t unit pti) t .residue 0 0 0

/-- Does an error stand in a residue unit? -/
def unitErr (u : BitVec 2) (e : SoftErr) : Bool := match e.place with | .check k => k == u | _ => false

/-- A check of a residue unit (R138, R149, R354): it takes up the error that stands in the unit, and fails if there is one
or the residues differ. -/
def residueCheck (s : State) (t : TileId) (u : BitVec 2) (good : Bool) : State × Bool :=
  if (s.tile t).errs.any (unitErr u) then
    (s.modTile t (fun T => { T with errs := T.errs.filter (fun e => !unitErr u e) }), false)
  else (s, good)

/-! ### Deltas (R196, R202 to R204) -/

/-- Do a slot's tags match the line and the superstep of a delta? -/
def slotMatches (o : Origin) (ord line : Nat) (g : Slot) : Bool :=
  (g.kind == .plain || g.kind == .add) && g.ofs / 64 == line && g.ord == ord && g.ss == o.ss && g.att == o.att

/-- How the owner of slot k has written a line in its superstep (R202): as the UNDO tag says, and under folding as the tags
of its ended turn said. -/
def ownerProfile (T : Tile) (k line : Nat) : Profile :=
  let now : Profile := if T.slot = k then
      match T.galley.find? (fun g => g.kind == .undo && g.ofs / 64 == line) with
      | some g => g.profile
      | none => (false, 0, 0)
    else (false, 0, 0)
  match (T.slots[k]?).bind (fun x => x.prof.find? (fun e => e.1 == line)) with
  | some e => now.join e.2
  | none => now

/-- Does a delta conflict with another writer of its line (R202)? -/
def deltaConflict (T : Tile) (k : Nat) (o : Origin) (line : Nat) (p : Profile) : Bool :=
  let v := slotRegs T k
  (o.ss == v.ss && o.att == v.att.toNat && o.vidx != v.idx && (ownerProfile T k line).conflict p) ||
  T.galley.any (fun g => slotMatches o v.ord line g && g.sidx != o.vidx && g.profile.conflict p)

/-- DET: the other strand of the sender with which a delta of its strand conflicts (R207): one whose delta the line holds,
and, where the sender owns the line, one that has written it there; a read of the line counts as R208 says. -/
def deltaClash (s : State) (t : TileId) (k : Nat) (o : Origin) (line : Nat) (add rd : Bool) : Option Nat :=
  let T := s.tile t
  let v := slotRegs T k
  let n := o.strand.val
  if !s.det o.tile then none
  else
    match T.galley.findSome? (fun g =>
        if slotMatches o v.ord line g && g.sidx == o.vidx then
          match otherStrand g.rby n with
          | some m => some m
          | none => if add && g.kind == .add && !rd then none else otherStrand g.wby n
        else none) with
    | some m => some m
    | none =>
      if o.vidx = v.idx ∧ T.slot = k then
        match detConflict T line n (if add then .add else .plain) with
        | some m => some m
        | none => if rd then (ownSlots T line).findSome? (fun g => otherStrand g.wby n) else none
      else none

/-- The most recent slot of a sender for a line. -/
def lastSlot (T : Tile) (o : Origin) (ord line : Nat) : Option Slot :=
  T.galley.foldl (fun r g =>
    if slotMatches o ord line g && g.sidx == o.vidx then
      match r with
      | some x => if x.seq ≤ g.seq then some g else r
      | none => some g
    else r) none

/-- Bits of bytes under a nibble mask. -/
def expandMask (m : BitVec 128) : BitVec 512 :=
  BitVec.ofNat 512 ((List.range 128).foldl (fun a i => if m.getLsbD i then a + 15 * 2 ^ (4 * i) else a) 0)

/-- One line's part of a delta: where, which nibbles, the data, whether it is a nibble store, the width of the addend (0
for an LA384 element) or none for a store, and the residue that comes with it (R149). -/
structure DeltaPart where
  ofs : Nat
  mask : BitVec 128
  data : BitVec 512
  nib : Bool := false
  add : Option Nat := none
  res : BitVec 8 := 0
  /-- its strand has read the line since (R208) -/
  rd : Bool := false
  deriving DecidableEq, Repr

/-- Accept one line's part of a delta (R196), or the acknowledgement that refuses it with its INFO (R197, R203, R207). -/
def acceptPart (s : State) (t : TileId) (k : Nat) (o : Origin) (p : DeltaPart) : Except (Ack × BitVec 32) State :=
  let T := s.tile t
  let v := slotRegs T k
  let line := p.ofs / 64
  let b := strandBit o.strand.val
  let prof : Profile :=
    match p.add with
    | some _ => (false, 0, p.mask)
    | none => if p.nib then (false, p.mask, 0) else (true, 0, 0)
  match deltaClash s t k o line p.add.isSome p.rd with
  | some n => .error (.conflict, BitVec.ofNat 32 (line + n * 65536))
  | none =>
    if deltaConflict T k o line prof then .error (.conflict, BitVec.ofNat 32 (line + 32768))
    else
      let fresh : Except (Ack × BitVec 32) State :=
        match freeSlot T with
        | none => .error (.galley, 0)
        | some num =>
          .ok (s.modTile t (fun T =>
            { T with galley := T.galley ++
                [{ num := num, kind := if p.add.isSome then .add else .plain, ofs := p.ofs, ss := o.ss, att := o.att,
                   sidx := o.vidx, seq := o.seq, mask := p.mask, data := p.data, addw := p.add.getD 0, ord := v.ord,
                   ownp := p.add.isNone && !p.nib, res := p.res, wby := b,
                   rby := if p.rd then b else 0 }] }))
      match p.add, lastSlot T o v.ord line with
      | none, some g =>
        if g.kind = .plain then
          let m := expandMask p.mask
          .ok (s.modTile t (fun T =>
            { T with galley := T.galley.map (fun x =>
                if x.num = g.num then
                  { x with mask := x.mask ||| p.mask, data := (x.data &&& ~~~m) ||| (p.data &&& m),
                           ownp := x.ownp || !p.nib, wby := x.wby ||| b, rby := if p.rd then x.rby ||| b else x.rby }
                else x)
                     errs := T.errs.filter (fun e =>
                       match e.place with
                       | .slot n w => !(n == g.num && p.mask.extractLsb' (16 * w) 16 == BitVec.allOnes 16)
                       | _ => true) }))
        else fresh
      | _, _ => fresh

/-- The parts of a delta by line. -/
def deltaParts (ofs : Nat) (b : Payload) : List DeltaPart :=
  let at_ (ofs : Nat) (bs : List Byte) : BitVec 512 := BitVec.ofNat 512 (natOf bs * 256 ^ (ofs % 64))
  match b with
  | .bytes n d =>
    (cutLines (n / 64 + 2) ofs (bytesOf n d.toNat)).map (fun c =>
      { ofs := c.1, mask := nibMask c.1 c.2.length, data := at_ c.1 c.2 })
  | .nibble hi x =>
    [{ ofs := ofs, mask := BitVec.ofNat 128 (2 ^ (2 * (ofs % 64) + (if hi then 1 else 0)))
       data := at_ ofs [if hi then x ++ (0 : BitVec 4) else (0 : BitVec 4) ++ x], nib := true }]
  | .addInt wide x =>
    let n := if wide then 8 else 4
    [{ ofs := ofs, mask := nibMask ofs n, data := at_ ofs (bytesOf n x.toNat), add := some n }]
  | .addLa d =>
    [{ ofs := ofs, mask := BitVec.allOnes 128, data := d.extractLsb' 0 512, add := some 0
       res := elemResidue (d.extractLsb' 0 512) },
     { ofs := ofs + 64, mask := BitVec.allOnes 128, data := d.extractLsb' 512 512, add := some 0
       res := elemResidue (d.extractLsb' 512 512) }]
  | .drainLa _ d r => [{ ofs := ofs, mask := BitVec.allOnes 128, data := d, add := some 0, res := r }]

/-- The words of a PLAIN slot that a delta covers in part are read as it merges (R196, R354): false when one gives no value. -/
def mergeRead (s : State) (t : TileId) (k : Nat) (p : Packet) : State × Bool :=
  if (s.tile t).errs.isEmpty then (s, true)
  else
    (deltaParts (eaOfs p.ea) p.body).foldl (fun r x =>
      match x.add, lastSlot (s.tile t) p.src (slotRegs (s.tile t) k).ord (x.ofs / 64) with
      | none, some g =>
        if g.kind = .plain ∧ (List.range 8).any (fun i =>
            let m := x.mask.extractLsb' (16 * i) 16
            m != 0 && m != BitVec.allOnes 16) then
          let q := eccSlot r.1 t g
          (q.1, r.2 && q.2)
        else r
      | _, _ => r) (s, true)

/-- Accept a delta into a host's galley (R196); one that names an attempt the receiver has aborted is discarded and
acknowledged ACCEPT (R375). One of whose lines one is refused is discarded whole (R197, R203). -/
def acceptDelta (s : State) (t : TileId) (k : Nat) (p : Packet) : State × Ack × BitVec 32 :=
  let v := slotRegs (s.tile t) k
  if p.src.ss.toNat < v.ss.toNat ∨ (p.src.ss = v.ss ∧ p.src.att < v.att.toNat) then (s, .accept, 0)
  else
    match (deltaParts (eaOfs p.ea) p.body).foldl (fun (r : Except (Ack × BitVec 32) State) x =>
        match r with
        | .error e => .error e
        | .ok s => acceptPart s t k p.src { x with rd := p.rd.contains (x.ofs / 64) }) (.ok s) with
    | .ok s' => (s', .accept, 0)
    | .error e => (s, e.1, e.2)

/-! ### The foreshore (R201) and additions to memory (R108) -/

/-- The bytes a write leaves at its place, from the bytes there. -/
def mergeBytes (b : Payload) (old : List Byte) : List Byte :=
  match b with
  | .bytes n d => bytesOf n d.toNat
  | .nibble hi v => [setNibble hi v (old.headD 0)]
  | .addInt wide v => let n := if wide then 8 else 4; bytesOf n ((natOf old + v.toNat) % 256 ^ n)
  | .addLa d =>
    let e := natOf old
    bytesOf 64 (addLaElem (BitVec.ofNat 512 e) (d.extractLsb' 0 512)).toNat ++
    bytesOf 64 (addLaElem (BitVec.ofNat 512 (e / 2 ^ 512)) (d.extractLsb' 512 512)).toNat
  | .drainLa _ d _ => bytesOf 64 (addLaElem (BitVec.ofNat 512 (natOf old)) d).toNat

/-- Does a write read what stands at its place? -/
def readsOld (b : Payload) : Bool := match b with | .bytes _ _ => false | _ => true

/-- Apply a write to the foreshore of a slot at once, atomically (R201, R108). False when an uncorrectable error
withholds a word (R354). -/
def applyFore (s : State) (t : TileId) (k : Nat) (o : Origin) (ofs : Nat) (b : Payload) : State × Bool :=
  let w := (slotRegs (s.tile t) k).partw
  let a := poolAddr w k ofs
  let n := Payload.len b
  let r := if readsOld b then eccRead s t false a n else eccWrite s t a n
  if !r.2 then r
  else
    let s := r.1.modTile t (fun T => { T with mem := T.mem.store a (mergeBytes b (T.mem.bytes a n)) })
    (modSlot s t k (fun v => watchRecord v ofs n 3 o.vidx o.strand.val), true)

/-- The shadow of a primary takes what its interface accepts (R250). -/
def shadowOf (s : State) (t : TileId) : Option TileId :=
  if (s.tile t).shadow then none else (s.tile t).twin

/-! ### What acknowledgements end -/

/-- An access is performed: it is no longer outstanding (R112). -/
def opDone (s : State) (t : TileId) (n : StrandNo) (id : Nat) : State :=
  s.modStrand t n (fun S => { S with ops := S.ops.filter (fun x => x.id != id) })

/-- Is an access of a strand outstanding? -/
def opOut (s : State) (t : TileId) (n : StrandNo) (id : Nat) : Bool := (s.strand t n).ops.any (fun x => x.id == id)

/-- Has an access been performed at its target, its answer on the way back (R112)? -/
def performed (s : State) (t : TileId) (id : Nat) : Bool :=
  s.agenda.any (fun e =>
    match e.2 with
    | .ackArrival o a _ => !o.engine && o.tile == t && o.op == id && decide (a = .accept)
    | .remoteLoadReturn r _ a => r.src.tile == t && r.src.op == id && decide (a = .accept)
    | _ => false)

/-- Is an access of a strand yet to be performed (R112)? -/
def opWaits (s : State) (t : TileId) (n : StrandNo) (id : Nat) : Bool := opOut s t n id && !performed s t id

/-- A write-back that overlaps or follows a line's bytes joins it (R195: the queue holds lines of 64 bytes). DESIGN CHOICE (log
entry 93): one that leaves a gap, or comes before them, takes another entry. -/
def joinLine (e : OutLine) (va : Word) (data : List Byte) : Option OutLine :=
  let d := va.toNat - e.va.toNat
  if e.va.toNat ≤ va.toNat ∧ d ≤ e.n then
    let old := bytesOf e.n e.data.toNat
    let new := old.take d ++ data ++ old.drop (d + data.length)
    some { e with n := new.length, data := BitVec.ofNat 512 (natOf new) }
  else none

/-- Join a write-back to the sender's last entry for its line, in a queue given from its end. -/
def joinOutq (vidx : BitVec 20) (va : Word) (data : List Byte) : List OutLine → Option (List OutLine)
  | [] => none
  | e :: r =>
    if e.vidx = vidx ∧ e.va.toNat / 64 = va.toNat / 64 then (joinLine e va data).map (fun x => x :: r)
    else (joinOutq vidx va data r).map (fun x => e :: x)

/-- Pieces written through a q register and not yet performed (R174, R177). -/
def Strand.pending (S : Strand) (k : Fin 8) : Nat := (S.rest.filter (fun o => o.k == k)).length + S.q[k].pend.length

/-- What a command or a binding of the strand issued now comes after (R175, R182, R191). -/
def beforeOf (S : Strand) : Before := { ops := S.ops.map (fun o => o.id), outs := S.outN.toList }

/-- Has everything that a command comes after been performed? -/
def beforeMet (s : State) (t : TileId) (n : StrandNo) (b : Before) : Bool :=
  let S := s.strand t n
  b.ops.all (fun i => !opWaits s t n i) &&
    (List.finRange 8).all (fun k => decide (S.pending k = 0 ∨ b.outs.getD k.val 0 + S.pending k ≤ S.outN[k]))

/-- The tile's write-back of `n` bytes to HBM enters its outbound queue, or an OUT slot of the galley (R195, R197). A shadow's
stays there, and is signed (R250, R251). False when it finds no room. -/
def enterOutq (s : State) (t : TileId) (n : StrandNo) (pc : BitVec 21) (va : Word) (data : List Byte) : State × Bool :=
  let put (s : State) : State :=
    s.modTile t (fun T =>
      { T with seq := T.seq + 1
               outq := T.outq ++ [{ vidx := T.v.idx, seq := T.seq, va := va, n := data.length,
                                     data := BitVec.ofNat 512 (natOf data), strand := n, pc := pc }] })
  let T := s.tile t
  let own := if T.shadow then T.twin.getD t else t
  let waiting := ((s.ctx T.ctx).drains.filter (fun w => w.tile == own)).length
  match joinOutq T.v.idx va data T.outq.reverse with
  | some q => (s.modTile t (fun T => { T with seq := T.seq + 1, outq := q.reverse }), true)
  | none =>
  if T.outq.length + waiting < 512 then (put s, true)
  else
    match (if T.shut then none else freeSlot T) with
    | some k =>
      (put (s.modTile t (fun T =>
        { T with galley := T.galley ++ [{ num := k, kind := .out, ofs := 0, ss := T.v.ss, att := T.v.att.toNat }] })), true)
    | none => (vote (s.modTile t (fun T => { T with shut := true })) t .galley 0 0 0, false)

/-- The write-backs of bytes at an address of HBM, line by line. False when one finds no room. -/
def enterLines (s : State) (t : TileId) (n : StrandNo) (pc : BitVec 21) (addr : Nat) (data : List Byte) : State × Bool :=
  (cutLines (data.length / 64 + 2) addr data).foldl (fun r l =>
    let x := enterOutq r.1 t n pc (BitVec.ofNat 64 l.1) l.2
    (x.1, r.2 && x.2)) (s, true)

end Sys2Proof.Machine
end

