-- ==== Sys2Proof/Machine/Memory.lean ====
section
/-! DEFINITION. The memory forms 0x30 to 0x3D (R97, R105 to R113), `start` and `hstop` (R114, R115), `ovl` (R89). -/

namespace Sys2Proof.Machine

open Sys2Proof

/-! ### Local space (R97) -/

/-- The address of a memory form (R97). -/
def eaOf (s : State) (t : TileId) (n : StrandNo) (a : GSrc) {w : Nat} (imm : BitVec w) : Word :=
  gv s t n a + imm.signExtend 64

/-- Is a tile a sibling whose window may be used: it runs the same group, and the group is not folded (R97)? -/
def siblingOk (s : State) (t u : TileId) : Bool :=
  match s.groupOf t with
  | some g => (s.tile u).running && (s.tile u).group == g.id && decide (g.v ≤ g.hosts.length)
  | none => false

/-- An access to the own store: R81, DETBAN (R105), R311, then the waits of R128, R143 and R204. -/
def ownPlace (s : State) (t : TileId) (n : StrandNo) (ofs len : Nat) (wr : Bool) : Except Act (TileId × Nat) :=
  let T := s.tile t
  let fore := foreAt T.v.partw ofs
  if !ownOk s t ofs len then .error (.trap .prot 0)
  else if wr && fore && s.det t then .error (.trap .detban 0)
  else if wr && claimed T.v ofs len then .error (.trap .prot 0)
  else if ownOverlap T n ofs len ≠ [] then .error (.wait (.overlap (ownOverlap T n ofs len)))
  else if wr && !fore && T.v.bstate == 2 then .error (.wait .release)
  else .ok (t, ofs)

/-- An access through the sibling window (R97, R105, R204, R311). -/
def windowPlace (s : State) (t u : TileId) (ofs len : Nat) (wr : Bool) : Except Act (TileId × Nat) :=
  let U := s.tile u
  if !siblingOk s t u || !(partOf U.v.partw ofs len == some 2) then .error (.trap .prot 0)
  else if s.det t then .error (.trap .detban 0)
  else if wr && claimed U.v ofs len then .error (.trap .prot 0)
  else if !(s.cluster (clusterOf t)).gate then .error (.wait (.gate (clusterOf t)))
  else if wr && (s.tile t).v.bstate == 2 then .error (.wait .release)
  else .ok (u, ofs)

/-- The tile and offset that an access in local space names, or why it does not go on (R97). -/
def localPlace (s : State) (t : TileId) (n : StrandNo) (ea : Word) (len : Nat) (wr : Bool) :
    Except Act (TileId × Nat) :=
  let a := ea.toNat
  let ofs := a % 2 ^ 21
  if a % len ≠ 0 then .error (.trap .misalign 0)
  else if a < 2 ^ 21 then ownPlace s t n ofs len wr
  else if a < 2 ^ 24 ∨ 2 ^ 25 ≤ a ∨ t = monitorTile then .error (.trap .prot 0)
  else if a / 2 ^ 21 % 8 = posOf t then ownPlace s t n ofs len wr
  else windowPlace s t (tileAt (clusterOf t) (a / 2 ^ 21 % 8)) ofs len wr

/-- What an access that fails comes to (R197, R203, R354). -/
def wErrAct (e : WErr) : Act :=
  match e with
  | .galley l => .trap .galley (BitVec.ofNat 32 l)
  | .conflict i => .trap .conflict i
  | .ecc s => .block .ecc s

/-- Read from local space and go on with the value and its latency (Table 5.3). -/
def loadAct (s : State) (t : TileId) (n : StrandNo) (ea : Word) (len : Nat) (k : State → Nat → Nat → State) : Act :=
  match localPlace s t n ea len false with
  | .error a => a
  | .ok p =>
    match localRead s p.1 n.val p.2 len with
    | .error e => wErrAct e
    | .ok r => .done (k r.1 (natOf r.2) (if p.1 = t then 3 else 6))

/-- A store to a place of local space: the own store (R113, R194, R197, R203) or a sibling's (R197, R203). -/
def putLocal (s : State) (t : TileId) (n : StrandNo) (p : TileId × Nat) (k : WKind) (data : List Byte) : Except Act State :=
  if p.1 = t then
    if !(s.strand t n).suppress && watchTraps (s.tile t).v p.2 data.length then .error (.trap .watch 0)
    else
      match strandWrite s t (.strand n) k p.2 data with
      | .error e => .error (wErrAct e)
      | .ok s => .ok s
  else .ok (engineWrite s p.1 (.sibling (s.tile t).v.idx n) k p.2 data).1

/-- Write to local space. -/
def storeAct (s : State) (t : TileId) (n : StrandNo) (ea : Word) (k : WKind) (data : List Byte) : Act :=
  match localPlace s t n ea data.length true with
  | .error a => a
  | .ok p =>
    match putLocal s t n p k data with
    | .error a => a
    | .ok s => .done s

/-- LD (R105). -/
def execLd (p : Pred) (wd : BitVec 3) (d : BitVec 5) (a : GSrc) (imm : BitVec 26) (s : State) :
    Host.Outcome State Fault Refusal :=
  issue p 8 .any [.g a] [.g d]
    (fun s t n => loadAct s t n (eaOf s t n a imm) (widthBytes wd) (fun s x lat => laterG s t n d (extendTo wd x) lat)) s

/-- ST (R105). -/
def execSt (p : Pred) (wd : BitVec 3) (a b : GSrc) (imm : BitVec 26) (s : State) : Host.Outcome State Fault Refusal :=
  issue p 8 .any [.g a, .g b] []
    (fun s t n => storeAct s t n (eaOf s t n a imm) .plain (bytesOf (widthBytes wd) (gv s t n b).toNat)) s

/-- LDW (R105). -/
def execLdw (p : Pred) (d : BitVec 4) (a : GSrc) (imm : BitVec 26) (s : State) : Host.Outcome State Fault Refusal :=
  issue p 8 .any [.g a] [.w d]
    (fun s t n => loadAct s t n (eaOf s t n a imm) 128
      (fun s x lat => laterD s t n (.w d) (BitVec.ofNat 1024 x) lat)) s

/-- STW (R105). -/
def execStw (p : Pred) (a : GSrc) (b : WSrc) (imm : BitVec 26) (s : State) : Host.Outcome State Fault Refusal :=
  issue p 8 .any [.g a, .w b] []
    (fun s t n => storeAct s t n (eaOf s t n a imm) .plain (bytesOf 128 (wv s t n b).toNat)) s

/-- ST4 (R107): one nibble in local space. -/
def execSt4 (p : Pred) (a b : GSrc) (imm : BitVec 26) (s : State) : Host.Outcome State Fault Refusal :=
  issue p 8 .any [.g a, .g b] []
    (fun s t n =>
      let v := gv s t n b
      storeAct s t n (eaOf s t n a imm) (.nib (v.getLsbD 4)) [BitVec.ofNat 8 (v.toNat % 16)]) s

/-! ### Locks (R111) -/

/-- The lock bit of an offset. -/
def lockBit (ofs : Nat) : BitVec 8 :=
  let x := BitVec.ofNat 15 (ofs / 64)
  (x ^^^ (x >>> (8 : Nat))).setWidth 8

/-- Lock bits that a strand holds in its cluster. -/
def locksHeld (s : State) (t : TileId) (n : StrandNo) : Nat :=
  ((List.range 8).map (fun i =>
    ((s.tile (tileAt (clusterOf t) i)).locks.filter (fun l => l.pos == posOf t && l.strand == n.val)).length)).sum

/-- Who holds bit h of a tile. -/
def lockHolder (s : State) (u : TileId) (h : BitVec 8) : Option LockBit := (s.tile u).locks.find? (fun l => l.h == h)

/-- Does a strand wait for bit h of a tile? -/
def waitsLock (S : Strand) (u : TileId) (h : BitVec 8) : Bool :=
  S.st == .waiting && (match S.wait with | .lock v k _ _ _ => v == u && k == h | _ => false)

/-- The strands of a cluster that wait for bit h of tile u: cluster position and strand. -/
def lockWaiters (s : State) (u : TileId) (h : BitVec 8) : List (Nat × StrandNo) :=
  (List.range 8).flatMap (fun i =>
    ((List.finRange 11).filter (fun n => waitsLock (s.strand (tileAt (clusterOf u) i) n) u h)).map (fun n => (i, n)))

/-- Is bit h about to be granted to a waiter? -/
def grantDue (s : State) (u : TileId) (h : BitVec 8) : Bool := s.agenda.any (fun e => e.2 == Ev.lockGrant u h)

/-- Set a lock bit with its holder. -/
def setLock (s : State) (u : TileId) (h : BitVec 8) (pos : Nat) (n : StrandNo) : State :=
  s.modTile u (fun T => { T with locks := T.locks ++ [{ h := h, pos := pos, strand := n.val }] })

/-- Clear a lock bit; with waiters, one is granted at the start of the next cycle. -/
def clearLock (s : State) (u : TileId) (h : BitVec 8) : State :=
  let last := (s.tile u).locks.filter (fun l => l.h == h)
  let s := s.modTile u (fun T =>
    { T with locks := T.locks.filter (fun l => l.h != h), lastHold := T.lastHold.filter (fun l => l.h != h) ++ last })
  if lockWaiters s u h ≠ [] then s.post 1 (.lockGrant u h) else s

/-- LDL (R111). -/
def execLdl (p : Pred) (wd : BitVec 3) (d : BitVec 5) (a : GSrc) (imm : BitVec 26) (s : State) :
    Host.Outcome State Fault Refusal :=
  issue p 8 .any [.g a] [.g d]
    (fun s t n =>
      let len := widthBytes wd
      if s.det t then .trap .detban 0
      else
        match localPlace s t n (eaOf s t n a imm) len false with
        | .error x => x
        | .ok q =>
          let h := lockBit q.2
          let held := lockHolder s q.1 h
          if held.any (fun l => l.pos == posOf t && l.strand == n.val) ∨ 4 ≤ locksHeld s t n then .trap .lock 0
          else if held.isSome ∨ grantDue s q.1 h then .block (.lock q.1 h q.2 wd d) s
          else
            match localRead s q.1 n.val q.2 len with
            | .error e => wErrAct e
            | .ok r =>
              .done (laterG (setLock r.1 q.1 h (posOf t) n) t n d (extendTo wd (natOf r.2)) 3)) s

/-- STU (R111): the store, then bit h is clear. -/
def execStu (p : Pred) (wd : BitVec 3) (a b : GSrc) (imm : BitVec 26) (s : State) : Host.Outcome State Fault Refusal :=
  issue p 8 .any [.g a, .g b] []
    (fun s t n =>
      let len := widthBytes wd
      if s.det t then .trap .detban 0
      else
        match localPlace s t n (eaOf s t n a imm) len true with
        | .error x => x
        | .ok q =>
          let h := lockBit q.2
          if !(lockHolder s q.1 h).any (fun l => l.pos == posOf t && l.strand == n.val) then .trap .lock 0
          else
            match putLocal s t n q .plain (bytesOf len (gv s t n b).toNat) with
            | .error x => x
            | .ok s => .done (clearLock s q.1 h)) s

/-! ### Global space (R106 to R110) -/

/-- Does a remote write wait for the release: the tile's arrival has been sent and the target is versioned (R204)? -/
def lateWrite (s : State) (t : TileId) (ea : Word) : Bool :=
  (s.tile t).v.bstate == 2 && !foreAt (s.tile (routeOf s (s.tile t).ctx t ea)).v.partw (eaOfs ea)

/-- Bits 43 to 21 of a context tile address are zero (R18, Table 1.3), or the access traps PROT. -/
def eaBad (ea : Word) : Bool := decide (ea.toNat / 2 ^ 21 % 2 ^ 23 ≠ 0)

/-- Send a remote write at issue. -/
def remoteAct (s : State) (t : TileId) (n : StrandNo) (ea : Word) (align : Nat) (b : Payload) : Act :=
  if ea.toNat % align ≠ 0 then .trap .misalign 0
  else if eaBad ea then .trap .prot 0
  else if lateWrite s t ea then .wait .release
  else .done (sendPacket s t n (s.strand t n).pc ea b false).1

/-- Send a remote load at issue: a failed check traps PROT precisely when the load returns (R85; log entry 11). -/
def remoteLoad (s : State) (t : TileId) (n : StrandNo) (ea : Word) (len : Nat) (wd : BitVec 3) (d : Dst) : Act :=
  let o := originOf s t n (s.strand t n).pc false
  let to_ := routeOf s o.ctx t ea
  let s := (bumpOp s t).modStrand t n (fun S => { S with ops := S.ops ++
    [{ id := o.op, target := to_, load := true, away := segAway s o.ctx ea }] })
  let r : LoadReq := { src := o, ea := ea, n := len, wd := wd, dst := d }
  if segAway s o.ctx ea then .done (awayLoad (s.modStrand t n (fun S => S.markEmpty d)) r)
  else if (segCheck s o.ctx ea segLoad len).isSome then
    .done ((s.modStrand t n (fun S => S.markEmpty d)).send t to_ false t 8 (.remoteLoadArrival r))
  else .block .rload (s.send t to_ false t (19 + hopsOf s to_ t) (.remoteLoadReturn r 0 .refused))

/-- A destination g register; g0 takes nothing. -/
def gdst (d : BitVec 5) : Dst := if d = 0 then .none else .g d

/-- LDG (R106). -/
def execLdg (p : Pred) (d : MemDst) (a : GSrc) (imm : BitVec 36) (s : State) : Host.Outcome State Fault Refusal :=
  match d with
  | .g wd r =>
    issue p 12 .any [.g a] [.g r]
      (fun s t n =>
        let ea := eaOf s t n a imm
        if ea.toNat % widthBytes wd ≠ 0 then .trap .misalign 0
        else if eaBad ea then .trap .prot 0
        else remoteLoad s t n ea (widthBytes wd) wd (gdst r)) s
  | .v r =>
    issue p 12 .any [.g a] [.w r]
      (fun s t n =>
        let ea := eaOf s t n a imm
        if ea.toNat % 128 ≠ 0 then .trap .misalign 0
        else if eaBad ea then .trap .prot 0
        else remoteLoad s t n ea 128 0 (.w r)) s

/-- Sources of the data of `stg` and `msg`. -/
def memSrcs (b : MemSrc) : List Src := match b with | .g _ r => [.g r] | .v r => [.w r]
/-- Bytes of the data. -/
def memLen (b : MemSrc) : Nat := match b with | .g wd _ => widthBytes wd | .v _ => 128
/-- The data. -/
def memData (s : State) (t : TileId) (n : StrandNo) (b : MemSrc) : VWord :=
  match b with
  | .g wd r => BitVec.ofNat 1024 ((gv s t n r).toNat % 256 ^ widthBytes wd)
  | .v r => wv s t n r

/-- STG (R106). -/
def execStg (p : Pred) (a : GSrc) (b : MemSrc) (imm : BitVec 36) (s : State) : Host.Outcome State Fault Refusal :=
  issue p 12 .any (.g a :: memSrcs b) []
    (fun s t n => remoteAct s t n (eaOf s t n a imm) (memLen b) (.bytes (memLen b) (memData s t n b))) s

/-- ST4_G (R107): one nibble in global space. -/
def execSt4G (p : Pred) (a b : GSrc) (imm : BitVec 26) (s : State) : Host.Outcome State Fault Refusal :=
  issue p 8 .any [.g a, .g b] []
    (fun s t n =>
      let v := gv s t n b
      remoteAct s t n (eaOf s t n a imm) 1 (.nibble (v.getLsbD 4) (v.setWidth 4))) s

/-- ADDD (R108). -/
def execAddd (p : Pred) (a : GSrc) (b : AddSrc) (imm : BitVec 36) (s : State) : Host.Outcome State Fault Refusal :=
  match b with
  | .g ty r =>
    issue p 12 .any [.g a, .g r] []
      (fun s t n =>
        let wide := decide (ty.toNat % 4 = 0)
        let len := if wide then 8 else 4
        remoteAct s t n (eaOf s t n a imm) len
          (.addInt wide (BitVec.ofNat 64 ((gv s t n r).toNat % 256 ^ len)))) s
  | .la r =>
    issue p 12 .any [.g a, .w r] [] (fun s t n => remoteAct s t n (eaOf s t n a imm) 128 (.addLa (wv s t n r))) s

/-- MSG (R109). -/
def execMsg (p : Pred) (ct : BitVec 4) (a : GSrc) (b : MemSrc) (imm : BitVec 36) (s : State) :
    Host.Outcome State Fault Refusal :=
  issue p 12 .any (.g a :: memSrcs b) []
    (fun s t n =>
      let ea := eaOf s t n a imm
      if ea.toNat % memLen b ≠ 0 then .trap .misalign 0
      else if eaBad ea then .trap .prot 0
      else .done (sendMsg s t n (s.strand t n).pc ea (memLen b) (memData s t n b) ct)) s

/-- MSG_Z (R109): a message without data. -/
def execMsgZ (p : Pred) (ct : BitVec 4) (a : GSrc) (imm : BitVec 36) (s : State) : Host.Outcome State Fault Refusal :=
  issue p 12 .any [.g a] []
    (fun s t n =>
      let ea := eaOf s t n a imm
      if eaBad ea then .trap .prot 0 else .done (sendMsg s t n (s.strand t n).pc ea 0 0 ct)) s

/-- The context tile address of the own store (R84, R110). -/
def ownEa (s : State) (t : TileId) (ofs : Nat) : Word :=
  ((s.tile t).v.idx.setWidth 64 <<< (44 : Nat)) ||| BitVec.ofNat 64 ofs

/-- Does an address of local space name the own store: directly, or by the window at the own position (R97)? -/
def namesOwn (t : TileId) (ea : Word) : Bool :=
  decide (ea.toNat < 2 ^ 21 ∨ (2 ^ 24 ≤ ea.toNat ∧ ea.toNat < 2 ^ 25 ∧ t ≠ monitorTile ∧ ea.toNat / 2 ^ 21 % 8 = posOf t))

/-- The checks of an `lb` access (R97, R110): alignment, own store, R81. -/
def lbCheck (s : State) (t : TileId) (ea : Word) (len : Nat) : Option Act :=
  if ea.toNat % len ≠ 0 then some (.trap .misalign 0)
  else if !namesOwn t ea ∨ !ownOk s t (eaOfs ea) len then some (.trap .prot 0)
  else none

/-- LB_LOAD (R110). -/
def execLbLoad (p : Pred) (wd : BitVec 3) (d : BitVec 5) (a : GSrc) (imm : BitVec 26) (s : State) :
    Host.Outcome State Fault Refusal :=
  issue p 8 .any [.g a] [.g d]
    (fun s t n =>
      let ea := eaOf s t n a imm
      match lbCheck s t ea (widthBytes wd) with
      | some x => x
      | none => remoteLoad s t n (ownEa s t (eaOfs ea)) (widthBytes wd) wd (gdst d)) s

/-- LB_STORE (R110). -/
def execLbStore (p : Pred) (wd : BitVec 3) (a b : GSrc) (imm : BitVec 26) (s : State) :
    Host.Outcome State Fault Refusal :=
  issue p 8 .any [.g a, .g b] []
    (fun s t n =>
      let ea := eaOf s t n a imm
      match lbCheck s t ea (widthBytes wd) with
      | some x => x
      | none =>
        remoteAct s t n (ownEa s t (eaOfs ea)) (widthBytes wd)
          (.bytes (widthBytes wd) (BitVec.ofNat 1024 ((gv s t n b).toNat % 256 ^ widthBytes wd)))) s

/-! ### Ordering and watchpoints (R112, R113) -/

/-- Does an access to a target lie in the scope of a fence (R112, R211)? -/
def inScope (s : State) (t u : TileId) (sc : Nat) : Bool :=
  if sc = 0 then u == t
  else if sc = 1 then clusterOf u == clusterOf t
  else if sc = 2 then dieOf u == dieOf t
  else
    let m := (s.ctx (s.tile t).ctx).mode
    decide (u < monitorTile) && deviceOf m (dieOf u) == deviceOf m (dieOf t)

/-- FENCE (R112): the accesses of the strand in its scope, its own adder commands and its drains; none to other chips
(R211). -/
def execFence (p : Pred) (sc : BitVec 2) (s : State) : Host.Outcome State Fault Refusal :=
  issue p 8 .any [] []
    (fun s t n =>
      let S := s.strand t n
      let ops := (S.ops.filter (fun o => !o.away && inScope s t o.target sc.toNat && opWaits s t n o.id)).map (fun o => o.id)
      let T := s.tile t
      let drs := T.drains.filter (fun d => d.strand == n && !segAway s T.ctx d.dst && inScope s t (routeOf s T.ctx t d.dst) sc.toNat)
      let adds := (T.addQ.filter (fun c => c.strand == n)).map (fun c => c.seq) ++ drs.map (fun d => d.seq)
      if ops = [] ∧ adds = [] then .done s else .block (.fence ops adds) s) s

/-- Change a watchpoint of the running virtual tile. -/
def setWpt (s : State) (t : TileId) (n : BitVec 2) (w : Wpt) : State :=
  s.modV t (fun v => { v with wpt := v.wpt.set n.toNat w })

/-- WPT_SET (R113). -/
def execWptSet (p : Pred) (n : BitVec 2) (a b : GSrc) (fl : BitVec 2) (s : State) : Host.Outcome State Fault Refusal :=
  issue p 12 .any [.g a, .g b] []
    (fun s t m =>
      let base := gv s t m a
      let len := gv s t m b
      if len = 0 ∨ capOf t < base.toNat + len.toNat then .trap .prot 0
      else .done (setWpt s t n { base := base, len := len, fl := fl })) s

/-- WPT_CLR (R113). -/
def execWptClr (p : Pred) (n : BitVec 2) (s : State) : Host.Outcome State Fault Refusal :=
  issue p 12 .any [] [] (fun s t _ => .done (setWpt s t n {})) s

/-- WPT_RD (R113). -/
def execWptRd (p : Pred) (n : BitVec 2) (d : BitVec 5) (s : State) : Host.Outcome State Fault Refusal :=
  issue p 12 .any [] [.g d] (fun s t m => .done (setG s t m d ((s.tile t).v.wpt[n.toNat]).record)) s

/-! ### Overlays (R89) -/

/-- Does an outstanding overlay load meet the range? -/
def ovlMeets (T : Tile) (base len : Nat) : Bool := T.ovls.any (fun o => meets o.base o.len base len)

/-- The issue of an overlay load (R89): the own memory and the copy path of a tile only. -/
def ovlAct (s : State) (t : TileId) (n : StrandNo) (hbm : Bool) (src len : Word) (ct : BitVec 4) (base : Nat) : Act :=
  let T := s.tile t
  let l := len.toNat
  if base % 32 ≠ 0 ∨ 2 ^ 21 ≤ base then .trap .illegal 0
  else if l = 0 ∨ l % 32 ≠ 0 ∨ xbOf s t < base + l then .trap .prot 0
  else if !hbm && !(decide (src.toNat < 2 ^ 21) && ownOk s t src.toNat l) then .trap .prot 0
  else if hbm && decide (2 ^ 51 ≤ src.toNat) then .trap .prot 0
  else if ovlMeets T base l ∨ 2 ≤ T.ovls.length then .wait .ovl
  else
    let o : Ovl := { id := T.ovlNo, base := base, len := l, src := src, hbm := hbm, ct := ct, strand := n,
                     pc := T.strands[n.val].pc }
    .done ((s.modTile t (fun T => { T with ovls := T.ovls ++ [{ o with slot := T.slot }], ovlNo := T.ovlNo + 1 })).post
      ((l + 255) / 256) (.ovlDone t o.id))

/-- OVL_LOC (R89). -/
def execOvlLoc (p : Pred) (a b : GSrc) (ct : BitVec 4) (base : BitVec 36) (s : State) :
    Host.Outcome State Fault Refusal :=
  issue p 12 .any [.g a, .g b] [] (fun s t n => ovlAct s t n false (gv s t n a) (gv s t n b) ct base.toNat) s

/-- OVL_HBM (R89). -/
def execOvlHbm (p : Pred) (a b : GSrc) (ct : BitVec 4) (base : BitVec 36) (s : State) :
    Host.Outcome State Fault Refusal :=
  issue p 12 .any [.g a, .g b] [] (fun s t n => ovlAct s t n true (gv s t n a) (gv s t n b) ct base.toNat) s

/-! ### Helpers (R114, R115) -/

/-- A helper as `start` leaves it (Table 5.1). What its last incarnation had outstanding stays so: R114 does not say that a
load of it is forgotten, as R115 says of `hstop`, so its value goes to the register (log entry 72). DESIGN CHOICE (log entry 92): it is in no handler. -/
def startedStrand (S : Strand) (pc : BitVec 21) (arg : Word) (nb : Nat) : Strand :=
  { st := .started, g := (Vector.replicate 32 0).set 1 arg, pc := pc, tcause := S.tcause, trappc := S.trappc,
    notBefore := nb, ops := S.ops, gen := S.gen + 1, refusedOnce := S.refusedOnce, deferred := none,
    rest := (Strand.unbindAll S).rest, outN := S.outN, outPark := S.outPark }

/-- START (R114). -/
def execStart (p : Pred) (h : BitVec 6) (a : GSrc) (imm : BitVec 26) (s : State) : Host.Outcome State Fault Refusal :=
  issue p 8 .control [.g a] []
    (fun s t n =>
      if h.toNat = 0 ∨ 10 < h.toNat then .trap .illegal 0
      else
        let k : StrandNo := Fin.ofNat 11 h.toNat
        let st := (s.strand t k).st
        if !strandExists s t h.toNat ∨ (st ≠ .free ∧ st ≠ .halted) then .trap .prot 0
        else
          .done (((List.finRange 8).foldl (fun s j => dropFetch s t (.q k j)) s).modStrand t k (fun S =>
            startedStrand S (branchTarget (s.strand t n).pc imm) (gv s t n a) (s.cycle + 2)))) s

/-- Locks of a strand clear (R115). -/
def dropLocks (s : State) (t : TileId) (n : StrandNo) : State :=
  (List.range 8).foldl (fun s i =>
    let u := tileAt (clusterOf t) i
    ((s.tile u).locks.filter (fun l => l.pos == posOf t && l.strand == n.val)).foldl
      (fun s l => clearLock s u l.h) s) s

/-- The resident slot's strand n is owed no reply any more (R115). -/
def forgetOwed (s : State) (t : TileId) (n : StrandNo) : State :=
  s.modTile t (fun T =>
    { T with slots := T.slots.mapIdx (fun i x =>
        if i = T.slot then { x with asked := x.asked.filter (fun o => o.strand != n) } else x) })

/-- Stop a helper (R115): live or trapped, it becomes HALTED; its registers are full, its loads are forgotten. -/
def stopHelper (s : State) (t : TileId) (n : StrandNo) : State :=
  let S := s.strand t n
  if S.st = .free ∨ S.st = .halted then s
  else
    dropLocks (forgetOwed (s.modStrand t n (fun S =>
      { S with st := .halted, wait := .idle, gE := 0, wE := 0, gen := S.gen + 1, passed := false,
               ops := S.ops.filter (fun o => !o.load) })) t n) t n

/-- HSTOP (R115). -/
def execHstop (p : Pred) (h : BitVec 6) (s : State) : Host.Outcome State Fault Refusal :=
  issue p 8 .control [] []
    (fun s t _ =>
      if h.toNat = 0 ∨ 10 < h.toNat then .trap .illegal 0
      else .done (stopHelper s t (Fin.ofNat 11 h.toNat))) s

/-- HSTOP_ALL (R115). -/
def execHstopAll (p : Pred) (s : State) : Host.Outcome State Fault Refusal :=
  issue p 8 .control [] []
    (fun s t _ =>
      .done ((List.finRange 11).foldl (fun s k => if k.val = 0 then s else stopHelper s t k) s)) s

end Sys2Proof.Machine
end

