-- ==== Sys2Proof/Machine/Net.lean ====
section
/-! DEFINITION. What arrives at a tile: results, remote loads, deltas, foreshore writes, messages, lock grants, overlay
loads, timeouts, deferred traps, failed fetches, soft errors. Every step whose guard does not hold changes nothing. -/

namespace Sys2Proof.Machine

open Sys2Proof

/-! ### The end of a wait -/

/-- A wait ends: the strand is READY and issues from the next cycle on (Table 5.1, R86). -/
def wake (s : State) (t : TileId) (n : StrandNo) : State :=
  s.modStrand t n (fun S => { S with st := .ready, wait := .idle, notBefore := s.cycle + 1 })

/-- A wait ends and with it the instruction: the strand goes on at its successor, `d` cycles from now at the earliest. -/
def complete (s : State) (t : TileId) (n : StrandNo) (d : Nat) : State :=
  s.modStrand t n (fun S =>
    { S with st := .ready, wait := .idle, notBefore := s.cycle + d, pc := successor S.pc S.wlen, passed := false })

/-- A load has freed its range (R89): the strands wake whose fetch no other load holds up, and those whose `ovl` waits. -/
def wakeOvl (s : State) (t : TileId) : State :=
  (List.finRange 11).foldl (fun s n =>
    let a := (s.strand t n).pc.toNat
    if (s.strand t n).wait = .ovl ∧ !(s.tile t).ovls.any (fun o => decide (o.base ≤ a ∧ a < o.base + o.len)) then wake s t n
    else s) s

/-! ### Results and traps -/

/-- Does a trap of a strand wait for steps still due in this cycle (R350): an abort RELEASE or a sweep of the tile, which win
over it, and for a precise one the refusals on their way to the strand (R349)? -/
def trapWaits (s : State) (t : TileId) (n : StrandNo) (precise : Bool) : Bool :=
  s.agenda.any (fun e => decide (e.1 ≤ s.cycle) &&
    (match e.2 with
     | .releaseAbortAtTile _ u _ => u == t
     | .sweepTokenAtTile _ u => u == t
     | .deferredTrap u k => precise && u == t && k == n
     | .ackArrival o a _ => precise && o.tile == t && o.strand == n && a != .accept
     | _ => false))

/-- A precise trap that meets a strand outside its issue: a pending deferred trap is taken instead (R349, R350). -/
def takePrecise (s : State) (t : TileId) (n : StrandNo) (c : Cause) (info : BitVec 32) (pc succ : BitVec 21) : State :=
  match (s.strand t n).deferred with
  | some d => takeDeferred s t n d
  | none => takeTrap s t n c info pc succ

/-- DEFERRED_TRAP (R349, R350). -/
def execDeferredTrap (s : State) : Host.Outcome State Fault Refusal :=
  match s.ev with
  | some (.deferredTrap t n) =>
    match (s.strand t n).deferred with
    | some d =>
      if trapWaits s t n false then .next (s.post 0 (.deferredTrap t n)) else
      .next (if liveSt (s.strand t n).st && (s.tile t).running then takeDeferred s t n d else s)
    | none => .next s
  | _ => .next s

/-- FETCH_FAULT (R55, R88, R347): the strand that issues takes the trap. -/
def execFetchFault (s : State) : Host.Outcome State Fault Refusal :=
  match s.ev with
  | some (.fetchFault c) =>
    let t := s.cur.1
    let n := s.cur.2
    let pc := (s.strand t n).pc
    .next (takeTrap (took s t n) t n c 0 pc pc)
  | _ => .next s

/-- SOFT_ERROR (R354): an error comes to stand in a word, until a read finds it. -/
def execSoftError (s : State) : Host.Outcome State Fault Refusal :=
  match s.ev with
  | some (.softError _ (.hbm c) due) =>
    if due then .next (contextFatal s c .hbmdue)
    else
      .next (s.report (.record (recBytes
        { code := Cause.code .hbmce, cls := 4, defer := false, ctx := BitVec.ofNat 5 c, att := 0, ss := 0, strand := 0
          vidx := 0, phys := 0, pc := 0, info := 0, colmap := 0 })))
  | some (.softError t p due) => .next (s.modTile t (fun T => { T with errs := T.errs ++ [{ place := p, due := due }] }))
  | _ => .next s

/-! ### Remote loads (R85, R106, R204, R259) -/

/-- The bytes that a remote load of a slot reads: the foreshore, the standing version of the resident slot, or the
standing buffer of another slot. False when an uncorrectable error withholds them. -/
def remoteBytes (s : State) (ctx : Nat) (g : Group) (u : TileId) (k : Nat) (idx : BitVec 20) (ofs n : Nat) :
    State × Bool × List Byte :=
  let w := (slotRegs (s.tile u) k).partw
  if foreAt w ofs then
    let a := poolAddr w k ofs
    let r := eccRead s u false a n
    (r.1, r.2, (s.tile u).mem.bytes a n)
  else if (s.tile u).slot = k then standingRead s u ofs n
  else
    let va := imageVa (s.ctx ctx) idx (standingBuf g (idx.toNat - g.base * 1024))
    (s, true, readHbm s ctx (va + BitVec.ofNat 64 (4096 + ofs)) n)

/-- REMOTE_LOAD_ARRIVAL (R85, R106): the value is bound here; during a commit the load waits for its end (R204). -/
def execRemoteLoadArrival (s : State) : Host.Outcome State Fault Refusal :=
  match s.ev with
  | some (.remoteLoadArrival r) =>
    let c := r.src.ctx
    match segCheck s c r.ea segLoad r.n, locate s c (eaIdx r.ea) with
    | some (u, k), some (g, _, _) =>
      if s.cycle < (s.tile u).busyUntil then
        .next (s.post ((s.tile u).busyUntil - s.cycle) (.remoteLoadArrival r))
      else
        let q := remoteBytes s c g u k (eaIdx r.ea) (eaOfs r.ea) r.n
        let x := natOf q.2.2
        let v : VWord := match r.dst with | .g _ => (extendTo r.wd x).setWidth 1024 | _ => BitVec.ofNat 1024 x
        .next (if q.2.1 then q.1.send u r.src.tile false r.src.tile 11 (.remoteLoadReturn r v .accept) else q.1)
    | _, _ =>
      .next (s.send (routeOf s c r.src.tile r.ea) r.src.tile false r.src.tile 11 (.remoteLoadReturn r 0 .refused))
  | _ => .next s

/-- REMOTE_LOAD_RETURN (R85, R106): the register fills, or the strand traps PROT on the load, whose destination no way of
R95 has filled (log entry 47). -/
def execRemoteLoadReturn (s : State) : Host.Outcome State Fault Refusal :=
  match s.ev with
  | some (.remoteLoadReturn r v a) =>
    let t := r.src.tile
    let n := r.src.strand
    if opOut s t n r.src.op then
      if a = .accept then .next ((opDone s t n r.src.op).fill t n r.dst v)
      else if trapWaits s t n true then .next (s.post 0 (.remoteLoadReturn r v a))
      else
        let s := opDone s t n r.src.op
        .next (if liveSt (s.strand t n).st then takePrecise s t n .prot 0 r.src.pc r.src.pc else s)
    else .next s
  | _ => .next s

/-! ### Remote writes (R85, R149, R196, R201, R250) -/

/-- Refuse a remote write. -/
def refuseWrite (s : State) (o : Origin) (u : TileId) (a : Ack) (info : BitVec 32) : State := sendAck s o a u info

/-- The range that is checked for a write: a drain's whole destination (R149), else the bytes written. -/
def checkedRange (p : Packet) : Word × Nat :=
  match p.body with
  | .drainLa base _ _ => (base, 65536)
  | b => (p.ea, Payload.len b)

/-- May the destination of a write be checked through: R85, and for a drain one accumulator partition (R149)? -/
def writeCheck (s : State) (p : Packet) : Option (TileId × Nat) :=
  let r := checkedRange p
  match segCheck s p.src.ctx r.1 segWrite r.2 with
  | none => none
  | some (u, k) =>
    match p.body with
    | .drainLa _ _ _ =>
      if partOf (slotRegs (s.tile u) k).partw (eaOfs r.1) 65536 = some 3 then some (u, k) else none
    | _ => some (u, k)

/-- The receiver checks the residue of a drain's element on acceptance (R149). -/
def checkDelta (s : State) (u : TileId) (b : Payload) : State :=
  match b with
  | .drainLa _ d r =>
    let q := residueCheck s u 2 (r == elemResidue d)
    if q.2 then q.1 else mismatch q.1 u 2 0
  | _ => s

/-- A versioned delta at its receiver, and at the receiver's shadow (R196, R250). -/
def takeDelta (s : State) (u : TileId) (k : Nat) (p : Packet) : State :=
  let b := mergeRead s u k p
  if !b.2 then b.1
  else
  let r := acceptDelta b.1 u k p
  if r.2.1 = .accept then
    let s := checkDelta r.1 u p.body
    let s :=
      match shadowOf s u with
      | some w => checkDelta (acceptDelta s w k p).1 w p.body
      | none => s
    sendAck s p.src .accept u 0
  else sendAck r.1 p.src r.2.1 u r.2.2

/-- A foreshore write at its receiver, and at the receiver's shadow (R201, R250). -/
def takeFore (s : State) (u : TileId) (k : Nat) (p : Packet) : State :=
  if s.det u then sendAck s p.src .detban u 0
  else
    let r := applyFore s u k p.src (eaOfs p.ea) p.body
    if !r.2 then r.1
    else
      let s :=
        match shadowOf r.1 u with
        | some w => (applyFore r.1 w k p.src (eaOfs p.ea) p.body).1
        | none => r.1
      sendAck s p.src .accept u 0

/-- A remote write at its receiving interface. -/
def takeWrite (s : State) (p : Packet) : State :=
  match writeCheck s p with
  | none => sendAck s p.src .refused (routeOf s p.src.ctx p.src.tile p.ea) 0
  | some (u, k) =>
    if foreAt (slotRegs (s.tile u) k).partw (eaOfs p.ea) then takeFore s u k p else takeDelta s u k p

/-- DELTA_ARRIVAL (R196). -/
def execDeltaArrival (s : State) : Host.Outcome State Fault Refusal :=
  match s.ev with
  | some (.deltaArrival p) => .next (takeWrite s p)
  | _ => .next s

/-- FORESHORE_WRITE_ARRIVAL (R201). -/
def execForeshoreWriteArrival (s : State) : Host.Outcome State Fault Refusal :=
  match s.ev with
  | some (.foreshoreWriteArrival p) => .next (takeWrite s p)
  | _ => .next s

/-- A message's data and count at one copy of its receiver (R109). -/
def takeMsg (s : State) (u : TileId) (k : Nat) (m : MsgReq) : State × Bool :=
  let r := if m.n = 0 then (s, true) else applyFore s u k m.src (eaOfs m.ea) (.bytes m.n m.data)
  if r.2 then (modSlot r.1 u k (fun v => v.raise m.ct 1), true) else r

/-- MSG_ARRIVAL (R109): the data is written, then the counter rises. -/
def execMsgArrival (s : State) : Host.Outcome State Fault Refusal :=
  match s.ev with
  | some (.msgArrival m) =>
    match segCheck s m.src.ctx m.ea segMsg (if m.n = 0 then 1 else m.n) with
    | none => .next (sendAck s m.src .refused (routeOf s m.src.ctx m.src.tile m.ea) 0)
    | some (u, k) =>
      let r := takeMsg s u k m
      if !r.2 then .next r.1
      else
        let s := match shadowOf r.1 u with | some w => (takeMsg r.1 w k m).1 | none => r.1
        .next (sendAck s m.src .accept u 0)
  | _ => .next s

/-! ### Locks (R111) -/

/-- The first waiter in ring order after the last holder, of those that waited when the bit cleared. -/
def nextHolder (s : State) (u : TileId) (h : BitVec 8) : Option (Nat × StrandNo) :=
  let ws := (lockWaiters s u h).filter (fun w => decide ((s.strand (tileAt (clusterOf u) w.1) w.2).since < s.cycle))
  let last := match (s.tile u).lastHold.find? (fun l => l.h == h) with | some l => l.pos * 11 + l.strand + 1 | none => 0
  let key (w : Nat × StrandNo) : Nat := (w.1 * 11 + w.2.val + 88 - last % 88) % 88
  ws.foldl (fun r w => match r with | some x => if key w < key x then some w else r | none => some w) none

/-- LOCK_GRANT (R111): the waiter's `ldl` completes as a load. -/
def execLockGrant (s : State) : Host.Outcome State Fault Refusal :=
  match s.ev with
  | some (.lockGrant u h) =>
    if (lockHolder s u h).isSome then .next s
    else
      match nextHolder s u h with
      | none => .next s
      | some (pos, n) =>
        let t := tileAt (clusterOf u) pos
        match (s.strand t n).wait with
        | .lock _ _ ofs wd d =>
          match localRead s u n.val ofs (widthBytes wd) with
          | .error (.ecc s) => .next ((s.modStrand t n (fun S => { S with wait := .ecc })).post 0 (.lockGrant u h))
          | .error _ => .next s
          | .ok r =>
            let s := complete (setLock r.1 u h pos n) t n 1
            .next (laterG s t n d (extendTo wd (natOf r.2)) 3)
        | _ => .next s
  | _ => .next s

/-! ### Timeouts (R104, R323) -/

/-- WAITC_TIMEOUT (R104). -/
def execWaitcTimeout (s : State) : Host.Outcome State Fault Refusal :=
  match s.ev with
  | some (.waitcTimeout t n) =>
    match (s.strand t n).st, (s.strand t n).wait with
    | .waiting, .counter _ _ _ pf start tmo =>
      .next (if tmo ≠ 0 ∧ start + tmo < s.cycle then complete (setP s t n pf true) t n 0 else s)
    | _, _ => .next s
  | _ => .next s

/-- WAITP_TIMEOUT (R323). -/
def execWaitpTimeout (s : State) : Host.Outcome State Fault Refusal :=
  match s.ev with
  | some (.waitpTimeout t n) =>
    match (s.strand t n).st, (s.strand t n).wait with
    | .waiting, .precision _ _ pf start tmo =>
      .next (if tmo ≠ 0 ∧ start + tmo < s.cycle then complete (setP s t n pf true) t n 0 else s)
    | _, _ => .next s
  | _ => .next s

/-! ### Overlays (R89) -/

/-- Take an overlay load off the tile and free its range. -/
def dropOvl (s : State) (t : TileId) (id : Nat) : State :=
  wakeOvl (s.modTile t (fun T => { T with ovls := T.ovls.filter (fun o => o.id != id) })) t

/-- The bytes of an overlay load land: the code partition is written at once, an engine's write to the watchpoints (R113),
and the counter rises. -/
def landOvl (s : State) (t : TileId) (o : Ovl) (bs : List Byte) : State :=
  let r := eccWrite s t o.base o.len
  let s := r.1.modTile t (fun T =>
    { T with mem := T.mem.store o.base bs, v := watchRecord T.v o.base o.len 1 (BitVec.ofNat 20 (posOf t)) o.strand.val })
  dropOvl (modSlot s t o.slot (fun v => v.raise o.ct 1)) t o.id

/-- OVL_DONE (R89): the copy completes, from the working copy whatever DET says (R89); a page that is not resident parks it (R294), one that refuses it ends it
(R183, R291). A word that gives no value is waited for (R354). DESIGN CHOICE (log entry 92): every block of the source is
read in this cycle, where R89 allows each block's bytes before or after a write of the time the copy runs. -/
def execOvlDone (s : State) : Host.Outcome State Fault Refusal :=
  match s.ev with
  | some (.ovlDone t id) =>
    match (s.tile t).ovls.find? (fun o => o.id == id) with
    | none => .next s
    | some o =>
      let T := s.tile t
      if !o.hbm then
        let a := poolAddr T.v.partw o.slot o.src.toNat
        let r := eccRead s t false a o.len
        .next (if r.2 then landOvl r.1 t o (T.mem.bytes a o.len) else r.1.post 1 (.ovlDone t id))
      else
        match firstBlocked s T.ctx o.src o.len false with
        | none => .next (landOvl (touchPages s T.ctx o.src o.len) t o (readHbm s T.ctx o.src o.len))
        | some (_, .refused) =>
          .next (refuse (dropOvl s t id) t o.strand { code := .prot, info := 0, pc := o.pc, engine := false })
        | some (_, .behind) => .next (s.post 1 (.ovlDone t id))
        | some (va, _) =>
          let s := s.modTile t (fun T =>
            { T with ovls := T.ovls.map (fun x => if x.id = id then { x with parked := true } else x) })
          .next (s.postPage { ctx := T.ctx, tile := t, who := .ovl id, va := va, write := false })
  | _ => .next s

end Sys2Proof.Machine
end

