-- ==== Sys2Proof/Machine/VectorOps.lean ====
section
/-! DEFINITION. The arithmetic of the vector unit on lanes (06_vector R116 to R126): plain functions of registers. -/

namespace Sys2Proof.Machine

open Sys2Proof

/-- Lanes of a type in a register (Table 6.1). -/
def lanesOf (ty : BitVec 4) : Nat := 1024 / laneBits ty

/-- Lane i of width w. -/
def lane (w : Nat) (v : VWord) (i : Nat) : Nat := v.toNat / 2 ^ (w * i) % 2 ^ w

/-- All lanes of width w, lane 0 first. -/
def lanes (w : Nat) (v : VWord) : List Nat := (List.range (1024 / w)).map (lane w v)

/-- A register from lanes of width w, lane 0 first. -/
def joinLanes (w : Nat) (xs : List Nat) : VWord := BitVec.ofNat 1024 (xs.foldr (fun x a => x % 2 ^ w + a * 2 ^ w) 0)

/-- Replace lanes from lane i on; the others are kept. -/
def putLanes (w : Nat) (old : VWord) (i : Nat) (xs : List Nat) : VWord :=
  joinLanes w ((lanes w old).take i ++ xs ++ (lanes w old).drop (i + xs.length))

/-- Two operands and the stochastic words, lane by lane. -/
def zip3 (f : Nat → Nat → BitVec 32 → Nat) (xs ys : List Nat) (us : List (BitVec 32)) : List Nat :=
  List.zipWith (fun xy u => f xy.1 xy.2 u) (List.zip xs ys) us

/-- Sum, difference and product of a lane (Table 6.3): exact then rounded once, or integer wrapped or saturated. -/
def laneArith (k : Nat) (ty : BitVec 4) (sat : Bool) (rm : BitVec 3) (x y : Nat) (u : BitVec 32) : Nat :=
  if isIntTy ty then
    let w := laneBits ty
    let a := readInt (isSigned ty) w x
    let b := readInt (isSigned ty) w y
    let r := if k = 0 then a + b else if k = 1 then a - b else a * b
    wrapInt w (if sat then saturate (isSigned ty) w r else r)
  else
    let f := fmtOf ty
    let a := decodeFp f x
    let b := decodeFp f y
    if k = 2 then roundVal f rm u (mulVal a b) else exactThenRound f rm u [a, if k = 1 then negVal b else b]

/-- `vfma` of a lane (Table 6.3, R39). -/
def laneFma (k : BitVec 4) (ty : BitVec 4) (rm : BitVec 3) (x y z : Nat) : Nat :=
  let f := fmtOf ty
  let prod := mulVal (decodeFp f x) (decodeFp f y)
  let c := decodeFp f z
  exactThenRound f rm 0 [if k = 1 then negVal prod else prod, if k = 2 then negVal c else c]

/-- `vmin` (or `vmax`) of a lane (Table 6.3). -/
def laneMin (big : Bool) (ty : BitVec 4) (x y : Nat) : Nat :=
  if isIntTy ty then
    let w := laneBits ty
    let le := decide (readInt (isSigned ty) w x ≤ readInt (isSigned ty) w y)
    if le != big then x else y
  else if big then maxFp (fmtOf ty) x y else minFp (fmtOf ty) x y

/-- `vcmp` of a lane (Table 6.4). -/
def laneCmp (k : BitVec 4) (ty : BitVec 4) (x y : Nat) : Nat :=
  let w := laneBits ty
  let c :=
    if isIntTy ty then vcmpInt k (readInt (isSigned ty) w x) (readInt (isSigned ty) w y)
    else vcmpFp k (decodeFp (fmtOf ty) x) (decodeFp (fmtOf ty) y)
  if c then 2 ^ w - 1 else 0

/-- A shift of a lane by y mod width (Table 6.4). -/
def laneShift (k : BitVec 2) (w x y : Nat) : Nat :=
  let n := y % w
  match k.toNat with
  | 0 => x * 2 ^ n % 2 ^ w
  | 1 => x / 2 ^ n
  | 2 => wrapInt w (readInt true w x / (2 ^ n : Int))
  | _ => (x * 2 ^ n + x / 2 ^ (w - n)) % 2 ^ w

/-- Truth table on registers (Table 6.4): bit j is FN[2a + b]. -/
def logicV (tt : BitVec 4) (a b : VWord) : VWord :=
  (if tt.getLsbD 0 then ~~~a &&& ~~~b else 0) ||| (if tt.getLsbD 1 then ~~~a &&& b else 0) |||
  (if tt.getLsbD 2 then a &&& ~~~b else 0) ||| (if tt.getLsbD 3 then a &&& b else 0)

/-- The patterns of `vshuf` (R122). -/
def shufV (pat : BitVec 4) (w : Nat) (a b : VWord) (sh : Nat) : VWord :=
  let xs := lanes w a
  let ys := lanes w b
  let n := xs.length
  let inter (p q : List Nat) : List Nat := (List.zipWith (fun x y => [x, y]) p q).flatten
  let pick (par : Nat) (p : List Nat) : List Nat := (List.range (n / 2)).map (fun i => p.getD (2 * i + par) 0)
  joinLanes w
    (match pat.toNat with
     | 0 => inter (xs.take (n / 2)) (ys.take (n / 2))
     | 1 => inter (xs.drop (n / 2)) (ys.drop (n / 2))
     | 2 => pick 0 xs ++ pick 0 ys
     | 3 => pick 1 xs ++ pick 1 ys
     | 4 => xs.reverse
     | _ => xs.drop sh ++ xs.take sh)

/-- `vred` (R123): 0 sum, 1 min, 2 max, 3 amax. -/
def redV (k : Nat) (ty : BitVec 4) (rm : BitVec 3) (a : VWord) : Word :=
  let w := laneBits ty
  let xs := lanes w a
  if isIntTy ty then
    let zs := xs.map (readInt (isSigned ty) w)
    let h := zs.headD 0
    BitVec.ofInt 64
      (match k with
       | 0 => zs.foldl (fun x y => x + y) 0
       | 1 => zs.foldl (fun x y => if x ≤ y then x else y) h
       | 2 => zs.foldl (fun x y => if x ≤ y then y else x) h
       | _ => ((zs.foldl (fun x y => if x < y.natAbs then y.natAbs else x) 0 : Nat) : Int))
  else
    let f := fmtOf ty
    let h := xs.headD 0
    BitVec.ofNat 64
      (match k with
       | 0 => exactThenRound f rm 0 (xs.map (decodeFp f))
       | 1 => xs.foldl (minFp f) h
       | 2 => xs.foldl (maxFp f) h
       | _ =>
         let ms := xs.map (fun x => if decodeFp f x = .nan then f.nanBits else x % 2 ^ (w - 1))
         ms.foldl (maxFp f) 0)

/-- Lanes that `vcvt` converts at once (R124). -/
def cvtCount (ty tgt : BitVec 4) : Nat := 1024 / max (laneBits ty) (laneBits tgt)

/-- Is the pair of types one that `vcvt` converts (R124)? -/
def cvtPair (ty tgt : BitVec 4) : Bool :=
  let plain (x : BitVec 4) : Bool := decide (x.toNat ≤ 11)
  (plain ty && plain tgt) || (ty == 8 && tgt == 12) || (ty == 12 && tgt == 8)

/-- Is the part index legal (R124)? -/
def cvtPart (ty tgt : BitVec 4) (k : BitVec 3) : Bool :=
  decide (k.toNat < max (laneBits ty) (laneBits tgt) / min (laneBits ty) (laneBits tgt))

/-- One lane of `vcvt` (R41 to R43, R124). -/
def laneCvt (ty tgt : BitVec 4) (rm : BitVec 3) (x : Nat) (u : BitVec 32) : Nat :=
  let wt := laneBits tgt
  if isIntTy ty && isIntTy tgt then
    let v := readInt (isSigned ty) (laneBits ty) x
    if laneBits ty = wt then x
    else if wt < laneBits ty then wrapInt wt (saturate (isSigned tgt) wt v)
    else wrapInt wt v
  else if isIntTy ty then intToFp (fmtOf tgt) rm u (readInt (isSigned ty) (laneBits ty) x)
  else if isIntTy tgt then wrapInt wt (fpToInt rm u (isSigned tgt) wt (decodeFp (fmtOf ty) x))
  else roundVal (fmtOf tgt) rm u (decodeFp (fmtOf ty) x)

/-- `vcvt` with FN 0 (R124). `b` holds the scales of an `.mxf4` source. Word i of `us` serves the i-th converted lane, whatever
lane of the source it comes from (log entry 80). -/
def cvtV (ty tgt : BitVec 4) (k : Nat) (rm : BitVec 3) (us : List (BitVec 32)) (old a b : VWord) : VWord :=
  if tgt = 12 then
    let q := quantMx rm us (lanes 32 a)
    putLanes 4 old (32 * k) (q.2.map (fun x => x.toNat))
  else if ty = 12 then
    let sc : BitVec 8 := BitVec.ofNat 8 (lane 8 b k)
    joinLanes 32 ((List.range 32).map (fun i =>
      roundVal fp32 rm 0 (scaleE8 sc (decodeFp e2m1 (lane 4 a (32 * k + i))))))
  else
    let ws := laneBits ty
    let wt := laneBits tgt
    let n := cvtCount ty tgt
    let src := if ws < wt then ((lanes ws a).drop (k * n)).take n else (lanes ws a).take n
    let res := List.zipWith (fun x u => laneCvt ty tgt rm x u) src us
    if wt < ws then putLanes wt old (k * n) res else joinLanes wt res

/-- The 128 values of `vqnt` (R125). -/
def qntLanes (ws : List VWord) : List Nat := ws.flatMap (lanes 32)

/-- `vrng` (R126): 32 words from counter C. -/
def rngV (key : Word) (ctr : BitVec 128) : VWord := joinLanes 32 ((philoxWords 8 ctr key).map (fun x => x.toNat))

end Sys2Proof.Machine
end

