-- ==== Sys2Proof/Machine/Array.lean ====
section
/-! DEFINITION. Accumulators and the array: the operand FIFOs (R130 to R132), the array queue and the partial tiles (R133
to R136), residue status (R138 to R140), the adder queue (R127, R129, R141 to R148), the waits of R150. -/

namespace Sys2Proof.Machine

open Sys2Proof

/-! ### The operand FIFOs (R130 to R132) -/

/-- A FIFO of a tile. -/
def Tile.fifo (T : Tile) (fb : Bool) : Fifo := if fb then T.fb else T.fa

/-- Change a FIFO. -/
def modFifo (s : State) (t : TileId) (fb : Bool) (f : Fifo → Fifo) : State :=
  s.modTile t (fun T => if fb then { T with fb := f T.fb } else { T with fa := f T.fa })

/-- Does a complete unit stand next? -/
def Fifo.ready (q : Fifo) : Bool := !q.held.isEmpty || !q.units.isEmpty

/-- Units that leave the FIFO count for the binding that filled them (R177). -/
def Fifo.leave (q : Fifo) (us : List Unit_) : Fifo :=
  { q with bind := { q.bind with left := q.bind.left + (us.filter (fun u => u.bound)).length } }

/-- The units of a finished operation are freed (R131). -/
def Fifo.freed (q : Fifo) : Fifo := Fifo.leave { q with reading := [] } q.reading

/-- The unit that an operation consumes, and the FIFO after it (R131, R132): what it uses for the last time is freed when
it has finished reading. -/
def Fifo.take (q : Fifo) : Option (Unit_ × Fifo) :=
  match q.held with
  | [] =>
    match q.units with
    | [] => none
    | u :: r => some (u, { q with units := r, reading := [u] })
  | h :: hs =>
    let u := ((h :: hs)[q.pos % (hs.length + 1)]?).getD h
    if q.uses ≤ 1 then some (u, { q with held := [], pos := 0, uses := 0, reading := h :: hs })
    else some (u, { q with pos := q.pos + 1, uses := q.uses - 1 })

/-- Is there room for another row: two units in all, the incomplete one among them (R130, R132)? -/
def Fifo.room (q : Fifo) : Bool :=
  decide (q.part.length < 32) && (q.bind.sink || decide (q.units.length + q.held.length + q.reading.length < 2))

/-- Is a fill toward the FIFO in flight (R151, R155)? A binding that waits only for room in a full FIFO, or a slab binding
without draws, has nothing in flight (log entry 19). -/
def fillFlight (q : Fifo) : Bool :=
  q.bind.live && !q.bind.stopped &&
    (if q.bind.slab then !q.bind.idxs.isEmpty
     else q.bind.busy || q.bind.sink || q.bind.next % 32 != 0 || q.room)

/-- A row enters the FIFO; the 32nd completes the unit (R130, R131). -/
def pushRow (s : State) (t : TileId) (fb : Bool) (row : BitVec 2048) (sc : BitVec 128) : State :=
  let s := modFifo s t fb (fun q => { q with part := q.part ++ [row], partSc := q.partSc ++ [sc] })
  if ((s.tile t).fifo fb).part.length = 32 then s.post 0 (.fifoUnitComplete t fb) else s

/-- The scale lane of a row without scales: every byte 2^0 (R130). -/
def unitScale : BitVec 128 := BitVec.ofNat 128 0x7F7F7F7F7F7F7F7F7F7F7F7F7F7F7F7F

/-! ### Elements of a unit (Table 7.1, R135) -/

/-- Elements per row. -/
def rowElems (ty : BitVec 4) : Nat := if ty = 9 then 128 else if ty = 12 then 512 else 256

/-- Row i of a unit. -/
def Unit_.row (u : Unit_) (i : Nat) : BitVec 2048 := u.rows.getD i 0

/-- The exact value of element k of row i (R135). -/
def unitVal (ty : BitVec 4) (u : Unit_) (i k : Nat) : Val :=
  let r := (u.row i).toNat
  if ty = 9 then decodeFp bf16 (r / 2 ^ (16 * k) % 65536)
  else if ty = 12 then
    scaleE8 ((u.scales.getD i 0).extractLsb' (8 * (k / 32)) 8) (decodeFp e2m1 (r / 2 ^ (4 * k) % 16))
  else if ty = 7 then
    let x := readInt true 8 (r / 2 ^ (8 * k) % 256)
    .fin (decide (x < 0)) x.natAbs 0
  else decodeFp (if ty = 10 then e4m3 else e5m2) (r / 2 ^ (8 * k) % 256)

/-- Type of B under `.x`: the other FP8 format. -/
def otherTy (ty : BitVec 4) (x : Bool) : BitVec 4 := if x then (if ty = 10 then 11 else 10) else ty

/-- Values of row i, columns from k0 on. -/
def rowVals (ty : BitVec 4) (u : Unit_) (k0 kn i : Nat) : List Val := (List.range kn).map (fun k => unitVal ty u i (k0 + k))

/-- One element of a group sum (R135): an exact integer sum, or an exact sum rounded once. -/
def groupSum (i8 : Bool) (ts : List Val) : BitVec 32 :=
  if i8 then BitVec.ofInt 32 ((ts.map (scaledInt 0)).sum) else BitVec.ofNat 32 (exactThenRound fp32 0 0 ts)

/-- The exact product of factors. -/
def prodVal : List Val → Val
  | [] => .fin false 1 0
  | x :: r => r.foldl mulVal x

/-- The factors of each term of an element (R135, R162): `w` weighs the terms by index. -/
def termFactors (w : List Val) (a b : List Val) : List (List Val) :=
  let ps := (a.zip b).map (fun p => [p.1, p.2])
  if w.isEmpty then ps else (ps.zip w).map (fun p => p.1 ++ [p.2])

/-- A product as the residue unit sees it (R138): sign, significands, exponent; none where a special excludes it. -/
def finFactors : List Val → Option (Bool × List Nat × Int)
  | [] => some (false, [], 0)
  | .fin n m e :: r => (finFactors r).map (fun x => (n != x.1, m :: x.2.1, e + x.2.2))
  | _ :: _ => none

/-- The least exponent e₀ of the products (R138). -/
def leastExp (ps : List (Bool × List Nat × Int)) : Int :=
  ps.foldl (fun a p => if p.2.2 < a then p.2.2 else a) ((ps.head?.map (fun p => p.2.2)).getD 0)

/-- ρ of R138: each product's residue, rotated by s mod 8 (R137); negative products subtract. -/
def rhoOf (e0 : Int) (ps : List (Bool × List Nat × Int)) : Nat :=
  residue ((ps.map (fun p =>
    let r : Int := ((p.2.1.foldl (fun a m => a * (m % 255) % 255) 1 * 2 ^ ((p.2.2 - e0).toNat % 8) % 255 : Nat) : Int)
    if p.1 then -r else r)).sum)

/-- T of R138: the exact sum in units of 2^e₀. -/
def sumOf (e0 : Int) (ps : List (Bool × List Nat × Int)) : Int :=
  (ps.map (fun p =>
    let r : Int := ((p.2.1.prod * 2 ^ (p.2.2 - e0).toNat : Nat) : Int)
    if p.1 then -r else r)).sum

/-- CheckResidue of one element (R138). -/
def residueAgrees (ts : List (List Val)) : Bool :=
  let ps := ts.filterMap finFactors
  let e0 := leastExp ps
  rhoOf e0 ps == residue (sumOf e0 ps)

/-- Do the residues of every element of a partial tile agree (R135, R138)? A masked element has no products. -/
def groupAgrees (ta tb : BitVec 4) (ua ub : Unit_) (k0 kn : Nat) (rows cols : BitVec 32) (w : List Val) : Bool :=
  let as := (List.range 32).map (rowVals ta ua k0 kn)
  let bs := (List.range 32).map (rowVals tb ub k0 kn)
  ((List.range 32).zip as).all (fun a => ((List.range 32).zip bs).all (fun b =>
    residueAgrees (if rows.getLsbD a.1 && cols.getLsbD b.1 then termFactors w a.2 b.2 else [])))

/-- A partial tile from two units (R135, R136): `w` weighs the terms by index (R162). -/
def groupTile (ta tb : BitVec 4) (ua ub : Unit_) (k0 kn : Nat) (rows cols : BitVec 32) (w : List Val) : PtVal :=
  let as := (List.range 32).map (rowVals ta ua k0 kn)
  let bs := (List.range 32).map (rowVals tb ub k0 kn)
  { vals := ((List.range 32).zip as).flatMap (fun a =>
      ((List.range 32).zip bs).map (fun b =>
        if rows.getLsbD a.1 && cols.getLsbD b.1 then groupSum (ta == 7) ((termFactors w a.2 b.2).map prodVal) else 0))
    keep := BitVec.ofNat 1024 ((List.range 1024).foldl (fun a e =>
      if rows.getLsbD (e / 32) && cols.getLsbD (e % 32) then a + 2 ^ e else a) 0) }

/-- The groups of an `mma` (R135): place among its partial tiles, first index, number of indices. -/
def mmaGroups (ty : BitVec 4) : List (Nat × Nat × Nat) :=
  if ty = 10 ∨ ty = 11 then [(0, 0, 128), (1, 128, 128)] else [(0, 0, rowElems ty)]

/-- The partial tiles that an `mma` writes: index and contents (R135). -/
def mmaTiles (ty : BitVec 4) (x : Bool) (n : Nat) (ua ub : Unit_) (rows cols : BitVec 32) : List (Nat × PtVal) :=
  (mmaGroups ty).map (fun g => (n + g.1, groupTile ty (otherTy ty x) ua ub g.2.1 g.2.2 rows cols []))

/-- The first partial tile of an `mma` in which a residue differs (R138). -/
def mmaDiffers (ty : BitVec 4) (x : Bool) (n : Nat) (ua ub : Unit_) (rows cols : BitVec 32) : Option Nat :=
  ((mmaGroups ty).find? (fun g => !groupAgrees ty (otherTy ty x) ua ub g.2.1 g.2.2 rows cols [])).map (fun g => n + g.1)

/-! ### Issue into the queues -/

/-- A partial tile. -/
def Tile.ptOf (T : Tile) (n : Nat) : PTile := (T.pt[n]?).getD {}

/-- Change a partial tile. -/
def modPt (s : State) (t : TileId) (n : Nat) (f : PTile → PTile) : State :=
  s.modTile t (fun T => { T with pt := T.pt.setIfInBounds n (f (T.ptOf n)) })

/-- Put a command into the array queue, behind what it comes after (R191). -/
def pushArrAfter (s : State) (t : TileId) (n : StrandNo) (pc : BitVec 21) (b : Before) (op : ArrOp) : State :=
  s.modTile t (fun T =>
    { T with arrQ := T.arrQ ++ [{ op := op, seq := T.arrSeq + 1, strand := n, pc := pc, after := b }], arrSeq := T.arrSeq + 1 })

/-- A strand puts a command into the array queue. -/
def pushArr (s : State) (t : TileId) (n : StrandNo) (pc : BitVec 21) (op : ArrOp) : State :=
  pushArrAfter s t n pc (beforeOf (s.strand t n)) op

/-- Mark a partial tile PENDING for the command pushed last (Table 7.2). -/
def pend (s : State) (t : TileId) (n : Nat) (i32 : Bool) : State :=
  let q := (s.tile t).arrSeq
  modPt s t n (fun p => { p with st := .pending, i32 := i32, last := q })

/-- The array queue holds four commands (R133). -/
def arrFull (T : Tile) : Bool := decide (4 ≤ T.arrQ.length)

/-- Put a command into the adder queue. -/
def pushAdd (s : State) (t : TileId) (n : StrandNo) (op : AddOp) : State :=
  let pc := (s.strand t n).pc
  s.modTile t (fun T =>
    { T with addQ := T.addQ ++ [{ op := op, seq := T.addSeq + 1, strand := n, pc := pc }], addSeq := T.addSeq + 1 })

/-- The adder queue holds eight commands (R142). -/
def addFull (T : Tile) : Bool := decide (8 ≤ T.addQ.length)

/-- Is a command a `vla`? -/
def isVla (c : AddCmd) : Bool := match c.op with | .vla _ _ _ => true | _ => false

/-- The trap of a reader of a partial tile (Table 7.2). -/
def ptTrap (T : Tile) (n : BitVec 2) (i32 : Bool) : Option Act :=
  let p := T.ptOf n.toNat
  if p.st = .invalid then some (.trap .ptstate (n.setWidth 32))
  else if p.i32 != i32 then some (.trap .ptstate (n.setWidth 32 + 4))
  else none

/-- The offset in the own store that an address in local space names, if it names the own store (R97). -/
def ownName (t : TileId) (ea : Word) : Option Nat :=
  let a := ea.toNat
  if a < 2 ^ 21 then some a
  else if 2 ^ 24 ≤ a ∧ a < 2 ^ 25 ∧ a / 2 ^ 21 % 8 = posOf t then some (a % 2 ^ 21)
  else none

/-- Address check of an accumulator operand (R127, R141); `wr` when it is written. -/
def accPlace (s : State) (t : TileId) (ea : Word) (len : Nat) (wr : Bool) : Except Act Nat :=
  let T := s.tile t
  if ea.toNat % 64 ≠ 0 then .error (.trap .misalign 0)
  else
    match ownName t ea with
    | none => .error (.trap .prot 0)
    | some o =>
      if partOf T.v.partw o len ≠ some 3 then .error (.trap .prot 0)
      else if wr && claimed T.v o len then .error (.trap .prot 0)
      else .ok o

/-- Address check of a block of the own store in one data partition (R146, R147, R155, R160): `al` its alignment; a
write into the foreshore traps DETBAN in DET mode. -/
def blockPlace (s : State) (t : TileId) (ea : Word) (al len : Nat) (wr : Bool) : Except Act Nat :=
  let T := s.tile t
  if ea.toNat % al ≠ 0 then .error (.trap .misalign 0)
  else
    match ownName t ea with
    | none => .error (.trap .prot 0)
    | some o =>
      if !dataOk T.v.partw o len then .error (.trap .prot 0)
      else if wr && claimed T.v o len then .error (.trap .prot 0)
      else if wr && foreAt T.v.partw o && s.det t then .error (.trap .detban 0)
      else .ok o

/-- The waits of a command over ranges of the own store: own adder commands that overlap (R128, R143), and the release
after the arrival was sent (R204). -/
def rangeWait (s : State) (t : TileId) (n : StrandNo) (rs : List (Nat × Nat)) (wr : Bool) : Option Act :=
  let T := s.tile t
  let seqs := rs.flatMap (fun r => ownOverlap T n r.1 r.2)
  if seqs ≠ [] then some (.wait (.overlap seqs))
  else if wr && T.v.bstate == 2 then some (.wait .release)
  else none

/-- Offset of a tile operand (R141). -/
def tileEa (s : State) (t : TileId) (n : StrandNo) (c : GSrc) (off : BitVec 5) : Word :=
  gv s t n c + BitVec.ofNat 64 (65536 * off.toNat)

/-- VLA and VLA_P (R127). -/
def vlaBody (a : VSrc) (b : Option VSrc) (c : GSrc) (sub : BitVec 12) (s : State) (t : TileId) (n : StrandNo) : Act :=
  match accPlace s t (gv s t n c + BitVec.ofNat 64 (64 * sub.toNat)) 2048 true with
  | .error x => x
  | .ok o =>
    match rangeWait s t n [(o, 2048)] true with
    | some x => x
    | none =>
      let T := s.tile t
      if addFull T then .wait (.roomAdd false)
      else if 4 ≤ (T.addQ.filter isVla).length then .wait (.roomAdd true)
      else
        let r := takeV s t n a
        match b with
        | none => .done (pushAdd r.1 t n (.vla o r.2 none))
        | some b =>
          let q := takeV r.1 t n b
          .done (pushAdd q.1 t n (.vla o r.2 (some q.2)))

/-- VLA (R127). -/
def execVla (p : Pred) (a : VSrc) (c : GSrc) (sub : BitVec 12) (s : State) : Host.Outcome State Fault Refusal :=
  issue p 8 .tile [.v a, .g c] [] (vlaBody a none c sub) s

/-- VLA_P (R127). -/
def execVlaP (p : Pred) (a b : VSrc) (c : GSrc) (sub : BitVec 12) (s : State) : Host.Outcome State Fault Refusal :=
  issue p 8 .tile [.v a, .v b, .g c] [] (vlaBody a (some b) c sub) s

/-- A scale from the low word of a g register; g0 gives one (R129, R146). -/
def sigmaOf (s : State) (t : TileId) (n : StrandNo) (a : GSrc) : Option (BitVec 32) :=
  if a.r = 0 then none else some ((gv s t n a).setWidth 32)

/-- The value of a scale. -/
def sigmaVal (x : Option (BitVec 32)) : Val := match x with | some b => decodeFp fp32 b.toNat | none => .fin false 1 0

/-- VLARD (R129). DESIGN CHOICE (log entry 92): all 2,048 bytes are bound in the cycle of issue, though they are read in four. -/
def execVlard (p : Pred) (rm : BitVec 3) (d : VReg) (a c : GSrc) (sub : BitVec 12) (s : State) :
    Host.Outcome State Fault Refusal :=
  issue p 8 .tile [.g a, .g c] [vdst d]
    (fun s t n =>
      if rm = 4 then .trap .illegal 0
      else
        match accPlace s t (gv s t n c + BitVec.ofNat 64 (64 * sub.toNat)) 2048 false with
        | .error x => x
        | .ok o =>
          match rangeWait s t n [(o, 2048)] false with
          | some x => x
          | none =>
            match localRead s t n.val o 2048 with
            | .error e => wErrAct e
            | .ok r =>
              let sg := sigmaVal (sigmaOf s t n a)
              let el (i : Nat) : Nat := readLa (BitVec.ofNat 512 (natOf ((r.2.drop (64 * i)).take 64))) sg rm
              .done (laterV r.1 t n d (joinLanes 32 ((List.range 32).map el)) 6)) s

/-! ### Array commands (R132, R135, R136, R147) -/

/-- An FP8 operation names partial tile 0 or 2 (R135). -/
def badPair (ty : BitVec 4) (n : BitVec 2) : Bool := (ty == 10 || ty == 11) && n.getLsbD 0

/-- Push an `mma` and mark its partial tiles (R133, R134). -/
def pushMma (s : State) (t : TileId) (n : StrandNo) (pc : BitVec 21) (b : Before) (ty : BitVec 4) (x : Bool)
    (k : BitVec 2) (rows cols : BitVec 32) : State :=
  let s := pend (pushArrAfter s t n pc b (.mma ty x k rows cols)) t k.toNat (ty == 7)
  if ty = 10 ∨ ty = 11 then pend s t (k.toNat + 1) false else s

/-- The body of `mma` and `mmam`. -/
def mmaBody (ty : BitVec 4) (x : Bool) (k : BitVec 2) (rows cols : BitVec 32) (s : State) (t : TileId) (n : StrandNo) :
    Act :=
  if badPair ty k then .trap .illegal 0
  else if arrFull (s.tile t) then .wait .roomArr
  else .done (pushMma s t n (s.strand t n).pc (beforeOf (s.strand t n)) ty x k rows cols)

/-- MMA (R135). -/
def execMma (p : Pred) (ty : BitVec 4) (x : Bool) (n : BitVec 2) (s : State) : Host.Outcome State Fault Refusal :=
  issue p 8 .tile [] [] (mmaBody ty x n (BitVec.allOnes 32) (BitVec.allOnes 32)) s

/-- MMAM (R136): the masks are read at issue. -/
def execMmam (p : Pred) (ty : BitVec 4) (x : Bool) (n : BitVec 2) (m : MaskSrc) (s : State) :
    Host.Outcome State Fault Refusal :=
  match m with
  | .imm w => issue p 16 .tile [] [] (mmaBody ty x n (w.extractLsb' 0 32) (w.extractLsb' 32 32)) s
  | .reg c =>
    issue p 16 .tile [.g c] []
      (fun s t k =>
        mmaBody ty x n ((gv s t k c).extractLsb' 0 32) ((gv s t k c).extractLsb' 32 32) s t k) s

/-- The body of `mrep` (R132): without extra uses nothing observable changes. -/
def mrepBody (fb : Bool) (n : BitVec 8) (w : BitVec 2) (s : State) (t : TileId) (k : StrandNo) : Act :=
  if w = 0 ∨ w = 3 then .trap .illegal 0
  else if arrFull (s.tile t) then .wait .roomArr
  else .done (pushArr s t k (s.strand t k).pc (.mrep fb n.toNat w.toNat))

/-- MREP_A (R132). -/
def execMrepA (p : Pred) (n : BitVec 8) (w : BitVec 2) (s : State) : Host.Outcome State Fault Refusal :=
  issue p 8 .tile [] [] (mrepBody false n w) s

/-- MREP_B (R132). -/
def execMrepB (p : Pred) (n : BitVec 8) (w : BitVec 2) (s : State) : Host.Outcome State Fault Refusal :=
  issue p 8 .tile [] [] (mrepBody true n w) s

/-- PTMOV_ST (R147). -/
def execPtmovSt (p : Pred) (ty : BitVec 4) (n : BitVec 2) (c : GSrc) (s : State) : Host.Outcome State Fault Refusal :=
  issue p 8 .tile [.g c] []
    (fun s t k =>
      match blockPlace s t (gv s t k c) 128 4096 true with
      | .error x => x
      | .ok o =>
        let T := s.tile t
        match ptTrap T n (ty == 5) with
        | some x => x
        | none =>
          match rangeWait s t k [(o, 4096)] (versionedAt T.v.partw o) with
          | some x => x
          | none =>
            if arrFull T then .wait .roomArr
            else .done (pushArr s t k (s.strand t k).pc (.ptst ty n o (T.ptOf n.toNat).last))) s

/-- PTMOV_LD (R147). -/
def execPtmovLd (p : Pred) (ty : BitVec 4) (n : BitVec 2) (c : GSrc) (s : State) : Host.Outcome State Fault Refusal :=
  issue p 8 .tile [.g c] []
    (fun s t k =>
      match blockPlace s t (gv s t k c) 128 4096 false with
      | .error x => x
      | .ok o =>
        match rangeWait s t k [(o, 4096)] false with
        | some x => x
        | none =>
          if arrFull (s.tile t) then .wait .roomArr
          else .done (pend (pushArr s t k (s.strand t k).pc (.ptld ty n o)) t n.toNat (ty == 5))) s

/-- A row of a partial tile; masked elements give +0 (R147). -/
def ptRow (v : PtVal) (r : Nat) : List (BitVec 32) :=
  (List.range 32).map (fun j => if v.keep.getLsbD (32 * r + j) then v.vals.getD (32 * r + j) 0 else 0)

/-- PTMOV_GET (R147): D fills 4 cycles after the partial tile is ready. -/
def execPtmovGet (p : Pred) (ty : BitVec 4) (n : BitVec 2) (r : BitVec 5) (d : BitVec 4) (s : State) :
    Host.Outcome State Fault Refusal :=
  issue p 8 .tile [] [.w d]
    (fun s t k =>
      let T := s.tile t
      match ptTrap T n (ty == 5) with
      | some x => x
      | none =>
        let q := T.ptOf n.toNat
        if q.wrote = q.last then
          .done (laterD s t k (.w d) (joinLanes 32 ((ptRow q.val r.toNat).map (fun x => x.toNat))) 4)
        else
          .done ((s.modStrand t k (fun S => S.markEmpty (.w d))).modTile t (fun T =>
            { T with gets := T.gets ++
                [{ strand := k, gen := (s.strand t k).gen, d := d, n := n, r := r.toNat, need := q.last }] }))) s

/-! ### Residue status (R138 to R140) -/

/-- ARST (Table 7.3). -/
def arstOf (T : Tile) : Word :=
  (T.rcount ++ BitVec.ofBool T.rpend ++ BitVec.ofBool T.rleft ++ BitVec.ofBool T.inja ++ BitVec.ofBool T.injd ++
    T.runit ++ T.rpti ++ T.rssl : BitVec 64)

/-- RCHK_RD (R140). -/
def execRchkRd (p : Pred) (d : BitVec 5) (s : State) : Host.Outcome State Fault Refusal :=
  issue p 8 .tile [] [.g d] (fun s t n => .done (setG s t n d (arstOf (s.tile t)))) s

/-- RCHK_CLR (R140). -/
def execRchkClr (p : Pred) (d : BitVec 5) (s : State) : Host.Outcome State Fault Refusal :=
  issue p 8 .tile [] [.g d]
    (fun s t n =>
      .done ((setG s t n d (arstOf (s.tile t))).modTile t (fun T => { T with rcount := 0, rleft := false }))) s

/-- RCHK_INJ (R140). -/
def execRchkInj (p : Pred) (u : BitVec 2) (s : State) : Host.Outcome State Fault Refusal :=
  issue p 8 .tile [] []
    (fun s t _ =>
      if u = 0 then .done (s.modTile t (fun T => { T with inja := true }))
      else if u = 1 then .done (s.modTile t (fun T => { T with injd := true }))
      else .trap .illegal 0) s

/-! ### Adder commands (R144 to R148) -/

/-- Issue of a command over an accumulator tile at `ea` that adds into it or clears it. -/
def tileCmd (s : State) (t : TileId) (_n : StrandNo) (ea : Word) (pre : Option Act) (k : State → Nat → State) : Act :=
  match accPlace s t ea 65536 true with
  | .error x => x
  | .ok o =>
    match pre with
    | some x => x
    | none =>
      if (s.tile t).v.bstate == 2 then .wait .release
      else if addFull (s.tile t) then .wait (.roomAdd false)
      else .done (k s o)

/-- The source of the row scales. -/
def scaleSrcs (a : Scale) : List Src := match a with | .one => [] | .reg v => [.v v]

/-- SAA (R144): the scales are read at issue. -/
def execSaa (p : Pred) (ty : BitVec 4) (k : BitVec 2) (off : BitVec 5) (a : Scale) (b c : GSrc) (s : State) :
    Host.Outcome State Fault Refusal :=
  issue p 8 .tile (scaleSrcs a ++ [.g b, .g c]) []
    (fun s t n =>
      tileCmd s t n (tileEa s t n c off) (ptTrap (s.tile t) k (ty == 5)) (fun s o =>
        let need := ((s.tile t).ptOf k.toNat).last
        let tau := sigmaOf s t n b
        match a with
        | .one => pushAdd s t n (.saa k (ty == 5) o none tau need)
        | .reg v => let r := takeV s t n v; pushAdd r.1 t n (.saa k (ty == 5) o (some r.2) tau need))) s

/-- ACC (R144). -/
def execAcc (p : Pred) (ty : BitVec 4) (k : BitVec 2) (off : BitVec 5) (b c : GSrc) (s : State) :
    Host.Outcome State Fault Refusal :=
  issue p 8 .tile [.g b, .g c] []
    (fun s t n =>
      tileCmd s t n (tileEa s t n c off) (ptTrap (s.tile t) k (ty == 5)) (fun s o =>
        pushAdd s t n (.acc k (ty == 5) o (readInt true 8 (gv s t n b).toNat) ((s.tile t).ptOf k.toNat).last))) s

/-- LAZERO (R145). -/
def execLazero (p : Pred) (off : BitVec 5) (c : GSrc) (s : State) : Host.Outcome State Fault Refusal :=
  issue p 8 .tile [.g c] []
    (fun s t n => tileCmd s t n (tileEa s t n c off) none (fun s o => pushAdd s t n (.lazero o))) s

/-- LARD (R146). -/
def execLard (p : Pred) (z : Bool) (rm : BitVec 3) (off : BitVec 5) (a b c : GSrc) (s : State) :
    Host.Outcome State Fault Refusal :=
  issue p 8 .tile [.g a, .g b, .g c] []
    (fun s t n =>
      if rm = 4 then .trap .illegal 0
      else
        match blockPlace s t (gv s t n a) 128 4096 true, accPlace s t (tileEa s t n c off) 65536 z with
        | .error x, _ => x
        | _, .error x => x
        | .ok d, .ok o =>
          let T := s.tile t
          if meets d 4096 o 65536 then .trap .prot 1
          else
            match rangeWait s t n [(d, 4096), (o, 65536)] (z || versionedAt T.v.partw d) with
            | some x => x
            | none =>
              if addFull T then .wait (.roomAdd false)
              else .done (pushAdd s t n (.lard d o (sigmaOf s t n b) rm z))) s

/-- DRAIN (R148). The strand goes on at once: the drain engine waits for the adder commands that overlap (R143). -/
def execDrain (p : Pred) (z : Bool) (ct : BitVec 4) (a b : GSrc) (imm : BitVec 36) (s : State) :
    Host.Outcome State Fault Refusal :=
  issue p 12 .tile [.g a, .g b] []
    (fun s t n =>
      match accPlace s t (gv s t n a) 65536 z with
      | .error x => x
      | .ok o =>
        let dst := eaOf s t n b imm
        if dst.toNat % 64 ≠ 0 then .trap .misalign 0
        else if eaBad dst then .trap .prot 0
        else
          match rangeWait s t n [] true with
          | some x => x
          | none =>
            let pc := (s.strand t n).pc
            .done (s.modTile t (fun T =>
              { T with addSeq := T.addSeq + 1
                       drains := T.drains ++
                         [{ ea := o, dst := dst, ct := ct, z := z, seq := T.addSeq + 1, strand := n, pc := pc }] }))) s

/-! ### Waits (R150) -/

/-- Array commands under way: queued, or running. -/
def arrSeqs (T : Tile) : List Nat := T.arrQ.map (fun c => c.seq) ++ T.arrFly.map (fun f => f.cmd.seq)

/-- Adder commands and drain source reads under way. -/
def addSeqs (T : Tile) : List Nat :=
  T.addQ.map (fun c => c.seq) ++ (T.drains.filter (fun d => decide (d.elem < 1024))).map (fun d => d.seq)

/-- The body of `mwait`. -/
def mwaitBody (arr add : Bool) (s : State) (t : TileId) (_n : StrandNo) : Act :=
  let T := s.tile t
  let x := if arr then arrSeqs T else []
  let y := if add then addSeqs T else []
  if x = [] ∧ y = [] then .done s else .block (.mwait x y) s

/-- MWAIT_ARR (R150). -/
def execMwaitArr (p : Pred) (s : State) : Host.Outcome State Fault Refusal := issue p 8 .tile [] [] (mwaitBody true false) s

/-- MWAIT_ADD (R150). -/
def execMwaitAdd (p : Pred) (s : State) : Host.Outcome State Fault Refusal := issue p 8 .tile [] [] (mwaitBody false true) s

/-- MWAIT_ALL (R150). -/
def execMwaitAll (p : Pred) (s : State) : Host.Outcome State Fault Refusal := issue p 8 .tile [] [] (mwaitBody true true) s

end Sys2Proof.Machine
end

