-- ==== Sys2Proof/Machine/Vector.lean ====
section
/-! DEFINITION. The forms of the vector unit 0x40 to 0x57 (06_vector R116 to R126). -/

namespace Sys2Proof.Machine

open Sys2Proof

/-- A form with one vector source (R118): the result after `lat` cycles; `ok` is the form's own ILLEGAL check. -/
def vec1 (lat : Nat) (ok : Bool) (f : VWord → VWord) (p : Pred) (d : VReg) (a : VSrc) (s : State) :
    Host.Outcome State Fault Refusal :=
  issue p 8 .tile [.v a] [vdst d]
    (fun s t n =>
      if ok then
        let r := takeV s t n a
        .done (laterV r.1 t n d (f r.2) lat)
      else .trap .illegal 0) s

/-- A form with two vector sources. -/
def vec2 (lat : Nat) (ok : Bool) (f : VWord → VWord → VWord) (p : Pred) (d : VReg) (a b : VSrc) (s : State) :
    Host.Outcome State Fault Refusal :=
  issue p 8 .tile [.v a, .v b] [vdst d]
    (fun s t n =>
      if ok then
        let r := takeV s t n a
        let q := takeV r.1 t n b
        .done (laterV q.1 t n d (f r.2 q.2) lat)
      else .trap .illegal 0) s

/-- A form with three vector sources. -/
def vec3 (lat : Nat) (ok : Bool) (f : VWord → VWord → VWord → VWord) (p : Pred) (d : VReg) (a b c : VSrc) (s : State) :
    Host.Outcome State Fault Refusal :=
  issue p 8 .tile [.v a, .v b, .v c] [vdst d]
    (fun s t n =>
      if ok then
        let r := takeV s t n a
        let q := takeV r.1 t n b
        let u := takeV q.1 t n c
        .done (laterV u.1 t n d (f r.2 q.2 u.2) lat)
      else .trap .illegal 0) s

/-- A vector source with a g destination (R122, R123). -/
def vecG (lat : Nat) (ok : Bool) (f : VWord → Word) (p : Pred) (d : BitVec 5) (a : VSrc) (s : State) :
    Host.Outcome State Fault Refusal :=
  issue p 8 .tile [.v a] [.g d]
    (fun s t n =>
      if ok then
        let r := takeV s t n a
        .done (laterG r.1 t n d (f r.2) lat)
      else .trap .illegal 0) s

/-- `vadd`, `vsub`, `vmul` (R119, R120): `.sto` on another type than `.f32` is the form's own ILLEGAL. -/
def arith (k lat : Nat) (p : Pred) (sat : Bool) (o : VOps) (rm : BitVec 3) (c : Option WSrc) (s : State) :
    Host.Outcome State Fault Refusal :=
  issue p 8 .tile ([.v o.a, .v o.b] ++ optW c) [vdst o.d]
    (fun s t n =>
      if rm = 4 ∧ o.ty ≠ 8 then .trap .illegal 0
      else
        let us := optWords s t n c
        let r := takeV s t n o.a
        let q := takeV r.1 t n o.b
        let w := laneBits o.ty
        .done (laterV q.1 t n o.d
          (joinLanes w (zip3 (laneArith k o.ty sat rm) (lanes w r.2) (lanes w q.2) us)) lat)) s

/-- VADD (R119). -/
def execVadd (p : Pred) (sat : Bool) (o : VOps) (rm : BitVec 3) (c : Option WSrc) (s : State) :
    Host.Outcome State Fault Refusal := arith 0 2 p sat o rm c s

/-- VSUB (R119). -/
def execVsub (p : Pred) (sat : Bool) (o : VOps) (rm : BitVec 3) (c : Option WSrc) (s : State) :
    Host.Outcome State Fault Refusal := arith 1 2 p sat o rm c s

/-- VMUL (R119). -/
def execVmul (p : Pred) (sat : Bool) (o : VOps) (rm : BitVec 3) (c : Option WSrc) (s : State) :
    Host.Outcome State Fault Refusal := arith 2 4 p sat o rm c s

/-- VFMA (R119). -/
def execVfma (p : Pred) (k : BitVec 4) (rm : BitVec 3) (o : VOps) (c : VSrc) (s : State) :
    Host.Outcome State Fault Refusal :=
  let w := laneBits o.ty
  vec3 4 (rm != 4) (fun x y z =>
    joinLanes w (List.zipWith (fun ab c => laneFma k o.ty rm ab.1 ab.2 c) (List.zip (lanes w x) (lanes w y)) (lanes w z)))
    p o.d o.a o.b c s

/-- Two lanes at a time. -/
def lift2 (w : Nat) (f : Nat → Nat → Nat) (x y : VWord) : VWord :=
  joinLanes w (List.zipWith f (lanes w x) (lanes w y))

/-- VMIN (R119). -/
def execVmin (p : Pred) (o : VOps) (s : State) : Host.Outcome State Fault Refusal :=
  vec2 2 true (lift2 (laneBits o.ty) (laneMin false o.ty)) p o.d o.a o.b s

/-- VMAX (R119). -/
def execVmax (p : Pred) (o : VOps) (s : State) : Host.Outcome State Fault Refusal :=
  vec2 2 true (lift2 (laneBits o.ty) (laneMin true o.ty)) p o.d o.a o.b s

/-- VDIV (R40, R119). -/
def execVdiv (p : Pred) (rm : BitVec 3) (o : VOps) (s : State) : Host.Outcome State Fault Refusal :=
  vec2 16 (rm != 4) (lift2 32 (fun x y => divFp fp32 rm 0 (decodeFp fp32 x) (decodeFp fp32 y))) p o.d o.a o.b s

/-- One FP32 lane at a time. -/
def lift1 (f : Nat → Nat) (x : VWord) : VWord := joinLanes 32 ((lanes 32 x).map f)

/-- VSQRT (R40, R119). -/
def execVsqrt (p : Pred) (rm : BitVec 3) (d : VReg) (a : VSrc) (s : State) : Host.Outcome State Fault Refusal :=
  vec1 16 (rm != 4) (lift1 (fun x => sqrtFp fp32 rm (decodeFp fp32 x))) p d a s

/-- VRSQ (R40, R119). -/
def execVrsq (p : Pred) (rm : BitVec 3) (d : VReg) (a : VSrc) (s : State) : Host.Outcome State Fault Refusal :=
  vec1 16 (rm != 4) (lift1 (fun x => rsqFp fp32 rm (decodeFp fp32 x))) p d a s

/-- VEXP2 (R40, R119). -/
def execVexp2 (p : Pred) (rm : BitVec 3) (d : VReg) (a : VSrc) (s : State) : Host.Outcome State Fault Refusal :=
  vec1 16 (rm != 4) (lift1 (exp2Fp rm)) p d a s

/-- VLOG2 (R40, R119). -/
def execVlog2 (p : Pred) (rm : BitVec 3) (d : VReg) (a : VSrc) (s : State) : Host.Outcome State Fault Refusal :=
  vec1 16 (rm != 4) (lift1 (log2Fp rm)) p d a s

/-- VCMP (R121): `un` on an integer type is the form's own ILLEGAL. -/
def execVcmp (p : Pred) (k : BitVec 4) (o : VOps) (s : State) : Host.Outcome State Fault Refusal :=
  vec2 2 (!(k == 6 && isIntTy o.ty)) (lift2 (laneBits o.ty) (laneCmp k o.ty)) p o.d o.a o.b s

/-- VSEL (R121). A lane of C is non-zero where any of its bits is: -0 of a floating-point type selects `a` (log entry 79). -/
def execVsel (p : Pred) (o : VOps) (c : VSrc) (s : State) : Host.Outcome State Fault Refusal :=
  let w := laneBits o.ty
  vec3 2 true (fun x y z =>
    joinLanes w (List.zipWith (fun ab c => if c ≠ 0 then ab.1 else ab.2) (List.zip (lanes w x) (lanes w y)) (lanes w z)))
    p o.d o.a o.b c s

/-- A vector source that may be absent. -/
def optV (b : Option VSrc) : List Src := match b with | some x => [.v x] | none => []

/-- Take it. -/
def takeOptV (s : State) (t : TileId) (n : StrandNo) (b : Option VSrc) : State × VWord :=
  match b with
  | some x => takeV s t n x
  | none => (s, 0)

/-- The contents of a w destination whose lanes are kept (R118). -/
def oldV (s : State) (t : TileId) (n : StrandNo) (d : VReg) : VWord :=
  match d with
  | .w r => (s.strand t n).rw r
  | .q _ => 0

/-- VCVT (R124). -/
def execVcvt (p : Pred) (ty tgt : BitVec 4) (k rm : BitVec 3) (d : VReg) (a : VSrc) (b : Option VSrc) (c : Option WSrc)
    (s : State) : Host.Outcome State Fault Refusal :=
  issue p 8 .tile ([.v a] ++ optV b ++ optW c) [vdst d]
    (fun s t n =>
      if !(cvtPair ty tgt && cvtPart ty tgt k) || (rm == 4 && ty != 8) then .trap .illegal 0
      else
        let us := optWords s t n c
        let old := oldV s t n d
        let r := takeV s t n a
        let q := takeOptV r.1 t n b
        .done (laterV q.1 t n d (cvtV ty tgt k.toNat rm us old r.2 q.2) 4)) s

/-- VCVT_XS (R124): the scale byte of QuantMX alone. -/
def execVcvtXs (p : Pred) (ty tgt : BitVec 4) (k rm : BitVec 3) (d : VReg) (a : VSrc) (c : Option WSrc) (s : State) :
    Host.Outcome State Fault Refusal :=
  issue p 8 .tile ([.v a] ++ optW c) [vdst d]
    (fun s t n =>
      if !(ty == 8 && tgt == 12) then .trap .illegal 0
      else
        let us := optWords s t n c
        let old := oldV s t n d
        let r := takeV s t n a
        .done (laterV r.1 t n d (putLanes 8 old k.toNat [(quantMx rm us (lanes 32 r.2)).1.toNat]) 4)) s

/-- Is A a group of four registers of `vqnt` (R125)? -/
def qntOk (a : BitVec 4) : Bool := a.toNat % 4 == 0

/-- The sources of `vqnt`: the four registers, EA governing all. -/
def qntSrcs (a : WSrc) : List Src :=
  if qntOk a.r then (List.range 4).map (fun i => .w ⟨a.r + BitVec.ofNat 4 i, a.e⟩) else [.w a]

/-- The 128 lanes of `vqnt`. -/
def qntRead (s : State) (t : TileId) (n : StrandNo) (a : WSrc) : List Nat :=
  qntLanes ((List.range 4).map (fun i => (s.strand t n).rw (a.r + BitVec.ofNat 4 i)))

/-- VQNT (R125). -/
def execVqnt (p : Pred) (d : VReg) (a : WSrc) (s : State) : Host.Outcome State Fault Refusal :=
  issue p 8 .tile (qntSrcs a) [vdst d]
    (fun s t n =>
      if qntOk a.r then .done (laterV s t n d (joinLanes 8 (quantE4m3 (qntRead s t n a)).2) 8)
      else .trap .illegal 0) s

/-- VQNT_S (R125). -/
def execVqntS (p : Pred) (d : BitVec 5) (a : WSrc) (s : State) : Host.Outcome State Fault Refusal :=
  issue p 8 .tile (qntSrcs a) [.g d]
    (fun s t n =>
      if qntOk a.r then .done (laterG s t n d (BitVec.ofNat 64 (quantE4m3 (qntRead s t n a)).1) 8)
      else .trap .illegal 0) s

/-- VDQ (R125). -/
def execVdq (p : Pred) (d : VReg) (a : VSrc) (b : GSrc) (k : BitVec 2) (s : State) :
    Host.Outcome State Fault Refusal :=
  issue p 8 .tile [.v a, .g b] [vdst d]
    (fun s t n =>
      let sc := (gv s t n b).toNat % 2 ^ 32
      let r := takeV s t n a
      .done (laterV r.1 t n d
        (joinLanes 32 ((List.range 32).map (fun i => dequant sc (lane 8 r.2 (32 * k.toNat + i))))) 4)) s

/-- VRED_SUM (R123). -/
def execVredSum (p : Pred) (ty : BitVec 4) (rm : BitVec 3) (d : BitVec 5) (a : VSrc) (s : State) :
    Host.Outcome State Fault Refusal := vecG 8 (rm != 4) (redV 0 ty rm) p d a s

/-- VRED_MIN (R123). -/
def execVredMin (p : Pred) (ty : BitVec 4) (d : BitVec 5) (a : VSrc) (s : State) :
    Host.Outcome State Fault Refusal := vecG 8 true (redV 1 ty 0) p d a s

/-- VRED_MAX (R123). -/
def execVredMax (p : Pred) (ty : BitVec 4) (d : BitVec 5) (a : VSrc) (s : State) :
    Host.Outcome State Fault Refusal := vecG 8 true (redV 2 ty 0) p d a s

/-- VRED_AMAX (R123). -/
def execVredAmax (p : Pred) (ty : BitVec 4) (d : BitVec 5) (a : VSrc) (s : State) :
    Host.Outcome State Fault Refusal := vecG 8 true (redV 3 ty 0) p d a s

/-- VPERM (R122). -/
def execVperm (p : Pred) (o : VOps) (s : State) : Host.Outcome State Fault Refusal :=
  let w := laneBits o.ty
  vec2 2 true (fun x y => joinLanes w ((lanes w y).map (fun i => lane w x (i % lanesOf o.ty)))) p o.d o.a o.b s

/-- VSHUF (R122). -/
def execVshuf (p : Pred) (pat ty : BitVec 4) (d : VReg) (a : VSrc) (b : Option VSrc) (sh : BitVec 7) (s : State) :
    Host.Outcome State Fault Refusal :=
  issue p 8 .tile ([.v a] ++ optV b) [vdst d]
    (fun s t n =>
      if pat = 5 ∧ lanesOf ty ≤ sh.toNat then .trap .illegal 0
      else
        let r := takeV s t n a
        let q := takeOptV r.1 t n b
        .done (laterV q.1 t n d (shufV pat (laneBits ty) r.2 q.2 sh.toNat) 2)) s

/-- VBCAST (R122). -/
def execVbcast (p : Pred) (ty : BitVec 4) (d : VReg) (a : GSrc) (s : State) : Host.Outcome State Fault Refusal :=
  issue p 8 .tile [.g a] [vdst d]
    (fun s t n =>
      .done (laterV s t n d (joinLanes (laneBits ty) (List.replicate (lanesOf ty) (gv s t n a).toNat)) 2)) s

/-- VBCAST_LANE (R122). -/
def execVbcastLane (p : Pred) (ty : BitVec 4) (d : VReg) (a : VSrc) (k : BitVec 7) (s : State) :
    Host.Outcome State Fault Refusal :=
  let w := laneBits ty
  vec1 2 (decide (k.toNat < lanesOf ty)) (fun x => joinLanes w (List.replicate (lanesOf ty) (lane w x k.toNat))) p d a s

/-- VLOGIC (R121). -/
def execVlogic (p : Pred) (tt : BitVec 4) (d : VReg) (a b : VSrc) (s : State) : Host.Outcome State Fault Refusal :=
  vec2 2 true (logicV tt) p d a b s

/-- VSHIFT (R121). -/
def execVshift (p : Pred) (k : BitVec 2) (ty : BitVec 4) (d : VReg) (a : VSrc) (b : ShiftB) (s : State) :
    Host.Outcome State Fault Refusal :=
  let w := laneBits ty
  match b with
  | .reg x => vec2 2 true (lift2 w (laneShift k w)) p d a x s
  | .imm i => vec1 2 true (fun x => joinLanes w ((lanes w x).map (fun y => laneShift k w y i.toNat))) p d a s

/-- VMOVG_GET (R122). -/
def execVmovgGet (p : Pred) (ty : BitVec 4) (d : BitVec 5) (a : VSrc) (k : BitVec 7) (s : State) :
    Host.Outcome State Fault Refusal :=
  let w := laneBits ty
  vecG 2 (decide (k.toNat < lanesOf ty))
    (fun x => BitVec.ofInt 64 (readInt (isIntTy ty && isSigned ty) w (lane w x k.toNat))) p d a s

/-- VMOVG_PUT (R122): the other lanes are kept. -/
def execVmovgPut (p : Pred) (ty : BitVec 4) (d : BitVec 4) (a : GSrc) (k : BitVec 7) (s : State) :
    Host.Outcome State Fault Refusal :=
  issue p 8 .tile [.g a] [.w d]
    (fun s t n =>
      if k.toNat < lanesOf ty then
        .done (laterV s t n (.w d)
          (putLanes (laneBits ty) ((s.strand t n).rw d) k.toNat [(gv s t n a).toNat]) 2)
      else .trap .illegal 0) s

/-- Is B a counter pair (R126)? -/
def pairOk (b : BitVec 5) : Bool := decide (b.toNat % 2 = 0 ∧ 2 ≤ b.toNat ∧ b.toNat ≤ 30)

/-- The 128-bit counter in g[B+1]:g[B]. -/
def pairRead (S : Strand) (b : BitVec 5) : BitVec 128 := S.rg (b + 1) ++ S.rg b

/-- Write the counter back. -/
def pairWrite (S : Strand) (b : BitVec 5) (c : BitVec 128) : Strand :=
  (S.wg b (c.extractLsb' 0 64)).wg (b + 1) (c.extractLsb' 64 64)

/-- The sources of a counter pair: EB governs both registers, and R64's empty check is made of both, which R126 does not say
(log entry 81). -/
def pairSrcs (b : GSrc) : List Src := if pairOk b.r then [.g b, .g ⟨b.r + 1, b.e⟩] else [.g b]

/-- VRNG (R126). -/
def execVrng (p : Pred) (nx : Bool) (d : VReg) (a b : GSrc) (s : State) : Host.Outcome State Fault Refusal :=
  issue p 8 .tile ([.g a] ++ pairSrcs b) [vdst d]
    (fun s t n =>
      if !pairOk b.r then .trap .illegal 0
      else
        let c := pairRead (s.strand t n) b.r
        let s' := if nx then s else s.modStrand t n (fun S => pairWrite S b.r (c + 8))
        .done (laterV s' t n d (rngV (gv s t n a) c) 4)) s

end Sys2Proof.Machine
end

