-- ==== Sys2Proof/Machine/Sampler.lean ====
section
/-! DEFINITION. The sampler (08_sampler): norms (R154, R155), alias tables (R156 to R160), draws (R161 to R163), variance
and the stop rule (R164, R165), the forms 0x70 to 0x76. -/

namespace Sys2Proof.Machine

open Sys2Proof

/-! ### FP32 arithmetic of the sampler -/

/-- Value of FP32 bits. -/
def f32 (b : BitVec 32) : Val := decodeFp fp32 b.toNat

/-- A sum rounded once to FP32 in RNE. -/
def sum32 (ts : List Val) : BitVec 32 := BitVec.ofNat 32 (exactThenRound fp32 0 0 ts)

/-- A quotient rounded to FP32 in RNE. -/
def div32 (a b : Val) : BitVec 32 := BitVec.ofNat 32 (divFp fp32 0 0 a b)

/-- The canonical NaN. -/
def nan32 : BitVec 32 := 0x7FC00000

/-! ### Norms (R153 to R155) -/

/-- An entry of a norm file. -/
def normGet (m : List (Nat × BitVec 32)) (i : Nat) : BitVec 32 := assocGet 0 i m

/-- Set an entry; +0 is not listed. -/
def normSet (m : List (Nat × BitVec 32)) (i : Nat) (v : BitVec 32) : List (Nat × BitVec 32) :=
  if v = 0 then m.filter (fun e => decide (e.1 ≠ i)) else assocSet i v m

/-- Is a tapped fill in flight (R155)? -/
def tapFlight (T : Tile) : Bool := (fillFlight T.fa && T.fa.bind.tap) || (fillFlight T.fb && T.fb.bind.tap)

/-- Change the sampler. -/
def modSamp (s : State) (t : TileId) (f : Sampler → Sampler) : State := s.modTile t (fun T => { T with samp := f T.samp })

/-- Norm of slab k of a unit (R154). -/
def slabNorm (u : Unit_) (k : Nat) : BitVec 32 :=
  sum32 ((List.range 32).flatMap (fun i => (List.range 32).map (fun j =>
    let v := unitVal u.ty u i (32 * k + j)
    mulVal v v)))

/-- Does an error stand in the entries `a` to `a + n - 1` of a norm file? -/
def normErr (fb : Bool) (a n : Nat) (e : SoftErr) : Bool :=
  match e.place with
  | .norm f i => f == fb && decide (a ≤ i ∧ i < a + n)
  | _ => false

/-- Does an error stand in the sampler's storage, which a release rewrites (R153, R354)? -/
def sampErr (e : SoftErr) : Bool := match e.place with | .norm _ _ => true | .welford _ => true | _ => false

/-- Does an error stand in the Welford state? -/
def welfordErr (e : SoftErr) : Bool := match e.place with | .welford _ => true | _ => false

/-- A read of the sampler's storage finds its errors (R170, R354; log entry 74): an uncorrectable one is context-fatal (R266),
and its reader receives no value. -/
def sampRead (s : State) (t : TileId) (here : SoftErr → Bool) : State × Bool :=
  let hit := (s.tile t).errs.filter here
  if hit.isEmpty then (s, true)
  else
    let s := s.modTile t (fun T => { T with errs := T.errs.filter (fun e => !(here e && !e.due)) })
    let s := if hit.any (fun e => !e.due) then correctable s t else s
    if hit.all (fun e => !e.due) then (s, true) else (contextFatal s (s.tile t).ctx .sramstd, false)

/-- A write renews the sampler's storage. -/
def sampRenew (s : State) (t : TileId) (here : SoftErr → Bool) : State :=
  if (s.tile t).errs.isEmpty then s else s.modTile t (fun T => { T with errs := T.errs.filter (fun e => !here e) })

/-- The tap of a complete unit (R154). -/
def tapUnit (s : State) (t : TileId) (fb : Bool) (u : Unit_) : State :=
  let m := (s.tile t).samp
  let cur := if fb then m.curb.toNat else m.cura.toNat
  if !(u.ty == 10 || u.ty == 11) || decide (4096 < cur + 8) then modSamp s t (fun m => { m with tapx := true })
  else
    let r := sampRead s t (normErr fb cur 8)
    if !r.2 then r.1
    else
      let add (f : List (Nat × BitVec 32)) : List (Nat × BitVec 32) :=
        (List.range 8).foldl (fun f k =>
          normSet f (cur + k) (sum32 [f32 (normGet f (cur + k)), f32 (slabNorm u k)])) f
      modSamp r.1 t (fun m =>
        if fb then { m with nb := add m.nb, curb := m.curb + 8 } else { m with na := add m.na, cura := m.cura + 8 })

/-- Is a value a legal tap cursor? -/
def curOk (v : Word) : Bool := decide (v.toNat < 4096 ∧ v.toNat % 8 = 0)

/-- NRM_CUR (R155). -/
def execNrmCur (p : Pred) (a b : GSrc) (s : State) : Host.Outcome State Fault Refusal :=
  issue p 8 .tile [.g a, .g b] []
    (fun s t n =>
      let x := gv s t n a
      let y := gv s t n b
      if !(curOk x && curOk y) then .trap .sample 2
      else if tapFlight (s.tile t) then .wait .tapped
      else .done (modSamp s t (fun m => { m with cura := x.setWidth 13, curb := y.setWidth 13 }))) s

/-- The checks of a norm transfer (R155). -/
def nrmPlace (s : State) (t : TileId) (n : StrandNo) (a b c : GSrc) (wr : Bool) : Except Act Nat :=
  let x := (gv s t n a).toNat
  let m := (gv s t n b).toNat
  if m = 0 ∨ 4096 < m ∨ 4096 < x + m then .error (.trap .sample 3)
  else
    match blockPlace s t (gv s t n c) 64 (8 * m) wr with
    | .error e => .error e
    | .ok o =>
      if tapFlight (s.tile t) then .error (.wait .tapped)
      else
        match rangeWait s t n [(o, 8 * m)] (wr && versionedAt (s.tile t).v.partw o) with
        | some e => .error e
        | none => .ok o

/-- The bytes of FP32 values. -/
def words32 (xs : List (BitVec 32)) : List Byte := xs.flatMap (fun x => bytesOf 4 x.toNat)

/-- The k-th FP32 word of bytes. -/
def wordAt (bs : List Byte) (k : Nat) : BitVec 32 := BitVec.ofNat 32 (natOf ((bs.drop (4 * k)).take 4))

/-- NRM_ST (R155). -/
def execNrmSt (p : Pred) (a b c : GSrc) (s : State) : Host.Outcome State Fault Refusal :=
  issue p 8 .tile [.g a, .g b, .g c] []
    (fun s t n =>
      match nrmPlace s t n a b c true with
      | .error e => e
      | .ok o =>
        let x := (gv s t n a).toNat
        let m := (gv s t n b).toNat
        let get (f : List (Nat × BitVec 32)) : List (BitVec 32) := (List.range m).map (fun k => normGet f (x + k))
        let M := (s.tile t).samp
        let q := sampRead s t (fun e => normErr false x m e || normErr true x m e)
        if !q.2 then .block .ecc q.1
        else
        match putLocal q.1 t n (t, o) .plain (words32 (get M.na ++ get M.nb)) with
        | .error e => e
        | .ok s => .block (.until (s.cycle + (m + 7) / 8)) s) s

/-- NRM_LD (R155). -/
def execNrmLd (p : Pred) (a b c : GSrc) (s : State) : Host.Outcome State Fault Refusal :=
  issue p 8 .tile [.g a, .g b, .g c] []
    (fun s t n =>
      match nrmPlace s t n a b c false with
      | .error e => e
      | .ok o =>
        let x := (gv s t n a).toNat
        let m := (gv s t n b).toNat
        match localRead s t n.val o (8 * m) with
        | .error e => wErrAct e
        | .ok r =>
          let put (f : List (Nat × BitVec 32)) (k0 : Nat) : List (Nat × BitVec 32) :=
            (List.range m).foldl (fun f k => normSet f (x + k) (wordAt r.2 (k0 + k))) f
          .block (.until (s.cycle + (m + 7) / 8))
            (modSamp (sampRenew r.1 t (fun e => normErr false x m e || normErr true x m e)) t
              (fun M => { M with na := put M.na 0, nb := put M.nb m }))) s

/-! ### The alias table (R156 to R160) -/

/-- Vose's method with the queues of R157: (slab, THR, ALIAS) of each slab. -/
def vose (fuel : Nat) (small large : List (Nat × Nat)) (acc : List (Nat × Nat × Nat)) : List (Nat × Nat × Nat) :=
  match fuel with
  | 0 => acc
  | f + 1 =>
    match small, large with
    | (s, ts) :: sm, (l, tl) :: lg =>
      let tl := tl - (2 ^ 32 - ts)
      if tl < 2 ^ 32 then vose f (sm ++ [(l, tl)]) lg ((s, ts, l) :: acc)
      else vose f sm ((l, tl) :: lg) ((s, ts, l) :: acc)
    | _, lg => lg.map (fun j => (j.1, 0xFFFFFFFF, j.1)) ++ acc

/-- Number of column draws that give column c (R158). -/
def colCount (L c : Nat) : Nat := ((c + 1) * 2 ^ 32 + L - 1) / L - (c * 2 ^ 32 + L - 1) / L

/-- Add to the number under a key. -/
def bump (m : List (Nat × Nat)) (k x : Nat) : List (Nat × Nat) := assocSet k (assocGet 0 k m + x) m

/-- Q_j for every slab (R158). -/
def tableMass (L : Nat) (cols : List (Nat × Nat × Nat)) : List (Nat × Nat) :=
  cols.foldl (fun q c =>
    let n := colCount L c.1
    if c.2.2 = c.1 then bump q c.1 (n * 2 ^ 32)
    else bump (bump q c.1 (n * c.2.1)) c.2.2 (n * (2 ^ 32 - c.2.1))) []

/-- The masses T_j (R156), from the norm products in units of 2^-149 and their sum. -/
def masses (L : Nat) (ps : List Nat) (S : Nat) : List Nat :=
  if S = 0 then List.replicate L (2 ^ 32)
  else
    let ts := ps.map (fun p => p * L * 2 ^ 32 / S)
    let d := L * 2 ^ 32 - ts.sum
    ((ps.zip ts).foldl (fun (r : List Nat × Nat) x =>
      if x.1 ≠ 0 ∧ 0 < r.2 then (r.1 ++ [x.2 + 1], r.2 - 1) else (r.1 ++ [x.2], r.2)) ([], d)).1

/-- Header of a table (Table 8.1). -/
def tableHead (sump : Nat) (spec unif valid : Bool) (L : Nat) : List Byte :=
  bytesOf 64 (sump * 2 ^ 32 + (if spec then 2 ^ 18 else 0) + (if unif then 2 ^ 17 else 0) +
    (if valid then 2 ^ 16 else 0) + L)

/-- The norm products (R156), as FP32 bits. -/
def normProducts (m : Sampler) (s0 L : Nat) : List (BitVec 32) :=
  (List.range L).map (fun j =>
    BitVec.ofNat 32 (sqrtFp fp32 0 (mulVal (f32 (normGet m.na (s0 + j))) (f32 (normGet m.nb (s0 + j))))))

/-- The bytes of a table (R156 to R159), and whether a norm product was NaN or infinite. -/
def buildTable (m : Sampler) (s0 L : Nat) : List Byte × Bool :=
  let ps := normProducts m s0 L
  let vs := ps.map f32
  if vs.any (fun v => !isFin v) then
    let sump := if vs.any (fun v => v == .nan) then 0x7FC00000 else 0x7F800000
    (tableHead sump true false false L ++ List.replicate (16 * L) 0, true)
  else
    let ns := vs.map (fun v => (scaledInt (-149) v).toNat)
    let S := ns.sum
    let ts := (List.range L).zip (masses L ns S)
    let cols := vose (2 * L + 2) (ts.filter (fun x => decide (x.2 < 2 ^ 32)))
      (ts.filter (fun x => decide (2 ^ 32 ≤ x.2))) []
    let q := tableMass L cols
    let entry (j : Nat) : List Byte :=
      let c := assocGet (0, 0) j cols
      let qj := assocGet 0 j q
      let w := if qj = 0 then 0 else divFp fp32 0 0 (.fin false (2 ^ 61) 0) (.fin false qj 0)
      bytesOf 16 (w * 2 ^ 64 + c.2 * 2 ^ 32 + c.1)
    (tableHead (exactThenRound fp32 0 0 vs) false (S == 0) true L ++ (List.range L).flatMap entry, false)

/-- Address check of a table (R160, R162): scratch or accumulator partition of the own store. -/
def tablePlace (s : State) (t : TileId) (ea : Word) (len : Nat) : Except Act Nat :=
  if ea.toNat % 64 ≠ 0 then .error (.trap .misalign 0)
  else
    match ownName t ea with
    | none => .error (.trap .prot 0)
    | some o =>
      let k := partOf (s.tile t).v.partw o len
      if k = some 2 ∨ k = some 3 then .ok o else .error (.trap .prot 0)

/-- ATB (R160). -/
def execAtb (p : Pred) (ct : BitVec 4) (a b c : GSrc) (s : State) : Host.Outcome State Fault Refusal :=
  issue p 12 .tile [.g a, .g b, .g c] []
    (fun s t n =>
      let s0 := (gv s t n a).toNat
      let L := (gv s t n b).toNat
      if L = 0 ∨ 4096 < L ∨ 4096 < s0 + L then .trap .sample 1
      else
        match tablePlace s t (gv s t n c) (64 + 16 * L) with
        | .error e => e
        | .ok o =>
          let T := s.tile t
          if claimed T.v o (64 + 16 * L) then .trap .prot 0
          else if tapFlight T then .wait .tapped
          else if T.v.bstate == 2 then .wait .release
          else
            .done (s.modTile t (fun T =>
              { T with arrSeq := T.arrSeq + 1
                       samp := { T.samp with atbs := T.samp.atbs ++
                         [{ tab := o, s0 := s0, l := L, ct := ct, strand := n, seq := T.arrSeq + 1 }] } }))) s

/-! ### Draws (R161) -/

/-- Read an entry of a table under the DET rule: THR, ALIAS, W. -/
def tabEntry (s : State) (t : TileId) (n tab j : Nat) : Except WErr (State × Nat × Nat × BitVec 32) :=
  match localRead s t n (tab + 64 + 16 * j) 16 with
  | .error e => .error e
  | .ok r =>
    let x := natOf r.2
    .ok (r.1, x % 2 ^ 32, x / 2 ^ 32 % 2 ^ 16, BitVec.ofNat 32 (x / 2 ^ 64))

/-- One draw: slab and weight; none when its ALIAS names no slab (R161). -/
def drawOne (s : State) (t : TileId) (n tab L hi lo : Nat) : Except WErr (State × Option (Nat × BitVec 32)) :=
  let c := hi * L / 2 ^ 32
  match tabEntry s t n tab c with
  | .error e => .error e
  | .ok r =>
    let j := if lo < r.2.1 then c else r.2.2.1
    if L ≤ j then .ok (r.1, none)
    else
      match tabEntry r.1 t n tab j with
      | .error e => .error e
      | .ok q => .ok (q.1, some (j, q.2.2.2))

/-- SLABS of a usable table (R162). -/
def tabSlabs (s : State) (t : TileId) (n tab : Nat) : Except WErr (State × Option Nat) :=
  match localRead s t n tab 64 with
  | .error e => .error e
  | .ok r =>
    let h := natOf r.2
    let L := h % 2 ^ 13
    let k := partOf (s.tile t).v.partw tab (64 + 16 * L)
    .ok (r.1, if h / 2 ^ 16 % 2 = 1 ∧ 1 ≤ L ∧ L ≤ 4096 ∧ (k = some 2 ∨ k = some 3) then some L else none)

/-- The 8 draws of a batch (R161): none when the table is invalid. -/
def draws (s : State) (t : TileId) (n tab : Nat) (key : Word) (ctr : BitVec 128) :
    Except WErr (State × Option (List (Nat × BitVec 32))) :=
  match tabSlabs s t n tab with
  | .error e => .error e
  | .ok (s, none) => .ok (s, none)
  | .ok (s, some L) =>
    let xs := philoxWords 4 ctr key
    (List.range 8).foldl (fun r i =>
      match r with
      | .error e => .error e
      | .ok (s, none) => .ok (s, none)
      | .ok (s, some ds) =>
        match drawOne s t n tab L ((xs.getD (2 * i) 0).toNat) ((xs.getD (2 * i + 1) 0).toNat) with
        | .error e => .error e
        | .ok (s, none) => .ok (s, none)
        | .ok (s, some d) => .ok (s, some (ds ++ [d]))) (.ok (s, some []))

/-- SMP (R162). -/
def execSmp (p : Pred) (ty : BitVec 4) (x : Bool) (k : BitVec 2) (a : GSrc) (b : BitVec 5) (c : GSrc) (s : State) :
    Host.Outcome State Fault Refusal :=
  issue p 8 .tile ([.g a] ++ pairSrcs ⟨b, false⟩ ++ [.g c]) []
    (fun s t n =>
      if !pairOk b then .trap .illegal 0
      else
        match tablePlace s t (gv s t n c) 64 with
        | .error e => e
        | .ok o =>
          if arrFull (s.tile t) then .wait .roomArr
          else
            let ctr := pairRead (s.strand t n) b
            let s' := pend (pushArr s t n (s.strand t n).pc (.smp ty x k (gv s t n a) ctr o)) t k.toNat false
            .done (s'.modStrand t n (fun S => pairWrite S b (ctr + 4)))) s

/-- The lanes of `sdraw` (R163). -/
def drawLanes (r : Option (List (Nat × BitVec 32))) : VWord :=
  match r with
  | none => BitVec.allOnes 1024
  | some ds => joinLanes 32 (ds.map (fun d => d.1) ++ ds.map (fun d => d.2.toNat) ++ List.replicate 16 0)

/-- Are all builds with a number up to `k` complete? -/
def atbsDone (T : Tile) (k : Nat) : Bool := T.samp.atbs.all (fun a => decide (k < a.seq))

/-- Make the draws of an `sdraw` and schedule its result, 8 cycles later (R163). -/
def serveDraw (s : State) (t : TileId) (q : SdrawReq) : State :=
  match draws s t q.strand.val q.tab q.key q.ctr with
  | .error (.ecc s) => s
  | .error (.conflict i) => vote s t .conflict 0 0 i
  | .error (.galley _) => s
  | .ok (s, r) =>
    let s := if r.isNone then modSamp s t (fun m => { m with badt := true }) else s
    s.post 8 (.resultDelivery t q.strand q.gen (.w q.d) (drawLanes r))

/-- SDRAW (R163). -/
def execSdraw (p : Pred) (nx : Bool) (d : BitVec 4) (a : GSrc) (b : BitVec 5) (c : GSrc) (s : State) :
    Host.Outcome State Fault Refusal :=
  issue p 8 .tile ([.g a] ++ pairSrcs ⟨b, false⟩ ++ [.g c]) [.w d]
    (fun s t n =>
      if !pairOk b then .trap .illegal 0
      else
        match tablePlace s t (gv s t n c) 64 with
        | .error e => e
        | .ok o =>
          let S := s.strand t n
          let ctr := pairRead S b
          let T := s.tile t
          let q : SdrawReq :=
            { strand := n, gen := S.gen, d := d, key := gv s t n a, ctr := ctr, tab := o, after := T.arrSeq }
          let s := s.modStrand t n (fun S => (if nx then S else pairWrite S b (ctr + 4)).markEmpty (.w d))
          if atbsDone T T.arrSeq then .done (serveDraw s t q)
          else .done (modSamp s t (fun m => { m with draws := m.draws ++ [q] }))) s

/-! ### Variance and stopping (R164, R165) -/

/-- A Welford step (R164). -/
def welford (m : Sampler) (xs : List (BitVec 32)) : Sampler :=
  if m.n = 65535 then { m with novf := true }
  else
    let n := m.n + 1
    let one (x mean m2 : BitVec 32) : BitVec 32 × BitVec 32 :=
      let d1 := sum32 [f32 x, negVal (f32 mean)]
      let mean := sum32 [f32 mean, f32 (div32 (f32 d1) (.fin false n.toNat 0))]
      let d2 := sum32 [f32 x, negVal (f32 mean)]
      (mean, sum32 [mulVal (f32 d1) (f32 d2), f32 m2])
    let rs : Vector (BitVec 32 × BitVec 32) 32 :=
      Vector.ofFn (fun j => one (xs.getD j.val 0) m.mean[j.val] m.m2[j.val])
    { m with n := n, mean := rs.map (fun r => r.1), m2 := rs.map (fun r => r.2) }

/-- The stop rule (R165), on exact values in units of 2^-149. -/
def stopRule (m : Sampler) (tau phi : BitVec 32) : Bool :=
  let u (b : BitVec 32) : Int := scaledInt (-149) (f32 b)
  (List.finRange 32).all (fun j =>
    isFin (f32 m.mean[j]) && isFin (f32 m.m2[j]) &&
    decide (u m.m2[j] * 2 ^ 447 ≤
      u tau * u tau * (u m.mean[j] * u m.mean[j] + u phi * u phi) * (m.n.toNat * (m.n.toNat - 1) : Nat)))

/-- A parameter of Table 8.3: finite and not below zero. -/
def paramOk (b : BitVec 32) : Bool := match f32 b with | .fin neg m _ => !neg || m == 0 | _ => false

/-- The record of Table 8.3, if its fields are within their limits. -/
def smplRec (bs : List Byte) : Option SmplRec :=
  let x := natOf bs
  let f (o n : Nat) : Nat := x / 256 ^ o % 256 ^ n
  let r : SmplRec :=
    { tab := BitVec.ofNat 64 (f 0 8), lat := BitVec.ofNat 64 (f 8 8), nmin := f 16 2, nmax := f 18 2, prow := f 20 1,
      tau := BitVec.ofNat 32 (f 24 4), phi := BitVec.ofNat 32 (f 28 4) }
  if 2 ≤ r.nmin ∧ r.nmin ≤ r.nmax ∧ r.prow < 32 ∧ f 21 3 = 0 ∧ f 32 32 = 0 ∧ paramOk r.tau ∧ paramOk r.phi then some r
  else none

/-- SMPL (R166). -/
def execSmpl (p : Pred) (ty : BitVec 4) (x : Bool) (k : BitVec 2) (ct : BitVec 4) (a : GSrc) (b : BitVec 5) (c : GSrc)
    (s : State) : Host.Outcome State Fault Refusal :=
  issue p 12 .tile ([.g a] ++ pairSrcs ⟨b, false⟩ ++ [.g c]) []
    (fun s t n =>
      if !pairOk b then .trap .illegal 0
      else
        match blockPlace s t (gv s t n c) 64 64 false with
        | .error e => e
        | .ok o =>
          match localRead s t n.val o 64 with
          | .error e => wErrAct e
          | .ok (s', bs) =>
            match smplRec bs with
            | none => .trap .sample 4
            | some r =>
              match tablePlace s t r.tab 64, accPlace s t r.lat 65536 true with
              | .error e, _ => e
              | _, .error e => e
              | .ok _, .ok lat =>
                let T := s.tile t
                if ownOverlap T n o 64 ≠ [] then .wait (.overlap (ownOverlap T n o 64))
                else if T.v.bstate == 2 then .wait .release
                else if arrFull T then .wait .roomArr
                else
                  let ctr := pairRead (s.strand t n) b
                  let r := { r with tab := BitVec.ofNat 64 (r.tab.toNat % 2 ^ 21), lat := BitVec.ofNat 64 lat }
                  let s' := pend (pushArr s' t n (s.strand t n).pc (.smpl ty x k (gv s t n a) ctr ct r)) t k.toNat false
                  .done (s'.modStrand t n (fun S => pairWrite S b (ctr + BitVec.ofNat 128 (4 * r.nmax))))) s

/-! ### Sampler state (R167 to R169) -/

/-- Is a command one that `svar` waits for (R167)? -/
def sampCmd (c : ArrCmd) : Bool :=
  match c.op with
  | .smp _ _ _ _ _ _ => true
  | .smpl _ _ _ _ _ _ _ => true
  | .svarUp _ _ _ => true
  | .sclr _ => true
  | _ => false

/-- The sampler commands under way. -/
def sampSeqs (T : Tile) : List Nat :=
  ((T.arrQ ++ T.arrFly.map (fun f => f.cmd)).filter sampCmd).map (fun c => c.seq)

/-- Wait once for the sampler commands issued before (R167). -/
def afterSamp (s : State) (t : TileId) (n : StrandNo) (k : Act) : Act :=
  let q := sampSeqs (s.tile t)
  if (s.strand t n).passed || q.isEmpty then k else .block (.samp q) s

/-- SVAR_UP (R167). -/
def execSvarUp (p : Pred) (k : BitVec 2) (r : BitVec 5) (s : State) : Host.Outcome State Fault Refusal :=
  issue p 8 .tile [] []
    (fun s t n =>
      let T := s.tile t
      match ptTrap T k false with
      | some x => x
      | none =>
        if arrFull T then .wait .roomArr
        else .done (pushArr s t n (s.strand t n).pc (.svarUp k r.toNat (T.ptOf k.toNat).last))) s

/-- SMST (Table 8.4): the cursors' low 12 bits (log entry 73). -/
def smstOf (m : Sampler) : Word :=
  (m.n ++ m.curb.setWidth 12 ++ m.cura.setWidth 12 ++ (0 : BitVec 16) ++ BitVec.ofBool m.stop ++ (0 : BitVec 2) ++ BitVec.ofBool m.novf ++
    BitVec.ofBool m.tapx ++ BitVec.ofBool m.spec ++ BitVec.ofBool m.badt ++ (0 : BitVec 1) : BitVec 64)

/-- SVAR_RD (R167). -/
def execSvarRd (p : Pred) (d : BitVec 5) (s : State) : Host.Outcome State Fault Refusal :=
  issue p 8 .tile [] [.g d]
    (fun s t n =>
      let r := sampRead s t welfordErr
      afterSamp s t n (if r.2 then .done (setG r.1 t n d (smstOf (s.tile t).samp)) else .block .ecc r.1)) s

/-- SVAR_INV (R167). -/
def execSvarInv (p : Pred) (d : BitVec 5) (s : State) : Host.Outcome State Fault Refusal :=
  issue p 8 .tile [] [.g d]
    (fun s t n =>
      let k := (s.tile t).samp.n.toNat
      let v : BitVec 32 := if k = 0 then 0x7F800000 else div32 (.fin false 1 0) (.fin false k 0)
      let r := sampRead s t welfordErr
      afterSamp s t n (if r.2 then .done (setG r.1 t n d (v.setWidth 64)) else .block .ecc r.1)) s

/-- The record of `svar.st` (R167). -/
def svarBytes (m : Sampler) : List Byte :=
  bytesOf 4 m.n.toNat ++ bytesOf 60 (if m.stop then 1 else 0) ++ words32 m.mean.toList ++ words32 m.m2.toList

/-- SVAR_ST (R167). -/
def execSvarSt (p : Pred) (c : GSrc) (s : State) : Host.Outcome State Fault Refusal :=
  issue p 8 .tile [.g c] []
    (fun s t n =>
      match blockPlace s t (gv s t n c) 64 320 true with
      | .error e => e
      | .ok o =>
        afterSamp s t n
          (match rangeWait s t n [(o, 320)] (versionedAt (s.tile t).v.partw o) with
           | some x => x
           | none =>
             let r := sampRead s t welfordErr
             if !r.2 then .block .ecc r.1
             else
             match putLocal r.1 t n (t, o) .plain (svarBytes (s.tile t).samp) with
             | .error e => e
             | .ok s => .done s)) s

/-- SVAR_LD (R167). -/
def execSvarLd (p : Pred) (c : GSrc) (s : State) : Host.Outcome State Fault Refusal :=
  issue p 8 .tile [.g c] []
    (fun s t n =>
      match blockPlace s t (gv s t n c) 64 320 false with
      | .error e => e
      | .ok o =>
        afterSamp s t n
          (match rangeWait s t n [(o, 320)] false with
           | some x => x
           | none =>
             match localRead s t n.val o 320 with
             | .error e => wErrAct e
             | .ok r =>
               .done (modSamp (sampRenew r.1 t welfordErr) t (fun m =>
                 { m with n := BitVec.ofNat 16 (natOf (r.2.take 2))
                          stop := (r.2.getD 4 0).getLsbD 0
                          mean := Vector.ofFn (fun j => wordAt r.2 (16 + j.val))
                          m2 := Vector.ofFn (fun j => wordAt r.2 (48 + j.val)) })))) s

/-- The body of `sclr` (R168). -/
def sclrBody (k : Nat) (s : State) (t : TileId) (n : StrandNo) : Act :=
  if k = 2 ∧ tapFlight (s.tile t) then .wait .tapped
  else if arrFull (s.tile t) then .wait .roomArr
  else .done (pushArr s t n (s.strand t n).pc (.sclr k))

/-- SCLR_VAR (R168). -/
def execSclrVar (p : Pred) (s : State) : Host.Outcome State Fault Refusal := issue p 8 .tile [] [] (sclrBody 0) s

/-- SCLR_ERR (R168). -/
def execSclrErr (p : Pred) (s : State) : Host.Outcome State Fault Refusal := issue p 8 .tile [] [] (sclrBody 1) s

/-- SCLR_ALL (R168). -/
def execSclrAll (p : Pred) (s : State) : Host.Outcome State Fault Refusal := issue p 8 .tile [] [] (sclrBody 2) s

/-- The effect of `sclr` (R168). -/
def sclr (k : Nat) (m : Sampler) : Sampler :=
  let m := if k = 1 then m else { m with n := 0, mean := Vector.replicate 32 0, m2 := Vector.replicate 32 0, stop := false }
  let m := if k = 0 then m else { m with tapx := false, spec := false, badt := false, novf := false }
  if k = 2 then { m with na := [], nb := [], cura := 0, curb := 0 } else m

/-- The sampler after a barrier release or a turn change (R153): the error bits stay. -/
def Sampler.release (m : Sampler) : Sampler := { tapx := m.tapx, spec := m.spec, badt := m.badt, novf := m.novf }

end Sys2Proof.Machine
end

