-- ==== Sys2Proof/Machine/Stream.lean ====
section
/-! DEFINITION. Streams and counters: binding records (R171 to R173), pieces (R174, R175), `sunbind` (R177), engine fault
records (Table 9.3), `cnt` (R179), and the steps STREAM_PIECE_FETCHED and STREAM_OUT_PIECE_PERFORMED. -/

namespace Sys2Proof.Machine

open Sys2Proof

/-! ### Engine faults (R183, Table 9.3) -/

/-- Record a fault of the channel's engine; later faults do not overwrite it. -/
def setEfr (s : State) (t : TileId) (kind : Nat) (ct : BitVec 4) (info : Nat) : State :=
  s.modTile t (fun T =>
    if T.chan.fault then T
    else { T with chan := { T.chan with fault := true,
                                        efr := BitVec.ofNat 64 (2 ^ 63 + kind * 2 ^ 60 + ct.toNat * 2 ^ 56 + info % 2 ^ 51) } })

/-! ### Records (R171 to R173) -/

/-- Is the record as Table 9.1 has it, and BASE + OFS a multiple of 16? -/
def recShape (r : BitVec 512) (ofs : Word) : Bool :=
  decide (recLimb r 5 = 0 ∧ recLimb r 6 = 0 ∧ recLimb r 7 = 0 ∧ recLimb r 4 / 2 ^ 12 = 0 ∧ recLimb r 4 / 16 % 32 = 0 ∧
    recLimb r 4 % 16 ≤ 13 ∧ recPieces r ≠ 0 ∧ (recLimb r 0 + ofs.toNat) % 16 = 0 ∧
    recS r 0 % 16 = 0 ∧ recS r 1 % 16 = 0 ∧ recS r 2 % 16 = 0 ∧ recS r 3 % 16 = 0)

/-- The combinations that check 3 of R173 lets pass; a SLAB binding has N0 = 32 (R172). -/
def recCombo (r : BitVec 512) (q sink : Bool) : Bool :=
  !(q && (recType r == 12 || recSlab r || recTap r)) &&
  !(recSlab r && recTap r) &&
  !((recSlab r || recTap r) && !(recType r == 10 || recType r == 11)) &&
  !(sink && !recTap r) &&
  (q || decide (recPieces r % 32 = 0)) &&
  (!recSlab r || decide (recN r 0 = 32))

/-- Lowest and highest distance of a piece from BASE + OFS. -/
def recSpan (r : BitVec 512) : Int × Int :=
  (List.range 4).foldl (fun x i =>
    let d := recS r i * ((recN r i : Int) - 1)
    if d < 0 then (x.1 + d, x.2) else (x.1, x.2 + d)) (0, 0)

/-- Does the whole range lie in one data partition of the own store (R81)? -/
def boxOk (s : State) (t : TileId) (lo hi : Int) : Option Nat :=
  if lo < 0 then none
  else
    match ownName t (BitVec.ofInt 64 lo) with
    | some o => if decide (lo < 2 ^ 64) && dataOk (s.tile t).v.partw o (hi - lo).toNat then some o else none
    | none => none

/-- Check 6 of R173: every piece of a local binding, and its scale bytes. Answers the ranges. -/
def recBox (s : State) (t : TileId) (r : BitVec 512) (ofs sbase : Word) (q out : Bool) : Except Act (List (Nat × Nat)) :=
  if recHbm r then .ok []
  else
    let b : Int := (((recLimb r 0 + ofs.toNat) % 2 ^ 64 : Nat) : Int)
    let x := recSpan r
    match boxOk s t (b + x.1) (b + x.2 + (if q then 128 else 256)) with
    | none => .error (.trap .prot 0)
    | some o =>
      let c : Int := (sbase.toNat : Int)
      let n := (x.2 - x.1).toNat
      if out && s.det t && foreAt (s.tile t).v.partw o then .error (.trap .detban 0)
      else if recType r = 12 then
        match boxOk s t (c + x.1 / 16) (c + x.2 / 16 + 16) with
        | none => .error (.trap .prot 0)
        | some u => .ok [(o, n + 256), (u, n / 16 + 16)]
      else .ok [(o, n + (if q then 128 else 256))]

/-- The checks of `sbind` (R173): the record's offset and contents, or the trap. Its fetches see what a load at the
`sbind` would see (R175), so own adder commands that overlap are waited for (R143). -/
def sbindCheck (s : State) (t : TileId) (n : StrandNo) (a b c : GSrc) (start : Word) (q out sink : Bool) :
    Except Act (State × Nat × BitVec 512) :=
  let ea := gv s t n a
  let ofs := gv s t n b
  match ownName t ea with
  | none => .error (.trap .prot 0)
  | some o =>
    if !dataOk (s.tile t).v.partw o 64 then .error (.trap .prot 0)
    else if o % 64 ≠ 0 then .error (.trap .misalign 0)
    else
      match localRead s t n.val o 64 with
      | .error e => .error (wErrAct e)
      | .ok x =>
        let r := BitVec.ofNat 512 (natOf x.2)
        if !recShape r ofs || !recCombo r q sink then .error (.trap .stream 3)
        else if c.r ≠ 0 ∧ (q ∨ recType r ≠ 12) then .error (.trap .illegal 0)
        else if recPieces r < start.toNat ∨ (!q ∧ start.toNat % 32 ≠ 0) then .error (.trap .stream 4)
        else
          match recBox s t r ofs (gv s t n c) q out with
          | .error e => .error e
          | .ok rs =>
            match rangeWait s t n ((o, 64) :: rs) false with
            | some e => .error e
            | none => .ok (x.1, o, r)

/-- Change a q register. -/
def modQ (s : State) (t : TileId) (n : StrandNo) (k : Fin 8) (f : QReg → QReg) : State :=
  s.modStrand t n (fun S => { S with q := S.q.set k (f S.q[k]) })

/-- Exhaustion of a q binding (R174): `.c` raises its counter once. -/
def exhaustQ (s : State) (t : TileId) (n : StrandNo) (k : Fin 8) : State :=
  let q := (s.strand t n).q[k]
  if q.exh then s
  else
    let s := modQ s t n k (fun q => { q with exh := true })
    if q.cnte then addCounter s t q.ct 1 else s

/-- SBIND_IN and SBIND_OUT (R173). A binding that starts at P is exhausted at once. -/
def sbindQ (out cnt : Bool) (ct : BitVec 4) (d : BitVec 3) (a b c : GSrc) (start : Word) (s : State) (t : TileId)
    (n : StrandNo) : Act :=
  match sbindCheck s t n a b c start true out false with
  | .error e => e
  | .ok (s', o, r) =>
    let k : Fin 8 := ⟨d.toNat, by omega⟩
    let q : QReg :=
      { valid := true, rcd := r, out := out, cnte := cnt, ct := ct, recOfs := BitVec.ofNat 21 o, next := start.toNat,
        ofs := gv s t n b, pc := (s.strand t n).pc, ahead := start.toNat, after := beforeOf (s.strand t n) }
    let s := (dropFetch s' t (.q n k)).modStrand t n (fun S => { (S.unbindQ k) with q := (S.unbindQ k).q.set k q })
    .done (if start.toNat = recPieces r then exhaustQ s t n k else s)

/-- SBIND_IN (R173). -/
def execSbindIn (p : Pred) (cnt : Bool) (ct : BitVec 4) (d : BitVec 3) (a b c : GSrc) (start : Word) (s : State) :
    Host.Outcome State Fault Refusal :=
  issue p 16 .tile [.g a, .g b, .g c] [] (sbindQ false cnt ct d a b c start) s

/-- SBIND_OUT (R173). -/
def execSbindOut (p : Pred) (cnt : Bool) (ct : BitVec 4) (d : BitVec 3) (a b c : GSrc) (start : Word) (s : State) :
    Host.Outcome State Fault Refusal :=
  issue p 16 .tile [.g a, .g b, .g c] [] (sbindQ true cnt ct d a b c start) s

/-- The live binding of a FIFO ends (R174, R177). -/
def endBind (s : State) (t : TileId) (fb : Bool) : State :=
  modFifo (dropFetch s t (if fb then .fb else .fa)) t fb (fun q =>
    { q with bind := { q.bind with live := false, idxs := [], busy := false },
             fillers := q.fillers.filter (fun x => x != .binding) })

/-- Exhaustion of a FIFO binding (R174). -/
def exhaustF (s : State) (t : TileId) (fb : Bool) : State :=
  let b := ((s.tile t).fifo fb).bind
  let s := endBind s t fb
  if b.cnte then addCounter s t b.ct 1 else s

/-- SBIND_FA and SBIND_FB (R173, R175). -/
def sbindF (fb sink cnt : Bool) (ct : BitVec 4) (a b c : GSrc) (start : Word) (s : State) (t : TileId) (n : StrandNo) :
    Act :=
  match sbindCheck s t n a b c start false false sink with
  | .error e => e
  | .ok (s', _, r) =>
    if ((s.tile t).fifo fb).bind.live then .wait (.fifoBound fb)
    else
      let x : FBind :=
        { live := true, rcd := r, strand := n, pc := (s.strand t n).pc, ofs := gv s t n b, sbase := gv s t n c,
          cnte := cnt, ct := ct, start := start.toNat, next := start.toNat, sink := sink, tap := recTap r,
          slab := recSlab r, ty := recType r, after := beforeOf (s.strand t n) }
      let old (u : Unit_) : Unit_ := { u with bound := false }
      let s := modFifo s' t fb (fun q =>
        { q with bind := x, units := q.units.map old, held := q.held.map old, reading := q.reading.map old, fillers := q.fillers ++ [.binding] })
      .done (if start.toNat = recPieces r then exhaustF s t fb else s)

/-- SBIND_FA (R173). -/
def execSbindFa (p : Pred) (sink cnt : Bool) (ct : BitVec 4) (a b c : GSrc) (start : Word) (s : State) :
    Host.Outcome State Fault Refusal :=
  issue p 16 .tile [.g a, .g b, .g c] [] (sbindF false sink cnt ct a b c start) s

/-- SBIND_FB (R173). -/
def execSbindFb (p : Pred) (sink cnt : Bool) (ct : BitVec 4) (a b c : GSrc) (start : Word) (s : State) :
    Host.Outcome State Fault Refusal :=
  issue p 16 .tile [.g a, .g b, .g c] [] (sbindF true sink cnt ct a b c start) s

/-! ### Ending a binding (R177) -/

/-- SUNBIND (R177): pieces already written are still performed. -/
def execSunbind (p : Pred) (d : BitVec 3) (s : State) : Host.Outcome State Fault Refusal :=
  issue p 8 .tile [] [] (fun s t n =>
    let k : Fin 8 := ⟨d.toNat, by omega⟩
    .done ((dropFetch s t (.q n k)).modStrand t n (fun S => S.unbindQ k))) s

/-- The fill of a FIFO stops; the incomplete unit is discarded (R177). -/
def unbindF (fb : Bool) (s : State) (t : TileId) (_ : StrandNo) : Act :=
  .done (modFifo (endBind s t fb) t fb (fun q => { q with part := [], partSc := [] }))

/-- SUNBIND_FA (R177). -/
def execSunbindFa (p : Pred) (s : State) : Host.Outcome State Fault Refusal := issue p 8 .tile [] [] (unbindF false) s

/-- SUNBIND_FB (R177). -/
def execSunbindFb (p : Pred) (s : State) : Host.Outcome State Fault Refusal := issue p 8 .tile [] [] (unbindF true) s

/-- SUNBIND_POS (R177). -/
def execSunbindPos (p : Pred) (d : BitVec 5) (a : BitVec 3) (s : State) : Host.Outcome State Fault Refusal :=
  issue p 8 .tile [] [.g d]
    (fun s t n =>
      let q := (s.strand t n).q[a.toNat]
      .done (setG s t n d (if q.valid then BitVec.ofNat 64 q.next else BitVec.allOnes 64))) s

/-- Position of a FIFO binding: start plus 32 for each unit of it that has left the FIFO (R177). -/
def fifoPos (fb : Bool) (d : BitVec 5) (s : State) (t : TileId) (n : StrandNo) : Act :=
  let b := ((s.tile t).fifo fb).bind
  .done (setG s t n d (if b.live then BitVec.ofNat 64 (b.start + 32 * b.left) else BitVec.allOnes 64))

/-- SUNBIND_POSA (R177). -/
def execSunbindPosa (p : Pred) (d : BitVec 5) (s : State) : Host.Outcome State Fault Refusal :=
  issue p 8 .tile [] [.g d] (fifoPos false d) s

/-- SUNBIND_POSB (R177). -/
def execSunbindPosb (p : Pred) (d : BitVec 5) (s : State) : Host.Outcome State Fault Refusal :=
  issue p 8 .tile [] [.g d] (fifoPos true d) s

/-! ### Pieces (R174, R175) -/

/-- The strand, the `sbind`'s address and the counter of a binding. -/
def streamWho (s : State) (t : TileId) (r : StreamRef) : StrandNo × BitVec 21 × BitVec 4 :=
  match r with
  | .q n k => let q := (s.strand t n).q[k]; (n, q.pc, if q.cnte then q.ct else 0)
  | .fa => let b := (s.tile t).fa.bind; (b.strand, b.pc, if b.cnte then b.ct else 0)
  | .fb => let b := (s.tile t).fb.bind; (b.strand, b.pc, if b.cnte then b.ct else 0)

/-- Mark a binding: a fetch of it is parked, or it has met a refusal and stops. -/
def markStream (s : State) (t : TileId) (r : StreamRef) (busy stopped : Bool) : State :=
  match r with
  | .q n k => modQ s t n k (fun q => { q with busy := busy, stopped := q.stopped || stopped })
  | .fa => modFifo s t false (fun q => { q with bind := { q.bind with busy := busy, stopped := q.bind.stopped || stopped } })
  | .fb => modFifo s t true (fun q => { q with bind := { q.bind with busy := busy, stopped := q.bind.stopped || stopped } })

/-- A fetch of a binding is parked at an address (R175). -/
def parkStream (s : State) (t : TileId) (r : StreamRef) (a : Word) : State :=
  match r with
  | .q n k => modQ s t n k (fun q => { q with busy := true, parkAt := a })
  | .fa => modFifo s t false (fun q => { q with bind := { q.bind with busy := true, parkAt := a } })
  | .fb => modFifo s t true (fun q => { q with bind := { q.bind with busy := true, parkAt := a } })

/-- A refused piece (R175): EFR, the binding stops, the binding strand takes PROT with DEFER; waiters look again. -/
def refusePiece (s : State) (t : TileId) (r : StreamRef) (addr : Nat) : State :=
  let w := streamWho s t r
  let s := markStream (setEfr s t 1 w.2.2 addr) t r false true
  refuse s t w.1 { code := .prot, info := 0, pc := w.2.1, engine := true }

/-- Read the parts of a piece for a binding: the bytes, or the state in which the fetch is refused, parks or waits. -/
def readParts (s : State) (t : TileId) (r : StreamRef) (n : StrandNo) (hbm : Bool) (parts : List (Nat × Nat)) :
    Except State (State × List Byte) :=
  let c := (s.tile t).ctx
  parts.foldl (fun x p =>
    match x with
    | .error e => .error e
    | .ok (s, bs) =>
      if hbm then
        let va := BitVec.ofNat 64 p.1
        match firstBlocked s c va p.2 false with
        | none => .ok (touchPages s c va p.2, bs ++ readHbm s c va p.2)
        | some (a, .refused) => .error (refusePiece s t r a.toNat)
        | some (_, .behind) => .error s
        | some (a, _) =>
          .error ((parkStream s t r a).postPage
            { ctx := c, tile := t, who := .stream r, va := a, write := false })
      else
        match localRead s t n.val (p.1 % 2 ^ 21) p.2 with
        | .ok q => .ok (q.1, bs ++ q.2)
        | .error (.ecc s) => .error (markStream s t r true false)
        | .error (.conflict i) => .error (vote (markStream s t r true false) t .conflict 0 0 i)
        | .error (.galley _) => .error s) (.ok (s, []))

/-- May an `.in` binding fetch a piece now (R174, R175, R191)? -/
def fetchReady (s : State) (t : TileId) (n : StrandNo) (k : Fin 8) : Bool :=
  let q := (s.strand t n).q[k]
  q.valid && !q.out && !q.stopped && !q.busy && decide (q.have_.length < 4) && decide (q.ahead < recPieces q.rcd) &&
    beforeMet s t n q.after

/-- Fetch the next piece of an `.in` binding. -/
def fetchQ (s : State) (t : TileId) (n : StrandNo) (k : Fin 8) : State :=
  let q := (s.strand t n).q[k]
  if fetchReady s t n k then
    match readParts s t (.q n k) n (recHbm q.rcd) [((pieceAddr q.rcd q.ofs q.ahead).toNat, 128)] with
    | .error s => s
    | .ok (s, bs) =>
      modQ s t n k (fun q => { q with ahead := q.ahead + 1, have_ := q.have_ ++ [BitVec.ofNat 1024 (natOf bs)] })
  else s

/-- The parts of a FIFO row (R172): the whole row, or the 32 bytes that each slab index picks. -/
def rowParts (b : FBind) : List (Nat × Nat) :=
  let a := (pieceAddr b.rcd b.ofs b.next).toNat
  if b.slab then (b.idxs.headD []).map (fun j => ((a + 32 * j) % 2 ^ 64, 32)) else [(a, 256)]

/-- Scale bytes of a row of `.mxf4`. -/
def scaleParts (b : FBind) : List (Nat × Nat) :=
  if b.ty = 12 then
    [((BitVec.ofInt 64 ((b.sbase.toNat : Int) + pieceDist b.rcd b.next / 16)).toNat, 16)]
  else []

/-- May the binding of a FIFO fill a row now (R130, R175, R191)? -/
def fillReady (s : State) (t : TileId) (fb : Bool) : Bool :=
  let q := (s.tile t).fifo fb
  beforeMet s t q.bind.strand q.bind.after && q.bind.live && !q.bind.stopped && !q.bind.busy && q.fillers.head? == some .binding && q.room &&
    decide (q.bind.next < recPieces q.bind.rcd) && (!q.bind.slab || !q.bind.idxs.isEmpty)

/-- Has the next batch of the running `smpl` been drawn before the decision on the last (R166)? What it gathers may be
discarded, so a gather that is refused or parks waits for that decision. -/
def drawnAhead (T : Tile) : Bool := (T.samp.run.map (fun r => r.undo.isSome)).getD false

/-- Fetch the next row of a FIFO binding. -/
def fetchF (s : State) (t : TileId) (fb : Bool) : State :=
  let b := ((s.tile t).fifo fb).bind
  let r : StreamRef := if fb then .fb else .fa
  if fillReady s t fb then
    match readParts s t r b.strand (recHbm b.rcd) (rowParts b ++ scaleParts b) with
    | .error s' => if b.slab && drawnAhead (s.tile t) then s else s'
    | .ok (s, bs) =>
      let row := BitVec.ofNat 2048 (natOf (bs.take 256))
      let sc := if b.ty = 12 then BitVec.ofNat 128 (natOf (bs.drop 256)) else unitScale
      let s := modFifo s t fb (fun q =>
        { q with bind := { q.bind with
            next := q.bind.next + 1
            idxs := if q.bind.slab && q.bind.next % 32 == 31 then q.bind.idxs.drop 1 else q.bind.idxs } })
      let s := pushRow s t fb row sc
      -- the last row, in a unit that another filler began, completes none (log entry 95)
      let q := (s.tile t).fifo fb
      if recPieces q.bind.rcd ≤ q.bind.next ∧ q.part.length ≠ 32 ∧
          (q.bind.slab && drawnAhead (s.tile t)) = false then exhaustF s t fb
      else s
  else s

/-- STREAM_PIECE_FETCHED (R172, R174, R175): a piece arrives, or the runtime has refused it at the address where it parked. -/
def execStreamPieceFetched (s : State) : Host.Outcome State Fault Refusal :=
  match s.ev with
  | some (.streamPieceFetched t r ok) =>
    if ok then
      let s := markStream s t r false false
      .next (match r with | .q n k => fetchQ s t n k | .fa => fetchF s t false | .fb => fetchF s t true)
    else
      let a := match r with
        | .q n k => (s.strand t n).q[k].parkAt
        | .fa => (s.tile t).fa.bind.parkAt
        | .fb => (s.tile t).fb.bind.parkAt
      .next (refusePiece s t r a.toNat)
  | _ => .next s

/-! ### Pieces written (R174, R175, R177) -/

/-- Write one `.out` piece: HBM lines enter the outbound queue. A page that is not resident parks the piece (R175). -/
def putPiece (s : State) (t : TileId) (n : StrandNo) (pc : BitVec 21) (hbm : Bool) (addr : Nat) (data : List Byte) : Put :=
  let c := (s.tile t).ctx
  if hbm then
    match firstBlocked s c (BitVec.ofNat 64 addr) data.length true with
    | none =>
      let r := enterLines s t n pc addr data
      .written r.1 r.2
    | some (a, .refused) => .refused a.toNat
    | some (a, _) => .parked a
  else
    let o := addr % 2 ^ 21
    if claimed (s.tile t).v o data.length then .refused addr
    else let r := engineWrite s t (.engine n (posOf t)) .plain o data; .written r.1 r.2

/-- The last piece of an `.out` binding has been performed (R174). -/
def outDone (s : State) (t : TileId) (n : StrandNo) (k : Fin 8) : State :=
  let q := (s.strand t n).q[k]
  if q.valid && q.out && !q.lost && q.pend.isEmpty && decide (recPieces q.rcd ≤ q.next) then exhaustQ s t n k else s

/-- The oldest piece written through q register k and not yet performed, those of ended bindings first (R177). -/
def Strand.oldestOut (S : Strand) (k : Fin 8) : Option OutPiece :=
  match S.rest.find? (fun o => o.k == k) with
  | some o => some o
  | none => (outRest S.q[k] k).head?

/-- The oldest piece of a q register is refused (R175): the strand takes the trap; the binding it stands in stops. -/
def refuseOut (s : State) (t : TileId) (n : StrandNo) (k : Fin 8) (addr : Nat) : State :=
  match (s.strand t n).rest.find? (fun o => o.k == k) with
  | some o =>
    refuse (setEfr (s.modStrand t n (fun S => { S with rest := S.rest.erase o })) t 1 o.ct addr) t n
      { code := .prot, info := 0, pc := o.pc, engine := true }
  | none => refusePiece (modQ s t n k (fun q => { q with pend := [] })) t (.q n k) addr

/-- The oldest piece of a q register has been performed, or could not be wholly written. -/
def outGone (s : State) (t : TileId) (n : StrandNo) (k : Fin 8) (whole : Bool) : State :=
  match (s.strand t n).rest.find? (fun o => o.k == k) with
  | some o => s.modStrand t n (fun S => { S with rest := S.rest.erase o })
  | none => outDone (modQ s t n k (fun q => { q with pend := q.pend.drop 1, lost := q.lost || !whole })) t n k

/-- Is the oldest piece of a q register free to be performed: there is one, and it is not parked? -/
def outReady (S : Strand) (k : Fin 8) : Bool := (S.oldestOut k).isSome && !S.outPark.getLsbD k.val

/-- STREAM_OUT_PIECE_PERFORMED (R174, R175, R177): the oldest piece written through q register k. -/
def execStreamOutPiecePerformed (s : State) : Host.Outcome State Fault Refusal :=
  match s.ev with
  | some (.streamOutPiecePerformed t n k) =>
    match (s.strand t n).oldestOut k with
    | none => .next s
    | some o =>
      if !outReady (s.strand t n) k then .next s
      else
        match putPiece s t n o.pc o.hbm o.addr (bytesOf 128 o.data.toNat) with
        | .written s whole => .next (outGone s t n k whole)
        | .refused a => .next (refuseOut s t n k a)
        | .parked va =>
          .next ((s.modStrand t n (fun S => { S with outPark := S.outPark ||| (1 <<< k.val) })).postPage
            { ctx := (s.tile t).ctx, tile := t, who := .out n k, va := va, write := true })
  | _ => .next s

/-! ### Counters (R178, R179) -/

/-- CNT_SET (R179). -/
def execCntSet (p : Pred) (k : BitVec 4) (m : BitVec 8) (a : GSrc) (s : State) : Host.Outcome State Fault Refusal :=
  issue p 8 .any [.g a] []
    (fun s t n =>
      .done (s.modV t (fun v =>
        { v with c := v.c.set k.toNat ((gv s t n a + m.setWidth 64).setWidth 32 + v.cinc[k.toNat]) }))) s

/-- CNT_ADD (R179). -/
def execCntAdd (p : Pred) (k : BitVec 4) (m : BitVec 8) (a : GSrc) (s : State) : Host.Outcome State Fault Refusal :=
  issue p 8 .any [.g a] []
    (fun s t n =>
      .done (s.modV t (fun v =>
        { v with c := v.c.set k.toNat (v.c[k.toNat] + (gv s t n a + m.setWidth 64).setWidth 32) }))) s

/-- CNT_RD (R179). -/
def execCntRd (p : Pred) (k : BitVec 4) (d : BitVec 5) (s : State) : Host.Outcome State Fault Refusal :=
  issue p 8 .any [] [.g d] (fun s t n => .done (setG s t n d (((s.tile t).v.c[k.toNat]).setWidth 64))) s

end Sys2Proof.Machine
end

