-- ==== Sys2Proof/Machine/Image.lean ====
section
/-! DEFINITION. Images: the strand image of Table 5.2 with the stream positions of R176, the virtual tile descriptor of
Table 11.7, and the images of virtual tiles in the save area (R221, R257). -/

namespace Sys2Proof.Machine

open Sys2Proof

/-! ### Strand images (R94, R176) -/

/-- The position of a q register, 64 bytes (R176). -/
def qImage (q : QReg) : List Byte :=
  if q.valid then
    bytesOf 8 (2 ^ 63 + (if q.out then 2 ^ 62 else 0) + (if q.cnte then 2 ^ 61 else 0) + (if q.exh then 2 ^ 60 else 0) +
      q.ct.toNat * 2 ^ 56 + q.recOfs.toNat) ++
    bytesOf 8 q.next ++ bytesOf 8 q.ofs.toNat ++ bytesOf 8 q.sbase.toNat ++ List.replicate 32 (0 : Byte)
  else List.replicate 64 (0 : Byte)

/-- STATE as an image holds it (R91). -/
def imageState (x : StrandSt) : Nat :=
  match x with | .free => 0 | .started => 1 | .ready => 2 | .waiting => 3 | .trapped => 4 | .halted => 5

/-- A strand's image, 4 KiB (Table 5.2). Held locks are zero at a barrier. -/
def strandImage (S : Strand) : List Byte :=
  (List.range 32).flatMap (fun i => bytesOf 8 (S.rg (BitVec.ofNat 5 i)).toNat) ++
  (List.range 16).flatMap (fun i => bytesOf 128 (S.rw (BitVec.ofNat 4 i)).toNat) ++
  bytesOf 8 (S.p ||| 1).toNat ++
  bytesOf 8 (S.pc.toNat + imageState S.st * 2 ^ 28 + (if S.inHandler then 2 ^ 32 else 0)) ++
  bytesOf 8 S.tcause.toNat ++ bytesOf 8 S.trappc.toNat ++ List.replicate 32 (0 : Byte) ++
  (List.finRange 8).flatMap (fun k => qImage S.q[k]) ++ List.replicate 1216 (0 : Byte)

/-- A little-endian limb of some bytes. -/
def limbAt (bs : List Byte) (ofs : Nat) : Nat := natOf ((bs.drop ofs).take 8)

/-- A binding rebuilt from its position and the record in the store (R176), which `at_` places (R259): prefetched pieces are
fetched again. Its `sbind`'s address is in no image: a free value `pc` (log entry 2). -/
def qLoad (m : Mem) (at_ : Nat → Nat) (bs : List Byte) (pc : Nat) : QReg :=
  let l := limbAt bs 0
  if l / 2 ^ 63 % 2 = 0 then {}
  else
    let ofs : BitVec 21 := BitVec.ofNat 21 l
    { valid := true, rcd := BitVec.ofNat 512 (natOf (m.bytes (at_ ofs.toNat) 64)), out := l / 2 ^ 62 % 2 == 1,
      cnte := l / 2 ^ 61 % 2 == 1, exh := l / 2 ^ 60 % 2 == 1, ct := BitVec.ofNat 4 (l / 2 ^ 56), recOfs := ofs,
      next := limbAt bs 8, ofs := BitVec.ofNat 64 (limbAt bs 16), sbase := BitVec.ofNat 64 (limbAt bs 24),
      pc := BitVec.ofNat 21 pc, ahead := limbAt bs 8 }

/-- A strand state from its code in an image. A strand that waited waits on nothing yet: it examines its instruction
again (DEDUCED; log entry 20). -/
def stateOfImage (x : Nat) : StrandSt :=
  match x with | 1 => .started | 2 => .ready | 3 => .ready | 4 => .trapped | 5 => .halted | _ => .free

/-- A strand restored from its image (R94, R176): registers full, nothing outstanding. `m` is the tile's store, `at_` the
place in it of an offset, `pc` a free value, `nb` the first cycle in which it may issue. -/
def strandLoad (m : Mem) (at_ : Nat → Nat) (bs : List Byte) (gen pc nb : Nat) : Strand :=
  let w := limbAt bs 0x908
  let tc := maskTcause (BitVec.ofNat 64 (limbAt bs 0x910))
  let inH := w / 2 ^ 32 % 2 == 1
  { st := stateOfImage (w / 2 ^ 28 % 16)
    g := (Vector.ofFn (fun i : Fin 32 => BitVec.ofNat 64 (limbAt bs (8 * i.val)))).set 0 0
    w := Vector.ofFn (fun i : Fin 16 => BitVec.ofNat 1024 (natOf ((bs.drop (0x100 + 128 * i.val)).take 128)))
    p := BitVec.ofNat 8 (limbAt bs 0x900), pc := BitVec.ofNat 21 w, inHandler := inH
    tcause := tc, trappc := maskTvec (BitVec.ofNat 64 (limbAt bs 0x918))
    q := Vector.ofFn (fun k : Fin 8 => qLoad m at_ ((bs.drop (0x940 + 64 * k.val)).take 64) pc)
    watching := inH && tc.extractLsb' 0 8 == Cause.code .watch
    notBefore := nb, gen := gen }

/-- Offset of a strand's image in the pool. -/
def imageOfs (w : Word) (n : StrandNo) : Nat := partBase w 1 + 4096 * n.val

/-- A strand with the results that are under way to its g and w registers written: no result of an instruction that has
issued is lost to an image, and a restored register is full (R95; DEDUCED, log entry 20). -/
def settled (s : State) (t : TileId) (n : StrandNo) : Strand :=
  s.agenda.foldl (fun S e =>
    match e.2 with
    | .resultDelivery u m gen (.g r) v => if u = t ∧ m = n ∧ gen = S.gen then S.deliver (.g r) v else S
    | .resultDelivery u m gen (.w r) v => if u = t ∧ m = n ∧ gen = S.gen then S.deliver (.w r) v else S
    | _ => S) (s.strand t n)

/-- Write the image of every strand that exists into the register-file partition (R94). -/
def writeImages (s : State) (t : TileId) : State :=
  (List.finRange 11).foldl (fun s n =>
    if strandExists s t n.val then
      let T := s.tile t
      let a := imageOfs T.v.partw n
      (eccWrite s t a 4096).1.modTile t (fun T => { T with mem := T.mem.store a (strandImage (settled s t n)) })
    else s) s

/-- Restore every strand of a tile from its image (R94); what it was about to do is forgotten. A strand whose image gives no
value is not restored, its context being lost (R354). -/
def loadImages (s : State) (t : TileId) (nb : Nat) : State :=
  (List.finRange 11).foldl (fun s n =>
    let T := s.tile t
    let gen := (T.strands[n.val]).gen + 1
    if strandExists s t n.val then
      let f := s.freshNat
      let r := eccRead f.2 t true (imageOfs T.v.partw n) 4096
      let bs := T.mem.bytes (imageOfs T.v.partw n) 4096
      r.1.modStrand t n (fun _ => if r.2 then strandLoad T.mem (poolAddr T.v.partw T.slot) bs gen f.1 nb else { gen := gen })
    else s.modStrand t n (fun _ => { gen := gen })) s

/-! ### The descriptor of a virtual tile (Table 11.7) -/

/-- A virtual tile's descriptor, 4 KiB. -/
def descBytes (v : VRegs) : List Byte :=
  bytesOf 8 (v.v.toNat * 2 ^ 20 + v.idx.toNat) ++ bytesOf 8 (v.att.toNat * 2 ^ 48 + v.ss.toNat) ++
  bytesOf 8 v.partw.toNat ++ bytesOf 8 v.ovb.toNat ++ bytesOf 8 v.tvec.toNat ++ bytesOf 8 v.idlw.toNat ++
  List.replicate 16 (0 : Byte) ++
  (v.c.toList.flatMap (fun c => bytesOf 4 c.toNat)) ++ (v.terms.toList.flatMap (fun x => bytesOf 8 x.toNat)) ++
  (v.wpt.toList.flatMap (fun w =>
    bytesOf 8 w.base.toNat ++ bytesOf 8 (w.len.toNat % 2 ^ 60 + w.fl.toNat * 2 ^ 60) ++ bytesOf 8 w.record.toNat)) ++
  bytesOf 8 v.dbgr.toNat ++ List.replicate 3800 (0 : Byte)

/-- The registers that a descriptor gives, reserved bits discarded (R8); those that no image carries keep their values of `v`. -/
def descLoad (bs : List Byte) (v : VRegs) : VRegs :=
  let l (k : Nat) : Nat := limbAt bs k
  { v with
    v := BitVec.ofNat 20 (l 0 / 2 ^ 20), idx := BitVec.ofNat 20 (l 0)
    ss := BitVec.ofNat 48 (l 8), att := BitVec.ofNat 4 (l 8 / 2 ^ 48)
    partw := maskPartw (BitVec.ofNat 64 (l 16)), ovb := maskOvb (BitVec.ofNat 64 (l 24))
    tvec := maskTvec (BitVec.ofNat 64 (l 32))
    idlw := maskIdlw (BitVec.ofNat 64 (l 40))
    c := Vector.ofFn (fun i : Fin 16 => BitVec.ofNat 32 (natOf ((bs.drop (0x40 + 4 * i.val)).take 4)))
    terms := Vector.ofFn (fun i : Fin 8 => maskTerm (BitVec.ofNat 64 (l (0x80 + 8 * i.val))))
    wpt := Vector.ofFn (fun i : Fin 4 =>
      { base := BitVec.ofNat 64 (l (0xC0 + 24 * i.val)), len := BitVec.ofNat 64 (l (0xC8 + 24 * i.val) % 2 ^ 60)
        fl := BitVec.ofNat 2 (l (0xC8 + 24 * i.val) / 2 ^ 60), record := maskWptRecord (BitVec.ofNat 64 (l (0xD0 + 24 * i.val))) })
    dbgr := maskDbgr (BitVec.ofNat 64 (l 0x120)) }

/-! ### Images in the save area (R221, R257) -/

/-- Bytes of the partitions that an image holds: code, register file, scratch and accumulator, at their pool offsets. -/
def imgPool (w : Word) : Nat := partLimit w 3

/-- Length of an image: the descriptor and the partitions (R221). -/
def imgLen (w : Word) : Nat := 4096 + imgPool w

/-- Write a virtual tile's image from its registers and pool; `from_` is where in the pool the write begins (0 for the
whole image, the register-file partition for a swap, R258). -/
def putImage (s : State) (ctx : Nat) (va : Word) (v : VRegs) (m : Mem) (from_ : Nat) : State :=
  let s := writeHbm s ctx va (descBytes v)
  writeHbm s ctx (va + BitVec.ofNat 64 (4096 + from_)) (m.bytes from_ (imgPool v.partw - from_))

/-- The strands' images are written and the pool is read, for an image that leaves the tile (R94, R354). -/
def takeImages (s : State) (t : TileId) : State :=
  let s := writeImages s t
  (eccRead s t true 0 (imgPool (s.tile t).v.partw)).1

/-- Load the partitions of an image into a tile's pool from an offset on, and the registers it carries. -/
def getImage (s : State) (ctx : Nat) (va : Word) (t : TileId) (v : VRegs) (from_ : Nat) : State :=
  let d := descLoad (readHbm s ctx va 4096) v
  let bs := readHbm s ctx (va + BitVec.ofNat 64 (4096 + from_)) (imgPool v.partw - from_)
  s.modTile t (fun T => { T with v := d, mem := T.mem.store from_ bs })

/-- Copy an image from one buffer to another (R221). -/
def copyImage (s : State) (ctx : Nat) (src dst : Word) (n : Nat) : State := writeHbm s ctx dst (readHbm s ctx src n)

end Sys2Proof.Machine
end

