-- ==== Sys2Proof/Machine/Records.lean ====
section
/-! DEFINITION. Trap records on their way (R352, R353): the row collectors, the trap units, their deliveries; the
background read of the pools (R354). -/

namespace Sys2Proof.Machine

open Sys2Proof

/-- Records of one event merge: the same CTX, CODE, SS and ATT (R352). -/
def recMeets (a b : TrapRec) : Bool := a.ctx == b.ctx && a.code == b.code && a.ss == b.ss && a.att == b.att

/-- DIE and ROW and COL of the first reporter (Table 19.2). -/
def recDie (r : TrapRec) : Nat := dieOf (r.phys.toNat % 4096)
/-- ROW. -/
def recRow (r : TrapRec) : Nat := rowOf (r.phys.toNat % 4096)
/-- COL. -/
def recCol (r : TrapRec) : Nat := colOf (r.phys.toNat % 4096)

/-- A trap unit delivers an entry: the record with COLMAP = 0, and the bitmap, row y in bytes 4y to 4y + 3 (R352, R353). -/
def deliver (s : State) (u : UnitEntry) : State :=
  s.report (.record (recBytes { u.rcd with colmap := 0 } ++ bytesOf 128 u.bitmap.toNat))

/-- The first entry of a list that satisfies a condition, and the others. -/
def takeFirst {α : Type} (p : α → Bool) : List α → Option (α × List α)
  | [] => none
  | x :: r => if p x then some (x, r) else (takeFirst p r).map (fun y => (y.1, x :: y.2))

/-- A die's trap unit takes a row's record (R352): merged into an entry, or a new entry, the oldest flushed if all 16 are
taken. -/
def unitTakes (s : State) (die row : Nat) (r : TrapRec) : State :=
  let bits : BitVec 1024 := (r.colmap.setWidth 1024) <<< (32 * row)
  if s.units.any (fun u => u.die == die && recMeets u.rcd r) then
    { s with units := s.units.map (fun (u : UnitEntry) =>
        if u.die == die && recMeets u.rcd r then { u with bitmap := u.bitmap ||| bits } else u) }
  else
    let s :=
      if (s.units.filter (fun u => u.die == die)).length < 16 then s
      else
        match takeFirst (fun (u : UnitEntry) => u.die == die) s.units with
        | some (u, rest) => deliver { s with units := rest } u
        | none => s
    let e : UnitEntry :=
      { die := die, rcd := r, bitmap := bits, at_ := s.cycle
        group := (locate s r.ctx.toNat r.vidx).map (fun x => x.1.id) }
    let s' : State := { s with units := s.units ++ [e] }
    s'.post 4096 (.trapUnitDeliver die)

/-- TRAP_RECORD_ARRIVAL (R352): at the sender's row collector. -/
def execTrapRecordArrival (s : State) : Host.Outcome State Fault Refusal :=
  match s.ev with
  | some (.trapRecordArrival r) =>
    let die := recDie r
    let row := recRow r
    let bit : BitVec 32 := 1 <<< recCol r
    let here (e : RowEntry) : Bool := e.die == die && e.row == row
    if s.rows.any (fun e => here e && recMeets e.rcd r) then
      .next { s with rows := s.rows.map (fun (e : RowEntry) =>
        if here e && recMeets e.rcd r then { e with rcd := ({ e.rcd with colmap := e.rcd.colmap ||| bit } : TrapRec) } else e) }
    else
      let r' : TrapRec := { r with colmap := r.colmap ||| bit }
      if (s.rows.filter here).length < 4 then
        let e : RowEntry := { die := die, row := row, rcd := r', at_ := s.cycle }
        let s' : State := { s with rows := s.rows ++ [e] }
        .next (s'.post 256 (.rowCollectorForward die row))
      else .next (unitTakes s die row r')
  | _ => .next s

/-- ROW_COLLECTOR_FORWARD (R352): an entry 256 cycles after it was taken. -/
def execRowCollectorForward (s : State) : Host.Outcome State Fault Refusal :=
  match s.ev with
  | some (.rowCollectorForward die row) =>
    match takeFirst (fun (e : RowEntry) => e.die == die && e.row == row && decide (e.at_ + 256 ≤ s.cycle)) s.rows with
    | some (e, rest) => .next (unitTakes { s with rows := rest } die row e.rcd)
    | none => .next s
  | _ => .next s

/-- TRAP_UNIT_DELIVER (R352): an entry 4,096 cycles after it was taken. -/
def execTrapUnitDeliver (s : State) : Host.Outcome State Fault Refusal :=
  match s.ev with
  | some (.trapUnitDeliver die) =>
    match takeFirst (fun (u : UnitEntry) => u.die == die && decide (u.at_ + 4096 ≤ s.cycle)) s.units with
    | some (u, rest) => .next (deliver { s with units := rest } u)
    | none => .next s
  | _ => .next s

/-- A release of a group delivers its entries (R352). -/
def flushGroup (s : State) (g : Nat) : State :=
  let mine := s.units.filter (fun u => u.group == some g)
  let s' : State := { s with units := s.units.filter (fun u => u.group != some g) }
  mine.foldl deliver s'

/-! ### The background read (R354) -/

/-- Bytes of the pool that are in use: every granule of the six partitions, the foreshore once per slot (R80, R258). -/
def poolUsed (T : Tile) : Nat :=
  partLimit T.v.partw 5 + (if T.slots.length ≤ 1 then 0 else (T.slots.length - 1) * granOf T.v.partw 5 * 16384)

/-- BACKGROUND_SCRUB_READ (R354): a RUNNING tile reads every line in use; what it finds is classed as any read's. -/
def execBackgroundScrubRead (s : State) : Host.Outcome State Fault Refusal :=
  match s.ev with
  | some (.backgroundScrubRead t) =>
    let T := s.tile t
    if !T.running then .next s
    else
      let used := poolUsed T
      let s := T.errs.foldl
        (fun s e =>
          match e.place with
          | .pool o => if o < used then (eccRead s t false (o / 8 * 8) 8).1 else s
          | _ => s) s
      .next (T.galley.foldl (fun s g => (eccSlot s t g).1) s)
  | _ => .next s

end Sys2Proof.Machine
end

