-- ==== Sys2Proof/Machine/Copy.lean ====
section
/-! DEFINITION. The copy channel of a tile (R180 to R186), stride gathers (R189, R190), the sluice crossbar (R187, R188),
and acknowledgements (R85, R183, R196). -/

namespace Sys2Proof.Machine

open Sys2Proof

/-- Change the channel of a tile. -/
def modChan (s : State) (t : TileId) (f : Chan → Chan) : State := s.modTile t (fun T => { T with chan := f T.chan })

/-- Change the command with a number. -/
def modCmd (s : State) (t : TileId) (q : Nat) (f : CopyCmd → CopyCmd) : State :=
  modChan s t (fun c => { c with cmds := c.cmds.map (fun x => if x.seq = q then f x else x) })

/-- A command leaves the channel and the FIFO it fills; an access of it that is parked is forgotten (R183). -/
def dropCmd (s : State) (t : TileId) (q : Nat) : State :=
  let s := modChan (s.withdraw (s.tile t).ctx t (fun w => w == .chan)) t (fun c => { c with cmds := c.cmds.filter (fun x => x.seq != q), park := false })
  let f (x : Fifo) : Fifo := { x with fillers := x.fillers.filter (fun y => y != .cmd q) }
  s.modTile t (fun T => { T with fa := f T.fa, fb := f T.fb })

/-! ### Issue (R180, R181, R184, R185) -/

/-- The tile and offset of an engine's range in local space, or its trap (R97, R181, R207). -/
def engPlace (s : State) (t : TileId) (ea : Word) (n : Nat) : Except Act (TileId × Nat) :=
  let a := ea.toNat
  match ownName t ea with
  | some o => if dataOk (s.tile t).v.partw o n then .ok (t, o) else .error (.trap .prot 0)
  | none =>
    if a < 2 ^ 24 ∨ 2 ^ 25 ≤ a then .error (.trap .prot 0)
    else
      let u := tileAt (clusterOf t) (a / 2 ^ 21 % 8)
      if !siblingOk s t u || !(partOf (s.tile u).v.partw (a % 2 ^ 21) n == some 2) then .error (.trap .prot 0)
      else if s.det t then .error (.trap .detban 0)
      else .ok (u, a % 2 ^ 21)

/-- The trap of R181, if any: `d` and `sp` are the space codes. -/
def cpyTrap (s : State) (t : TileId) (d sp : Nat) (dst src len : Word) : Option Act :=
  let n := len.toNat
  if d = 3 ∧ 1 < dst.toNat then some (.trap .copy 3)
  else if n < 16 ∨ 2 ^ 31 < n ∨ n % 16 ≠ 0 ∨ (d = 3 ∧ n % 256 ≠ 0) then some (.trap .copy 1)
  else if (d ≠ 3 ∧ dst.toNat % 16 ≠ 0) ∨ (sp ≠ 3 ∧ src.toNat % 16 ≠ 0) then some (.trap .misalign 0)
  else
    match (if d = 0 then engPlace s t dst n else .ok (t, 0)), (if sp = 0 then engPlace s t src n else .ok (t, 0)) with
    | .error e, _ => some e
    | _, .error e => some e
    | .ok p, .ok q =>
      if d = 0 ∧ sp = 0 ∧ p.1 = q.1 ∧ meets p.2 n q.2 n then some (.trap .copy 2)
      else if d = 0 && s.det t && foreAt (s.tile p.1).v.partw p.2 then some (.trap .detban 0)
      else none

/-- Does the command write what R204 holds back once the arrival has been sent: the versioned store, HBM, another tile? -/
def cpyLate (s : State) (t : TileId) (d : Nat) (dst : Word) : Bool :=
  (s.tile t).v.bstate == 2 && d != 3 &&
    !(d == 0 && (match ownName t dst with | some o => foreAt (s.tile t).v.partw o | none => false))

/-- Push a command, or wait (R180, R182). -/
def pushCmd (s : State) (t : TileId) (n : StrandNo) (c : CopyCmd) : Act :=
  let T := s.tile t
  if cpyLate s t c.dsp.toNat c.dst then .wait .release
  else if 16 ≤ T.chan.cmds.length then .wait .roomChan
  else
    let S := s.strand t n
    let c := { c with seq := T.chan.seq + 1, strand := n, pc := S.pc, pushed := s.cycle, after := beforeOf S }
    .done (modChan s t (fun x => { x with seq := x.seq + 1, cmds := x.cmds ++ [c] }))

/-- CPY (R185). -/
def execCpy (p : Pred) (fn fl ct : BitVec 4) (a b c : GSrc) (crc : BitVec 32) (gate : BitVec 3) (s : State) :
    Host.Outcome State Fault Refusal :=
  issue p 12 .tile [.g a, .g b, .g c] []
    (fun s t n =>
      let d := fn.extractLsb' 2 2
      let sp := fn.extractLsb' 0 2
      let len := gv s t n c
      if (fl.getLsbD 0 || fl.getLsbD 2) && !fl.getLsbD 1 then .trap .illegal 0
      else
        match cpyTrap s t d.toNat sp.toNat (gv s t n a) (gv s t n b) len with
        | some e => e
        | none =>
          pushCmd s t n
            { seq := 0, strand := n, pc := 0, dsp := d, ssp := sp, dst := gv s t n a, src := gv s t n b,
              len := len.toNat, ct := ct, fl := fl, crc := crc, gate := gate }) s

/-- Is the follow-on of `cpym` a legal `mma` (R185)? -/
def followOk (ty : BitVec 4) (x : Bool) (n : BitVec 2) : Bool :=
  (ty == 10 || ty == 11 || ty == 9 || ty == 12 || ty == 7) && !badPair ty n && (!x || ty == 10 || ty == 11)

/-- CPYM (R185). -/
def execCpym (p : Pred) (fn fl ct : BitVec 4) (a b c : GSrc) (ty : BitVec 4) (x : Bool) (k : BitVec 2) (gate : BitVec 3)
    (s : State) : Host.Outcome State Fault Refusal :=
  issue p 12 .tile [.g a, .g b, .g c] []
    (fun s t n =>
      let d := fn.extractLsb' 2 2
      let sp := fn.extractLsb' 0 2
      let len := gv s t n c
      if d ≠ 3 ∨ fl.getLsbD 2 ∨ (fl.getLsbD 0 && !fl.getLsbD 1) ∨ !followOk ty x k then .trap .illegal 0
      else
        match cpyTrap s t 3 sp.toNat (gv s t n a) (gv s t n b) len with
        | some e => e
        | none =>
          pushCmd s t n
            { seq := 0, strand := n, pc := 0, dsp := 3, ssp := sp, dst := gv s t n a, src := gv s t n b,
              len := len.toNat, ct := ct, fl := fl, crc := 0, gate := gate, follow := some (ty, x, k) }) s

/-! ### Status (R186) -/

/-- CES (Table 9.2). -/
def cesOf (c : Chan) : Word :=
  let held (h : CopyCmd) : Bool := h.fl.getLsbD 3 && !h.started
  let (h, g) : Bool × BitVec 3 := match c.cmds with | x :: _ => (held x, if held x then x.gate else 0) | [] => (false, 0)
  ((0 : BitVec 24) ++ c.govf ++ (0 : BitVec 8) ++ BitVec.ofNat 8 c.cmds.length ++ g ++ BitVec.ofBool h ++
    BitVec.ofBool c.park ++ (0 : BitVec 9) ++ BitVec.ofBool c.fault ++ BitVec.ofBool (!c.cmds.isEmpty) : BitVec 64)

/-- ENG_ST (R186). -/
def execEngSt (p : Pred) (d : BitVec 5) (s : State) : Host.Outcome State Fault Refusal :=
  issue p 12 .tile [] [.g d] (fun s t n => .done (setG s t n d (cesOf (s.tile t).chan))) s

/-- ENG_FLT (R186). -/
def execEngFlt (p : Pred) (d : BitVec 5) (s : State) : Host.Outcome State Fault Refusal :=
  issue p 12 .tile [] [.g d]
    (fun s t n =>
      .done (modChan (setG s t n d (s.tile t).chan.efr) t (fun c =>
        { c with fault := false, efr := c.efr &&& ~~~(0x8000000000000000 : Word) }))) s

/-- ENG_CRC (R186). -/
def execEngCrc (p : Pred) (d : BitVec 5) (s : State) : Host.Outcome State Fault Refusal :=
  issue p 12 .tile [] [.g d] (fun s t n => .done (setG s t n d ((s.tile t).chan.crc.setWidth 64))) s

/-- ENG_Q (R186). -/
def execEngQ (p : Pred) (s : State) : Host.Outcome State Fault Refusal :=
  issue p 12 .tile [] []
    (fun s t _ =>
      let q := (s.tile t).chan.cmds.map (fun c => c.seq)
      if q = [] then .done s else .block (.engq q) s) s

/-! ### Sluice terms (R187, R188) -/

/-- Is a descriptor one that `sxw.set` takes (R187)? -/
def termOk (w : Word) : Bool :=
  !w.getLsbD 63 ||
    (w.extractLsb' 0 18 != 0 && w.extractLsb' 24 16 != 0 && (w.getLsbD 62 || decide ((w.extractLsb' 58 4).toNat < 8)))

/-- Write a term; it takes part from the next cycle on. -/
def setTerm (s : State) (t : TileId) (k : BitVec 3) (w : Word) : State :=
  let old := (s.tile t).v.terms[k.toNat]
  let s := s.modV t (fun v => { v with terms := v.terms.set k.toNat w })
  s.modTile t (fun T =>
    if T.oldTerms.any (fun x => x.1 == k.toNat) then T else { T with oldTerms := T.oldTerms ++ [(k.toNat, old)] })

/-- SXW_SET (R188). -/
def execSxwSet (p : Pred) (k : BitVec 3) (a : GSrc) (s : State) : Host.Outcome State Fault Refusal :=
  issue p 12 .control [.g a] []
    (fun s t n =>
      let w := maskTerm (gv s t n a)
      if !termOk w then .trap .illegal 0
      else .done (setTerm s t k w)) s

/-- SXW_CLR (R188). -/
def execSxwClr (p : Pred) (k : BitVec 3) (s : State) : Host.Outcome State Fault Refusal :=
  issue p 12 .control [] [] (fun s t _ => .done (setTerm s t k 0)) s

/-- SXW_RD (R188). -/
def execSxwRd (p : Pred) (k : BitVec 3) (d : BitVec 5) (s : State) : Host.Outcome State Fault Refusal :=
  issue p 12 .tile [] [.g d] (fun s t n => .done (setG s t n d (s.tile t).v.terms[k.toNat])) s

/-- The term as the crossbar sees it in this cycle (R188). -/
def termNow (T : Tile) (k : Fin 8) : Word :=
  match T.oldTerms.find? (fun x => x.1 == k.val) with
  | some x => x.2
  | none => T.v.terms[k]

/-- Does an enabled term fire (R187)? -/
def termFires (T : Tile) (w : Word) : Bool :=
  w.getLsbD 63 &&
  (List.finRange 16).all (fun i => !w.getLsbD i.val || decide ((w.extractLsb' 24 16).toNat ≤ (T.v.c[i]).toNat)) &&
  (!w.getLsbD 16 || T.arrQ.isEmpty) && (!w.getLsbD 17 || T.addQ.isEmpty)

/-- SLUICE_TERM_FIRE (R178, R187). -/
def execSluiceTermFire (s : State) : Host.Outcome State Fault Refusal :=
  match s.ev with
  | some (.sluiceTermFire t k) =>
    let T := s.tile t
    let w := termNow T k
    if T.running && termFires T w then
      let thr : BitVec 32 := (w.extractLsb' 24 16).setWidth 32
      let s := s.modV t (fun v => { v with c := v.c.mapFinIdx (fun i c _ => if w.getLsbD i then c - thr else c) })
      let tgt := w.extractLsb' 58 4
      if w.getLsbD 62 then .next (s.modTile t (fun T => { T with raises := T.raises ++ [tgt] }))
      else
        .next (modChan s t (fun c =>
          let g := (c.gates[tgt.toNat]?).getD 0
          if g = 255 then { c with govf := c.govf ||| (1 <<< tgt.toNat) }
          else { c with gates := c.gates.setIfInBounds tgt.toNat (g + 1) }))
    else .next s
  | _ => .next s

/-! ### Stride gathers (R189, R190) -/

/-- Bytes of an element of a descriptor. -/
def descEsz (d : Word) : Nat := 2 ^ (d.extractLsb' 57 2).toNat
/-- Rows per column. -/
def descRows (d : Word) : Nat := (d.extractLsb' 45 12).toNat + 1

/-- Why a stack refuses a gather (R189, Table 9.6): 0 it does not. A row stride below 1 is no valid descriptor. -/
def gatherKind (d base : Word) : Nat :=
  let ty := (d.extractLsb' 59 4).toNat
  if !d.getLsbD 63 || decide (13 ≤ ty) || d.extractLsb' 0 24 == 0 then 1
  else if ty = 12 then 2
  else if base.toNat % descEsz d ≠ 0 then 3
  else 0

/-- Address of element e of a gather (R189). -/
def gatherAddr (d base : Word) (e : Nat) : Nat :=
  (base.toNat + e / descRows d * (d.extractLsb' 24 21).toNat +
    e % descRows d * (d.extractLsb' 0 24).toNat * descEsz d) % 2 ^ 64

/-- The entry of the context's range, if it lies in it (R189). -/
def sgtEntry (s : State) (t : TileId) (e : BitVec 4) : Option Nat :=
  let x := s.ctx (s.tile t).ctx
  if e.toNat < x.sgtN ∧ x.sgtLo + e.toNat < 16 then some (x.sgtLo + e.toNat) else none

/-- The descriptor that every stack holds at an entry. -/
def descAt (s : State) (i : Nat) : Word := ((s.stk[0]).table[i]?).getD 0

/-- SGT_SET (R190). -/
def execSgtSet (p : Pred) (e : BitVec 4) (desc : Word) (s : State) : Host.Outcome State Fault Refusal :=
  issue p 16 .tile [] []
    (fun s t _ =>
      match sgtEntry s t e with
      | none => .trap .prot 0
      | some i => .done { s with stk := s.stk.map (fun k => { k with table := k.table.setIfInBounds i desc }) }) s

/-- SGT_RD (R190). -/
def execSgtRd (p : Pred) (e : BitVec 4) (d : BitVec 5) (s : State) : Host.Outcome State Fault Refusal :=
  issue p 16 .tile [] [.g d]
    (fun s t n =>
      match sgtEntry s t e with
      | none => .trap .prot 0
      | some i => .done (setG s t n d (descAt s i))) s

/-- SGT_FLT (R190). -/
def execSgtFlt (p : Pred) (k : BitVec 3) (d : BitVec 5) (s : State) : Host.Outcome State Fault Refusal :=
  issue p 16 .tile [] [.g d]
    (fun s t n =>
      let x := s.stk[k.toNat]
      let s := setG s t n d x.sgf
      .done { s with stk := s.stk.set k.toNat { x with sgf := x.sgf &&& ~~~(0x8000000000000000 : Word) } }) s

/-- SGT_GO (R190). -/
def execSgtGo (p : Pred) (e : BitVec 4) (dst : BitVec 2) (ct : BitVec 4) (a b c : GSrc) (s : State) :
    Host.Outcome State Fault Refusal :=
  issue p 16 .tile [.g a, .g b, .g c] []
    (fun s t n =>
      if dst = 3 ∨ (dst ≠ 0 ∧ b.r ≠ 0) then .trap .illegal 0
      else
        match sgtEntry s t e with
        | none => .trap .prot 0
        | some i =>
          let d := descAt s i
          let cols := (gv s t n c).toNat
          let len := cols * descRows d * descEsz d
          let to_ := gv s t n b
          if cols = 0 ∨ 65536 < cols ∨ len < 16 ∨ 2 ^ 31 < len ∨ len % 16 ≠ 0 ∨ (dst ≠ 0 ∧ len % 256 ≠ 0) then
            .trap .copy 1
          else if dst = 0 ∧ to_.toNat % 16 ≠ 0 then .trap .misalign 0
          else
            let fore := match ownName t to_ with | some o => foreAt (s.tile t).v.partw o | none => false
            match (if dst = 0 then engPlace s t to_ len else .ok (t, 0)) with
            | .error x => x
            | .ok _ =>
              if dst = 0 && s.det t && fore then .trap .detban 0
              else
                pushCmd s t n
                  { seq := 0, strand := n, pc := 0, dsp := if dst = 0 then 0 else 3, ssp := 2,
                    dst := if dst = 0 then to_ else BitVec.ofNat 64 (dst.toNat - 1), src := gv s t n a, len := len,
                    ct := ct, fl := 0, crc := 0, gate := 0, gather := some (e.toNat, i) }) s

/-! ### Commands run (R182, R183) -/

/-- A command ends without raising its counter (R183): EFR, and the strand's trap with DEFER. -/
def endCmd (s : State) (t : TileId) (c : CopyCmd) (code : Cause) (kind info : Nat) : State :=
  let s := dropCmd (setEfr s t kind c.ct info) t c.seq
  refuse s t c.strand { code := code, info := 0, pc := c.pc, engine := true }

/-- COPY_ACCESS_REFUSED (R183). -/
def execCopyAccessRefused (s : State) : Host.Outcome State Fault Refusal :=
  match s.ev with
  | some (.copyAccessRefused t code addr) =>
    match (s.tile t).chan.cmds with
    | c :: _ => .next (if c.started then endCmd s t c code (if code = .detban then 4 else 1) addr.toNat else s)
    | [] => .next s
  | _ => .next s

/-- The stack that a physical address of a context's space lies on. An address without a translation lies on none, and its
refusal is recorded in stack 0: R189 names only "the stack" (log entry 75). -/
def stackOf (s : State) (ctx : Nat) (va : Word) : Nat :=
  match translate s ctx va 1 false with
  | .ok _ dev frame => hbmKey (s.ctx ctx).mode dev (frame * 32768 + va.toNat % 32768) / 2 ^ 40
  | _ => 0

/-- GATHER_REFUSED (R189): the stack's SGF records it and the command ends as R183 states. A record that stands is
overwritten: Table 9.6 does not say that it holds (log entry 75). -/
def execGatherRefused (s : State) : Host.Outcome State Fault Refusal :=
  match s.ev with
  | some (.gatherRefused t kind) =>
    match (s.tile t).chan.cmds with
    | c :: _ =>
      match c.gather with
      | some (e, _) =>
        let k := stackOf s (s.tile t).ctx c.src
        let w : Word := BitVec.ofNat 64 (2 ^ 63 + kind.toNat * 2 ^ 60 + e % 16 * 2 ^ 56 + c.src.toNat % 2 ^ 51)
        let s := { s with stk := s.stk.setIfInBounds k { ((s.stk[k]?).getD {}) with sgf := w } }
        .next (endCmd s t c .gather 3 c.src.toNat)
      | none => .next s
    | [] => .next s
  | _ => .next s

/-- May the head of a channel start (R180, R182, R187)? -/
def copyStarts (s : State) (t : TileId) : Bool :=
  let T := s.tile t
  match T.chan.cmds with
  | c :: _ =>
    !c.started && decide (c.pushed + 4 ≤ s.cycle) && beforeMet s t c.strand c.after &&
      (!c.fl.getLsbD 3 || T.chan.gates[c.gate.toNat] != 0)
  | [] => false

/-- Cycles until the first bytes of a command have come through the engine (log entry 9). A row that a replayed fill writes is
not there yet for taps bound after its push (R390). -/
def copyLead : Nat := 64

/-- COPY_CMD_START (R180, R184, R187). -/
def execCopyCmdStart (s : State) : Host.Outcome State Fault Refusal :=
  match s.ev with
  | some (.copyCmdStart t) =>
    match (s.tile t).chan.cmds with
    | c :: _ =>
      if copyStarts s t then
        let s := modChan s t (fun x =>
          { x with gates := if c.fl.getLsbD 3 then x.gates.set c.gate.toNat (x.gates[c.gate.toNat] - 1) else x.gates
                   crc := if c.fl.getLsbD 0 then 0xFFFFFFFF else x.crc })
        let s := modCmd s t c.seq (fun x => { x with started := true, due := s.cycle + (copyLead + (c.len + 255) / 256) })
        .next (if c.dsp = 3 then
            modFifo s t (c.dst == 1) (fun q => { q with fillers := q.fillers ++ [.cmd c.seq] })
          else s)
      else .next s
    | [] => .next s
  | _ => .next s

/-- A command waits on a page (R183, R294). -/
def parkCmd (s : State) (t : TileId) (va : Word) (write : Bool) : State :=
  (modChan s t (fun c => { c with park := true })).postPage
    { ctx := (s.tile t).ctx, tile := t, who := .chan, va := va, write := write }

/-- Read HBM for the channel: the bytes, or the state in which the command parks, waits or is refused. -/
def chanHbm (s : State) (t : TileId) (va : Word) (n : Nat) : Except State (State × List Byte) :=
  let ctx := (s.tile t).ctx
  match firstBlocked s ctx va n false with
  | none => .ok (touchPages s ctx va n, readHbm s ctx va n)
  | some (a, .refused) => .error (s.post 0 (.copyAccessRefused t .prot a))
  | some (_, .behind) => .error s
  | some (a, _) => .error (parkCmd s t a false)

/-- Read local space for the channel (R182, R207, R256). -/
def chanLocal (s : State) (t : TileId) (c : CopyCmd) (ea : Word) (n : Nat) : Except State (State × List Byte) :=
  let u := match ownName t ea with | some _ => t | none => tileAt (clusterOf t) (ea.toNat / 2 ^ 21 % 8)
  if u ≠ t ∧ !(s.cluster (clusterOf t)).gate then .error s
  else
    match localRead s u c.strand.val (ea.toNat % 2 ^ 21) n with
    | .ok r => .ok r
    | .error (.ecc s) => .error (modCmd s t c.seq (fun x => { x with stuck := true }))
    | .error (.conflict i) => .error (vote (modCmd s t c.seq (fun x => { x with stuck := true })) t .conflict 0 0 i)
    | .error (.galley _) => .error s

/-- Read global space for the channel: the standing version (R106, R182). -/
def chanGlobal (s : State) (t : TileId) (ea : Word) (n : Nat) : Except State (State × List Byte) :=
  let ctx := (s.tile t).ctx
  if segAway s ctx ea then
    -- another chip's answer (log entry 71): any value, a refusal, or none yet
    let a := s.freshNat
    let v := a.2.freshNat
    if a.1 % 3 = 0 then .ok (v.2, bytesOf n v.1)
    else if a.1 % 3 = 1 then .error (v.2.post 0 (.copyAccessRefused t .prot ea))
    else .error v.2
  else
    match (if eaBad ea then none else segCheck s ctx ea segLoad n), locate s ctx (eaIdx ea) with
    | some (u, k), some (g, _, _) =>
      if s.cycle < (s.tile u).busyUntil then .error s
      else
        let q := remoteBytes s ctx g u k (eaIdx ea) (eaOfs ea) n
        if q.2.1 then .ok (q.1, q.2.2) else .error q.1
    | _, _ =>
      -- the first 16-byte unit that is refused is the faulting address
      let bad := (List.range (n / 16)).find? (fun i =>
        eaBad ea || (segCheck s ctx (ea + BitVec.ofNat 64 (16 * i)) segLoad 16).isNone)
      .error (s.post 0 (.copyAccessRefused t .prot (ea + BitVec.ofNat 64 (16 * bad.getD 0))))

/-- The elements of a gather, from byte `ofs` of its output (R189). -/
def chanGather (s : State) (t : TileId) (c : CopyCmd) (d : Word) (ofs n : Nat) : Except State (State × List Byte) :=
  let z := descEsz d
  (List.range (n / z)).foldl (fun r i =>
    match r with
    | .error s => .error s
    | .ok (s, bs) =>
      match chanHbm s t (BitVec.ofNat 64 (gatherAddr d c.src (ofs / z + i))) z with
      | .error s => .error s
      | .ok x => .ok (x.1, bs ++ x.2)) (.ok (s, []))

/-- Parts of a range that do not cross a multiple of 4096: no access straddles two partitions or pages. -/
def cut4k (ea : Word) (n : Nat) : List (Word × Nat) :=
  let r := 4096 - ea.toNat % 4096
  if n ≤ r then [(ea, n)] else [(ea, r), (ea + BitVec.ofNat 64 r, n - r)]

/-- Source bytes of a command from offset `ofs` on (R182). -/
def chanRead (s : State) (t : TileId) (c : CopyCmd) (ofs n : Nat) : Except State (State × List Byte) :=
  match c.gather with
  | some (_, i) => chanGather s t c (descAt s i) ofs n
  | none =>
    if c.ssp = 3 then .ok (s, (List.range n).map (fun i => (c.src.extractLsb' (8 * (i % 4)) 8)))
    else
      (cut4k (c.src + BitVec.ofNat 64 ofs) n).foldl (fun r p =>
        match r with
        | .error s => .error s
        | .ok (s, bs) =>
          match (if c.ssp = 0 then chanLocal s t c p.1 p.2 else if c.ssp = 1 then chanGlobal s t p.1 p.2
                 else chanHbm s t p.1 p.2) with
          | .error s => .error s
          | .ok x => .ok (x.1, bs ++ x.2)) (.ok (s, []))

/-- Write bytes of a command at offset `ofs` of its destination (R182): on, or the state in which it stops. -/
def chanWrite (s : State) (t : TileId) (c : CopyCmd) (ofs : Nat) (bs : List Byte) : Except State State :=
  let ea := c.dst + BitVec.ofNat 64 ofs
  if c.dsp = 0 then
    let u := match ownName t ea with | some _ => t | none => tileAt (clusterOf t) (ea.toNat / 2 ^ 21 % 8)
    let o := ea.toNat % 2 ^ 21
    if u ≠ t ∧ !(s.cluster (clusterOf t)).gate then .error s
    else if claimed (s.tile u).v o bs.length then .error (s.post 0 (.copyAccessRefused t .prot ea))
    else
      let r := engineWrite s u (.engine c.strand (posOf t)) .plain o bs
      .ok (if r.2 then r.1 else modCmd r.1 t c.seq (fun x => { x with lost := true }))
  else if c.dsp = 1 then
    if eaBad ea then .error (s.post 0 (.copyAccessRefused t .prot ea))
    else
      let r := sendPacket s t c.strand c.pc ea (.bytes bs.length (BitVec.ofNat 1024 (natOf bs))) true
      .ok (match r.2 with
        | some i => modCmd r.1 t c.seq (fun x => { x with wait := x.wait ++ [(i, ea)] })
        | none => r.1)
  else if c.dsp = 2 then
    match firstBlocked s (s.tile t).ctx ea bs.length true with
    | none =>
      let r := enterLines s t c.strand c.pc ea.toNat bs
      .ok (if r.2 then r.1 else modCmd r.1 t c.seq (fun x => { x with lost := true }))
    | some (a, .refused) => .error (s.post 0 (.copyAccessRefused t .prot a))
    | some (a, _) => .error (parkCmd s t a true)
  else
    let fb := c.dst == 1
    let q := (s.tile t).fifo fb
    if q.fillers.head? == some (.cmd c.seq) && q.room then .ok (pushRow s t fb (BitVec.ofNat 2048 (natOf bs)) unitScale)
    else .error s

/-- Bytes that move together: 16 where an access may be refused at any byte, else up to 4096. -/
def chanStep (s : State) (t : TileId) (c : CopyCmd) : Nat :=
  let rem := c.len - c.done
  if c.dsp = 3 then 256
  else
    let fine := c.ssp = 1 ∨ c.dsp = 1 ∨ (List.range 8).any (fun i =>
      (s.tile (tileAt (clusterOf t) i)).v.coll.any (fun x => x.st == 2 || x.st == 3))
    let room (a : Word) : Nat := 4096 - (a + BitVec.ofNat 64 c.done).toNat % 4096
    let k := if fine then 16 else
      (if c.ssp = 3 ∨ c.gather.isSome then room c.dst
       else if room c.src < room c.dst then room c.src else room c.dst)
    if rem < k then rem else k

/-- Move the next bytes of the head command. -/
def chanMove (s : State) (t : TileId) : Except State State :=
  match (s.tile t).chan.cmds with
  | [] => .error s
  | c :: _ =>
    if c.len ≤ c.done then .error s
    else
      let k := chanStep s t c
      match chanRead s t c c.done k with
      | .error s => .error s
      | .ok (s, bs) =>
        match chanWrite s t c c.done bs with
        | .error s => .error s
        | .ok s =>
          let s := modCmd s t c.seq (fun x => { x with done := x.done + k })
          .ok (if c.fl.getLsbD 1 then modChan s t (fun x => { x with crc := crc32c x.crc bs }) else s)

/-- The command is performed (R182, R184): its CRC is compared and its counter raised. One with a line that could not be
written is not (R197, R203): it leaves, and raises nothing. -/
def finishCmd (s : State) (t : TileId) (c : CopyCmd) : State :=
  if c.lost then dropCmd s t c.seq
  else
  let s := addCounter (dropCmd s t c.seq) t c.ct 1
  let v := (s.tile t).chan.crc ^^^ 0xFFFFFFFF
  if c.fl.getLsbD 2 && v != c.crc then
    refuse (setEfr s t 2 c.ct v.toNat) t c.strand { code := .crc, info := 0, pc := c.pc, engine := true }
  else s

/-- Is there something for the head command of a channel to do now? -/
def copyRuns (s : State) (t : TileId) : Bool :=
  let T := s.tile t
  match T.chan.cmds with
  | c :: _ =>
    c.started && decide (c.due ≤ s.cycle) && !T.chan.park && !c.stuck &&
      (decide (c.done < c.len) || (c.wait.isEmpty && c.follow.isNone))
  | [] => false

/-- COPY_CMD_PERFORMED (R182, R184): the bytes that can move do, in increasing address order; once every write has been
performed the counter rises. -/
def execCopyCmdPerformed (s : State) : Host.Outcome State Fault Refusal :=
  match s.ev with
  | some (.copyCmdPerformed t) =>
    match (s.tile t).chan.cmds with
    | c :: _ =>
      if !copyRuns s t then .next s
      else
        let bad := match c.gather with | some (_, i) => gatherKind (descAt s i) c.src | none => 0
        if bad ≠ 0 then .next (s.post 0 (.gatherRefused t (BitVec.ofNat 3 bad)))
        else
          let r := (List.range ((c.len - c.done) / 16 + 1)).foldl (fun r _ =>
            match r with
            | .error s => .error s
            | .ok s => chanMove s t) (.ok s : Except State State)
          let s := match r with | .error s => s | .ok s => s
          match (s.tile t).chan.cmds with
          | x :: _ => .next (if x.seq = c.seq ∧ x.len ≤ x.done ∧ x.wait = [] ∧ x.follow = none then finishCmd s t x else s)
          | [] => .next s
    | [] => .next s
  | _ => .next s

/-- CPYM_FOLLOWON (R185): the `mma` enters the array queue, then the counter rises. -/
def execCpymFollowon (s : State) : Host.Outcome State Fault Refusal :=
  match s.ev with
  | some (.cpymFollowon t) =>
    match (s.tile t).chan.cmds with
    | c :: _ =>
      match c.follow with
      | some (ty, x, n) =>
        .next (if c.started ∧ c.len ≤ c.done ∧ !arrFull (s.tile t) then
            finishCmd (pushMma s t c.strand c.pc {} ty x n (BitVec.allOnes 32) (BitVec.allOnes 32)) t c
          else s)
      | none => .next s
    | [] => .next s
  | _ => .next s

/-! ### Acknowledgements (R85, R183, R196, R197, R203) -/

/-- The cause of a refused access. -/
def ackCause (a : Ack) : Cause :=
  match a with
  | .conflict => .conflict
  | .galley => .galley
  | .detban => .detban
  | _ => .prot

/-- An acknowledgement of an engine's write. -/
def engineAck (s : State) (o : Origin) (a : Ack) (info : BitVec 32) : State :=
  match (s.tile o.tile).chan.cmds.find? (fun c => c.wait.any (fun i => i.1 == o.op)) with
  | none => s
  | some c =>
    let addr := assocGet (0 : Word) o.op c.wait
    match a with
    | .accept => modCmd s o.tile c.seq (fun x => { x with wait := x.wait.filter (fun i => i.1 != o.op) })
    | .refused => endCmd s o.tile c .prot 1 addr.toNat
    | .detban => endCmd s o.tile c .detban 4 addr.toNat
    -- no EFR records it: CLASS 0 (R351)
    | _ => refuse (dropCmd s o.tile c.seq) o.tile c.strand { code := ackCause a, info := info, pc := c.pc, engine := false }

/-- ACK_ARRIVAL (R85, R112, R196, R203): the access is performed, or the strand is told of its refusal. -/
def execAckArrival (s : State) : Host.Outcome State Fault Refusal :=
  match s.ev with
  | some (.ackArrival o a info) =>
    if o.engine then .next (engineAck s o a info)
    else if opOut s o.tile o.strand o.op then
      let s := opDone s o.tile o.strand o.op
      .next (if a = .accept then s
        else refuse s o.tile o.strand { code := ackCause a, info := info, pc := o.pc, engine := false })
    else .next s
  | _ => .next s

end Sys2Proof.Machine
end

