-- ==== Sys2Proof/Machine/Units.lean ====
section
/-! DEFINITION. The steps of the array, the adder, the drain engine and the sampler: FIFO units complete (R130, R131,
R154), array commands start and write (R133 to R138), adder commands (R142 to R146), drains (R148), alias-table builds
(R160), sampled commands (R162, R166). -/

namespace Sys2Proof.Machine

open Sys2Proof

/-! ### FIFO units -/

/-- FIFO_UNIT_COMPLETE (R130, R131, R154, R174): the tap adds the unit's norms; a sink discards it. -/
def execFifoUnitComplete (s : State) : Host.Outcome State Fault Refusal :=
  match s.ev with
  | some (.fifoUnitComplete t fb) =>
    let q := (s.tile t).fifo fb
    if q.part.length < 32 then .next s
    else
      let b := q.bind
      let own := q.fillers.head? == some .binding
      let u : Unit_ :=
        { rows := q.part, scales := q.partSc, ty := if own then b.ty else 0, bound := own, tap := own && b.tap,
          sink := own && b.sink }
      let s := if u.tap then tapUnit s t fb u else s
      let s := modFifo s t fb (fun q =>
        { q with part := [], partSc := [], units := if u.sink then q.units else q.units ++ [u],
                 bind := if u.sink then { q.bind with left := q.bind.left + 1 } else q.bind })
      .next (if own && b.live && decide (recPieces b.rcd ≤ b.next) && !(b.slab && drawnAhead (s.tile t)) then
          exhaustF s t fb
        else s)
  | _ => .next s

/-! ### The array (R133 to R138) -/

/-- The value of a partial tile that a reader may take: the last writer issued before it has written (R133, R134). -/
def ptReady (T : Tile) (n : BitVec 2) (need : Nat) : Bool := decide ((T.ptOf n.toNat).wrote = need)

/-- Can the command at the head of the array queue start? -/
def arrStarts (s : State) (t : TileId) : Bool :=
  let T := s.tile t
  match T.arrQ with
  | [] => false
  | c :: _ =>
    decide (T.arrFree ≤ s.cycle) && !T.stuck && beforeMet s t c.strand c.after &&
    (match c.op with
     | .mma _ _ _ _ _ => T.fa.ready && T.fb.ready
     | .mrep fb n w =>
       let q := T.fifo fb
       decide (n = 0) || (q.held.isEmpty && decide (w ≤ q.units.length))
     | .ptst _ n _ need => ptReady T n need
     | .ptld _ _ _ => true
     | .smp _ _ _ _ _ _ => T.drawn.isSome && T.fa.ready && T.fb.ready
     | .smpl _ _ _ _ _ _ _ =>
       T.drawn.isSome && T.fa.ready && T.fb.ready && !(T.samp.run.map (fun r => r.next.isSome)).getD false
     | .svarUp n _ need => ptReady T n need
     | .sclr _ => true)

/-- The head of the array queue leaves it. -/
def popArr (s : State) (t : TileId) : State := s.modTile t (fun T => { T with arrQ := T.arrQ.drop 1 })

/-- An operation is under way: it writes no earlier than `lat` cycles from now and frees the array after `hold`. -/
def flyArr (s : State) (t : TileId) (f : ArrFly) (hold : Nat) : State :=
  (s.modTile t (fun T => { T with arrFly := T.arrFly ++ [f], arrFree := s.cycle + hold })).post (f.due - s.cycle)
    (.partialTileWritten t)

/-- An operation has finished reading in 64 cycles: its units are freed (R131, R133). -/
def freeUnits (s : State) (t : TileId) : State :=
  let T := s.tile t
  if T.arrFree ≤ s.cycle + 1 ∧ !(T.fa.reading.isEmpty && T.fb.reading.isEmpty) then
    s.modTile t (fun T => { T with fa := T.fa.freed, fb := T.fb.freed })
  else s

/-- Take one unit from each FIFO (R131, R132). -/
def takeUnits (s : State) (t : TileId) : Option (State × Unit_ × Unit_) :=
  let T := s.tile t
  match T.fa.freed.take, T.fb.freed.take with
  | some (u, a), some (v, b) => some (s.modTile t (fun T => { T with fa := a, fb := b }), u, v)
  | _, _ => none

/-- The residue check of an operation that leaves the queue (R138, R140): whether it differs, and the partial tile where. An
armed injection complements the residue of the first element of tile n, masked or not (R135), and is used up. -/
def arrCheck (s : State) (t : TileId) (n : Nat) (differs : Option Nat) : State × Bool × Nat :=
  let inj := (s.tile t).inja
  let r := residueCheck (s.modTile t (fun T => { T with inja := false })) t 0 (!inj && differs.isNone)
  (r.1, !r.2, if inj then n else differs.getD n)

/-- The weights of a batch by contraction index (R162). -/
def drawWeights (w : List (BitVec 32)) : List Val := (List.range 256).map (fun k => f32 (w.getD (k / 32) 0))

/-- The batch estimate of R162. -/
def batchTile (ty : BitVec 4) (x : Bool) (u v : Unit_) (w : List (BitVec 32)) : PtVal :=
  groupTile ty (otherTy ty x) u v 0 256 (BitVec.allOnes 32) (BitVec.allOnes 32) (drawWeights w)

/-- The partial tile of a batch, if a residue differs in it: the weights enter the check as scales (R162). -/
def batchDiffers (ty : BitVec 4) (x : Bool) (n : Nat) (u v : Unit_) (w : List (BitVec 32)) : Option Nat :=
  if groupAgrees ty (otherTy ty x) u v 0 256 (BitVec.allOnes 32) (BitVec.allOnes 32) (drawWeights w) then none else some n

/-- A batch of the running `smpl` has the array from cycle `st` on (R166): it takes its units, and its decision comes 80
cycles after its start. -/
def smplBegin (s : State) (t : TileId) (ty : BitVec 4) (x : Bool) (n : BitVec 2) (st : Nat) : State :=
  match takeUnits s t with
  | none => s
  | some (s, u, v) =>
    let w := (s.tile t).drawn.getD []
    let r := arrCheck s t n.toNat (batchDiffers ty x n.toNat u v w)
    let s := r.1.modTile t (fun T =>
      { T with drawn := none, arrFree := st + 64
               samp := { T.samp with run := T.samp.run.map (fun q =>
                 { q with start := st, busy := true, bad := r.2.1, last := batchTile ty x u v w, undo := none, next := none }) } })
    s.post (st + 80 - s.cycle) (.smplBatchDecision t)

/-- The 1024 FP32 words of a block of 4 KiB. -/
def ptWords (bs : List Byte) : List (BitVec 32) := (List.range 1024).map (wordAt bs)

/-- ARRAY_OP_START (R131 to R133): the command at the head starts; `mrep`, `svar.up` and `sclr` take effect at once. The last
two are not residue-checked and leave an armed injection armed: R140 names the commands it acts on as mma, mmam and the
sampler's array commands, and R170 says which of these are checked (log entry 52). -/
def startArr (s : State) (t : TileId) (c : ArrCmd) : State :=
  let T := s.tile t
  match c.op with
  | .mma ty x n rows cols =>
    match takeUnits s t with
    | none => s
    | some (s, u, v) =>
      let outs := mmaTiles ty x n.toNat u v rows cols
      let r := arrCheck s t n.toNat (mmaDiffers ty x n.toNat u v rows cols)
      flyArr (popArr r.1 t) t { cmd := c, outs := outs, bad := r.2.1, badPt := r.2.2, due := s.cycle + 72 } 64
  | .mrep fb n w =>
    let s := popArr s t
    if n = 0 then s
    else modFifo s t fb (fun q => { q with held := q.units.take w, units := q.units.drop w, pos := 0, uses := w * (n + 1) })
  | .ptst _ n _ _ =>
    flyArr (popArr s t) t { cmd := c, outs := [(n.toNat, (T.ptOf n.toNat).val)], bad := false, badPt := 0,
                            due := s.cycle + 8 } 8
  | .ptld _ n a =>
    match localRead s t c.strand.val a 4096 with
    | .ok r =>
      flyArr (popArr r.1 t) t { cmd := c, outs := [(n.toNat, ⟨ptWords r.2, BitVec.allOnes 1024⟩)], bad := false, badPt := 0,
                                due := s.cycle + 8 } 8
    | .error (.ecc s) => s.modTile t (fun T => { T with stuck := true })
    | .error (.conflict i) => vote (s.modTile t (fun T => { T with stuck := true })) t .conflict 0 0 i
    | .error (.galley _) => s
  | .smp ty x n _ _ _ =>
    match takeUnits s t with
    | none => s
    | some (s, u, v) =>
      let outs := [(n.toNat, batchTile ty x u v (T.drawn.getD []))]
      let r := arrCheck s t n.toNat (batchDiffers ty x n.toNat u v (T.drawn.getD []))
      let s := flyArr (popArr r.1 t) t { cmd := c, outs := outs, bad := r.2.1, badPt := r.2.2, due := s.cycle + 72 } 64
      s.modTile t (fun T => { T with drawn := none })
  | .smpl ty x n _ _ _ _ =>
    -- before the decision on the last batch, only the cycle is noted: a batch that is discarded takes nothing
    if (T.samp.run.map (fun r => r.busy)).getD false then
      modSamp s t (fun m => { m with run := m.run.map (fun r => { r with next := some s.cycle }) })
    else smplBegin s t ty x n s.cycle
  | .svarUp n r _ =>
    let q := sampRead s t welfordErr
    if q.2 then modSamp (popArr q.1 t) t (fun m => welford m (((T.ptOf n.toNat).val.vals.drop (32 * r)).take 32)) else q.1
  | .sclr k => modSamp (if k = 1 then popArr s t else sampRenew (popArr s t) t welfordErr) t (sclr k)

/-- ARRAY_OP_START (R131 to R133). -/
def execArrayOpStart (s : State) : Host.Outcome State Fault Refusal :=
  match s.ev with
  | some (.arrayOpStart t) =>
    match (s.tile t).arrQ with
    | c :: _ => .next (if arrStarts s t then startArr s t c else s)
    | [] => .next s
  | _ => .next s

/-- Has every reader of a partial tile issued before command `q` read it (R133)? -/
def readersDone (T : Tile) (n q : Nat) : Bool :=
  T.gets.all (fun g => !(g.n.toNat == n && decide (g.need < q))) &&
  T.addQ.all (fun c =>
    match c.op with
    | .saa k _ _ _ _ need => !(k.toNat == n && c.pts.isNone && decide (need < q))
    | .acc k _ _ _ need => !(k.toNat == n && c.pts.isNone && decide (need < q))
    | _ => true)

/-- May the oldest operation under way write? -/
def flyWrites (s : State) (t : TileId) : Bool :=
  let T := s.tile t
  match T.arrFly with
  | [] => false
  | f :: _ =>
    decide (f.due ≤ s.cycle) &&
      (match f.cmd.op with
       | .ptst _ _ _ _ => true
       | _ => f.outs.all (fun o => readersDone T o.1 f.cmd.seq))

/-- Write a partial tile: it is READY once the last command naming it has written (Table 7.2). -/
def writePt (s : State) (t : TileId) (q n : Nat) (v : PtVal) : State :=
  modPt s t n (fun p => { p with val := v, wrote := q, st := if p.last = q then .ready else p.st })

/-- Waiting `ptmov.get` forms whose value is there (R147): each result comes 4 cycles on. -/
def serveGets (s : State) (t : TileId) : State :=
  let T := s.tile t
  let r := T.gets.partition (fun g => ptReady T g.n g.need)
  let s := s.modTile t (fun T => { T with gets := r.2 })
  r.1.foldl (fun s g =>
    s.post 4 (.resultDelivery t g.strand g.gen (.w g.d)
      (joinLanes 32 ((ptRow (T.ptOf g.n.toNat).val g.r).map (fun x => x.toNat))))) s

/-- Store the kept elements of a partial tile (R147). -/
def storePt (s : State) (t : TileId) (n : StrandNo) (a : Nat) (v : PtVal) : State :=
  if v.keep = BitVec.allOnes 1024 then (engineWrite s t (.engine n (posOf t)) .plain a (words32 v.vals)).1
  else
    (List.range 1024).foldl (fun s e =>
      if v.keep.getLsbD e then
        (engineWrite s t (.engine n (posOf t)) .plain (a + 4 * e) (bytesOf 4 (v.vals.getD e 0).toNat)).1
      else s) s

/-- The words that the store of a partial tile reads (R354). -/
def storeReads (T : Tile) (a : Nat) (v : PtVal) : List (Nat × Nat) :=
  if v.keep = BitVec.allOnes 1024 then writeReads T a 4096
  else (List.range 1024).flatMap (fun e => if v.keep.getLsbD e then writeReads T (a + 4 * e) 4 else [])

/-- PARTIAL_TILE_WRITTEN (R133, R134, R138, R147): the oldest operation under way writes its tiles, or memory. -/
def execPartialTileWritten (s : State) : Host.Outcome State Fault Refusal :=
  match s.ev with
  | some (.partialTileWritten t) =>
    match (s.tile t).arrFly with
    | [] => .next s
    | f :: r =>
      if !flyWrites s t then .next s
      else
        match f.cmd.op with
        | .ptst _ _ a _ =>
          let q := f.outs.foldl (fun r o => let q := wordsRead r.1 t (storeReads (s.tile t) a o.2); (q.1, r.2 && q.2)) (s, true)
          if !q.2 then .next q.1
          else
            .next (f.outs.foldl (fun s o => storePt s t f.cmd.strand a o.2) (q.1.modTile t (fun T => { T with arrFly := r })))
        | _ =>
          let s := s.modTile t (fun T => { T with arrFly := r })
          let s := f.outs.foldl (fun s o => writePt s t f.cmd.seq o.1 o.2) s
          let s := serveGets s t
          .next (if f.bad then mismatch s t 0 f.badPt else s)
  | _ => .next s

/-! ### The adder (R127, R142 to R146) -/

/-- The partial tile that a command reads, and the writer whose value it takes. -/
def addNeeds (o : AddOp) : Option (BitVec 2 × Nat) :=
  match o with
  | .saa n _ _ _ _ need => some (n, need)
  | .acc n _ _ _ need => some (n, need)
  | _ => none

/-- The exact value of an element of a partial tile. -/
def ptValue (i32 : Bool) (b : BitVec 32) : Val :=
  if i32 then .fin (decide (b.toInt < 0)) b.toInt.natAbs 0 else f32 b

/-- v · 2^h. -/
def shiftVal (h : Int) (v : Val) : Val := match v with | .fin n m e => .fin n m (e + h) | x => x

/-- FP32 lane i of a vector. -/
def laneF32 (v : VWord) (i : Nat) : Val := f32 (v.extractLsb' (32 * i) 32)

/-- The additions of the kept elements of a partial tile: element and addend (R143, R144). -/
def tileAdds (v : PtVal) (f : Nat → BitVec 32 → Val) : List (Nat × Val) :=
  (List.range 1024).filterMap (fun e => if v.keep.getLsbD e then some (e, f e (v.vals.getD e 0)) else none)

/-- The additions of an adder command (R127, R144): where its elements stand, and each element's addend. -/
def addsOf (c : AddCmd) : Nat × List (Nat × Val) :=
  let pts := c.pts.getD ⟨[], 0⟩
  match c.op with
  | .saa _ i32 ea sig tau _ =>
    (ea, tileAdds pts (fun e b =>
      let sg := match sig with | some v => laneF32 v (e / 32) | none => .fin false 1 0
      mulVal (mulVal (ptValue i32 b) sg) (sigmaVal tau)))
  | .acc _ i32 ea h _ => (ea, tileAdds pts (fun _ b => shiftVal h (ptValue i32 b)))
  | .vla ea a b =>
    (ea, (List.range 32).map (fun i =>
      (i, match b with | some b => mulVal (laneF32 a i) (laneF32 b i) | none => laneF32 a i)))
  | _ => (0, [])

/-- The LA384 element at a place of the working copy. -/
def laAt (T : Tile) (a : Nat) : BitVec 512 := BitVec.ofNat 512 (natOf (T.mem.bytes a 64))

/-- The cycles that carries add to a command in a lane (R127, R142): element e is in lane e mod 64. -/
def laneCarry (T : Tile) (ea : Nat) (xs : List (Nat × Val)) (l : Nat) : Nat :=
  ((xs.filter (fun p => p.1 % 64 == l)).map (fun p =>
    let old := laAt T (ea + 64 * p.1)
    extraLimbs old (addLa old p.2) p.2)).sum

/-- Cycles that a command holds each of its lanes for, carries apart (R127, R142, R145, R146). -/
def laneTime (o : AddOp) : Nat :=
  match o with
  | .saa _ _ _ _ _ _ => 32
  | .acc _ _ _ _ _ => 32
  | .lazero _ => 16
  | .lard _ _ _ _ _ => 32
  | .vla _ _ _ => 2

/-- Lanes that a command uses: the 32 elements of a `vla` lie in half of them. -/
def addLanes (o : AddOp) : Nat := match o with | .vla _ _ _ => 32 | _ => 64

/-- The cycle in which a lane is done with a command that starts now (R142): it began when the lane was free and the command's
operands were there. -/
def laneEnd (T : Tile) (now : Nat) (c : AddCmd) (l : Nat) : Nat :=
  let a := addsOf c
  max (T.lanes.getD l 0) (c.ready.getD now) + (laneTime c.op + laneCarry T a.1 a.2 l)

/-- The lanes once a command has started. -/
def lanesAfter (T : Tile) (now : Nat) (c : AddCmd) : List Nat :=
  (List.range 64).map (fun l => if l < addLanes c.op then laneEnd T now c l else T.lanes.getD l 0)

/-- The cycle in which a command that starts now is performed (R142). -/
def addDue (T : Tile) (now : Nat) (c : AddCmd) : Nat := ((List.range (addLanes c.op)).map (laneEnd T now c)).foldl max 0

/-- The check of one addition (R138): the new limbs' residue is the old one, plus the addend's, less the carry out of limb 5. -/
def addAgrees (old : BitVec 512) (v : Val) : Bool :=
  match v with
  | .fin neg m ex =>
    let q := scale2 m 1 (ex + 256)
    let t : Int := (q.1 / q.2 : Nat)
    let x := if 2 ^ 383 ≤ t then 0 else if neg then -t else t
    let n : Int := (old.toNat % 2 ^ 384 : Nat)
    let c := (n + x) / 2 ^ 384
    residue ((addLa old v).toNat % 2 ^ 384 : Nat) == residue (residue n + residue x - c)
  | _ => true

/-- Does an earlier drain whose source is not yet read overlap the command (R148)? -/
def drainBlocks (T : Tile) (q : Nat) (rs : List (Nat × Nat)) : Bool :=
  T.drains.any (fun d => decide (d.seq < q ∧ d.elem < 1024) && rs.any (fun r => meets d.ea 65536 r.1 r.2))

/-- Are the operands of a command there, and does no drain hold it up? -/
def addFree (T : Tile) (c : AddCmd) : Bool :=
  !drainBlocks T c.seq (addRanges c.op) && (match addNeeds c.op with | some (n, need) => ptReady T n need | none => true)

/-- Note the cycle from which each command of the adder queue could run (R142). -/
def noteReady (s : State) (t : TileId) : State :=
  if (s.tile t).addQ.isEmpty then s
  else
    s.modTile t (fun T => { T with addQ := T.addQ.map (fun c =>
      if c.ready.isNone && addFree T c then { c with ready := some s.cycle } else c) })

/-- Can the head of the adder queue start? -/
def addStarts (T : Tile) : Bool :=
  match T.addQ with
  | [] => false
  | c :: _ =>
    !c.running && addFree T c

/-- ADDER_CMD_START (R133, R142): the partial tile is read here. -/
def execAdderCmdStart (s : State) : Host.Outcome State Fault Refusal :=
  match s.ev with
  | some (.adderCmdStart t) =>
    let T := s.tile t
    match T.addQ with
    | [] => .next s
    | c :: r =>
      if addStarts T then
        let v := (addNeeds c.op).map (fun x => (T.ptOf x.1.toNat).val)
        let c := { c with running := true, pts := v }
        let due := addDue T s.cycle c
        let lanes := lanesAfter T s.cycle c
        .next ((s.modTile t (fun T => { T with addQ := { c with due := due } :: r, lanes := lanes })).post (due - s.cycle)
          (.adderCmdPerformed t))
      else .next s
  | _ => .next s

/-- Change one LA384 element of the working copy: false when a word gives no value (R354). -/
def laChange (s : State) (t : TileId) (w : Writer) (k : WKind) (a : Nat) (f : BitVec 512 → BitVec 512) : State × Bool :=
  let r := eccRead s t false a 64
  if !r.2 then r
  else
    let old := BitVec.ofNat 512 (natOf (((s.tile t).mem).bytes a 64))
    engineWrite r.1 t w k a (bytesOf 64 (f old).toNat)

/-- Perform additions (R48, R143). -/
def addAll (s : State) (t : TileId) (w : Writer) (ea : Nat) (xs : List (Nat × Val)) : State :=
  xs.foldl (fun s p => (laChange s t w .add (ea + 64 * p.1) (fun x => addLa x p.2)).1) s

/-- Read out an accumulator tile (R146): element by element, with the clears of `.z`. -/
def lardRun (s : State) (t : TileId) (n : StrandNo) (ead ea : Nat) (sig : Option (BitVec 32)) (rm : BitVec 3) (z : Bool) :
    State :=
  let w : Writer := .engine n (posOf t)
  (List.range 1024).foldl (fun s e =>
    match localRead s t n.val (ea + 64 * e) 64 with
    | .error (.conflict i) => vote s t .conflict 0 0 i
    | .error (.ecc s) => s
    | .error (.galley _) => s
    | .ok r =>
      let x := readLa (BitVec.ofNat 512 (natOf r.2)) (sigmaVal sig) rm
      let s := (engineWrite r.1 t w .plain (ead + 4 * e) (bytesOf 4 x)).1
      if z then (engineWrite s t w .plain (ea + 64 * e) (List.replicate 64 0)).1 else s) s

/-- The whole effect of an adder command. -/
def addRun (s : State) (t : TileId) (c : AddCmd) : State :=
  let w : Writer := .engine c.strand (posOf t)
  match c.op with
  | .lazero ea => (engineWrite s t w .plain ea (List.replicate 65536 0)).1
  | .lard ead ea sig rm z => lardRun s t c.strand ead ea sig rm z
  | _ => let a := addsOf c; addAll s t w a.1 a.2

/-- Is a command one that the adder's residue unit checks (R140)? -/
def isAdd (c : AddCmd) : Bool :=
  match c.op with
  | .lazero _ => false
  | .lard _ _ _ _ _ => false
  | _ => true

/-- The residue check of additions at `ea` (R138, R140): whether it passes. An armed injection complements the residue of the
first element checked, and is used up. -/
def addsCheck (s : State) (t : TileId) (ea : Nat) (xs : List (Nat × Val)) : State × Bool :=
  let T := s.tile t
  let good := xs.all (fun p => addAgrees (laAt T (ea + 64 * p.1)) p.2)
  let s := s.modTile t (fun T => { T with injd := false })
  if xs.isEmpty then (s, true) else residueCheck s t 1 (good && !T.injd)

/-- The residue check of an adder command. -/
def addCheck (s : State) (t : TileId) (c : AddCmd) : State × Bool :=
  if !isAdd c then (s, true) else let a := addsOf c; addsCheck s t a.1 a.2

/-- The words that additions at `ea` read. -/
def addWords (ea : Nat) (xs : List (Nat × Val)) : List (Nat × Nat) := xs.map (fun p => (ea + 64 * p.1, 64))

/-- The words that an adder command reads: false when one gives no value, and the command waits (R354). -/
def addReads (s : State) (t : TileId) (c : AddCmd) : State × Bool :=
  if (s.tile t).errs.isEmpty then (s, true)
  else
    match c.op with
    | .lazero ea => wordsRead s t (writeReads (s.tile t) ea 65536)
    | .lard ead ea _ _ z =>
      let q := wordsRead s t ((List.range 1024).flatMap (fun e => writeReads (s.tile t) (ead + 4 * e) 4) ++
        if z then writeReads (s.tile t) ea 65536 else [])
      match localRead q.1 t c.strand.val ea 65536 with
      | .ok r => (r.1, q.2)
      | .error (.ecc s) => (s, false)
      | .error _ => q
    | _ => let a := addsOf c; wordsRead s t (addWords a.1 a.2)

/-- ADDER_CMD_PERFORMED (R127, R138, R143 to R146): the command waits while a word it reads gives no value (R354). -/
def execAdderCmdPerformed (s : State) : Host.Outcome State Fault Refusal :=
  match s.ev with
  | some (.adderCmdPerformed t) =>
    let T := s.tile t
    match T.addQ with
    | [] => .next s
    | c :: r =>
      if c.running ∧ c.due ≤ s.cycle then
        let e := addReads s t c
        if !e.2 then .next e.1
        else
        let q := addCheck e.1 t c
        let s := (addRun q.1 t c).modTile t (fun T => { T with addQ := r })
        .next (if q.2 then s else mismatch s t 1 0)
      else .next s
  | _ => .next s

/-! ### Drains (R148) -/

/-- The first drain that can start: no earlier adder command or drain overlaps its source, and its strand's earlier drains
have been sent (R148). -/
def drainStarts (T : Tile) : Option Drain :=
  T.drains.find? (fun d =>
    !d.running &&
    !T.addQ.any (fun c => decide (c.seq < d.seq) && (addRanges c.op).any (fun r => meets r.1 r.2 d.ea 65536)) &&
    !drainBlocks T d.seq [(d.ea, 65536)] &&
    !T.drains.any (fun e => e.strand == d.strand && decide (e.seq < d.seq ∧ e.elem < 1024)))

/-- Change a drain. -/
def modDrain (s : State) (t : TileId) (q : Nat) (f : Drain → Drain) : State :=
  s.modTile t (fun T => { T with drains := T.drains.map (fun d => if d.seq = q then f d else d) })

/-- DRAIN_START (R148). -/
def execDrainStart (s : State) : Host.Outcome State Fault Refusal :=
  match s.ev with
  | some (.drainStart t) =>
    match drainStarts (s.tile t) with
    | some d => .next (modDrain s t d.seq (fun d => { d with running := true }))
    | none => .next s
  | _ => .next s

/-- Read and send the next element of a running drain with its residue (R148, R149): one a cycle. The read follows the DET
view of R207, whose list of reads does not name a drain's; R148 says only "the working copy" (log entry 76). -/
def drainElem (s : State) (t : TileId) (d : Drain) : State :=
  let a := d.ea + 64 * d.elem
  match localRead s t d.strand.val a 64 with
  | .error (.conflict i) => vote (modDrain s t d.seq (fun d => { d with elem := d.elem + 1 })) t .conflict 0 0 i
  | .error (.ecc s) => s
  | .error (.galley _) => s
  | .ok r =>
    let ea := d.dst + BitVec.ofNat 64 (64 * d.elem)
    let p := sendPacket r.1 t d.strand d.pc ea 
      (.drainLa d.dst (BitVec.ofNat 512 (natOf r.2)) (elemResidue (BitVec.ofNat 512 (natOf r.2)))) false
    let s := modDrain p.1 t d.seq (fun d => { d with elem := d.elem + 1, sent := d.sent ++ p.2.toList })
    if d.z then (engineWrite s t (.engine d.strand (posOf t)) .plain a (List.replicate 64 0)).1 else s

/-- The running drains of a tile each read one element; the last is the step DRAIN_SOURCE_READ_DONE. A word that gives no value
is waited for (R354). -/
def drainTick (s : State) (t : TileId) : State :=
  ((s.tile t).drains.filter (fun d => d.running && decide (d.elem < 1024))).foldl (fun s d =>
    let s := drainElem s t d
    if (s.tile t).drains.any (fun e => e.seq == d.seq && e.elem == 1024) then s.post 0 (.drainSourceReadDone t) else s) s

/-- DRAIN_SOURCE_READ_DONE (R148): the counter rises once for each drain whose last element has been read. -/
def execDrainSourceReadDone (s : State) : Host.Outcome State Fault Refusal :=
  match s.ev with
  | some (.drainSourceReadDone t) =>
    match (s.tile t).drains.find? (fun d => d.elem == 1024) with
    | some d => .next (modDrain (addCounter s t d.ct 1) t d.seq (fun d => { d with elem := 1025 }))
    | none => .next s
  | _ => .next s

/-- A drain whose source is read and whose deltas are all answered is over (R151). -/
def dropDrains (s : State) (t : TileId) : State :=
  if (s.tile t).drains.isEmpty then s
  else
    s.modTile t (fun T =>
      { T with drains := T.drains.filter (fun d =>
          !(d.elem == 1025 && d.sent.all (fun i => !(T.strands[d.strand.val]).ops.any (fun o => o.id == i)))) })

/-! ### Alias tables (R160) -/

/-- ATB_BUILD_START (R156 to R160): the norm file is read; a sum that is not finite sets SPEC. -/
def execAtbBuildStart (s : State) : Host.Outcome State Fault Refusal :=
  match s.ev with
  | some (.atbBuildStart t) =>
    match (s.tile t).samp.atbs with
    | a :: r =>
      if a.built.isSome then .next s
      else
        let q := sampRead s t (fun e => normErr false a.s0 a.l e || normErr true a.s0 a.l e)
        if !q.2 then .next q.1
        else
        let s := q.1
        let m := (s.tile t).samp
        let x := buildTable m a.s0 a.l
        let s := modSamp s t (fun m =>
          { m with spec := m.spec || x.2, atbs := { a with built := some x.1, due := s.cycle + (4 * a.l + 32) } :: r })
        .next (s.post (4 * a.l + 32) (.atbDone t))
    | [] => .next s
  | _ => .next s

/-- Serve the `sdraw` forms whose builds are complete (R163). -/
def serveDraws (s : State) (t : TileId) : State :=
  let T := s.tile t
  let r := T.samp.draws.partition (fun q => atbsDone T q.after)
  r.1.foldl (fun s q => serveDraw s t q) (modSamp s t (fun m => { m with draws := r.2 }))

/-- ATB_DONE (R159, R160): the table is written and the counter rises. The end of a build that an abort discarded ends no
other (R170). A table with a line that could not be written is not performed (R197, R203): it raises nothing. -/
def execAtbDone (s : State) : Host.Outcome State Fault Refusal :=
  match s.ev with
  | some (.atbDone t) =>
    match (s.tile t).samp.atbs with
    | a :: r =>
      match a.built with
      | none => .next s
      | some bs =>
        if s.cycle < a.due then .next s
        else
        let q := wordsRead s t (writeReads (s.tile t) a.tab bs.length)
        if !q.2 then .next (q.1.post 1 (.atbDone t))
        else
        let w := engineWrite q.1 t (.engine a.strand (posOf t)) .plain a.tab bs
        let s := modSamp w.1 t (fun m => { m with atbs := r })
        .next (serveDraws (if w.2 then addCounter s t a.ct 1 else s) t)
    | [] => .next s
  | _ => .next s

/-! ### Sampled commands (R161, R162, R166) -/

/-- The draws of the next batch, made before the decision on the batch that runs (R166): none where that batch may be the
last, or its draws would not give a batch. -/
def aheadDraws (s : State) (t : TileId) (c : ArrCmd) (run : SmplRun) : Option (List (Nat × BitVec 32)) :=
  match c.op with
  | .smpl _ _ _ key ctr _ r =>
    if run.undo.isSome ∨ r.nmax ≤ run.batch + 1 ∨ r.nmax ≤ (s.tile t).samp.n.toNat + 1 then none
    else
      match draws s t c.strand.val r.tab.toNat key (ctr + BitVec.ofNat 128 (4 * (run.batch + 1))) with
      | .ok (_, some ds) => some ds
      | _ => none
  | _ => none

/-- Can the sampler draw for the head of the array queue? -/
def smpReady (s : State) (t : TileId) : Bool :=
  let T := s.tile t
  match T.arrQ with
  | [] => false
  | c :: _ =>
    T.drawn.isNone && !T.stuck && atbsDone T c.seq && beforeMet s t c.strand c.after &&
    (match c.op with
     | .smp _ _ _ _ _ _ => decide (T.arrFree ≤ s.cycle)
     | .smpl _ _ _ _ _ _ _ =>
       (match T.samp.run with
        | none => decide (T.arrFree ≤ s.cycle)
        | some r => !r.ended && (if r.busy then (aheadDraws s t c r).isSome else decide (T.arrFree ≤ s.cycle)))
     | _ => false)

/-- Hand the slab indices of a batch to the live slab bindings of both FIFOs (R162). -/
def handIdx (s : State) (t : TileId) (idx : List Nat) : State :=
  let f (q : Fifo) : Fifo :=
    if q.bind.live && q.bind.slab then { q with bind := { q.bind with idxs := q.bind.idxs ++ [idx] } } else q
  s.modTile t (fun T => { T with fa := f T.fa, fb := f T.fb })

/-- The estimate of an invalid table: the canonical NaN everywhere (R162). -/
def nanTile : PtVal := ⟨List.replicate 1024 nan32, BitVec.allOnes 1024⟩

/-- Draw for the head command: what it does with a valid and with an invalid table. -/
def drawFor (s : State) (t : TileId) (c : ArrCmd) (key : Word) (ctr : BitVec 128) (tab : Nat) (bad : State → State) :
    State :=
  match draws s t c.strand.val tab key ctr with
  | .error (.ecc s) => s.modTile t (fun T => { T with stuck := true })
  | .error (.conflict i) => vote (s.modTile t (fun T => { T with stuck := true })) t .conflict 0 0 i
  | .error (.galley _) => s
  | .ok (s, none) => bad (modSamp s t (fun m => { m with badt := true }))
  | .ok (s, some ds) =>
    (handIdx s t (ds.map (fun d => d.1))).modTile t (fun T => { T with drawn := some (ds.map (fun d => d.2)) })

/-- SMP_AT_HEAD (R161, R162, R166): the draws of the next batch; an `smpl` that starts clears STOP. -/
def execSmpAtHead (s : State) : Host.Outcome State Fault Refusal :=
  match s.ev with
  | some (.smpAtHead t) =>
    let T := s.tile t
    match T.arrQ with
    | [] => .next s
    | c :: _ =>
      if !smpReady s t then .next s
      else
        match c.op with
        | .smp _ _ n key ctr tab =>
          .next (drawFor s t c key ctr tab (fun s =>
            flyArr (popArr (s.modTile t (fun T => { T with inja := false })) t) t { cmd := c, outs := [(n.toNat, nanTile)], bad := false, badPt := 0, due := s.cycle } 0))
        | .smpl _ _ _ key ctr _ r =>
          let first := T.samp.run.isNone
          match T.samp.run.bind (fun r => if r.busy then aheadDraws s t c r else none) with
          | some ds =>
            let s := modSamp s t (fun m => { m with run := m.run.map (fun r => { r with undo := some (T.fa, T.fb) }) })
            .next ((handIdx s t (ds.map (fun d => d.1))).modTile t (fun T => { T with drawn := some (ds.map (fun d => d.2)) }))
          | none =>
          let run : SmplRun := T.samp.run.getD { last := ⟨List.replicate 1024 0, 0⟩ }
          let s := modSamp s t (fun m => { m with run := some run, stop := if first then false else m.stop })
          if first ∧ r.nmax ≤ T.samp.n.toNat then
            .next ((modSamp s t (fun m => { m with run := some { run with ended := true } })).post 40 (.smplDone t))
          else
            -- the start of a batch whose draws were not made ahead is still 64 cycles after the last
            let st := if run.batch = 0 then s.cycle else run.start + 64
            .next (drawFor s t c key (ctr + BitVec.ofNat 128 (4 * run.batch)) r.tab.toNat (fun s =>
              (s.modTile t (fun T =>
                { T with arrFree := st + 64, inja := false
                         samp := { T.samp with run := some { run with start := st, busy := true, bad := false,
                                                                      ended := true, last := nanTile } } })).post
                (st + 80 - s.cycle) (.smplBatchDecision t)))
        | _ => .next s
  | _ => .next s

/-- What a slab binding has gathered for a batch that is discarded is taken back (R166): its rows are the last of the FIFO, and
what other fillers wrote before them stays. -/
def Fifo.untake (q u : Fifo) : Fifo :=
  if q.bind.slab && q.bind.live then
    let k := q.bind.next - u.bind.next
    let b := { q.bind with next := u.bind.next, idxs := u.bind.idxs }
    if k ≤ q.part.length then
      { q with part := q.part.take (q.part.length - k), partSc := q.partSc.take (q.part.length - k), bind := b }
    else
      let more := k - q.part.length
      let keep := q.units.length - (more + 31) / 32
      let cut := q.units.getD keep { rows := [], scales := [], ty := 0, bound := false, tap := false, sink := false }
      { q with units := q.units.take keep, part := cut.rows.take (31 - (more + 31) % 32)
               partSc := cut.scales.take (31 - (more + 31) % 32), bind := b }
  else q

/-- The next batch is discarded: the last decision ends the command (R166). -/
def undoAhead (s : State) (t : TileId) (run : SmplRun) : State :=
  match run.undo with
  | none => s
  | some (a, b) =>
    s.modTile t (fun T =>
      { T with drawn := none, fa := T.fa.untake a, fb := T.fb.untake b })

/-- A slab binding whose last row came for a batch drawn ahead is exhausted once that batch stands (R166, R174). -/
def exhaustSlab (s : State) (t : TileId) (fb : Bool) : State :=
  let q := (s.tile t).fifo fb
  if q.bind.slab && q.bind.live && q.part.length != 32 && decide (recPieces q.bind.rcd ≤ q.bind.next) then exhaustF s t fb else s

/-- The next batch, drawn ahead, stands (R166): what its draws read is noted, and it goes on from where it is. -/
def keepAhead (s : State) (t : TileId) (c : ArrCmd) (run : SmplRun) : State :=
  match c.op, run.undo with
  | .smpl ty x n key ctr _ r, some _ =>
    let s := match draws s t c.strand.val r.tab.toNat key (ctr + BitVec.ofNat 128 (4 * (run.batch + 1))) with
      | .ok (s, _) => s
      | .error _ => s
    let s := modSamp s t (fun m => { m with run := m.run.map (fun q => { q with undo := none, next := none }) })
    let s := exhaustSlab (exhaustSlab s t false) t true
    match run.next with
    | some st => smplBegin s t ty x n st
    | none => s
  | _, _ => s

/-- SMPL_BATCH_DECISION (R164 to R166): the batch's estimate is added, the Welford step and the stop rule follow. -/
def execSmplBatchDecision (s : State) : Host.Outcome State Fault Refusal :=
  match s.ev with
  | some (.smplBatchDecision t) =>
    let T := s.tile t
    match T.arrQ, T.samp.run with
    | c :: _, some run =>
      match c.op with
      | .smpl _ _ n _ _ _ r =>
        if !run.busy || decide (s.cycle < run.start + 80) then .next s
        else
          let xs := tileAdds run.last (fun _ b => f32 b)
          let q := sampRead s t welfordErr
          let e := wordsRead q.1 t (addWords r.lat.toNat xs)
          if !q.2 || !e.2 then .next (e.1.post 1 (.smplBatchDecision t))
          else
          let s := if run.bad then mismatch e.1 t 0 n.toNat else e.1
          let k := addsCheck s t r.lat.toNat xs
          let s := addAll k.1 t (.engine c.strand (posOf t)) r.lat.toNat xs
          let s := if k.2 then s else mismatch s t 1 0
          let m := welford (s.tile t).samp ((run.last.vals.drop (32 * r.prow)).take 32)
          let stops := !run.ended && decide (r.nmin ≤ m.n.toNat) && stopRule m r.tau r.phi
          let fin := run.ended || stops || decide (r.nmax ≤ run.batch + 1 ∨ r.nmax ≤ m.n.toNat)
          let m := { m with stop := m.stop || stops
                            run := some { run with busy := false, ended := fin, batch := run.batch + 1 } }
          let s := modSamp s t (fun _ => m)
          .next (if fin then (undoAhead s t run).post 24 (.smplDone t) else keepAhead s t c run)
      | _ => .next s
    | _, _ => .next s
  | _ => .next s

/-- SMPL_DONE (R166): the partial tile is READY and the counter rises, once every earlier reader has read (R133). -/
def execSmplDone (s : State) : Host.Outcome State Fault Refusal :=
  match s.ev with
  | some (.smplDone t) =>
    let T := s.tile t
    match T.arrQ, T.samp.run with
    | c :: _, some run =>
      match c.op with
      | .smpl _ _ n _ _ ct _ =>
        if !run.ended || run.busy then .next s
        else if !readersDone T n.toNat c.seq || !T.arrFly.isEmpty then .next (s.post 1 (.smplDone t))
        else
          let s := writePt (popArr s t) t c.seq n.toNat run.last
          let s := modSamp (serveGets s t) t (fun m => { m with run := none })
          .next (addCounter s t ct 1)
      | _ => .next s
    | _, _ => .next s
  | _ => .next s

end Sys2Proof.Machine
end

