-- ==== Sys2Proof/Machine/Barrier.lean ====
section
/-! DEFINITION. The barrier up to its decision (15_barrier): reductions (R277), the conditions of an arrival (R151, R170,
R192, R204, R241), messages, the tree and its paths (R265 to R269), arrivals and votes (R270 to R272), the decision point
(R273 to R276), the barrier forms (R282 to R287). -/

namespace Sys2Proof.Machine

open Sys2Proof

/-! ### Reductions (R277, Table 15.3) -/

/-- Signed order of words. -/
def ltSigned (a b : Word) : Bool := decide (a.toInt < b.toInt)

/-- One FP32 reduction step on bits [31:0]; bits [63:32] are zero. -/
def barFp (mx : Bool) (a b : Word) : Word :=
  let x := a.toNat % 2 ^ 32
  let y := b.toNat % 2 ^ 32
  BitVec.ofNat 64 (if mx then maxFp fp32 x y else minFp fp32 x y)

/-- Two operands combined by OPC (Table 15.3). -/
def barCombine (opc : BitVec 4) (a b : Word) : Word :=
  match opc.toNat with
  | 1 => a + b
  | 2 => a &&& b
  | 3 => a ||| b
  | 4 => a ^^^ b
  | 5 => if ltSigned b a then b else a
  | 6 => if ltSigned a b then b else a
  | 7 => if b.toNat < a.toNat then b else a
  | 8 => if a.toNat < b.toNat then b else a
  | 9 => barFp false a b
  | 10 => barFp true a b
  | _ => 0

/-- The identity of OPC (Table 15.3). -/
def barIdentity (opc : BitVec 4) : Word :=
  match opc.toNat with
  | 2 => BitVec.allOnes 64
  | 5 => 0x7FFFFFFFFFFFFFFF
  | 6 => 0x8000000000000000
  | 7 => BitVec.allOnes 64
  | 9 => 0x7F800000
  | 10 => 0xFF800000
  | _ => 0

/-- The result of a superstep from the combined operand of its members (R277): a lone FP32 operand is canonical too. -/
def barResult (opc : BitVec 4) (x : Word) : Word := barCombine opc (barIdentity opc) x

/-! ### The group's tiles -/

/-- Slots of physical ordinal j (R254). -/
def slotCount (g : Group) (j : Nat) : Nat :=
  let p := g.hosts.length
  if p = 0 then 0 else (g.v + p - 1 - j) / p

/-- Is a group folded (R254)? -/
def Group.folded (g : Group) : Bool := decide (g.hosts.length < g.v)

/-- Slots that a host holds. -/
def slotsOn (g : Group) (t : TileId) : Nat :=
  match g.hosts.findIdx? (fun h => h == t) with
  | some j => slotCount g j
  | none =>
    match g.shadows.findIdx? (fun h => h == t) with
    | some j => slotCount g j
    | none => 0

/-- Every tile of a group, the shadows included (R250). -/
def Group.tiles (g : Group) : List TileId := g.hosts ++ g.shadows

/-- The anchor of a group on a die (R267): least row and least column. -/
def anchorOf (g : Group) (die : Nat) : Nat × Nat :=
  let ts := g.tiles.filter (fun t => dieOf t == die)
  (ts.foldl (fun m t => if rowOf t < m then rowOf t else m) 31, ts.foldl (fun m t => if colOf t < m then colOf t else m) 31)

/-- Dies that hold a tile of the group. -/
def groupDies (g : Group) : List Nat := (List.range 4).filter (fun d => g.tiles.any (fun t => dieOf t == d))

/-- Does the I/O chiplet decide (R267)? -/
def multiDie (g : Group) : Bool := decide (1 < (groupDies g).length)

/-- Cycles for which a CONTROL message waits at the end of the link between a die and the I/O chiplet: for the training or the
retraining window (R268, R336). -/
def ioHold (s : State) (die : Nat) (up : Bool) : Nat :=
  match flowLink s (16384 + (if up then die else 4)) (16384 + (if up then 4 else die)) (ioLinks die) with
  | none => 0
  | some l => linkFrom s l - s.cycle

/-- Hops from a position to the die's anchor (R267). -/
def anchorHops (g : Group) (die row col : Nat) : Nat :=
  let a := anchorOf g die
  absDiff row a.1 + absDiff col a.2

/-- Cycles of a CONTROL message from a position to the decision point (R267, R268, R272): the way to the die's anchor, and for a
group on several dies the wait at the link and its 96 cycles. -/
def pathDelay (s : State) (g : Group) (die row col : Nat) : Nat :=
  let h := anchorHops g die row col
  if multiDie g then max h (ioHold s die true) + 96 else h

/-- Cycles of a CONTROL message from a tile to the decision point. -/
def tileDelay (s : State) (g : Group) (t : TileId) : Nat := pathDelay s g (dieOf t) (rowOf t) (colOf t)

/-- Cycles of a CONTROL message from the decision point to a tile (R267, R268). -/
def backDelay (s : State) (g : Group) (t : TileId) : Nat :=
  let h := anchorHops g (dieOf t) (rowOf t) (colOf t)
  if multiDie g then ioHold s (dieOf t) false + 96 + h else h

/-- An ABORT from a position: it goes to the decision point, at every node at once; for a group on several dies it crosses the
link from the die's anchor (R267, R269). -/
def sendAbort (s : State) (g : Group) (die row col : Nat) (m : BarMsg) : State :=
  let h := anchorHops g die row col
  if multiDie g then s.post h (.barrierNodeArrive g.id (.pos die (anchorOf g die).1 (anchorOf g die).2) m)
  else s.post h (.abortAtDecision g.id m)

/-! ### The conditions of an arrival (R151, R170, R192, R204, R241, R286) -/

/-- Does a read of HBM wait behind write-backs that are parked, and behind no other (R195, R272)? -/
def readParked (s : State) (ctx : Nat) (va : Word) (n : Nat) : Bool :=
  let x := s.ctx ctx
  let ws := x.drains.filter (fun w => decide (w.va.toNat < va.toNat + n ∧ va.toNat < w.va.toNat + w.n))
  !ws.isEmpty && ws.all (fun w => x.parked.any (fun a => a.who == .outq && a.tile == w.tile && a.va == w.va && accSource s a == w.chip))

/-- Does the command at the head of a channel wait to read such bytes? -/
def chanParked (s : State) (T : Tile) : Bool :=
  match T.chan.cmds with
  | c :: _ =>
    c.started && decide (c.done < c.len) &&
      (match c.gather with
       | some (_, i) =>
         let d := descAt s i
         readParked s T.ctx (BitVec.ofNat 64 (gatherAddr d c.src (c.done / descEsz d))) (descEsz d)
       | none => decide (c.ssp = 2) && readParked s T.ctx (c.src + BitVec.ofNat 64 c.done) 16)
  | [] => false

/-- Does the binding of a FIFO wait to read such bytes? -/
def fillParked (s : State) (ctx : Nat) (q : Fifo) : Bool :=
  q.bind.live && recHbm q.bind.rcd &&
    (rowParts q.bind ++ scaleParts q.bind).any (fun p => readParked s ctx (BitVec.ofNat 64 p.1) p.2)

/-- What the arrival of a tile waits for: one entry per condition that does not hold, true where it is a parked access
(R272). A command behind a parked one, and a read behind a write-back that is parked, wait on the parked access (DEDUCED; log
entry 22). -/
def arrivalPending (s : State) (t : TileId) : List Bool :=
  let T := s.tile t
  let one (b parked : Bool) : List Bool := if b then [parked] else []
  one (!T.arrQ.isEmpty || !T.arrFly.isEmpty || !T.gets.isEmpty || !T.addQ.isEmpty) false ++
  one (fillFlight T.fa) (T.fa.bind.busy || fillParked s T.ctx T.fa) ++
  one (fillFlight T.fb) (T.fb.bind.busy || fillParked s T.ctx T.fb) ++
  one (!T.drains.isEmpty || !T.samp.atbs.isEmpty || T.samp.run.isSome) false ++
  one (!T.chan.cmds.isEmpty) (T.chan.park || chanParked s T) ++
  T.ovls.map (fun o => o.parked || o.hbm && readParked s T.ctx o.src o.len) ++
  T.strands.toList.flatMap (fun S => one (!S.ops.isEmpty) false ++
    (List.finRange 8).flatMap (fun k => one (S.pending k != 0) (S.outPark.getLsbD k.val))) ++
  one (!T.acks.isEmpty) false

/-- Strand 0 of a tile has halted. -/
def controlHalted (T : Tile) : Bool := (T.strands[0]).st == .halted

/-- Is an arrival of the resident virtual tile pending, by instruction or by a halted strand 0 (R270)? -/
def arrives (T : Tile) : Bool := T.v.bstate == 1 || (T.v.bstate == 0 && controlHalted T)

/-- May the tile's arrival be sent, or its turn end (R258, R270)? An arrival is made after the tile's ABORT too (R283), but
not before a vote raised or a deferred trap due in this cycle (R85, R346). -/
def arrivalReady (s : State) (t : TileId) : Bool :=
  let T := s.tile t
  T.running && arrives T && T.v.votes.isEmpty && T.strands.toList.all (fun S => S.deferred.isNone) &&
  decide (T.busyUntil ≤ s.cycle) && !T.turning && (arrivalPending s t).isEmpty

/-- The group is folded here and the resident slot is not the last: the turn ends, no arrival is sent (R258). -/
def moreTurns (s : State) (t : TileId) : Bool :=
  match s.groupOf t with
  | some g => decide ((s.tile t).slot + 1 < slotsOn g t)
  | none => false

/-! ### Messages (R265) -/

/-- What combining gives: one ARRIVE, or an ABORT with cause MISMATCH. -/
inductive Combined where
  | arrive (m : BarMsg)
  | mismatch
  deriving DecidableEq, Repr

/-- Two ARRIVE messages of one superstep and attempt combined (R265). -/
def combineMsg (a b : BarMsg) : Combined :=
  if a.wild then .arrive { b with count := a.count + b.count }
  else if b.wild then .arrive { a with count := a.count + b.count }
  else if a.bid ≠ b.bid ∨ a.opc ≠ b.opc then .mismatch
  else .arrive { a with count := a.count + b.count, opnd := barCombine a.opc a.opnd b.opnd }

/-- An ABORT (R271). Bit 63 of the operand says that a virtual tile sent it, which bits [19:0] name (the model's own: the
decision point tells the control node, R248). -/
def abortMsg (ss : BitVec 48) (att : Nat) (cause : BitVec 8) (who : Option (BitVec 20)) : BarMsg :=
  { ss := ss, att := att, bid := 0, wild := false, cause := cause, opc := 0, count := 0,
    opnd := match who with | some i => i.setWidth 64 ||| 0x8000000000000000 | none => 0 }

/-- Is the arrival of a virtual tile a wildcard: strand 0 has halted with no arrival by instruction (R270)? -/
def VRegs.wildcard (v : VRegs) : Bool := v.bstate == 0

/-- OPC of the barrier that BST names, from the tile's copy of BCFG (R280). -/
def VRegs.opc (v : VRegs) : BitVec 4 := (v.bcfg[v.bbid.toNat]).extractLsb' 60 4

/-- The operand of an arrival (R270): a wildcard's is the identity, of the barrier that BST names (log entry 32). -/
def VRegs.operand (v : VRegs) : Word := if v.wildcard then barIdentity v.opc else v.opnd

/-- The arrival of a virtual tile (R270). -/
def arrivalOf (v : VRegs) : BarMsg :=
  { ss := v.ss, att := v.att.toNat, bid := v.bbid, wild := v.wildcard, cause := 0, opc := v.opc, count := 1,
    opnd := v.operand }

/-- The vote of a tile's copy as an item of its signature (R251). -/
def voteItem (v : VRegs) : List Byte :=
  bytesOf 8 4 ++ bytesOf 8 v.bbid.toNat ++ bytesOf 8 v.ownc.toNat ++ bytesOf 8 v.operand.toNat ++
    List.replicate 48 (0 : Byte)

/-- The part of a DMR copy's signature that a turn gives (R251): items sent, logged lines, the vote. -/
def turnSignature (T : Tile) : Word :=
  let lines := (T.galley.filter (fun g => g.kind == .undo)).map (fun g =>
    crc64 (bytesOf 8 1 ++ bytesOf 8 g.ofs ++ T.mem.bytes g.ofs 64))
  lines.foldl (fun a x => a + x) (T.sig + crc64 (voteItem T.v))

/-- The signature of a DMR copy at its arrival (R251): an HBM write-back line is one item, as it stands in the outbound
queue. -/
def signature (T : Tile) : Word :=
  (T.outq.map (fun l => crc64 (bytesOf 8 3 ++ bytesOf 8 l.va.toNat ++ bytesOf 64 (l.data.toNat % 2 ^ (8 * l.n))))).foldl
    (fun a x => a + x) (turnSignature T)

/-- Send the arrival of a host: one message for all its slots (R258, R270), the slots that went before from the registers
kept for them. -/
def sendArrive (s : State) (t : TileId) (g : Group) : State :=
  let T := s.tile t
  let own := arrivalOf T.v
  let others := (T.slots.take T.slot).map (fun x => arrivalOf x.regs)
  let r := others.foldl (fun (r : Combined) m => match r with | .arrive a => combineMsg a m | .mismatch => .mismatch)
    (.arrive own)
  let s := s.modV t (fun v => { v with bstate := 2, wild := T.v.wildcard })
  if T.shadow then s
  else
    match r with
    | .arrive m => s.post 0 (.barrierNodeArrive g.id (.pos (dieOf t) (rowOf t) (colOf t)) m)
    | .mismatch => sendAbort s g (dieOf t) (rowOf t) (colOf t) (abortMsg T.v.ss T.v.att.toNat 0x07 none)

/-- The two copies of a DMR pair differ (R251): both vote DMRMIS; the second time running, both clusters are marked for a
test. -/
def dmrMismatch (s : State) (t u : TileId) (g : Group) : State :=
  let s := vote (vote s t .dmrmis 0 0 0) u .dmrmis 0 0 0
  let s := s.modCtx g.ctx (fun x => x.modKernel g.kimg (fun k =>
    { k with dmrmis := if k.dmrmis < 65535 then k.dmrmis + 1 else k.dmrmis }))
  let mark (s : State) (c : ClusterId) : State := s.modCluster c (fun c => { c with tpend := true })
  let s := if g.dmrBad.contains t || g.dmrBad.contains u then mark (mark s (clusterOf t)) (clusterOf u) else s
  s.modGroup g.id (fun g => { g with dmrNow := g.dmrNow ++ [t] })

/-- ARRIVE_SEND (R204, R251, R270). -/
def execArriveSend (s : State) : Host.Outcome State Fault Refusal :=
  match s.ev with
  | some (.arriveSend t) =>
    match s.groupOf t with
    | none => .next s
    | some g =>
      if !arrivalReady s t || moreTurns s t then .next s
      else
        match (s.tile t).twin with
        | none => .next (sendArrive s t g)
        | some u =>
          if (s.tile u).v.bstate = 2 then .next (sendArrive s t g)
          else if !arrivalReady s u || moreTurns s u then .next s
          else if signature (s.tile t) = signature (s.tile u) then .next (sendArrive (sendArrive s t g) u g)
          else if g.dmrNow.contains t then .next s
          else .next (dmrMismatch s t u g)
  | _ => .next s

/-! ### The tree (R265, R267) -/

/-- Virtual tiles whose arrivals a node waits for: the far side of its row, or in the anchor's column all rows from it. -/
def nodeExpects (g : Group) (die row col : Nat) : Nat :=
  let a := anchorOf g die
  (g.hosts.filter (fun t =>
    dieOf t == die &&
      (if a.2 < col then rowOf t == row && decide (col ≤ colOf t) else decide (row ≤ rowOf t)))).foldl
    (fun n t => n + slotsOn g t) 0

/-- A node forwards a combined message: a hop along the row or the column, or from the anchor across the link to the I/O chiplet
(R267, R269). -/
def nodeSends (s : State) (g : Group) (die row col : Nat) (m : BarMsg) : State :=
  let a := anchorOf g die
  if a.2 < col then s.post 1 (.barrierNodeArrive g.id (.pos die row (col - 1)) m)
  else if a.1 < row then s.post 1 (.barrierNodeArrive g.id (.pos die (row - 1) col) m)
  else s.cross die true (some g.id) 0 (.barrierNodeArrive g.id .io m)

/-- Is the message of an earlier attempt of the superstep (R276)? -/
def staleMsg (g : Group) (m : BarMsg) : Bool := m.ss == g.ss && decide (m.att < g.att)

/-- A message at a node that combines (R265, R267). -/
def nodeTakes (s : State) (g : Group) (node : BarNode) (die row col : Nat) (m : BarMsg) : State :=
  let same (x : TreeNode) : Bool := x.at_ == node && x.msg.ss == m.ss && x.msg.att == m.att
  let rest := g.nodes.filter (fun x => !same x)
  match (match g.nodes.find? same with | some x => combineMsg x.msg m | none => Combined.arrive m) with
  | .mismatch =>
    sendAbort (s.modGroup g.id (fun g => { g with nodes := rest })) g die row col (abortMsg m.ss m.att 0x07 none)
  | .arrive c =>
    if c.count < nodeExpects g die row col then
      s.modGroup g.id (fun g => { g with nodes := rest ++ [⟨node, c⟩] })
    else nodeSends (s.modGroup g.id (fun g => { g with nodes := rest })) g die row col c

/-- BARRIER_NODE_ARRIVE (R265, R267): the anchor of a one-die group and the barrier unit of the I/O chiplet decide; every
other node combines and forwards. An ABORT, which has a cause, is forwarded at once. -/
def execBarrierNodeArrive (s : State) : Host.Outcome State Fault Refusal :=
  match s.ev with
  | some (.barrierNodeArrive gid node m) =>
    match s.group gid with
    | none => .next s
    | some g =>
      if staleMsg g m then .next s
      else if m.cause ≠ 0 then
        match node with
        | .io => .next (s.post 0 (.abortAtDecision gid m))
        | .pos die _ _ =>
          .next (if multiDie g then s.cross die true (some gid) 0 (.barrierNodeArrive gid .io m) else s.post 0 (.abortAtDecision gid m))
      else
        match node with
        | .io => .next (s.post 0 (.arriveAtDecision gid m))
        | .pos die row col =>
          if anchorOf g die = (row, col) ∧ !multiDie g then .next (s.post 0 (.arriveAtDecision gid m))
          else .next (nodeTakes s g node die row col m)
  | _ => .next s

/-! ### The decision point (R273 to R276) -/

/-- The position that the decision point's records name (R351): the anchor, or zero when the I/O chiplet decides. -/
def decisionPhys (s : State) (g : Group) : BitVec 20 :=
  if multiDie g then 0
  else
    let d := (groupDies g).headD 0
    let a := anchorOf g d
    physOf s (d * 1024 + a.1 * 32 + a.2)

/-- A record of the decision point: on the trap channel of its anchor's row, or in the I/O chiplet straight to the trap unit of
die 0 (R351, R352; log entry 95). -/
def decisionSends (s : State) (g : Group) (r : TrapRec) : State :=
  if multiDie g then unitTakes s 0 0 r else sendRecord s r

/-- The record that the decision point sends for TIMEOUT and MISMATCH (R351). Its VIDX is the group's first index (log entry
95). -/
def decisionRecord (s : State) (g : Group) (cause : BitVec 8) : State :=
  if cause = 0x06 ∨ cause = 0x07 then
    decisionSends s g
      { code := cause, cls := 1, defer := false, ctx := BitVec.ofNat 5 g.ctx, att := BitVec.ofNat 4 g.att, ss := g.ss
        strand := 0, vidx := BitVec.ofNat 20 (g.base * 1024), phys := decisionPhys s g, pc := 0, info := 0, colmap := 0 }
  else s

/-- Pfloor (R260). -/
def Group.floor (g : Group) : Nat := if g.pmin < (g.v + 7) / 8 then (g.v + 7) / 8 else g.pmin

/-- The attempt is decided: abort (R275), after `d` cycles. -/
def decideAbort (s : State) (g : Group) (cause : BitVec 8) (who : Option (BitVec 20)) (d : Nat) : State :=
  let s := s.modGroup g.id (fun g => { g with
    dp := .abort, cause := cause, who := who, decideAt := s.cycle + d, plan := { g.plan with cancel := g.cancel } })
  (decisionRecord s g cause).post d (.decisionRelease g.id)

/-- Pending `bcfg` writes selected at a commit (R286): for each barrier the lowest ordinal's last write. -/
def selectBcfg (ws : List BcfgWrite) (old : Vector Word 4) : Vector Word 4 :=
  Vector.ofFn (fun n : Fin 4 =>
    let mine := ws.filter (fun w => w.bid.toNat == n.val)
    let low := mine.foldl (fun m w => if w.ord < m then w.ord else m) (2 ^ 20)
    match (mine.filter (fun w => w.ord == low)).getLast? with
    | some w => w.val
    | none => old[n])

/-- The hosts of a group that has given up tiles (R260): the highest ordinals go, and each tile that a move of the plan names
by a virtual ordinal is replaced. -/
def hostsWith (g : Group) (give : Nat) : List TileId :=
  let p := g.hosts.length
  (g.hosts.take (p - give)).mapIdx (fun j h =>
    match g.plan.moves.find? (fun m => m.1 % p == j) with
    | some m => m.2
    | none => h)

/-- Bytes of store that a host of a kernel needs with p hosts (R80, R246, R259). -/
def storeNeed (partw : Word) (v p : Nat) : Nat :=
  partLimit partw 5 + ((v + p - 1) / p - 1) * (granOf partw 5 * 16384)

/-- Does a tile hold its partitions and the foreshore copies of its slots when the group has p hosts (R254)? -/
def holdsOn (s : State) (g : Group) (p : Nat) (t : TileId) : Bool :=
  decide (storeNeed (s.tile (g.hosts.headD 0)).v.partw g.v p ≤ capOf t)

/-- The most tiles, up to a number, that a group can give up: every host and every shadow left holds its slots (R254, R260). -/
def fitGive (s : State) (g : Group) : Nat → Nat
  | 0 => 0
  | n + 1 =>
    let hs := hostsWith g (n + 1)
    if (hs ++ g.shadows.take hs.length).all (holdsOn s g hs.length) then n + 1 else fitGive s g n

/-- The plan of a decision to commit: the requests that have come before it (Table 14.1). -/
def planCommit (g : Group) : Group :=
  { g with plan := { cancel := g.cancel, saving := g.saving, give := g.give, moves := g.moves }, moves := [] }

/-- The decision comes with the next cycle: it takes up what has been asked until then (Table 14.1). -/
def fixPlan (s : State) (gid : Nat) : State :=
  match s.group gid with
  | none => s
  | some g =>
    if g.decideAt ≠ s.cycle + 1 then s
    else
      match g.dp with
      | .commit => s.modGroup gid planCommit
      | .abort => s.modGroup gid (fun g => { g with plan := { g.plan with cancel := g.cancel } })
      | .open_ => s
      | .gathering => s

/-- Every member has arrived: the result is formed and the pending writes are selected (R273). -/
def decideCommit (s : State) (g : Group) (c : BarMsg) : State :=
  let s := s.modGroup g.id (fun g =>
    { g with dp := .commit, count := c.count, decideAt := s.cycle + 2, cause := 0
             bid := if c.wild then none else some c.bid
             res := if c.wild then g.res else g.res.set c.bid.toNat (barResult c.opc c.opnd)
             bcfg := selectBcfg g.bcfgW g.bcfg })
  s.post 2 (.decisionRelease g.id)

/-- The message that stands for what the decision point has gathered. -/
def gathered (g : Group) : BarMsg :=
  { ss := g.ss, att := g.att, bid := g.bid.getD 0, wild := g.bid.isNone, cause := 0, opc := g.opc, count := g.count,
    opnd := g.opnd }

/-- An ARRIVE at the decision point (Table 15.4). -/
def takeArrive (s : State) (g : Group) (m : BarMsg) : State :=
  if m.att ≠ g.att then s
  else if m.ss ≠ g.ss then decideAbort s g 0x07 none 2
  else
    match (if g.dp = .open_ then Combined.arrive m else combineMsg (gathered g) m) with
    | .mismatch => decideAbort s g 0x07 none 2
    | .arrive c =>
      if g.v ≤ c.count then decideCommit s g c
      else
        let known := !c.wild
        s.modGroup g.id (fun g =>
          { g with
            dp := .gathering, count := c.count, opnd := c.opnd, opc := c.opc, bid := if known then some c.bid else none
            timer := if g.dp = .open_ ∨ g.bid.isNone then 0 else g.timer
            tmo := if known then (g.bcfg[c.bid.toNat]).toNat % 2 ^ 48 else 0 })

/-- ARRIVE_AT_DECISION (R273, R276). -/
def execArriveAtDecision (s : State) : Host.Outcome State Fault Refusal :=
  match s.ev with
  | some (.arriveAtDecision gid m) =>
    match s.group gid with
    | some g => .next (if g.dp = .open_ ∨ g.dp = .gathering then takeArrive s g m else s)
    | none => .next s
  | _ => .next s

/-- The virtual tile that sent an ABORT. -/
def abortWho (m : BarMsg) : Option (BitVec 20) := if m.opnd.getLsbD 63 then some (m.opnd.extractLsb' 0 20) else none

/-- Has the group an attempt open: no release that ends it or reshapes it is under way (R261, Table 14.1)? -/
def Group.voting (g : Group) : Bool := g.st == .running && !g.todo.any (fun x => x.2.ends || x.2.reshapes)

/-- ABORT_AT_DECISION (R273, R275): the first of the attempt decides; of those of one cycle the lowest code. -/
def execAbortAtDecision (s : State) : Host.Outcome State Fault Refusal :=
  match s.ev with
  | some (.abortAtDecision gid m) =>
    match s.group gid with
    | none => .next s
    | some g =>
      if m.ss ≠ g.ss ∨ m.att ≠ g.att ∨ !g.voting then .next s
      else if g.dp = .open_ ∨ g.dp = .gathering then .next (decideAbort s g m.cause (abortWho m) 2)
      else if g.dp = .abort ∧ g.decideAt = s.cycle + 2 ∧ m.cause.toNat < g.cause.toNat then
        .next (decisionRecord (s.modGroup gid (fun g => { g with cause := m.cause, who := abortWho m })) g m.cause)
      else .next s
  | _ => .next s

/-- BARRIER_TIMEOUT (R273, R276). -/
def execBarrierTimeout (s : State) : Host.Outcome State Fault Refusal :=
  match s.ev with
  | some (.barrierTimeout gid) =>
    match s.group gid with
    | some g =>
      .next (if g.dp = .gathering ∧ g.bid.isSome ∧ g.tmo ≠ 0 ∧ g.tmo ≤ g.timer then decideAbort s g 0x06 none 0 else s)
    | none => .next s
  | _ => .next s

/-- Is a link between the I/O chiplet and a die of the group in a retraining window (R272, R336)? -/
def retrains (s : State) (g : Group) : Bool :=
  multiDie g && (groupDies g).any (fun d => (List.range 8).any (fun m => ((s.links[8 * d + m]?).getD {}).st == .stepping))

/-- PARK at the decision point after an assertion or a withdrawal; one of another attempt has no effect (R272; log
entry 77). -/
def parkArrives (g : Group) (ps : List TileId) (m : ParkMsg) : List TileId :=
  if m.ss ≠ g.ss ∨ m.att ≠ g.att then ps
  else if m.on then ps.filter (fun t => t != m.tile) ++ [m.tile]
  else ps.filter (fun t => t != m.tile)

/-- The timer of a group at the end of a cycle (R272, R276): PARK messages arrive, then a gathering group with a known
barrier counts the cycle unless a PARK stands or a link on a path to a member retrains. -/
def tickTimer (s : State) (g : Group) : State :=
  let due := g.parkMsgs.filter (fun m => decide (m.due ≤ s.cycle))
  let parks := due.foldl (parkArrives g) g.parks
  let g' : Group :=
    { g with parks := parks, parkMsgs := g.parkMsgs.filter (fun m => !decide (m.due ≤ s.cycle)) }
  if g.dp = .gathering ∧ g.bid.isSome ∧ parks.isEmpty ∧ !retrains s g then
    let g'' : Group := { g' with timer := if g.timer < 2 ^ 40 - 1 ∨ g.tmo ≠ 0 then g.timer + 1 else g.timer }
    let s := s.modGroup g.id (fun _ => g'')
    if g.tmo ≠ 0 ∧ g.tmo ≤ g''.timer then s.post 0 (.barrierTimeout g.id) else s
  else if due.isEmpty then s
  else s.modGroup g.id (fun _ => g')

/-- A group at the end of a cycle: its timer counts; a decision that comes next takes up its plan. -/
def tickGroup (s : State) (g : Group) : State := fixPlan (tickTimer s g) g.id

/-! ### PARK (R272) -/

/-- Should the tile assert PARK: its arrival is pending, and every condition it waits on is a parked access? -/
def parkWanted (s : State) (t : TileId) : Bool :=
  let T := s.tile t
  let ps := arrivalPending s t
  T.running && arrives T && decide (T.busyUntil ≤ s.cycle) && !T.turning && !ps.isEmpty && ps.all id

/-- A PARK message from a tile. -/
def sendPark (s : State) (t : TileId) (on : Bool) : State :=
  let s := s.modV t (fun v => { v with park := on })
  match s.groupOf t with
  | some g =>
    if (s.tile t).shadow then s
    else
      let v := (s.tile t).v
      let m : ParkMsg := { due := s.cycle + tileDelay s g t, tile := t, ss := v.ss, att := v.att.toNat, on := on }
      s.modGroup g.id (fun g => { g with parkMsgs := g.parkMsgs ++ [m] })
  | none => s

/-- PARK_ASSERT (R272). -/
def execParkAssert (s : State) : Host.Outcome State Fault Refusal :=
  match s.ev with
  | some (.parkAssert t) => .next (if parkWanted s t && !(s.tile t).v.park then sendPark s t true else s)
  | _ => .next s

/-- PARK_WITHDRAW (R272). -/
def execParkWithdraw (s : State) : Host.Outcome State Fault Refusal :=
  match s.ev with
  | some (.parkWithdraw t) => .next (if !parkWanted s t && (s.tile t).v.park then sendPark s t false else s)
  | _ => .next s

/-! ### Votes (R271, R350, R351) -/

/-- The lowest of a tile's causes of this cycle is sent as its one ABORT of the attempt, with its record. A tile whose group
ends or is reshaped after its release has no attempt open: its causes are dropped. -/
def sendVotes (s : State) (t : TileId) : State :=
  let T := s.tile t
  match T.v.votes with
  | [] => s
  | r :: rs =>
    if T.turning then s.modV t (fun v => { v with votes := [] })
    else
    let low := rs.foldl (fun a x => if x.code.toNat < a.code.toNat then x else a) r
    let s := s.modV t (fun v => { v with votes := [], voted := true, ownc := low.code })
    let s := sendRecord s low
    match s.groupOf t with
    | some g =>
      if T.slots.any (fun x => x.regs.voted) then s
      else sendAbort s g (dieOf t) (rowOf t) (colOf t) (abortMsg T.v.ss T.v.att.toNat low.code (some T.v.idx))
    | none => s

/-! ### The barrier forms (R282 to R287) -/

/-- The arrival becomes pending (R283). -/
def arriveForm (s : State) (t : TileId) (b : BitVec 2) (opnd : Word) (k : State → Act) : Act :=
  if (s.tile t).v.bstate ≠ 0 then .trap .rearrive 0
  else k (s.modV t (fun v => { v with bstate := 1, bbid := b, opnd := opnd, wild := false }))

/-- The identity of a barrier's operation, from the tile's copy of BCFG. -/
def ownIdentity (s : State) (t : TileId) (b : BitVec 2) : Word :=
  barIdentity (((s.tile t).v.bcfg[b.toNat]).extractLsb' 60 4)

/-- BAR (R283). -/
def execBar (p : Pred) (b : BitVec 2) (s : State) : Host.Outcome State Fault Refusal :=
  issue p 8 .control [] []
    (fun s t _ => arriveForm s t b (ownIdentity s t b) (fun s => .block (.bar b none) s)) s

/-- BARV (R283). -/
def execBarv (p : Pred) (b : BitVec 2) (d : BitVec 5) (a : GSrc) (s : State) : Host.Outcome State Fault Refusal :=
  issue p 8 .control [.g a] [.g d]
    (fun s t n => arriveForm s t b (gv s t n a) (fun s => .block (.bar b (some d)) s)) s

/-- BARA (R283). -/
def execBara (p : Pred) (b : BitVec 2) (a : GSrc) (s : State) : Host.Outcome State Fault Refusal :=
  issue p 8 .control [.g a] [] (fun s t n => arriveForm s t b (gv s t n a) .done) s

/-- BARA_N (R283). -/
def execBaraN (p : Pred) (b : BitVec 2) (s : State) : Host.Outcome State Fault Refusal :=
  issue p 8 .control [] [] (fun s t _ => arriveForm s t b (ownIdentity s t b) .done) s

/-- WAITB (R284). -/
def execWaitb (p : Pred) (b : BitVec 2) (d : BitVec 5) (s : State) : Host.Outcome State Fault Refusal :=
  issue p 8 .tile [] [.g d] (fun s _ _ => .block (.waitb b d) s) s

/-- VABORT (R271, R285): after the arrival has been sent it waits for the release. -/
def execVabort (p : Pred) (u : BitVec 7) (s : State) : Host.Outcome State Fault Refusal :=
  issue p 8 .tile [] []
    (fun s t n =>
      if (s.tile t).v.bstate = 2 then .wait .release else .done (vote s t (.vabort u) n.val 0 0)) s

/-- BCFG (R282, R286): the CONTROL write travels to the decision point; its acknowledgement comes back. -/
def execBcfg (p : Pred) (b : BitVec 2) (a : GSrc) (op : BitVec 4) (s : State) : Host.Outcome State Fault Refusal :=
  issue p 12 .control [.g a] []
    (fun s t n =>
      let x := gv s t n a
      if 11 ≤ op.toNat ∨ x.extractLsb' 48 16 ≠ 0 then .trap .illegal 0
      else
        match s.groupOf t with
        | none => .done s
        | some g =>
          if (s.tile t).shadow then .done s
          else
            let T := s.tile t
            let w : BcfgWrite :=
              { ord := T.v.ord, tile := t, op := T.opNo, ss := T.v.ss, att := T.v.att.toNat, bid := b,
                val := (op.setWidth 64 <<< (60 : Nat)) ||| x }
            let s := (bumpOp s t).modStrand t n (fun S =>
              { S with ops := S.ops ++ [{ id := T.opNo, target := monitorTile, load := false }] })
            .done (s.post (tileDelay s g t) (.bcfgControlArrival g.id w))) s

/-- BCFG_CONTROL_ARRIVAL (R286): the write pends at the decision point; the tile is acknowledged. -/
def execBcfgControlArrival (s : State) : Host.Outcome State Fault Refusal :=
  match s.ev with
  | some (.bcfgControlArrival gid w) =>
    match s.group gid with
    | none => .next s
    | some g =>
      let s := if w.ss = g.ss ∧ w.att = g.att then s.modGroup gid (fun g => { g with bcfgW := g.bcfgW ++ [w] }) else s
      let o : Origin :=
        { ctx := g.ctx, tile := w.tile, strand := 0, vidx := BitVec.ofNat 20 (g.base * 1024 + w.ord), pc := 0, ss := w.ss,
          att := w.att, seq := 0, op := w.op, engine := false }
      .next (s.post (backDelay s g w.tile) (.ackArrival o .accept 0))
  | _ => .next s

/-- BST (Table 15.7). -/
def bstOf (v : VRegs) : Word :=
  (v.bstate.setWidth 64 <<< (61 : Nat)) ||| (v.bbid.setWidth 64 <<< (59 : Nat)) |||
  ((BitVec.ofBool v.park).setWidth 64 <<< (58 : Nat)) ||| ((BitVec.ofBool v.voted).setWidth 64 <<< (57 : Nat)) |||
  (v.ownc.setWidth 64 <<< (48 : Nat)) ||| (v.lcause.setWidth 64 <<< (40 : Nat)) ||| (v.latt.setWidth 64 <<< (36 : Nat))

/-- BRED (R287). -/
def execBred (p : Pred) (b : BitVec 2) (d : BitVec 5) (s : State) : Host.Outcome State Fault Refusal :=
  issue p 8 .tile [] [.g d] (fun s t n => .done (setG s t n d (s.tile t).v.res[b.toNat])) s

/-- BRED_CFG (R286, R287). -/
def execBredCfg (p : Pred) (b : BitVec 2) (d : BitVec 5) (s : State) : Host.Outcome State Fault Refusal :=
  issue p 8 .tile [] [.g d] (fun s t n => .done (setG s t n d (s.tile t).v.bcfg[b.toNat])) s

/-- BRED_ST (R287). -/
def execBredSt (p : Pred) (d : BitVec 5) (s : State) : Host.Outcome State Fault Refusal :=
  issue p 8 .tile [] [.g d] (fun s t n => .done (setG s t n d (bstOf (s.tile t).v))) s

/-- GLQ (Table 15.8). -/
def glqOf (g : Group) : Word :=
  let st := match g.dp with | .open_ => 0 | .gathering => 1 | .commit => 2 | .abort => 3
  let el := if g.timer < 2 ^ 40 then g.timer else 2 ^ 40 - 1
  BitVec.ofNat 64 (st * 2 ^ 62 + (if g.parks.isEmpty then 0 else 2 ^ 61) + g.count % 2 ^ 21 * 2 ^ 40 + el)

/-- GLCHK (R287): the query travels to the decision point, the reply back. -/
def execGlchk (p : Pred) (d : BitVec 5) (s : State) : Host.Outcome State Fault Refusal :=
  issue p 8 .tile [] [.g d]
    (fun s t n =>
      match s.groupOf t with
      | none => .done s
      | some g =>
        let gen := (s.strand t n).gen
        .done ((s.modStrand t n (fun S => S.markEmpty (.g d))).post (tileDelay s g t) (.glchkReply g.id t n gen d))) s

/-- GLCHK_REPLY (R287): the decision point answers with GLQ. -/
def execGlchkReply (s : State) : Host.Outcome State Fault Refusal :=
  match s.ev with
  | some (.glchkReply gid t n gen d) =>
    match s.group gid with
    | some g => .next (s.post (backDelay s g t) (.resultDelivery t n gen (.g d) ((glqOf g).setWidth 1024)))
    | none => .next s
  | _ => .next s

end Sys2Proof.Machine
end

