-- ==== Sys2Proof/Machine/Queue.lean ====
section
/-! DEFINITION. Queues, work objects and the graph dispatcher (12_queue): launch messages (R230 to R232), completion
(R233, R234), admission and placement (R236, R237), the power of clusters (R78, R238, R362), the
queue forms (R240 to R243). -/

namespace Sys2Proof.Machine

open Sys2Proof

/-! ### Requests to the dispatcher (R240) -/

/-- Cycles from a request to its reply: within 256 cy (R240; log entry 9). -/
def replyDelay : Nat := 128

/-- Does the barrier arrival wait for the reply (R241, R298)? -/
def queryHolds (q : DispQuery) : Bool :=
  match q with | .value _ => true | .record _ _ => true | .qst _ _ => true | _ => false

/-- Ask the dispatcher, the monitor or the page unit: g[D] is empty until the reply (R240, R241, R301, R363). A
shadow's `enq` and `cancel` go nowhere: the reply to its primary reaches it (R250). -/
def ask (s : State) (t : TileId) (n : StrandNo) (d : BitVec 5) (q : DispQuery) : State :=
  let gen := (s.strand t n).gen
  let s := (s.modStrand t n (fun S => S.markEmpty (.g d))).modTile t (fun T =>
    { T with acks := if queryHolds q then T.acks ++ [(n, gen)] else T.acks })
  match q with
  | .value _ => if discards s t then s else s.post replyDelay (.dispatcherReply t n gen d q)
  | _ => s.post replyDelay (.dispatcherReply t n gen d q)

/-! ### Work objects (R233) -/

/-- An object's identity with the fields that its level ignores set to 0. -/
def objNorm (o : ObjId) : ObjId :=
  { o with node := if o.level = 0 then o.node else 0, graph := if o.level.toNat < 2 then o.graph else 0,
           phase := if o.level = 3 then 0 else o.phase }

/-- The object that holds an object. -/
def objParent (o : ObjId) : Option ObjId :=
  if o.level = 3 then none else some (objNorm { o with level := o.level + 1 })

/-- Does an object hold another, or is it that one? -/
def objHolds (o p : ObjId) : Bool :=
  decide (p.level.toNat ≤ o.level.toNat) && objNorm { p with level := o.level } == o

/-- The record of an object. -/
def findObj (x : Ctx) (o : ObjId) : Option ObjRec := x.objs.find? (fun r => r.id == o)

/-- Change the record of an object. -/
def modObj (x : Ctx) (o : ObjId) (f : ObjRec → ObjRec) : Ctx :=
  { x with objs := x.objs.map (fun r => if r.id = o then f r else r) }

/-- Open an object that has not been opened. -/
def openOne (x : Ctx) (o : ObjId) : Ctx := if (findObj x o).isSome then x else { x with objs := x.objs ++ [{ id := o }] }

/-- Open an object and those that hold it (R233). -/
def openObj (x : Ctx) (o : ObjId) : Ctx :=
  ((List.range 4).filter (fun l => decide (o.level.toNat ≤ l))).foldl
    (fun x l => openOne x (objNorm { o with level := BitVec.ofNat 2 l })) x

/-- Objects directly within an object. -/
def children (x : Ctx) (o : ObjId) : List ObjRec := x.objs.filter (fun r => objParent r.id == some o)

/-- STATUS as a number (Table 12.3). -/
def statusCode (x : ObjStatus) : Nat := match x with | .pending => 0 | .done => 1 | .failed => 2 | .cancelled => 3

/-- Has the object's job been forgotten (R234)? -/
def objAged (x : Ctx) (o : ObjId) : Bool :=
  match findObj x (objNorm { o with level := 3 }) with
  | some j => j.st != .pending && decide (256 ≤ x.jobsDone - j.doneNo)
  | none => true

/-- The completion record of an object (Table 12.3): all ones for one never opened or forgotten. -/
def objRecord (x : Ctx) (o : ObjId) : Word :=
  match findObj x o with
  | none => BitVec.allOnes 64
  | some r =>
    if objAged x o then BitVec.allOnes 64
    else if o.level = 0 then BitVec.ofNat 64 (statusCode r.st * 2 ^ 62 + 2 ^ 61 + r.ss.toNat)
    else
      let cs := children x o
      let n := (cs.filter (fun c => c.st != .pending)).length
      BitVec.ofNat 64 (statusCode r.st * 2 ^ 62 + (if r.closed then 2 ^ 61 else 0) + n % 2 ^ 24 * 2 ^ 24 +
        (cs.length - n) % 2 ^ 24)

/-! ### Launch messages (R232, Table 12.2) -/

/-- The `n` bytes of a message at an offset. -/
def msgField (m : BitVec 512) (ofs n : Nat) : Nat := m.toNat / 256 ^ ofs % 256 ^ n

/-- The object that a message names: the node, what it closes, or what it cancels. -/
def msgObj (m : BitVec 512) : ObjId :=
  let k := msgField m 0 1
  objNorm { level := BitVec.ofNat 2 (if k = 5 then msgField m 2 1 else k - 1), job := BitVec.ofNat 32 (msgField m 4 4),
            phase := BitVec.ofNat 16 (msgField m 8 2), graph := BitVec.ofNat 16 (msgField m 10 2),
            node := BitVec.ofNat 12 (msgField m 12 2) }

/-- The valid predecessors of a node message. -/
def msgPreds (m : BitVec 512) : List Nat :=
  let p := msgField m 48 8
  ((List.range 4).filter (fun i => decide (p / 2 ^ (48 + i) % 2 = 1))).map (fun i => p / 2 ^ (12 * i) % 4096)

/-- Is a field or reserved byte of the message out of its range? -/
def msgMalformed (m : BitVec 512) : Bool :=
  let f (o n : Nat) : Nat := msgField m o n
  let k := f 0 1
  decide (k = 0 ∨ 5 < k ∨ 4 ≤ f 1 1 ∨ f 3 1 ≠ 0 ∨ f 14 2 ≠ 0 ∨ 4096 ≤ f 12 2 ∨ (if k = 5 then 4 else 16) ≤ f 2 1) ||
  (if k = 1 then
     decide (2 ^ 51 ≤ f 16 8 ∨ 2 ^ 20 ≤ f 24 4 ∨ 2 ^ 20 ≤ f 28 4 ∨ f 38 2 ≠ 0 ∨ 2 ^ 52 ≤ f 48 8 ∨ f 24 4 = 0 ∨ f 28 4 = 0 ∨
       f 24 4 < f 28 4)
   else
     let note := f 1 1 / 2 % 2
     decide (f 16 40 ≠ 0 ∨ (k = 5 ∧ note = 1) ∨ (note = 0 ∧ f 56 8 ≠ 0)))

/-- Has any object that holds `o`, other than a node, the property? -/
def upObj (x : Ctx) (o : ObjId) (p : ObjRec → Bool) : Bool := x.objs.any (fun r => r.id.level != 0 && objHolds r.id o && p r)

/-- Is the message BAD for its context (R232, R235)? The rules on closed objects and on phases hold for every kind, with the
message's own PHASE field. A second node of one number is BAD (log entry 23). -/
def msgBad (x : Ctx) (m : BitVec 512) : Bool :=
  let o := msgObj m
  let k := msgField m 0 1
  msgMalformed m || upObj x o (fun r => r.canc) ||
  upObj x o (fun r => r.closed) ||
  x.objs.any (fun r => r.id.level == 2 && r.id.job == o.job && decide (msgField m 8 2 < r.id.phase.toNat)) ||
  (k == 1 &&
    (match x.kernel (BitVec.ofNat 64 (msgField m 16 8)) with | some kr => kr.st == .retired | none => true) ||
   k == 1 &&
    ((findObj x o).isSome ||
     (msgPreds m).any (fun p =>
       decide (o.node.toNat ≤ p) || (findObj x { o with node := BitVec.ofNat 12 p }).isNone)))

/-- A queue of a context. -/
def Ctx.queue (x : Ctx) (q : Nat) : Queue := (x.queues[q]?).getD {}

/-- Change a queue of a context. -/
def Ctx.modQueue (x : Ctx) (q : Nat) (f : Queue → Queue) : Ctx :=
  { x with queues := x.queues.setIfInBounds q (f (x.queue q)) }

/-- The status of an offered message (R230, Table 12.1). -/
def offerStatus (x : Ctx) (q : Nat) (m : BitVec 512) : Nat :=
  let k := x.queue q
  if !k.open_ then 2 else if msgBad x m then 3 else if 256 ≤ k.msgs.length + k.rsv then 1 else 0

/-- Append a message at the tail of a queue; the pool takes it in (R231). -/
def appendMsg (s : State) (ctx q : Nat) (m : BitVec 512) : State :=
  (s.modCtx ctx (fun x => x.modQueue q (fun k => { k with msgs := k.msgs ++ [m] }))).postFirst .poolIntake

/-- A reservation enters its queue (R241); a queue closed since keeps nothing of it. -/
def enterReservation (s : State) (ctx q : Nat) (m : BitVec 512) : State :=
  let s := s.modCtx ctx (fun x => x.modQueue q (fun k => { k with rsv := k.rsv - 1 }))
  if (s.ctx ctx).st = .free ∨ (s.ctx ctx).st = .sweeping then s else appendMsg s ctx q m

/-- A reservation is released (R241). -/
def dropReservation (s : State) (ctx q : Nat) : State :=
  s.modCtx ctx (fun x => x.modQueue q (fun k => { k with rsv := k.rsv - 1 }))

/-- LAUNCH_MESSAGE_OFFER (R230): from the control port. -/
def execLaunchMessageOffer (s : State) : Host.Outcome State Fault Refusal :=
  match s.ev with
  | some (.launchMessageOffer ctx q m) =>
    let st := offerStatus (s.ctx ctx) q m
    let s := s.report (.offer ctx q st)
    .next (if st = 0 then appendMsg s ctx q m else s)
  | _ => .next s

/-! ### Completion (R233, R234) -/

/-- The worst status of children (R233). -/
def worst (a b : ObjStatus) : ObjStatus :=
  if a = .failed ∨ b = .failed then .failed else if a = .cancelled ∨ b = .cancelled then .cancelled else .done

/-- Did an earlier phase of the job complete otherwise than DONE (R233)? -/
def earlierFailed (x : Ctx) (o : ObjId) : Bool :=
  x.objs.any (fun r =>
    r.id.level == 2 && r.id.job == o.job && decide (r.id.phase.toNat < o.phase.toNat) && (r.st == .failed || r.st == .cancelled))

/-- Have all earlier phases completed DONE? -/
def phaseEligible (x : Ctx) (o : ObjId) : Bool :=
  x.objs.all (fun r => !(r.id.level == 2 && r.id.job == o.job && decide (r.id.phase.toNat < o.phase.toNat)) || r.st == .done)

/-- The notification of a completion: a counted message of 8 bytes from the dispatcher (R234). One whose address `msg` does
not take (R98, R109) is refused. -/
def notify (s : State) (ctx : Nat) (r : ObjRec) (rcd : Word) : State :=
  if r.note && decide (r.naddr.toNat % 8 = 0) && !eaBad r.naddr then
    let o : Origin :=
      { ctx := ctx, tile := monitorTile, strand := 0, vidx := 0, pc := 0, ss := 0, att := 0, seq := 0, op := 0,
        engine := false }
    s.post 8 (.msgArrival { src := o, ea := r.naddr, n := 8, data := rcd.setWidth 1024, ct := r.aux })
  else s

/-- An object completes: record, notification, report (R234). -/
def completeObj (s : State) (ctx : Nat) (o : ObjId) (st : ObjStatus) : State :=
  let x := s.ctx ctx
  match findObj x o with
  | none => s
  | some r =>
    if r.st ≠ .pending then s
    else
      let jobs := if o.level = 3 then x.jobsDone + 1 else x.jobsDone
      let s := s.modCtx ctx (fun x => { (modObj x o (fun r => { r with st := st, doneNo := jobs })) with jobsDone := jobs })
      let rcd := objRecord (s.ctx ctx) o
      let s := notify s ctx r rcd
      if r.rep then s.report (.completion ctx o rcd) else s

/-- Complete a closed graph, phase or job whose children have all completed (R233); a node completes by its own group. -/
def settleObj (s : State) (ctx : Nat) (o : ObjId) : State :=
  let x := s.ctx ctx
  match findObj x o with
  | none => s
  | some r =>
    let cs := children x o
    if o.level ≠ 0 ∧ r.st = .pending ∧ r.closed ∧ cs.all (fun c => c.st != .pending) then
      let w := cs.foldl (fun a c => worst a c.st) .done
      completeObj s ctx o (if o.level = 2 ∧ earlierFailed x o then worst w .cancelled else w)
    else s

/-- Complete the objects that hold one, from the innermost (R233). -/
def settleUp (s : State) (ctx : Nat) (o : ObjId) : State :=
  (List.range 3).foldl (fun s l =>
    let p : ObjId := objNorm { o with level := BitVec.ofNat 2 (l + 1) }
    if o.level.toNat < l + 1 then settleObj s ctx p else s) s

/-- Nodes of the pool that a predecessor or an earlier phase has cancelled complete CANCELLED (R233). -/
def settlePool (s : State) (ctx : Nat) : State :=
  let x := s.ctx ctx
  let dead (n : PoolNode) : Bool :=
    n.ctx == ctx && (earlierFailed x n.node ||
      n.pred.any (fun p =>
        match findObj x { n.node with node := BitVec.ofNat 12 p } with
        | some r => r.st == .failed || r.st == .cancelled
        | none => false))
  let gone := s.disp.pool.filter dead
  let s := { s with disp := { s.disp with pool := s.disp.pool.filter (fun n => !dead n) } }
  gone.foldl (fun s n => s.post 0 (.nodeCompletion ctx n.node .cancelled)) s

/-- Later phases of a job with a phase that did not complete DONE may complete too, the lowest first. -/
def settleJob (s : State) (ctx : Nat) (o : ObjId) : State :=
  let ps := (s.ctx ctx).objs.filter (fun r => r.id.level == 2 && r.id.job == o.job && r.st == .pending)
  ps.foldl (fun s r => settleUp (settleObj s ctx r.id) ctx r.id) s

/-- What follows from a change of an object: it and those that hold it complete, later phases of its job, nodes of the pool
(R233). -/
def settleAll (s : State) (ctx : Nat) (o : ObjId) : State :=
  settlePool (settleJob (settleUp (settleObj s ctx o) ctx o) ctx o) ctx

/-- NODE_COMPLETION (R233, R234). -/
def execNodeCompletion (s : State) : Host.Outcome State Fault Refusal :=
  match s.ev with
  | some (.nodeCompletion ctx o st) => .next ((settleAll (completeObj s ctx o st) ctx o).post 0 .poolIntake)
  | _ => .next s

/-! ### Intake (R231) -/

/-- A queue whose head may be taken. -/
def headReady (s : State) (ctx q : Nat) : Bool :=
  let k := (s.ctx ctx).queue q
  k.open_ && (match k.msgs with | m :: _ => msgField m 0 1 != 1 || decide (s.disp.pool.length < 4096) | [] => false)

/-- The next queue in round-robin order with a head that may be taken: 16 numbers for each context. -/
def nextQueue (s : State) : Option Nat :=
  ((List.range 512).map (fun i => (s.disp.rr + i) % 512)).find? (fun k => headReady s (k / 16) (k % 16))

/-- The pool entry of a node message. -/
def poolNodeOf (s : State) (ctx q : Nat) (m : BitVec 512) : PoolNode :=
  { ctx := ctx, dev := q / 4, prio := q % 4, order := s.disp.order, node := msgObj m, kimg := BitVec.ofNat 64 (msgField m 16 8),
    v := msgField m 24 4, pmin := msgField m 28 4, edecl := msgField m 32 4, trise := msgField m 36 2,
    arg := BitVec.ofNat 64 (msgField m 40 8), pred := msgPreds m }

/-- What a message that opens or closes leaves in the record of its object (R232, R234). -/
def openMsg (x : Ctx) (m : BitVec 512) : Ctx :=
  let o := msgObj m
  modObj (openObj x o) o (fun r =>
    { r with rep := msgField m 1 1 % 2 == 1, note := msgField m 1 1 / 2 % 2 == 1, closed := true
             aux := BitVec.ofNat 4 (msgField m 2 1), naddr := BitVec.ofNat 64 (msgField m 56 8) })

/-- Open the job, phase and graph that a cancel names (R233): a node is opened by its own message alone. -/
def openNamed (x : Ctx) (o : ObjId) : Ctx := openObj x (if o.level = 0 then objNorm { o with level := 1 } else o)

/-- Process a message taken from its queue (R231, R233, R235). DESIGN CHOICE (log entry 91): a message accepted before its
graph, phase or job was closed or cancelled is processed without a further check. -/
def takeLaunch (s : State) (ctx q : Nat) (m : BitVec 512) : State :=
  let k := msgField m 0 1
  let o := msgObj m
  if k = 5 then (s.modCtx ctx (fun x => openNamed x o)).post 0 (.cancelAtDispatcher ctx o)
  else
    let s := s.modCtx ctx (fun x => openMsg x m)
    if k = 1 then
      settlePool { s with disp := { s.disp with pool := s.disp.pool ++ [poolNodeOf s ctx q m], order := s.disp.order + 1 } } ctx
    else settleAll s ctx o

/-- POOL_INTAKE (R231): one message; a further waiting head is the next step. -/
def execPoolIntake (s : State) : Host.Outcome State Fault Refusal :=
  match s.ev with
  | some .poolIntake =>
    match nextQueue s with
    | none => .next s
    | some k =>
      match ((s.ctx (k / 16)).queue (k % 16)).msgs with
      | [] => .next s
      | m :: r =>
        let s := { s with disp := { s.disp with rr := (k + 1) % 512 } }
        let s := s.modCtx (k / 16) (fun x => x.modQueue (k % 16) (fun q => { q with msgs := r }))
        let s := takeLaunch s (k / 16) (k % 16) m
        .next (if (nextQueue s).isSome then s.post 0 .poolIntake else s)
  | _ => .next s

/-! ### Placement (R236, R237, R253, R254) -/

/-- A set of clusters for a number of tiles: wake cost in µs, clusters, and per die the tiles and the clusters. -/
structure Choice where
  cost : Nat
  num : Nat
  parts : List (Nat × List ClusterId)
  deriving DecidableEq, Repr

/-- The clusters in rising order. -/
def Choice.clusters (c : Choice) : List ClusterId := c.parts.flatMap (fun p => p.2)

/-- Lists of numbers in lexicographic order. -/
def lexLt : List Nat → List Nat → Bool
  | [], [] => false
  | [], _ => true
  | _, [] => false
  | a :: r, b :: q => decide (a < b) || (a == b && lexLt r q)

/-- The order of preference of R237. DESIGN CHOICE (log entry 91): placements of several clusters compare by their clusters
in rising order, the first that differs deciding. -/
def Choice.lt (a b : Choice) : Bool :=
  decide (a.cost < b.cost) || (a.cost == b.cost && (decide (a.num < b.num) ||
    (a.num == b.num && lexLt a.clusters b.clusters)))

/-- The better of two. -/
def better (a b : Option Choice) : Option Choice :=
  match a, b with
  | some x, some y => if y.lt x then b else a
  | none, b => b
  | a, none => a

/-- Allow a further cluster of a die with `n` tiles: entry k of the list is the best choice for k tiles. -/
def addCluster (c : ClusterId) (n cost : Nat) (f : List (Option Choice)) : List (Option Choice) :=
  let g := f.map (fun o => o.map (fun x =>
    { cost := x.cost + cost, num := x.num + 1, parts := [(0, x.clusters ++ [c])] : Choice }))
  (List.range f.length).map (fun k => better (f.getD k none) (g.getD (k - n) none))

/-- The best choices of two sets of dies together; among equal ones that with the most tiles on the lower dies (R237). -/
def joinDies (p : Nat) (f g : List (Option Choice)) : List (Option Choice) :=
  (List.range (p + 1)).map (fun k =>
    (List.range (k + 1)).reverse.foldl (fun r i =>
      match f.getD i none, g.getD (k - i) none with
      | some x, some y => better r (some { cost := x.cost + y.cost, num := x.num + y.num, parts := x.parts ++ y.parts })
      | _, _ => r) none)

/-- May the dispatcher place a context's groups on a tile (R391)? Where the monitor has given the context tiles, only on
those (log entry 91). -/
def tileGiven (x : Ctx) (t : TileId) : Bool := x.granted.isEmpty || x.granted.contains t

/-- Tiles of a cluster that a group may use (R16, R236, R238, R246, R362, R391): enabled for the context and given to it, with
room for what a host holds, in a cluster that holds no group, is not in TEST and has not failed its test. -/
def usableTiles (s : State) (x : Ctx) (c : ClusterId) (need : Nat) : List TileId :=
  let k := s.cluster c
  if k.placed.isSome || k.power == .test || k.tfail then []
  else
    ((List.range 8).map (tileAt c)).filter (fun t =>
      ((x.enbl[dieOf t]?).getD 0).getLsbD (t % 1024) && tileGiven x t && decide (need ≤ capOf t))

/-- Wake cost of a cluster in µs (Table 4.1). -/
def wakeCost (k : Cluster) : Nat := match k.power with | .gated => 8 | .retained => 2 | .awake => 0 | .test => 0

/-- Dies of a logical device (Table 11.2). -/
def diesOf (mode : BitVec 2) (dev : Nat) : List Nat := (List.range 4).filter (fun d => deviceOf mode d == dev)

/-- The best placement of `n` tiles (R237): at most `cap` tiles of one cluster, and on each die no more than its reservoir
holds energy for. Answers the tiles in the order of R254. -/
def placeTiles (s : State) (x : Ctx) (dev n cap need energy trise : Nat) : Option (List TileId) :=
  let perDie (d : Nat) : List (Option Choice) :=
    let D := s.die d
    let none0 : List (Option Choice) := some { cost := 0, num := 0, parts := [] } :: List.replicate n none
    if D.head.toNat < trise then none0
    else
      let cs := (List.range 128).map (fun c => d * 128 + c)
      let f := cs.foldl (fun f c =>
        let m := (usableTiles s x c need).length
        let m := if m < cap then m else cap
        if m = 0 then f else addCluster c m (wakeCost (s.cluster c)) f) none0
      f.mapIdx (fun k o =>
        if D.eres * n < (energy * k : Nat) ∧ 0 < k then none
        else o.map (fun ch => { ch with parts := [(k, ch.clusters)] }))
  let dies := diesOf x.mode dev
  let all := (dies.drop 1).foldl (fun f d => joinDies n f (perDie d)) (perDie (dies.headD 0))
  match all.getD n none with
  | none => none
  | some ch => some (ch.parts.flatMap (fun p => (p.2.flatMap (fun c => (usableTiles s x c need).take cap)).take p.1))

/-- Blocks of 1,024 ordinals in use by live groups of a context. -/
def usedBlocks (s : State) (ctx : Nat) : List Nat :=
  (s.groups.filter (fun g => g.ctx == ctx && g.st != .ended)).flatMap (fun g =>
    (List.range ((g.v - 1) / 1024 + 1)).map (fun i => g.base + i))

/-- BASE of a new group (R253): the lowest that fits (log entry 24). -/
def chooseBase (s : State) (ctx v : Nat) : Option Nat :=
  let used := usedBlocks s ctx ++ (((s.ctx ctx).savedGroups).flatMap (fun g =>
    (List.range ((g.v - 1) / 1024 + 1)).map (fun i => g.base + i)))
  let nb := (v - 1) / 1024 + 1
  (List.range 1024).find? (fun b =>
    decide (b + nb ≤ 1024 ∧ v ≤ 2 ^ 20 - b * 1024) && (List.range nb).all (fun i => !used.contains (b + i)))

/-- A placement of a node: its base, hosts and shadows (R236, R237, R250, R254). -/
def fits (s : State) (n : PoolNode) (k : Kernel) : Option (Nat × List TileId × List TileId) :=
  let x := s.ctx n.ctx
  match chooseBase s n.ctx n.v with
  | none => none
  | some base =>
    let free := ((diesOf x.mode n.dev).flatMap (fun d => (List.range 128).map (fun c => d * 128 + c))).foldl
      (fun a c => a + (usableTiles s x c 0).length) 0
    let top := if n.v < free then n.v else free
    let low := if n.pmin < (n.v + 7) / 8 then (n.v + 7) / 8 else n.pmin
    ((List.range (top + 1 - low)).map (fun i => top - i)).findSome? (fun p =>
      if p = 0 then none
      else
        let need := storeNeed k.partw n.v p
        if k.dmr then
          (placeTiles s x n.dev (2 * p) p need (2 * n.edecl) n.trise).map (fun ts => (base, ts.take p, ts.drop p))
        else (placeTiles s x n.dev p p need n.edecl n.trise).map (fun ts => (base, ts, [])))

/-! ### The power of clusters (R78, R238, R362) -/

/-- The group that holds a cluster. -/
def clusterGroup (s : State) (c : ClusterId) : Option Group :=
  match (s.cluster c).placed with | some g => s.group g | none => none

/-- Clear the pools of a cluster (R78). -/
def clearPools (s : State) (c : ClusterId) : State :=
  (List.range 8).foldl (fun s p => s.modTile (tileAt c p) (fun T => { T with mem := [], errs := [] })) s

/-- CLUSTER_WAKE (R78): usable 8 µs, or 2 µs, after the request. -/
def execClusterWake (s : State) : Host.Outcome State Fault Refusal :=
  match s.ev with
  | some (.clusterWake c) =>
    match (s.cluster c).power with
    | .gated =>
      let s := (clearPools s c).modCluster c (fun k => { k with power := .awake, usableAt := some (s.cycle + 12800) })
      .next (s.post 12800 (.clusterUsable c))
    | .retained =>
      let s := s.modCluster c (fun k => { k with power := .awake, usableAt := some (s.cycle + 3200) })
      .next (s.post 3200 (.clusterUsable c))
    | .awake => .next s
    | .test => .next s
  | _ => .next s

/-- Clusters of a group's tiles. -/
def groupClusters (g : Group) : List ClusterId :=
  g.tiles.foldl (fun cs t => if cs.contains (clusterOf t) then cs else cs ++ [clusterOf t]) []

/-- Is every cluster of a placed group usable (R237)? -/
def allUsable (s : State) (g : Group) : Bool :=
  (groupClusters g).all (fun c => (s.cluster c).power == .awake && (s.cluster c).usableAt.isNone)

/-- CLUSTER_USABLE (R78, R237, R238): the last one starts the group; a cluster woken for its test is tested. -/
def execClusterUsable (s : State) : Host.Outcome State Fault Refusal :=
  match s.ev with
  | some (.clusterUsable c) =>
    if (s.cluster c).usableAt ≠ some s.cycle then .next s
    else
      let s := s.modCluster c (fun k => { k with usableAt := none })
      match clusterGroup s c with
      | some g => .next (if g.st = .placed ∧ allUsable s g then s.post 0 (.groupStart g.id) else s)
      | none => .next (if (s.cluster c).tpend then s.post 0 (.testStart c) else s)
  | _ => .next s

/-- Idle time of a cluster in µs (R238, Table 12.6). -/
def idleOf (s : State) (c : ClusterId) : Nat :=
  if (s.cluster c).placed.isSome then 0 else (s.cycle - (s.cluster c).idleSince) / 1600

/-- May a cluster be retained, gated or tested: no group, no strand live (R78)? -/
def clusterFree (s : State) (c : ClusterId) : Bool :=
  (s.cluster c).placed.isNone && (List.range 8).all (fun p => !(s.tile (tileAt c p)).running)

/-- CLUSTER_RETAIN (R238). -/
def execClusterRetain (s : State) : Host.Outcome State Fault Refusal :=
  match s.ev with
  | some (.clusterRetain c) =>
    let k := s.cluster c
    .next (if k.power = .awake ∧ k.usableAt.isNone ∧ clusterFree s c ∧ s.disp.retd ≠ 0 ∧ s.disp.retd.toNat ≤ idleOf s c
      then s.modCluster c (fun k => { k with power := .retained, retAt := s.cycle }) else s)
  | _ => .next s

/-- Is a cluster to be gated (R238): GATD µs after it was retained, or, where retention is disabled, after GATD µs idle? -/
def gateDue (s : State) (c : ClusterId) : Bool :=
  let k := s.cluster c
  clusterFree s c && s.disp.gatd != 0 &&
    ((k.power == .retained && decide (s.disp.gatd.toNat ≤ (s.cycle - k.retAt) / 1600)) ||
     (k.power == .awake && k.usableAt.isNone && s.disp.retd == 0 && decide (s.disp.gatd.toNat ≤ idleOf s c)))

/-- CLUSTER_GATE (R78, R238): the pools' contents are lost. -/
def execClusterGate (s : State) : Host.Outcome State Fault Refusal :=
  match s.ev with
  | some (.clusterGate c) =>
    .next (if gateDue s c
      then (clearPools s c).modCluster c (fun k => { k with power := .gated }) else s)
  | _ => .next s

/-- Is a structural test due (R238)? -/
def testDue (s : State) (c : ClusterId) : Bool :=
  let k := s.cluster c
  k.tpend && s.disp.ten && clusterFree s c && decide (5000 ≤ idleOf s c) && k.power != .test

/-- TEST_START (R238, R362): the cluster is awake and usable; the pools are destroyed. An admission step of the same cycle
comes first. -/
def execTestStart (s : State) : Host.Outcome State Fault Refusal :=
  match s.ev with
  | some (.testStart c) =>
    let k := s.cluster c
    if s.agenda.any (fun e => decide (e.1 ≤ s.cycle) && e.2 == .admissionStep) then .next (s.post 0 (.testStart c))
    else if testDue s c ∧ k.power = .awake ∧ k.usableAt.isNone then
      let s := (clearPools s c).modCluster c (fun k => { k with power := .test, tpend := false })
      .next (s.post 4800000 (.testDone c))
    else .next s
  | _ => .next s

/-- The record of a unit after a test with failing parts `kind` (Table 20.2): 0 none, 1 logic, 2 SRAM, 3 both. -/
def testRecord (old : Word) (kind : Nat) (cyc : Nat) : Word :=
  let sat (x : Nat) : Nat := if x < 4095 then x + 1 else x
  let runs := sat (old.extractLsb' 48 12).toNat
  let fails := (old.extractLsb' 36 12).toNat
  BitVec.ofNat 64 (2 ^ 63 + (if kind = 0 then 0 else 2 ^ 62) + kind * 2 ^ 60 + runs * 2 ^ 48 +
    (if kind = 0 then fails else sat fails) * 2 ^ 36 + cyc / 2 ^ 20 % 2 ^ 36)

/-- TEST_DONE (R362): the outcome of each unit is a free value (log entry 2). -/
def execTestDone (s : State) : Host.Outcome State Fault Refusal :=
  match s.ev with
  | some (.testDone c) =>
    if (s.cluster c).power ≠ .test then .next s
    else
      let f := s.freshNat
      let kind (u : Nat) : Nat := if u = 8 then f.1 / 4 ^ u % 2 else f.1 / 4 ^ u % 4
      .next ((clearPools f.2 c).modCluster c (fun k =>
        { k with power := .awake, tfail := (List.range 9).any (fun u => decide (kind u ≠ 0))
                 records := k.records.mapFinIdx (fun u r _ => testRecord r (kind u) s.cycle) }))
  | _ => .next s

/-- What the power policy does at the end of a cycle, for one cluster (R238). -/
def tickCluster (s : State) (c : ClusterId) : State :=
  let k := s.cluster c
  if k.placed.isSome || k.usableAt.isSome then s
  else if testDue s c then (if k.power = .awake then s.post 0 (.testStart c) else s.post 0 (.clusterWake c))
  else if gateDue s c then s.post 0 (.clusterGate c)
  else if k.power = .awake ∧ s.disp.retd ≠ 0 ∧ s.disp.retd.toNat ≤ idleOf s c then s.post 0 (.clusterRetain c)
  else s

/-! ### Admission (R236) -/

/-- Kernel state after a group is placed (Table 13.4). -/
def Kernel.placed (k : Kernel) (replaying : Bool) : Kernel :=
  { k with groups := k.groups + 1, st := if replaying then .retrying else .running }

/-- Is a group of the kernel replaying (R248)? -/
def kernelReplays (s : State) (ctx : Nat) (kimg : Word) : Bool :=
  s.groups.any (fun g => g.ctx == ctx && g.kimg == kimg && g.st != .ended && g.replaying)

/-- Admit a node: its group is placed and its clusters are woken (R236, R237, R248). -/
def admitNode (s : State) (n : PoolNode) (p : Nat × List TileId × List TileId) : State :=
  let id := s.disp.groupNo
  let g : Group :=
    { id := id, ctx := n.ctx, base := p.1, v := n.v, pmin := n.pmin, hosts := p.2.1, shadows := p.2.2, kimg := n.kimg,
      arg := n.arg, node := n.node, dev := n.dev }
  let s := { s with
    disp := { s.disp with groupNo := id + 1, pool := s.disp.pool.filter (fun m => m.order != n.order) }
    groups := s.groups ++ [g] }
  let s := s.modCtx n.ctx (fun x => x.modKernel n.kimg (fun k => k.placed (kernelReplays s n.ctx n.kimg)))
  let s := (groupClusters g).foldl (fun s c =>
    let s := s.modCluster c (fun k => { k with placed := some id, gate := false })
    match (s.cluster c).power with
    | .gated => s.post 0 (.clusterWake c)
    | .retained => s.post 0 (.clusterWake c)
    | .awake => s
    | .test => s) s
  (if allUsable s g then s.post 0 (.groupStart id) else s).post 0 .poolIntake

/-- Is a node of the pool ready (R233)? -/
def nodeReady (s : State) (n : PoolNode) : Bool :=
  let x := s.ctx n.ctx
  phaseEligible x n.node &&
    n.pred.all (fun p =>
      match findObj x { n.node with node := BitVec.ofNat 12 p } with | some r => r.st == .done | none => false)

/-- The nodes considered in one step, in pool order: the first that fits is admitted, or refused by its kernel, and those
before that did not fit, `past`, are bypassed; one at BYP = 64 that does not fit lets nothing pass. -/
def admitFirst (s : State) (past : List Nat) : List PoolNode → State
  | [] => s
  | n :: r =>
    let passed : State := { s with disp := { s.disp with pool := s.disp.pool.map (fun m =>
      if past.contains m.order then { m with byp := m.byp + 1 } else m) } }
    match (s.ctx n.ctx).kernel n.kimg with
    | none => refuseNode passed n
    | some k =>
      match fits s n k with
      | some p => if k.st = .failed ∨ k.st = .retired then refuseNode passed n else admitNode passed n p
      | none => if n.byp = 64 then s else admitFirst s (past ++ [n.order]) r
where
  /-- A kernel that accepts no launch: the node completes FAILED without running (Table 13.4). -/
  refuseNode (s : State) (n : PoolNode) : State :=
    { s with disp := { s.disp with pool := s.disp.pool.filter (fun m => m.order != n.order) } }.post 0
      (.nodeCompletion n.ctx n.node .failed)

/-- The step of one logical device of a context. -/
def admitDevice (s : State) (ctx dev : Nat) : State :=
  let ready := s.disp.pool.filter (fun n => n.ctx == ctx && n.dev == dev && nodeReady s n)
  admitFirst s [] ((List.range 4).flatMap (fun q => ready.filter (fun n => n.prio == q)))

/-- DPOL (Table 12.4) as written by `idle.set` under R7 and R8. -/
def setDpol (d : Dispatcher) (w : Word) : Dispatcher :=
  { d with ten := w.getLsbD 63, gatd := w.extractLsb' 32 16, retd := w.extractLsb' 0 16 }

/-- What `idle.set` has written takes effect (R243). -/
def takeDpol (d : Dispatcher) : Dispatcher :=
  match d.dpolW with | some w => { setDpol d w with dpolW := none } | none => d

/-- ADMISSION_STEP (R236, R243): every 64 cy, each logical device of each live context. DESIGN CHOICE (log entry 91): the
contexts take their steps of one cycle by rising number. -/
def execAdmissionStep (s : State) : Host.Outcome State Fault Refusal :=
  match s.ev with
  | some .admissionStep =>
    let s := { s with disp := takeDpol s.disp }
    .next ((List.range 32).foldl (fun s c =>
      if (s.ctx c).st = .live then (List.range (devicesOf (s.ctx c).mode)).foldl (fun s d => admitDevice s c d) s else s) s)
  | _ => .next s

/-! ### The queue forms (R240 to R243) -/

/-- Logical device of a tile in its context. -/
def ownDevice (s : State) (t : TileId) : Nat := deviceOf (s.ctx (s.tile t).ctx).mode (dieOf t)

/-- Hold a request behind the vote; a shadow's stays in the tile (R241, R250). -/
def hold (s : State) (t : TileId) (h : Held) : State :=
  if discards s t then s else s.modV t (fun v => { v with held := v.held ++ [h] })

/-- ENQ (R241). -/
def execEnq (p : Pred) (q : BitVec 4) (d : BitVec 5) (a : GSrc) (s : State) : Host.Outcome State Fault Refusal :=
  issue p 8 .tile [.g a] [.g d]
    (fun s t n =>
      let ea := gv s t n a
      if ea.toNat % 64 ≠ 0 then .trap .misalign 0
      else if 2 ^ 21 ≤ ea.toNat then .trap .prot 0
      else
        match ownPlace s t n ea.toNat 64 false with
        | .error x => x
        | .ok pl =>
          match localRead s t n.val pl.2 64 with
          | .error e => wErrAct e
          | .ok r =>
            let c := (s.tile t).ctx
            let k := 4 * ownDevice s t + q.toNat
            let m := BitVec.ofNat 512 (natOf r.2)
            let st := if 3 < q.toNat then 3 else offerStatus (s.ctx c) k m
            let s := noteItem r.1 t 2 (BitVec.ofNat 64 k) r.2
            let s := if st = 0 ∧ !discards s t then
              hold (s.modCtx c (fun x => x.modQueue k (fun y => { y with rsv := y.rsv + 1 }))) t (.enq k m) else s
            .done (ask s t n d (.value (BitVec.ofNat 64 st)))) s

/-- The object that an identifier names (R240). -/
def identOf (lv : BitVec 2) (a b : Word) : ObjId :=
  objNorm { level := lv, job := a.extractLsb' 32 32, phase := a.extractLsb' 16 16, graph := a.extractLsb' 0 16,
            node := b.extractLsb' 0 12 }

/-- Does an identifier name a node number above 4,095, which no object has? -/
def identWild (lv : BitVec 2) (b : Word) : Bool := lv == 0 && decide (4096 ≤ b.toNat)

/-- CCNT (R240, R242). -/
def execCcnt (p : Pred) (lv : BitVec 2) (d : BitVec 5) (a b : GSrc) (s : State) : Host.Outcome State Fault Refusal :=
  issue p 8 .tile [.g a, .g b] [.g d]
    (fun s t n =>
      if identWild lv (gv s t n b) then .done (ask s t n d (.value (BitVec.allOnes 64)))
      else .done (ask s t n d (.record (s.tile t).ctx (identOf lv (gv s t n a) (gv s t n b))))) s

/-- CCNT_Q (R240). -/
def execCcntQ (p : Pred) (q : BitVec 4) (d : BitVec 5) (s : State) : Host.Outcome State Fault Refusal :=
  issue p 8 .tile [] [.g d]
    (fun s t n =>
      if 3 < q.toNat then .done (ask s t n d (.value (BitVec.allOnes 64)))
      else .done (ask s t n d (.qst (s.tile t).ctx (4 * ownDevice s t + q.toNat)))) s

/-- CANCEL (R242): held behind the vote. -/
def execCancel (p : Pred) (lv : BitVec 2) (d : BitVec 5) (a b : GSrc) (s : State) : Host.Outcome State Fault Refusal :=
  issue p 8 .tile [.g a, .g b] [.g d]
    (fun s t n =>
      let o := identOf lv (gv s t n a) (gv s t n b)
      let s := noteItem s t 2 (gv s t n a) (bytesOf 8 (gv s t n b).toNat)
      if identWild lv (gv s t n b) || (findObj (s.ctx (s.tile t).ctx) o).isNone then
        .done (ask s t n d (.value (BitVec.allOnes 64)))
      else .done (ask (hold s t (.cancel o)) t n d (.value 0))) s

/-- QST (Table 12.5). -/
def qstOf (x : Ctx) (q : Nat) : Word :=
  let k := x.queue q
  BitVec.ofNat 64 ((if k.open_ then 2 ^ 63 else 0) + q % 4 * 2 ^ 18 + k.rsv * 2 ^ 9 + (k.msgs.length + k.rsv))

/-- Does a cluster hold a tile of a context (R243, R363)? DESIGN CHOICE (log entry 91): a cluster without a group holds one
where the monitor has given the context a tile of it. -/
def clusterHolds (s : State) (c : ClusterId) (ctx : Nat) : Bool :=
  match clusterGroup s c with
  | some g => g.ctx == ctx
  | none => (s.ctx ctx).granted.any (fun t => clusterOf t == c)

/-- CLST (Table 12.6). -/
def clstOf (s : State) (c : ClusterId) : Word :=
  let k := s.cluster c
  let st := match k.power with
    | .gated => 0 | .retained => 1
    | .awake => if (List.range 8).any (fun p => (s.tile (tileAt c p)).running) then 3 else 2
    | .test => 4
  let ctx := ((clusterGroup s c).map (fun g => g.ctx)).getD 0
  let idle := if idleOf s c < 2 ^ 32 then idleOf s c else 2 ^ 32 - 1
  BitVec.ofNat 64 (st * 2 ^ 61 + ctx * 2 ^ 56 + (if k.tpend then 2 ^ 55 else 0) + (if k.tfail then 2 ^ 54 else 0) + idle)

/-- IDLE_RD (R243): the root monitor may read any cluster. -/
def execIdleRd (p : Pred) (d : BitVec 5) (a : GSrc) (s : State) : Host.Outcome State Fault Refusal :=
  issue p 8 .any [.g a] [.g d]
    (fun s t n => .done (ask s t n d (.clst (s.tile t).ctx (gv s t n a)))) s

/-- IDLE_SET (R243): DPOL takes the value at the next admission step. -/
def execIdleSet (p : Pred) (a : GSrc) (s : State) : Host.Outcome State Fault Refusal :=
  issue p 8 .monitor [.g a] []
    (fun s t n => .done { s with disp := { s.disp with dpolW := some (gv s t n a) } }) s

end Sys2Proof.Machine
end

