-- ==== Sys2Proof/Machine/Page.lean ====
section
/-! DEFINITION. The page unit (16_page): page states and transfers (R293), parked accesses and faults (R294), migration
(R295, R296), imposition lists (R297, R298), checkpoints (R299), the drain of write-backs (R195), the page forms (R301 to
R305). -/

namespace Sys2Proof.Machine

open Sys2Proof

/-! ### Pages, frames, slots -/

/-- The page of an address. -/
def pageOf (va : Word) : Nat := va.toNat / 32768

/-- Cycles of a page transfer (log entry 9). -/
def xferDelay : Nat := 3200

/-- Slot address in the safe tier. -/
def slotKey (ctx slot : Nat) : Nat := (ctx * 2 ^ 28 + slot) * 32768

/-- Logical device of a frame number. -/
def frameDevOf (s : State) (ctx frame : Nat) : Nat := ((frameDev (s.ctx ctx).mode frame).map (fun d => d.1)).getD 0

/-- Return a frame to the list it came from (R292); one that no list held goes to its device's. -/
def freeFrame (s : State) (ctx frame : Nat) : State :=
  let d := assocGet (frameDevOf s ctx frame) frame (s.ctx ctx).frameFrom
  s.modCtx ctx (fun x => { x with frames := assocSet d (assocGet [] d x.frames ++ [frame]) x.frames })

/-- Return a slot to the list it came from (R292). -/
def freeSlotNo (s : State) (ctx dev slot : Nat) : State :=
  let dev := assocGet dev slot (s.ctx ctx).slotFrom
  s.modCtx ctx (fun x => { x with slots := assocSet dev (assocGet [] dev x.slots ++ [slot]) x.slots })

/-- Raise the counters of the requests that a transfer ends. -/
def raiseAll (s : State) (ctx : Nat) (cts : List (BitVec 20 × BitVec 4)) : State :=
  cts.foldl (fun s c => raiseV s ctx c.1 c.2) s

/-- The transfer under way of a page that this package homes. -/
def findXfer (x : Ctx) (va : Word) (inbound : Bool) : Option Xfer :=
  x.xfers.find? (fun f => pageOf f.va == pageOf va && f.inbound == inbound && !f.away)

/-- Forget the transfer of a page that this package homes. -/
def dropXfer (s : State) (ctx : Nat) (va : Word) : State :=
  s.modCtx ctx (fun x => { x with xfers := x.xfers.filter (fun f => pageOf f.va != pageOf va || f.away) })

/-- The transfer that a page's home on another chip ends in this cycle (R302). -/
def findAway (s : State) (ctx : Nat) (va : Word) (inbound : Bool) : Option Xfer :=
  (s.ctx ctx).xfers.find? (fun f => pageOf f.va == pageOf va && f.inbound == inbound && f.away && f.to_ == s.cycle)

/-- Is a page imposed (R298)? -/
def isImposed (x : Ctx) (va : Word) : Bool := x.imposed.any (fun p => pageOf p.2 == pageOf va)

/-! ### Parked accesses (R294) -/

/-- A fault record to the runtime (R294), which awaits it. -/
def pageFault (s : State) (a : PageAcc) (reason : Nat) : State :=
  let dev := deviceOf (s.ctx a.ctx).mode (dieOf a.tile)
  (s.modCtx a.ctx (fun x => { x with faults := x.faults ++ [{ va := a.va, reason := reason, dev := dev }] })).report
    (.fault a.ctx a.va a.write reason a.tile (accSource s a))

/-- The write-back that waits as a parked access. -/
def parkedDrain (s : State) (a : PageAcc) : Option WriteBack :=
  (s.ctx a.ctx).drains.find? (fun w => w.tile == a.tile && w.va == a.va && w.chip == accSource s a)

/-- An access goes on: it is examined again by the unit that made it. -/
def resumeAcc (s : State) (a : PageAcc) : State :=
  match a.who with
  | .chan => s.modTile a.tile (fun T => { T with chan := { T.chan with park := false } })
  | .stream (.q n k) => modQ s a.tile n k (fun q => { q with busy := false })
  | .stream .fa => modFifo s a.tile false (fun q => { q with bind := { q.bind with busy := false } })
  | .stream .fb => modFifo s a.tile true (fun q => { q with bind := { q.bind with busy := false } })
  | .out n k => s.modStrand a.tile n (fun S => { S with outPark := S.outPark &&& ~~~((1 : BitVec 8) <<< k.val) })
  | .chip _ => s
  | .ovl id =>
    (s.modTile a.tile (fun T =>
      { T with ovls := T.ovls.map (fun o => if o.id = id then { o with parked := false } else o) })).post 0
      (.ovlDone a.tile id)
  | .outq =>
    match parkedDrain s a with
    | some w => s.postDrain 0 w
    | none => s
  | .coll id => s.post 0 (.collAllLaunched a.ctx id)

/-- Resume the parked accesses that `p` picks; a fault whose page then holds none up is resolved. -/
def resumeWhere (s : State) (ctx : Nat) (p : PageAcc → Bool) : State :=
  let x := s.ctx ctx
  let go := x.parked.filter p
  let s := s.modCtx ctx (fun x =>
    { x with parked := x.parked.filter (fun a => !p a)
             faults := x.faults.filter (fun f => !go.any (fun a => pageOf a.va == pageOf f.va)) })
  go.foldl resumeAcc s

/-- Resume the accesses that a page holds up. -/
def resumePage (s : State) (ctx : Nat) (va : Word) : State :=
  let s := resumeWhere s ctx (fun a => pageOf a.va == pageOf va)
  s.modCtx ctx (fun x => { x with faults := x.faults.filter (fun f => pageOf f.va != pageOf va) })

/-- The walk is tried again after a write to the tables (R294): the accesses go on for which it now ends otherwise; what a
fault named is resolved once its address is mapped. -/
def resumeChanged (s s' : State) (ctx : Nat) : State :=
  let s' := resumeWhere s' ctx (fun a => translate s' ctx a.va 1 a.write != translate s ctx a.va 1 a.write)
  s'.modCtx ctx (fun x => { x with faults := x.faults.filter (fun f =>
    !(f.reason == 1 && (match walk s' ctx f.va with | .error .unmapped => false | _ => true))) })

/-- A write-back that is refused when it drains is dropped, and the strand that pushed it takes PROT with DEFER (R294). -/
def refuseDrain (s : State) (w : WriteBack) : State :=
  let s := s.modCtx w.ctx (fun x => { x with drains := x.drains.erase w })
  if w.chip ≠ s.chip then s
  else refuse s w.tile w.strand { code := .prot, info := 0, pc := w.pc, engine := true }

/-- A refused access ends (R183, R175, R294). -/
def refuseAcc (s : State) (a : PageAcc) : State :=
  match a.who with
  | .chan =>
    (s.modTile a.tile (fun T => { T with chan := { T.chan with park := false } })).post 0 (.copyAccessRefused a.tile .prot a.va)
  | .stream (.q n k) =>
    (modQ s a.tile n k (fun q => { q with busy := false })).post 0 (.streamPieceFetched a.tile (.q n k) false)
  | .out n k =>
    refuseOut (s.modStrand a.tile n (fun S => { S with outPark := S.outPark &&& ~~~((1 : BitVec 8) <<< k.val) })) a.tile n k a.va.toNat
  | .chip _ => s
  | .stream .fa =>
    (modFifo s a.tile false (fun q => { q with bind := { q.bind with busy := false } })).post 0
      (.streamPieceFetched a.tile .fa false)
  | .stream .fb =>
    (modFifo s a.tile true (fun q => { q with bind := { q.bind with busy := false } })).post 0
      (.streamPieceFetched a.tile .fb false)
  | .ovl id =>
    match (s.tile a.tile).ovls.find? (fun o => o.id == id) with
    | some o => refuse (dropOvl s a.tile id) a.tile o.strand { code := .prot, info := 0, pc := o.pc, engine := false }
    | none => s
  | .outq =>
    match parkedDrain s a with
    | some w => refuseDrain s w
    | none => s
  | .coll id =>
    (s.modCtx a.ctx (fun x => { x with colls := x.colls.map (fun c => if c.inst = id then { c with refused := true } else c) })).post
      0 (.collAllLaunched a.ctx id)

/-- Park an access, or let it wait for the page that comes in (Table 16.2, R294). -/
def parkAcc (s : State) (a : PageAcc) (r : XRes) : State :=
  let s := s.modCtx a.ctx (fun x => { x with parked := x.parked ++ [a] })
  match r with
  | .offloaded => pageFault s a 0
  | .unmapped => pageFault s a 1
  | _ => s

/-- An access to a page of another chip (R291): the home serves it, refuses it or holds it for a time (log entry 56). -/
def accessAway (s : State) (a : PageAcc) : State :=
  let s := s.awayUsed
  match homeTakes s a.va with
  | 0 => resumeAcc s a
  | 1 => refuseAcc s a
  | _ => let r := s.freshNat; r.2.post (1 + r.1) (.pageAccess a)

/-- PAGE_ACCESS (R293, R294): an access reaches the page unit and finds its page as it is now. -/
def execPageAccess (s : State) : Host.Outcome State Fault Refusal :=
  match s.ev with
  | some (.pageAccess a) =>
    match translate s a.ctx a.va 1 a.write with
    | .ok _ _ _ => .next (resumeAcc (cancelOutbound s a.ctx a.va) a)
    | .behind => .next (s.post 1 (.pageAccess a))
    | .away _ => .next (accessAway s a)
    | .refused => .next (refuseAcc s a)
    | r => .next (parkAcc s a r)
  | _ => .next s

/-- FAULT_REFUSE (R294): every access parked on the page ends as a refusal. -/
def execFaultRefuse (s : State) : Host.Outcome State Fault Refusal :=
  match s.ev with
  | some (.faultRefuse ctx va) =>
    let here (a : PageAcc) : Bool := pageOf a.va == pageOf va
    let go := (s.ctx ctx).parked.filter here
    let s := s.modCtx ctx (fun x =>
      { x with parked := x.parked.filter (fun a => !here a), faults := x.faults.filter (fun f => pageOf f.va != pageOf va) })
    .next (go.foldl refuseAcc s)
  | _ => .next s

/-! ### Transfers (R293, R302) -/

/-- Begin to bring an offloaded page in; none when no frame is free. -/
def startIn (s : State) (ctx : Nat) (va : Word) (l : Leaf) (dev : Nat) (cts : List (BitVec 20 × BitVec 4)) : Option State :=
  let x := s.ctx ctx
  match assocGet [] dev x.frames with
  | [] => none
  | f :: r =>
    let s := s.modCtx ctx (fun x =>
      { x with frames := assocSet dev r x.frames
               xfers := x.xfers ++ [{ va := va, inbound := true, from_ := peFrame l.1, to_ := f, cts := cts }] })
    some ((setLeaf s ctx l (peSetState l.1 3)).post xferDelay (.retnCopyDone ctx va))

/-- An `offl` at the page unit (Table 16.2, R302): the status, and the request's counter if a transfer starts. -/
def pageOffl (s : State) (ctx : Nat) (va : Word) (cts : List (BitVec 20 × BitVec 4)) : State × Nat :=
  match walk s ctx va with
  | .error _ => (s, 5)
  | .ok l =>
    let x := s.ctx ctx
    if l.2.2.2 then (s, 3)
    else
      match peState l.1 with
      | 0 =>
        if pePinned l.1 then (s, 2)
        else if isImposed x va then (s, 7)
        else
          let d := frameDevOf s ctx (peFrame l.1)
          match assocGet [] d x.slots with
          | [] => (s, 4)
          | k :: r =>
            let s := s.modCtx ctx (fun x =>
              { x with slots := assocSet d r x.slots
                       xfers := x.xfers ++ [{ va := va, inbound := false, from_ := peFrame l.1, to_ := k, cts := cts }] })
            ((setLeaf s ctx l (peSetState l.1 1)).post xferDelay (.offlCopyDone ctx va), 0)
      | 4 => (s, 6)
      | _ => (s, 1)

/-- A `retn` at the page unit (Table 16.2, R302). The frame is one of the device of the requesting tile (log entry 26). -/
def pageRetn (s : State) (ctx dev : Nat) (va : Word) (cts : List (BitVec 20 × BitVec 4)) : State × Nat :=
  match walk s ctx va with
  | .error _ => (s, 5)
  | .ok l =>
    if l.2.2.2 then (s, 3)
    else
      match peState l.1 with
      | 1 => (raiseAll (cancelOutbound s ctx va) ctx cts, 0)
      | 2 => match startIn s ctx va l dev cts with | some s => (s, 0) | none => (s, 4)
      | _ => (s, 1)

/-- A transfer at a page's home on another chip ends (R302): the counter of its request rises. -/
def endAway (s : State) (ctx : Nat) (f : Xfer) : State :=
  raiseAll (s.modCtx ctx (fun x => { x with xfers := x.xfers.erase f })) ctx f.cts

/-- OFFL_COPY_DONE (R293): the page is in its slot; its frame is free. -/
def execOfflCopyDone (s : State) : Host.Outcome State Fault Refusal :=
  match s.ev with
  | some (.offlCopyDone ctx va) =>
    match findAway s ctx va false with
    | some f => .next (endAway s ctx f)
    | none =>
    match findXfer (s.ctx ctx) va false, walk s ctx va with
    | some f, .ok l =>
      if peState l.1 ≠ 1 then .next s
      else
        let mode := (s.ctx ctx).mode
        let bs := match frameDev mode f.from_ with | some d => frameBytes s mode d.1 d.2 0 32768 | none => []
        let s := { s with tier := s.tier.store (slotKey ctx f.to_) bs }
        let s := setLeaf s ctx l (peSetState (peSetFrame l.1 f.to_) 2)
        .next (raiseAll (freeFrame (dropXfer s ctx va) ctx f.from_) ctx f.cts)
    | _, _ => .next s
  | _ => .next s

/-- `pin` requests that waited for a page complete (R303). -/
def servePins (s : State) (ctx : Nat) (va : Word) : State :=
  let mine := (s.ctx ctx).pinWait.filter (fun p => pageOf p.2.2.2.2 == pageOf va)
  if mine.isEmpty then s
  else
    let s := s.modCtx ctx (fun x => { x with pinWait := x.pinWait.filter (fun p => pageOf p.2.2.2.2 != pageOf va) })
    let s := match walk s ctx va with | .ok l => setLeaf s ctx l (l.1 ||| ((1 : Word) <<< (60 : Nat))) | .error _ => s
    mine.foldl (fun s p => s.post replyDelay (.resultDelivery p.1 p.2.1 p.2.2.1 (.g p.2.2.2.1) 0)) s

/-- RETN_COPY_DONE (R293): the page is in its frame; its slot is free; what waited for it goes on. -/
def execRetnCopyDone (s : State) : Host.Outcome State Fault Refusal :=
  match s.ev with
  | some (.retnCopyDone ctx va) =>
    match findAway s ctx va true with
    | some f => .next (endAway s ctx f)
    | none =>
    match findXfer (s.ctx ctx) va true, walk s ctx va with
    | some f, .ok l =>
      if peState l.1 ≠ 3 then .next s
      else
        let mode := (s.ctx ctx).mode
        let bs := s.tier.bytes (slotKey ctx f.from_) 32768
        let s := match frameDev mode f.to_ with | some d => frameStore s mode d.1 d.2 0 bs | none => s
        let s := setLeaf s ctx l (peSetState (peSetFrame l.1 f.to_) 0)
        let s := freeSlotNo (dropXfer s ctx va) ctx (frameDevOf s ctx f.to_) f.from_
        .next (resumePage (servePins (raiseAll s ctx f.cts) ctx va) ctx va)
    | _, _ => .next s
  | _ => .next s

/-! ### Table writes by the monitor (R288 to R290, R292) -/

/-- PAGE_TABLE_WRITE (R288, R290): an entry of the level-1, level-2 or level-3 table on the walk of an address; later
walks see it. -/
def execPageTableWrite (s : State) : Host.Outcome State Fault Refusal :=
  match s.ev with
  | some (.pageTableWrite ctx level va e) =>
    let x := s.ctx ctx
    let a := va.toNat
    let put (frame k : Nat) : State :=
      match frameDev x.mode frame with
      | some d => frameStore s x.mode d.1 d.2 (8 * k) (bytesOf 8 e.toNat)
      | none => s
    let next (frame k : Nat) : Option Nat := (tableEntry s x.mode frame k).map peFrame
    let s' :=
      match level.val with
      | 0 => put x.tbr.toNat (a / 2 ^ 39 % 4096)
      | 1 => match next x.tbr.toNat (a / 2 ^ 39 % 4096) with | some f => put f (a / 2 ^ 27 % 4096) | none => s
      | _ =>
        match next x.tbr.toNat (a / 2 ^ 39 % 4096) with
        | some f => match next f (a / 2 ^ 27 % 4096) with | some h => put h (a / 2 ^ 15 % 4096) | none => s
        | none => s
    .next (resumeChanged s s' ctx)
  | _ => .next s

/-- TABLE_BASE_WRITE (R288). -/
def execTableBaseWrite (s : State) : Host.Outcome State Fault Refusal :=
  match s.ev with
  | some (.tableBaseWrite ctx v) => .next (resumeChanged s (s.modCtx ctx (fun x => { x with tbr := v })) ctx)
  | _ => .next s

/-- FREE_LIST_FILL (R292): frames for a device answer its NOFRAME faults (R295). -/
def execFreeListFill (s : State) : Host.Outcome State Fault Refusal :=
  match s.ev with
  | some (.freeListFill ctx dev fs ks) =>
    .next (s.modCtx ctx (fun x =>
      { x with frames := assocSet dev (assocGet [] dev x.frames ++ fs) x.frames
               slots := assocSet dev (assocGet [] dev x.slots ++ ks) x.slots
               frameFrom := fs.foldl (fun m f => assocSet f dev m) x.frameFrom
               slotFrom := ks.foldl (fun m k => assocSet k dev m) x.slotFrom
               faults := x.faults.filter (fun f => !(f.reason == 2 && f.dev == dev && !fs.isEmpty)) }))
  | _ => .next s

/-! ### The drain of write-backs and migration (R195, R293, R295, R296) -/

/-- Take a write-back off the context's queue. -/
def drained (s : State) (w : WriteBack) : State :=
  s.modCtx w.ctx (fun x => { x with drains := x.drains.erase w })

/-- A write-back lands where its page is. -/
def landWrite (s : State) (w : WriteBack) : State :=
  drained (writeHbm (cancelOutbound s w.ctx w.va) w.ctx w.va (bytesOf w.n w.data.toNat)) w

/-- Moves of a page counted to now (R296): MIG after this move and the window. -/
def nextMig (s : State) (e : Word) : Nat × Nat :=
  let win := s.cycle / 2 ^ 20 % 2 ^ 16
  let mig := (e.extractLsb' 52 3).toNat
  if mig = 0 ∨ (e.extractLsb' 28 16).toNat ≠ win then (1, win) else (mig + 1, win)

/-- The entry with other MIG, MT and HOME. -/
def peMoved (e : Word) (mig win : Nat) (home : BitVec 8) : Word :=
  (e &&& 0xFF8000000FFFFFFF) ||| BitVec.ofNat 64 (mig % 8 * 2 ^ 52 + home.toNat * 2 ^ 44 + win % 2 ^ 16 * 2 ^ 28)

/-- The access of a write-back. -/
def drainAccess (w : WriteBack) : PageAcc :=
  { ctx := w.ctx, tile := w.tile, who := .outq, va := w.va, write := true, chip := some w.chip }

/-- A write-back from another chip reaches a resident page of this one (R295, R296): the page moves to the writer, unless it
is pinned or SETTLED, the count reaches 4, or the writer has no free frame, which only that chip knows (a free value). -/
def landForeign (s : State) (w : WriteBack) : State :=
  let s := cancelOutbound s w.ctx w.va
  match walk s w.ctx w.va with
  | .error _ => drained s w
  | .ok l =>
  let m := nextMig s l.1
  if l.2.2.2 || pePinned l.1 || peState l.1 == 4 then landWrite s w
  else if 4 ≤ m.1 then
    landWrite (setLeaf s w.ctx l (peSetState (peMoved l.1 4 (l.1.extractLsb' 28 16).toNat s.chip) 4)) w
  else
    let f := s.freshNat
    if f.1 % 2 = 1 then
      let s := setLeaf f.2 w.ctx l (peMoved l.1 m.1 m.2 w.chip)
      drained (freeFrame s w.ctx (peFrame l.1)) w
    else
      landWrite (pageFault f.2 (drainAccess w) 2) w

/-- A write-back of this chip into a page of another (R291, R295, R296; log entry 56). Its home judges it by its own copy of
the entry, a free value: it applies the line there; it moves the page, whose contents and counted moves come from there,
to a frame of this chip's list for the page's logical device, and the line lands in it (without a free frame it is applied
there); it settles the page, and both entries say so; it refuses the line; or it holds it for a time. -/
def landAway (s : State) (w : WriteBack) (l : Leaf) : State :=
  let go := s.freshNat
  let more := go.2.freshNat
  match if l.2.2.2 then go.1 % 3 else go.1 % 5 with
  | 0 => drained go.2 w
  | 1 => refuseDrain go.2 w
  | 2 => more.2.postDrain (1 + more.1) w
  | 3 => drained (setLeaf go.2 w.ctx l (peSetState (peMoved l.1 4 (l.1.extractLsb' 28 16).toNat (peHome l.1)) 4)) w
  | _ =>
    let dev := more.1 % devicesOf (s.ctx w.ctx).mode
    match assocGet [] dev (s.ctx w.ctx).frames with
    | [] => drained more.2 w
    | f :: r =>
      let page := more.2.freshNat
      let s := page.2.modCtx w.ctx (fun x => { x with frames := assocSet dev r x.frames })
      let s := match frameDev (s.ctx w.ctx).mode f with
        | some d => frameStore s (s.ctx w.ctx).mode d.1 d.2 0 (bytesOf 32768 page.1)
        | none => s
      let n := s.freshNat
      landWrite (setLeaf n.2 w.ctx l (peSetState (peSetFrame (peMoved l.1 (1 + n.1 % 3) (n.1 / 4 % 2 ^ 16) s.chip) f) 0)) w

/-- A write-back parks in the outbound queue, that of another chip too (R294). -/
def parkDrain (s : State) (w : WriteBack) (r : XRes) : State :=
  parkAcc (s.modCtx w.ctx (fun x => if x.drains.contains w then x else { x with drains := x.drains ++ [w] })) (drainAccess w) r

/-- Does a write-back released before this one touch its bytes and still wait? -/
def drainWaits (s : State) (w : WriteBack) : Bool :=
  ((s.ctx w.ctx).drains.takeWhile (fun v => v != w)).any (fun v =>
    decide (v.va.toNat < w.va.toNat + w.n ∧ w.va.toNat < v.va.toNat + v.n))

/-- WRITEBACK_DRAIN (R195, R291, R293 to R295): a line lands in order, parks, or is refused. A line of another chip comes with
no place in this package's queue. -/
def execWritebackDrain (s : State) : Host.Outcome State Fault Refusal :=
  match s.ev with
  | some (.writebackDrain w) =>
    if w.chip = s.chip ∧ !(s.ctx w.ctx).drains.contains w then .next s
    else if drainWaits s w then .next (s.postDrain 1 w)
    else
      match walk s w.ctx w.va with
      | .error .unmapped => .next (parkDrain s w .unmapped)
      | .error _ => .next (refuseDrain s w)
      | .ok l =>
        if !l.1.getLsbD 58 then .next (refuseDrain s w)
        else if peHome l.1 ≠ s.chip then .next (landAway s w l)
        else if peState l.1 = 2 then .next (parkDrain s w .offloaded)
        else if peState l.1 = 3 then .next (parkDrain s w .inbound)
        else if w.chip ≠ s.chip then .next (landForeign s w)
        else .next (landWrite s w)
  | _ => .next s

/-! ### Imposition lists (R297, R298) -/

/-- Act on the list of an `imp` at the commit of its group. A page of another chip is staged and held by its home. -/
def imposeList (s : State) (ctx dev gid : Nat) (es : List Word) : State :=
  es.foldl (fun s e =>
    let va : Word := e &&& 0x0007FFFFFFFF8000
    if pageAway s ctx va then s else
    let s := if e.getLsbD 0 then
      match walk s ctx va with
      | .ok l => if !l.2.2.2 && peState l.1 == 2 then (startIn s ctx va l dev []).getD s else s
      | .error _ => s
      else s
    if e.getLsbD 1 then s.modCtx ctx (fun x => { x with imposed := x.imposed ++ [(gid, va)] }) else s) s

/-- IMP (R297, R298): the list is read and held behind the vote; the arrival waits for the acknowledgement. -/
def execImp (p : Pred) (a : GSrc) (s : State) : Host.Outcome State Fault Refusal :=
  issue p 8 .tile [.g a] []
    (fun s t n =>
      let ea := gv s t n a
      if ea.toNat % 64 ≠ 0 then .trap .misalign 0
      else if 2 ^ 21 ≤ ea.toNat then .trap .prot 0
      else
        match ownPlace s t n ea.toNat 8 false with
        | .error x => x
        | .ok pl =>
          match localRead s t n.val pl.2 8 with
          | .error e => wErrAct e
          | .ok r =>
            let k := natOf r.2 % 256
            match ownPlace r.1 t n ea.toNat (8 + 8 * k) false with
            | .error x => x
            | .ok _ =>
              match localRead r.1 t n.val (pl.2 + 8) (8 * k) with
              | .error e => wErrAct e
              | .ok q =>
                let es := (List.range k).map (fun i => BitVec.ofNat 64 (limbAt q.2 (8 * i)))
                .done (ask (hold q.1 t (.imp es)) t n 0 (.value 0))) s

/-! ### How far a checkpoint has come (R23, R299) -/

/-- Is a checkpoint running? -/
def ckRunning (x : Ctx) : Bool := x.ckst.extractLsb' 62 2 == 1

/-- Bytes that a context's running copy has left: the copies that run share 250 bytes a cycle in proportion to the bytes each
has left (R4, R23). -/
def ckNow (s : State) (x : Ctx) : Nat := x.ckLeft * (x.ckAll - 250 * (s.cycle - x.ckAt)) / x.ckAll

/-- Has the running copy yet to copy a page (R299)? -/
def ckMissing (s : State) (x : Ctx) (va : Word) : Bool :=
  ckRunning x && x.ckEnds.any (fun e => pageOf e.1 == pageOf va && decide (x.ckSize - ckNow s x < e.2))

/-- Does an `offl` wait for the copy of its page (R299)? -/
def offlWaits (s : State) (ctx : Nat) (va : Word) : Bool :=
  ckMissing s (s.ctx ctx) va &&
    (match walk s ctx va with | .ok l => peHome l.1 == s.chip && !l.2.2.2 && peState l.1 == 0 | .error _ => false)

/-- The `offl` requests of a context whose page has been copied are served (R299). -/
def serveOffl (s : State) (ctx : Nat) : State :=
  let x := s.ctx ctx
  if x.offlWait.isEmpty then s
  else
    let r := x.offlWait.partition (fun w => offlWaits s ctx w.va)
    r.2.foldl (fun s w =>
      let q := pageOffl s ctx w.va w.cts
      q.1.post replyDelay (.resultDelivery w.tile w.strand w.gen (.g w.d) (BitVec.ofNat 1024 q.2)))
      (s.modCtx ctx (fun x => { x with offlWait := r.1 }))

/-! ### The forms (R301 to R304) -/

/-- A transfer that the home of a page on another chip has started (R302; log entry 56): it ends at a cycle of its own. -/
def startAway (s : State) (ctx : Nat) (va : Word) (inbound : Bool) (cts : List (BitVec 20 × BitVec 4)) : State :=
  let r := s.freshNat
  (r.2.modCtx ctx (fun x =>
    { x with xfers := x.xfers ++
        [{ va := va, inbound := inbound, from_ := 0, to_ := s.cycle + 1 + r.1, cts := cts, away := true }] })).post
    (1 + r.1) (if inbound then .retnCopyDone ctx va else .offlCopyDone ctx va)

/-- A request on a page: at its home here; a home on another chip answers with a value of its own (a free value), and where
it starts the transfer of an `offl` or a `retn`, the request's counter rises at its end (R302). -/
def pageAsk (s : State) (t : TileId) (n : StrandNo) (d : BitVec 5) (va : Word)
    (x : Option (Bool × List (BitVec 20 × BitVec 4))) (f : State → State × Nat) : State :=
  if pageAway s (s.tile t).ctx va then
    let r := s.freshNat
    let s := match x with
      | some (inbound, cts) => if r.1 % 8 = 0 then startAway r.2 (s.tile t).ctx va inbound cts else r.2
      | none => r.2
    ask s t n d (.status (BitVec.ofNat 64 (r.1 % 8)))
  else
    let r := f s
    ask r.1 t n d (.status (BitVec.ofNat 64 r.2))

/-- OFFL (R302). -/
def execOffl (p : Pred) (ct : BitVec 4) (d : BitVec 5) (a : GSrc) (imm : BitVec 36) (s : State) :
    Host.Outcome State Fault Refusal :=
  issue p 12 .tile [.g a] [.g d]
    (fun s t n =>
      let va := eaOf s t n a imm
      if va.extractLsb' 51 13 ≠ 0 then .trap .prot 0
      else
        let T := s.tile t
        let cts := [(T.v.idx, ct)]
        if offlWaits s T.ctx va then
          .done ((s.modStrand t n (fun S => S.markEmpty (.g d))).modCtx T.ctx (fun x =>
            { x with offlWait := x.offlWait ++
                [{ tile := t, strand := n, gen := (s.strand t n).gen, d := d, va := va, cts := cts }] }))
        else .done (pageAsk s t n d va (some (false, cts)) (fun s => pageOffl s T.ctx va cts))) s

/-- RETN (R302). -/
def execRetn (p : Pred) (ct : BitVec 4) (d : BitVec 5) (a : GSrc) (imm : BitVec 36) (s : State) :
    Host.Outcome State Fault Refusal :=
  issue p 12 .tile [.g a] [.g d]
    (fun s t n =>
      let va := eaOf s t n a imm
      if va.extractLsb' 51 13 ≠ 0 then .trap .prot 0
      else
        let T := s.tile t
        .done (pageAsk s t n d va (some (true, [(T.v.idx, ct)]))
          (fun s => pageRetn s T.ctx (ownDevice s t) va [(T.v.idx, ct)]))) s

/-- The entry of a page as `pstat` returns it (R304): all ones when unmapped, FRAME as zero; a home on another chip has its
own copy (a free value). -/
def pstatOf (s : State) (ctx : Nat) (va : Word) : State × Word :=
  match walk s ctx va with
  | .error _ => (s, BitVec.allOnes 64)
  | .ok l =>
    if peHome l.1 ≠ s.chip then
      let r := s.freshNat
      (r.2, peSetFrame (BitVec.ofNat 64 r.1) 0)
    else (s, peSetFrame l.1 0)

/-- PSTAT (R304). -/
def execPstat (p : Pred) (d : BitVec 5) (a : GSrc) (s : State) : Host.Outcome State Fault Refusal :=
  issue p 8 .tile [.g a] [.g d] (fun s t n => .done (ask s t n d (.pstat (s.tile t).ctx (gv s t n a)))) s

/-- PDEV (R304). -/
def pdevOf (x : Ctx) (dev : Nat) : Word :=
  let sat (b n : Nat) : Nat := if n < 2 ^ b then n else 2 ^ b - 1
  BitVec.ofNat 64 (sat 24 (assocGet [] dev x.frames).length * 2 ^ 40 + sat 24 (assocGet [] dev x.slots).length * 2 ^ 16 +
    sat 16 (x.faults.filter (fun f => f.dev == dev)).length)

/-- PSTAT_DEV (R304). -/
def execPstatDev (p : Pred) (d : BitVec 5) (s : State) : Host.Outcome State Fault Refusal :=
  issue p 8 .tile [] [.g d] (fun s t n => .done (ask s t n d (.pdev (s.tile t).ctx (ownDevice s t)))) s

/-- `pin` on a leaf (R303): the status, or none when it waits for the page to land. -/
def pagePin (s : State) (ctx : Nat) (va : Word) (l : Leaf) : State × Option Nat :=
  let set (s : State) : State :=
    match walk s ctx va with | .ok l => setLeaf s ctx l (l.1 ||| ((1 : Word) <<< (60 : Nat))) | .error _ => s
  if l.2.2.2 then (set s, some 0)
  else
    match peState l.1 with
    | 1 => (set (cancelOutbound s ctx va), some 0)
    | 2 => (s, some 1)
    | 3 => (s, none)
    | _ => (set s, some 0)

/-- PIN (R303). -/
def execPin (p : Pred) (d : BitVec 5) (a : GSrc) (s : State) : Host.Outcome State Fault Refusal :=
  issue p 8 .tile [.g a] [.g d]
    (fun s t n =>
      let c := (s.tile t).ctx
      let va := gv s t n a
      if pageAway s c va then .done (pageAsk s t n d va none (fun s => (s, 0)))
      else
        match walk s c va with
        | .error _ => .done (ask s t n d (.status 5))
        | .ok l =>
          match pagePin s c va l with
          | (s, some st) => .done (ask s t n d (.status (BitVec.ofNat 64 st)))
          | (s, none) =>
            let gen := (s.strand t n).gen
            .done ((s.modStrand t n (fun S => S.markEmpty (.g d))).modCtx c (fun x =>
              { x with pinWait := x.pinWait ++ [(t, n, gen, d, va)] }))) s

/-- PIN_CLR (R303). -/
def execPinClr (p : Pred) (d : BitVec 5) (a : GSrc) (s : State) : Host.Outcome State Fault Refusal :=
  issue p 8 .tile [.g a] [.g d]
    (fun s t n =>
      let c := (s.tile t).ctx
      .done (pageAsk s t n d (gv s t n a) none (fun s =>
        match walk s c (gv s t n a) with
        | .error _ => (s, 5)
        | .ok l => (setLeaf s c l (l.1 &&& ~~~((1 : Word) <<< (60 : Nat))), 0)))) s

/-- PIN_UNS (R303): SETTLED becomes RESIDENT with MIG 0. -/
def execPinUns (p : Pred) (d : BitVec 5) (a : GSrc) (s : State) : Host.Outcome State Fault Refusal :=
  issue p 8 .tile [.g a] [.g d]
    (fun s t n =>
      let c := (s.tile t).ctx
      .done (pageAsk s t n d (gv s t n a) none (fun s =>
        match walk s c (gv s t n a) with
        | .error _ => (s, 5)
        | .ok l =>
          if l.2.2.2 then (s, 3)
          else if peState l.1 = 4 then (setLeaf s c l (peSetState l.1 0 &&& ~~~((7 : Word) <<< (52 : Nat))), 0)
          else (s, 1)))) s

/-! ### Checkpoints (R299, R300, R305) -/

/-- CKST with a state and a superstep (Table 16.3). -/
def ckstOf (st : Nat) (ss : BitVec 48) : Word := BitVec.ofNat 64 (st * 2 ^ 62 + ss.toNat)

/-- Every leaf of a context, with its address (R299). -/
def leavesOf (s : State) (ctx : Nat) : List (Word × Leaf) :=
  let x := s.ctx ctx
  let tab (f : Nat) : List (Nat × Word) :=
    (List.range 4096).filterMap (fun k => (tableEntry s x.mode f k).bind (fun e => if peValid e then some (k, e) else none))
  (tab x.tbr.toNat).flatMap (fun e1 =>
    (tab (peFrame e1.2)).flatMap (fun e2 =>
      if peLeaf e2.2 then
        [(BitVec.ofNat 64 (e1.1 * 2 ^ 39 + e2.1 * 2 ^ 27), (e2.2, peFrame e1.2, e2.1, true))]
      else
        (tab (peFrame e2.2)).map (fun e3 =>
          (BitVec.ofNat 64 (e1.1 * 2 ^ 39 + e2.1 * 2 ^ 27 + e3.1 * 2 ^ 15), (e3.2, peFrame e2.2, e3.1, false)))))

/-- The physical address of a place in HBM on its logical device (the inverse of R215). -/
def hbmPa (mode : BitVec 2) (key : Nat) : Nat × Nat :=
  let stack := key / 2 ^ 40
  let a := key % 2 ^ 40
  let n := (stacksOf mode 0).2
  let l := Nat.log2 n
  let hi := a / 256 * 2 ^ (8 + l)
  let x := (stack % n) ^^^ (hi / 2 ^ 19 % n)
  (stack / n, hi + x % n * 256 + a % 256)

/-- The bytes of a page that are not 0, by their offset: from its slot, which FRAME names until the page has come in (Table
16.1), or from its frame; of a page homed on another chip, bytes that this chip does not hold: free ones (log entry 27). -/
def pageBytes (s : State) (ctx : Nat) (l : Leaf) : Mem :=
  let x := s.ctx ctx
  let size := if l.2.2.2 then 2 ^ 27 else 32768
  if peHome l.1 ≠ s.chip then Mem.store [] 0 (bytesOf size (Config.freeNat (s.free + 2 ^ 38 + peFrame l.1)))
  else if !l.2.2.2 && (peState l.1 == 2 || peState l.1 == 3) then
    let b := slotKey ctx (peFrame l.1)
    s.tier.filterMap (fun c => if b ≤ c.1 ∧ c.1 < b + size then some (c.1 - b, c.2) else none)
  else
    match frameDev x.mode (peFrame l.1) with
    | none => []
    | some d =>
      s.hbm.foldl (fun m c =>
        let p := hbmPa x.mode c.1
        if p.1 = d.1 ∧ d.2 * 32768 ≤ p.2 ∧ p.2 < d.2 * 32768 + size then m.write (p.2 - d.2 * 32768) c.2 else m) []

/-- The bytes of a page with the write-backs that have been released and not yet drained; those that EW = 0 will refuse do
not count. -/
def pageAfter (s : State) (ctx : Nat) (va : Word) (l : Leaf) : Mem :=
  let size := if l.2.2.2 then 2 ^ 27 else 32768
  (s.ctx ctx).drains.foldl (fun m w =>
    if l.1.getLsbD 58 ∧ va.toNat ≤ w.va.toNat ∧ w.va.toNat < va.toNat + size then m.store (w.va.toNat - va.toNat) (bytesOf w.n w.data.toNat)
    else m) (pageBytes s ctx l)

/-- The numbers of the contexts whose checkpoints run. -/
def ckSet (s : State) : List Nat := (List.range 32).filter (fun c => ckRunning (s.ctx c))

/-- The copies that run share the rate anew from now on (R23): each with what it has left, and its end. -/
def ckShare (s : State) : State :=
  let ls := (ckSet s).map (fun c => (c, ckNow s (s.ctx c)))
  let all := (ls.map (fun l => l.2)).sum
  ls.foldl (fun s l =>
    (s.modCtx l.1 (fun x => { x with ckLeft := l.2, ckAt := s.cycle, ckAll := all })).post (all / 250 + 1)
      (.checkpointDone l.1)) s

/-- Start a context's checkpoint at a commit (R299): the copy holds every page as it stands after that commit,
the write-backs it releases included (DEDUCED; log entry 27); it is complete at the checkpoint rate. -/
def startCheckpoint (s : State) (ctx : Nat) (ss : BitVec 48) (ct : BitVec 20 × BitVec 4) : State :=
  let ls := leavesOf s ctx
  let ends := ls.foldl (fun (r : List (Word × Nat) × Nat) l =>
    let e := r.2 + if l.2.2.2.2 then 2 ^ 27 else 32768
    (r.1 ++ [(l.1, e)], e)) ([], 0)
  ckShare (s.modCtx ctx (fun x =>
    { x with ckst := ckstOf 1 ss, ckCt := some ct, ckCopy := ls.map (fun l => (l.1, pageAfter s ctx l.1 l.2))
             ckEnds := ends.1, ckSize := ends.2, ckLeft := ends.2, ckAt := s.cycle, ckAll := ends.2 }))

/-- The running checkpoint of a context ends, complete (2) or invalid (3): its request's counter rises (R299, R305), and the
others share the rate. -/
def endCheckpoint (s : State) (ctx st : Nat) : State :=
  let x := s.ctx ctx
  if ckRunning x then
    let s := s.modCtx ctx (fun x =>
      { x with ckst := ckstOf st (x.ckst.extractLsb' 0 48), ckCt := none, ckCopy := if st = 3 then [] else x.ckCopy })
    ckShare (raiseAll s ctx x.ckCt.toList)
  else s

/-- CHECKPOINT_DONE (R23, R299, R305): the last byte is copied. -/
def execCheckpointDone (s : State) : Host.Outcome State Fault Refusal :=
  match s.ev with
  | some (.checkpointDone ctx) => .next (if ckNow s (s.ctx ctx) = 0 then endCheckpoint s ctx 2 else s)
  | _ => .next s

/-- CKPT_GO (R305): held behind the vote; the reply comes at the commit. -/
def execCkptGo (p : Pred) (ct : BitVec 4) (d : BitVec 5) (s : State) : Host.Outcome State Fault Refusal :=
  issue p 12 .tile [] [.g d]
    (fun s t n =>
      let gen := (s.strand t n).gen
      .done ((s.modStrand t n (fun S => S.markEmpty (.g d))).modV t (fun v =>
        { v with held := v.held ++ [.ckpt n gen d ct] }))) s

/-- CKPT_RD (R300, R305). -/
def execCkptRd (p : Pred) (d : BitVec 5) (s : State) : Host.Outcome State Fault Refusal :=
  issue p 12 .tile [] [.g d] (fun s t n => .done (ask s t n d (.ckst (s.tile t).ctx))) s

end Sys2Proof.Machine
end

