-- ==== Sys2Proof/Machine/Collective.lean ====
section
/-! DEFINITION. Collectives (17_collective): request blocks (R306), launch and life (R310), the tree table (R308), plane
mode (R313 to R315), FP32 mode (R316), deadlines (R317), cutoffs (R318), parking (R319), the forms (R321 to R326). -/

namespace Sys2Proof.Machine

open Sys2Proof

/-! ### Request blocks (R306, Table 17.1) -/

/-- The request block of 128 bytes. -/
def crbOf (b : List Byte) : Crb :=
  let f (o n : Nat) : Nat := natOf ((b.drop o).take n)
  { op := BitVec.ofNat 8 (f 0 1), dtype := BitVec.ofNat 8 (f 1 1), pmode := BitVec.ofNat 8 (f 2 1)
    alg := BitVec.ofNat 8 (f 3 1), npl := BitVec.ofNat 8 (f 4 1), cdone := BitVec.ofNat 8 (f 5 1)
    pcb := BitVec.ofNat 8 (f 6 1), red := BitVec.ofNat 8 (f 7 1), collid := BitVec.ofNat 32 (f 8 4)
    count := BitVec.ofNat 32 (f 12 4), ord0 := BitVec.ofNat 32 (f 16 4), m := BitVec.ofNat 32 (f 20 4)
    mstr := BitVec.ofNat 32 (f 24 4), root := BitVec.ofNat 32 (f 28 4), src := BitVec.ofNat 64 (f 32 8)
    dst := BitVec.ofNat 64 (f 40 8), mbma := BitVec.ofNat 64 (f 48 8), dln := BitVec.ofNat 32 (f 56 4)
    tree := BitVec.ofNat 64 (f 64 8), treeh := BitVec.ofNat 384 (beNat ((b.drop 72).take 48)) }

/-- The bytes of a request block. -/
def crbBytes (c : Crb) : List Byte :=
  [c.op, c.dtype, c.pmode, c.alg, c.npl, c.cdone, c.pcb, c.red] ++ bytesOf 4 c.collid.toNat ++ bytesOf 4 c.count.toNat ++
  bytesOf 4 c.ord0.toNat ++ bytesOf 4 c.m.toNat ++ bytesOf 4 c.mstr.toNat ++ bytesOf 4 c.root.toNat ++
  bytesOf 8 c.src.toNat ++ bytesOf 8 c.dst.toNat ++ bytesOf 8 c.mbma.toNat ++ bytesOf 4 c.dln.toNat ++ bytesOf 4 0 ++
  bytesOf 8 c.tree.toNat ++ beBytes 48 c.treeh.toNat ++ bytesOf 8 0

/-- Is the collective in plane mode? -/
def Crb.plane (c : Crb) : Bool := c.pmode == 1

/-- Bytes of an element of the source. -/
def Crb.esz (c : Crb) : Nat := if c.dtype = 8 then 4 else 2

/-- NSEG (R306). -/
def Crb.nseg (c : Crb) : Nat := (c.count.toNat + 4095) / 4096

/-- Blocks of 256 elements. -/
def Crb.blocks (c : Crb) : Nat := (c.count.toNat + 255) / 256

/-- Member index of a virtual ordinal, if it is a member (Table 17.1). -/
def Crb.member (c : Crb) (ord : Nat) : Option Nat :=
  let d := ord - c.ord0.toNat
  if c.ord0.toNat ≤ ord ∧ c.mstr ≠ 0 ∧ d % c.mstr.toNat = 0 ∧ d / c.mstr.toNat < c.m.toNat then some (d / c.mstr.toNat)
  else none

/-- Is member i a contributor (R306)? -/
def Crb.contributes (c : Crb) (i : Nat) : Bool := c.op != 3 || i == c.root.toNat

/-- Is member i a consumer (R306)? -/
def Crb.consumes (c : Crb) (i : Nat) : Bool := c.op != 2 || i == c.root.toNat

/-- Is an address that member `i` of a request uses not 64-aligned (R306)? SRC counts for a contributor only, DST and MBMA
for a consumer only. -/
def Crb.skewed (c : Crb) (i : Option Nat) : Bool :=
  match i with
  | none => false
  | some i =>
    (c.contributes i && decide (c.src.toNat % 64 ≠ 0)) ||
    (c.consumes i && decide (c.dst.toNat % 64 ≠ 0 ∨ c.mbma.toNat % 64 ≠ 0))

/-- Does the block break Table 17.1? `v` is V of the group, `ord` the issuing virtual tile's ordinal. -/
def crbBad (b : List Byte) (v ord : Nat) : Bool :=
  let c := crbOf b
  let own := c.alg == 1 || c.alg == 2
  let zeros (o n : Nat) : Bool := ((b.drop o).take n).all (fun x => x == 0)
  !(c.op == 1 || c.op == 2 || c.op == 3) || !(c.dtype == 8 || c.dtype == 9) || decide (1 < c.pmode.toNat) ||
  !(decide (c.alg.toNat ≤ 2) || decide (8 ≤ c.alg.toNat ∧ c.alg.toNat ≤ 15)) ||
  (if c.plane then decide (c.npl = 0 ∨ 48 < c.npl.toNat) else c.npl != 0) || decide (15 < c.cdone.toNat) ||
  decide (63 < c.pcb.toNat) || decide ((if c.plane then 0 else 2) < c.red.toNat) ||
  decide (c.count = 0 ∨ 262144 < c.count.toNat) || decide (c.m = 0 ∨ 2 ^ 20 < c.m.toNat) || c.mstr == 0 ||
  decide (v ≤ c.ord0.toNat + (c.m.toNat - 1) * c.mstr.toNat) || decide (c.m.toNat ≤ c.root.toNat) ||
  (c.op == 1 && c.root != 0) || c.skewed (c.member ord) ||
  !zeros 60 4 || !zeros 120 8 || (own && !zeros 64 56) || decide (64 < c.pcb.toNat + c.nseg)

/-- Does a range of the store lie in one scratch or accumulator partition (R306)? -/
def inVersioned (w a : Word) (n : Nat) : Bool :=
  decide (a.toNat < 2 ^ 21) && (match partOf w a.toNat n with | some k => k == 2 || k == 3 | none => false)

/-- Do the ranges of member i keep the partition rule (R306)? -/
def crbRanges (w : Word) (c : Crb) (i : Nat) : Bool :=
  (!c.contributes i || inVersioned w c.src (c.count.toNat * c.esz)) &&
  (!c.consumes i || (inVersioned w c.dst c.landLen && (c.mbma == 0 || inVersioned w c.mbma ((c.m.toNat + 7) / 8))))

/-- Is the slot taken, or one of the counters reserved (R322 check 5)? -/
def crbTaken (v : VRegs) (c : Crb) (k : Nat) : Bool :=
  (List.range 8).any (fun j =>
    match v.coll[j]? with
    | none => false
    | some o =>
      (o.st == 1 || o.st == 2 || o.st == 3) &&
        (j == k || decide (o.crb.pcb.toNat < c.pcb.toNat + c.nseg ∧ c.pcb.toNat < o.crb.pcb.toNat + o.crb.nseg)))

/-! ### Precision counters (Table 17.3) -/

/-- STATE. -/
def pcSt (x : BitVec 16) : Nat := x.toNat / 2 ^ 13
/-- PL. -/
def pcPl (x : BitVec 16) : Nat := x.toNat % 64
/-- CUT. -/
def pcCut (x : BitVec 16) : Nat := x.toNat / 64 % 64
/-- PCNT from its fields. -/
def pcMake (st cut pl : Nat) : BitVec 16 := BitVec.ofNat 16 (st * 2 ^ 13 + cut * 64 + pl)

/-- A counter of a virtual tile. -/
def VRegs.pc (v : VRegs) (k : Nat) : BitVec 16 := (v.pcnt[k]?).getD 0

/-- The counters of a request. -/
def Crb.counters (c : Crb) : List Nat := (List.range c.nseg).map (fun s => c.pcb.toNat + s)

/-- Change the counters of a request. -/
def onCounters (v : VRegs) (c : Crb) (f : BitVec 16 → BitVec 16) : VRegs :=
  c.counters.foldl (fun v k => { v with pcnt := v.pcnt.setIfInBounds k (f (v.pc k)) }) v

/-- A collective slot of a virtual tile. -/
def VRegs.slotOf (v : VRegs) (k : BitVec 3) : CollSlot := v.coll[k.toNat]

/-- Change a collective slot of a virtual tile. -/
def VRegs.modColl (v : VRegs) (k : BitVec 3) (f : CollSlot → CollSlot) : VRegs :=
  { v with coll := v.coll.set k.toNat (f v.coll[k.toNat]) }

/-! ### Members, wherever they are hosted -/

/-- Registers of a virtual tile, wherever it is hosted. -/
def vregsOf (s : State) (ctx : Nat) (idx : BitVec 20) : Option VRegs :=
  (locate s ctx idx).map (fun p => slotRegs (s.tile p.2.1) p.2.2)

/-- Change the registers of a virtual tile and of its shadow (R250). -/
def modV2 (s : State) (ctx : Nat) (idx : BitVec 20) (f : VRegs → VRegs) : State :=
  match locate s ctx idx with
  | none => s
  | some (_, t, k) =>
    let s := modSlot s t k f
    match (s.tile t).twin with | some u => modSlot s u k f | none => s

/-- May the communication processors deliver into a virtual tile now: it is its host's resident, and the host changes no
slot (R312)? -/
def delivers (s : State) (ctx : Nat) (idx : BitVec 20) : Option TileId :=
  match locate s ctx idx with
  | some (_, t, k) => if (s.tile t).slot = k ∧ !(s.tile t).turning then some t else none
  | none => none

/-- The bytes of a logged line, those of a range replaced by what lands there. -/
def patchLine (x : Slot) (ofs : Nat) (bs : List Byte) : Slot :=
  if x.kind = .undo ∧ meets ofs bs.length x.ofs 64 then
    { x with data := BitVec.ofNat 512 (natOf ((List.range 64).map (fun j =>
        if ofs ≤ x.ofs + j ∧ x.ofs + j < ofs + bs.length then bs.getD (x.ofs + j - ofs) 0
        else x.data.extractLsb' (8 * j) 8))) }
  else x

/-- Write landed bytes into one copy's store (R311). They are not logged and never restored: a line of which the rest is
logged takes them in its standing version too, and a folded host's resident slot in its standing buffer, so that the working
copy and the standing version agree. A watchpoint record counts them as an engine's. -/
def landAt (s : State) (ctx : Nat) (t : TileId) (ofs : Nat) (bs : List Byte) : State :=
  let s := (eccWrite s t ofs bs.length).1.modTile t (fun T =>
    { T with mem := T.mem.store ofs bs, v := watchRecord T.v ofs bs.length 1 (BitVec.ofNat 20 (posOf t)) 0
             galley := T.galley.map (fun x => patchLine x ofs bs) })
  let T := s.tile t
  match T.slots[T.slot]? with
  | some x => if !((s.groupOf t).map (fun g => g.folded)).getD false then s
    else writeHbm s ctx (imageVa (s.ctx ctx) T.v.idx (if x.buf1 then 1 else 0) + BitVec.ofNat 64 (4096 + ofs)) bs
  | none => s

/-- Write landed bytes into a virtual tile and its shadow. -/
def landBytes (s : State) (ctx : Nat) (t : TileId) (ofs : Nat) (bs : List Byte) : State :=
  let s := landAt s ctx t ofs bs
  match (s.tile t).twin with | some u => landAt s ctx u ofs bs | none => s

/-- A running collective of a context. -/
def findColl (x : Ctx) (id : BitVec 64) : Option Coll := x.colls.find? (fun c => c.inst == id)

/-- Change a running collective. -/
def modCollective (s : State) (ctx : Nat) (id : BitVec 64) (f : Coll → Coll) : State :=
  s.modCtx ctx (fun x => { x with colls := x.colls.map (fun c => if c.inst = id then f c else c) })

/-- Change a member. -/
def Coll.modMem (c : Coll) (k : Nat) (f : CMem → CMem) : Coll :=
  { c with mems := c.mems.mapIdx (fun i m => if i = k then f m else m) }

/-- Member index of a member. -/
def CMem.index (m : CMem) : Nat := (m.crb.member m.ord).getD 0

/-- Does a member run: its slot is RUNNING in this collective? -/
def memRuns (s : State) (ctx : Nat) (c : Coll) (m : CMem) : Bool :=
  match vregsOf s ctx m.idx with
  | some v => (v.slotOf m.slot).st == 2 && (v.slotOf m.slot).inst == c.inst
  | none => false

/-- Does a member's slot still hold the collective: RUNNING or PARKED? -/
def memHolds (s : State) (ctx : Nat) (c : Coll) (m : CMem) : Bool :=
  match vregsOf s ctx m.idx with
  | some v => ((v.slotOf m.slot).st == 2 || (v.slotOf m.slot).st == 3) && (v.slotOf m.slot).inst == c.inst
  | none => false

/-- May a member's source be read (R311, R317): its virtual tile is hosted, and the collective is not parked at it? A member
that is done as a consumer goes on contributing. -/
def memReads (s : State) (ctx : Nat) (c : Coll) (m : CMem) : Bool :=
  match vregsOf s ctx m.idx with
  | some v => !((v.slotOf m.slot).st == 3 && (v.slotOf m.slot).inst == c.inst)
  | none => false

/-- Is the input of a contributor still to come after its node went on without it (R317)? -/
def lateOwed (s : State) (ctx : Nat) (c : Coll) : Bool :=
  c.closed && (List.range c.mems.length).any (fun k =>
    match c.mems[k]? with
    | some m => m.crb.contributes m.index && !c.expos.any (fun e => e.1 == k) && !c.vals.any (fun e => e.1 == k) &&
        !c.lates.contains k && (vregsOf s ctx m.idx).isSome
    | none => false)

/-- Forget the collectives that no member's slot holds any more and that no late input is owed to. -/
def dropColls (s : State) (ctx : Nat) : State :=
  let live := (s.ctx ctx).colls.filter (fun c => c.mems.any (memHolds s ctx c) || lateOwed s ctx c)
  s.modCtx ctx (fun x => { x with colls := live })

/-- A slot ends: state, and its counter rises (Table 17.2). -/
def endSlot (s : State) (ctx : Nat) (m : CMem) (st : BitVec 3) : State :=
  let s := modV2 s ctx m.idx (fun v => v.modColl m.slot (fun o => { o with st := st }))
  raiseV s ctx m.idx (m.crb.cdone.setWidth 4)

/-- The collective fails: every member's slot is FAILED, counters LOST, CDONE raised (Table 17.2). -/
def failColl (s : State) (ctx : Nat) (c : Coll) (err : BitVec 5) : State :=
  let s := c.mems.foldl (fun s m =>
    if memHolds s ctx c m then
      let s := modV2 s ctx m.idx (fun v =>
        let v := v.modColl m.slot (fun o => { o with err := err })
        if m.crb.consumes m.index then onCounters v m.crb (fun x => pcMake 4 (pcCut x) (pcPl x)) else v)
      endSlot s ctx m 6
    else s) s
  dropColls (s.modCtx ctx (fun x => { x with colls := x.colls.filter (fun y => y.inst != c.inst) })) ctx

/-! ### Launch (R307, R308, R310) -/

/-- A pending request becomes RUNNING at the commit (Table 17.2); a cutoff recorded with an FP32 request freezes its counters
(R324; DEDUCED, log entry 28). -/
def launchSlot (v : VRegs) (k : BitVec 3) (inst : BitVec 64) : VRegs :=
  let o := v.slotOf k
  let v := v.modColl k (fun o => { o with st := 2, inst := inst })
  if o.crb.consumer v.ord then
    onCounters v o.crb (fun _ => pcMake (if o.cut ≠ 0 ∧ !o.crb.plane then 3 else 1) o.cut.toNat 0)
  else v

/-- The collective that a member's request belongs to: of its group and COLLID, not all launched, without this member. -/
def openColl (x : Ctx) (gid : Nat) (c : Crb) (ord : Nat) : Option Coll :=
  x.colls.find? (fun k => k.group == gid && k.crb.collid == c.collid && !k.all && !k.mems.any (fun m => m.ord == ord))

/-- Have all members that the first request names launched (R310; log entry 28)? -/
def allIn (c : Coll) : Bool :=
  (List.range c.crb.m.toNat).all (fun i => c.mems.any (fun m => m.ord == c.crb.ord0.toNat + i * c.crb.mstr.toNat))

/-- A member's request launches at the commit (R310): answers the collective's number. -/
def joinColl (s : State) (ctx gid : Nat) (v : VRegs) (k : BitVec 3) : State × BitVec 64 :=
  let x := s.ctx ctx
  let r := (v.slotOf k).crb
  let m : CMem := { ord := v.ord, idx := v.idx, slot := k, crb := r, landed := List.replicate r.nseg 0 }
  let p : State × Coll :=
    match openColl x gid r v.ord with
    | some c => (s, { c with mems := c.mems ++ [m] })
    | none =>
      (s.modCtx ctx (fun x => { x with collNo := x.collNo + 1 }),
       { inst := BitVec.ofNat 64 (x.collNo + 1), group := gid, crb := r, mems := [m] })
  let c := p.2
  let s := p.1.modCtx ctx (fun x => { x with colls := x.colls.filter (fun y => y.inst != c.inst) ++ [c] })
  (if allIn c then s.post 1 (.collAllLaunched ctx c.inst) else s, c.inst)

/-- The fields that all requests agree on (R307). -/
def Crb.shared (c : Crb) : Crb := { c with src := 0, dst := 0, mbma := 0, pcb := 0, cdone := 0 }

/-- Do all requests agree (R307)? -/
def crbsAgree (c : Coll) : Bool :=
  c.mems.all (fun m => m.crb.shared == c.crb.shared) && c.mems.length == c.crb.m.toNat

/-- Entry i of a tree table. -/
def treeEntry (b : List Byte) (i : Nat) : Nat := limbAt b (8 + 8 * i)

/-- Parent of an entry; 0xFFFF for the root. -/
def treeParent (b : List Byte) (i : Nat) : Nat := treeEntry b i / 256 % 65536

/-- Does the chain of parents from an entry reach the root within `fuel` steps? -/
def reachesRoot (b : List Byte) (n : Nat) : Nat → Nat → Bool
  | 0, _ => false
  | f + 1, i => treeParent b i == 0xFFFF || (decide (treeParent b i < n) && reachesRoot b n f (treeParent b i))

/-- Is a tree table well formed for members on chip `c` (R308)? -/
def treeOk (b : List Byte) (n : Nat) (c : BitVec 8) : Bool :=
  let is := List.range n
  let chip (i : Nat) : Nat := treeEntry b i % 256
  decide (1 ≤ n ∧ n ≤ 256 ∧ limbAt b 0 = n) && is.all (fun i => decide (treeEntry b i < 2 ^ 24)) &&
  (is.filter (fun i => treeParent b i == 0xFFFF)).length == 1 && is.all (fun i => reachesRoot b n (n + 1) i) &&
  is.all (fun i => is.all (fun j => i == j || chip i != chip j)) && is.any (fun i => chip i == c.toNat)

/-- What reading the tree table comes to: its bytes, a read that parks at an address, or a refusal. -/
inductive TreeRead where
  | bytes (b : List Byte) (n : Nat)
  | parks (va : Word)
  | refused
  deriving DecidableEq, Repr

/-- The tree table (R308): for ALG 1 and 2 built from the chips that hold members, which is this chip; else read from HBM
with engine permission. -/
def treeBytes (s : State) (ctx : Nat) (c : Crb) : TreeRead :=
  if c.alg = 1 ∨ c.alg = 2 then .bytes (bytesOf 8 1 ++ bytesOf 8 (0xFFFF * 256 + s.chip.toNat)) 1
  else
    let get (n : Nat) : TreeRead :=
      match firstBlocked s ctx c.tree n false with
      | none => .bytes (readHbm s ctx c.tree n) 0
      | some (_, .refused) => .refused
      | some (va, _) => .parks va
    match get 8 with
    | .bytes b _ =>
      let n := limbAt b 0
      if n = 0 ∨ 256 < n then .bytes b n
      else match get (8 + 8 * n) with | .bytes b _ => .bytes b n | r => r
    | r => r

/-- Cycles between the steps of a collective (R21; log entry 9). -/
def collStep : Nat := 64

/-- The collective runs: contributors' sources are read; cutoffs recorded with the requests travel (R311, R318). -/
def startColl (s : State) (ctx : Nat) (c : Coll) : State :=
  let s := modCollective s ctx c.inst (fun c => { c with all := true })
  (List.range c.mems.length).foldl (fun s k =>
    match c.mems[k]? with
    | none => s
    | some m =>
      let s := if m.crb.contributes m.index then s.post collStep (.collSourceRead ctx c.inst k 0) else s
      match vregsOf s ctx m.idx with
      | none => s
      | some v =>
        let cut := (v.slotOf m.slot).cut
        if cut ≠ 0 ∧ m.crb.consumes m.index then s.post collStep (.collNodeInput ctx c.inst 0 (.cutoff k cut)) else s) s

/-- COLL_ALL_LAUNCHED (R307, R308, R310): the digest is logged, then compared, then the table's form is judged (log entry
28). -/
def execCollAllLaunched (s : State) : Host.Outcome State Fault Refusal :=
  match s.ev with
  | some (.collAllLaunched ctx id) =>
    match findColl (s.ctx ctx) id with
    | none => .next s
    | some c =>
      if c.all || !allIn c then .next s
      else if !crbsAgree c then .next (failColl s ctx c 1)
      else if c.refused then .next (failColl s ctx c 4)
      else
        match treeBytes s ctx c.crb with
        | .refused => .next (failColl s ctx c 4)
        | .parks va =>
          let t := ((c.mems.head?).bind (fun m => (locate s ctx m.idx).map (fun p => p.2.1))).getD 0
          .next (s.postPage { ctx := ctx, tile := t, who := .coll id, va := va, write := false })
        | .bytes b n =>
          if n = 0 ∨ 256 < n then .next (failColl s ctx c 2)
          else
            let s := touchPages s ctx c.crb.tree (if c.crb.alg = 1 ∨ c.crb.alg = 2 then 0 else b.length)
            let d := sha384 b
            let s := (s.modCtx ctx (fun x => { x with collLog := x.collLog ++ [(c.crb.collid, c.crb.alg, d)] })).report
              (.collDigest ctx c.crb.collid c.crb.alg d)
            if !(c.crb.alg == 1 || c.crb.alg == 2) && d != c.crb.treeh then .next (failColl s ctx c 3)
            else if !treeOk b n s.chip then .next (failColl s ctx c 2)
            else .next (startColl s ctx c)
  | _ => .next s

/-! ### Sources (R311) -/

/-- An element of the source as FP32 (R41, R313). -/
def srcElems (c : Crb) (b : List Byte) : List (BitVec 32) :=
  if c.dtype = 8 then (List.range (b.length / 4)).map (fun i => BitVec.ofNat 32 (natOf ((b.drop (4 * i)).take 4)))
  else (List.range (b.length / 2)).map (fun i => BitVec.ofNat 32 (65536 * natOf ((b.drop (2 * i)).take 2)))

/-- Value of an FP32 element. -/
def f32Val (x : BitVec 32) : Val := decodeFp fp32 x.toNat

/-- Block b of a list of elements. -/
def blockOf (xs : List (BitVec 32)) (b : Nat) : List (BitVec 32) := (xs.drop (256 * b)).take 256

/-- The larger exponent. -/
def maxExp (a b : Option Int) : Option Int :=
  match a, b with
  | some x, some y => some (if x < y then y else x)
  | none, y => y
  | x, none => x

/-- Exponent of each block of a contribution (R51, R313). -/
def blockExps (c : Crb) (xs : List (BitVec 32)) : List (Option Int) :=
  (List.range c.blocks).map (fun b => (blockOf xs b).foldl (fun e x => maxExp e (exOf (f32Val x))) none)

/-- COLL_SOURCE_READ (R311): the next segment of a contributor's source, in its standing version; the last makes the first
message of the contribution. -/
def execCollSourceRead (s : State) : Host.Outcome State Fault Refusal :=
  match s.ev with
  | some (.collSourceRead ctx id k seg) =>
    match findColl (s.ctx ctx) id with
    | none => .next s
    | some c =>
      match c.mems[k]? with
      | none => .next s
      | some m =>
        if !c.all || !memReads s ctx c m || m.read != seg || decide (m.crb.nseg ≤ seg) then .next s
        else
          match locate s ctx m.idx with
          | none => .next s
          | some (g, t, slot) =>
            if s.cycle < (s.tile t).busyUntil then .next (s.post ((s.tile t).busyUntil - s.cycle) (.collSourceRead ctx id k seg))
            else
              let n := if m.crb.count.toNat < 4096 * (seg + 1) then m.crb.count.toNat - 4096 * seg else 4096
              let r := remoteBytes s ctx g t slot m.idx (m.crb.src.toNat + 4096 * seg * m.crb.esz) (n * m.crb.esz)
              if !r.2.1 then .next (r.1.post collStep (.collSourceRead ctx id k seg))
              else
                let vals := m.vals ++ srcElems m.crb r.2.2
                let s := modCollective r.1 ctx id (fun c => c.modMem k (fun m => { m with vals := vals, read := seg + 1 }))
                let last := decide (seg + 1 = m.crb.nseg)
                let s := modV2 s ctx m.idx (fun v =>
                  v.modColl m.slot (fun o =>
                    if o.inst = c.inst then { o with lines := o.lines + (n * m.crb.esz + 63) / 64, srcRead := last } else o))
                if !last then .next (s.post collStep (.collSourceRead ctx id k (seg + 1)))
                else
                  .next (s.post collStep (.collNodeInput ctx id 0
                    (if m.crb.plane then .expo k (blockExps m.crb vals) else .vals k vals)))
  | _ => .next s

/-! ### The chip's tree in plane mode (R313, R314) -/

/-- Pair nodes left to right; an odd one passes up unchanged (R313). Answers the nodes made and those of the next level. -/
def pairUp (base : Nat) : List Nat → List CNode × List Nat
  | a :: b :: r =>
    let q := pairUp (base + 1) r
    ({ kind := .adder a b } :: q.1, base :: q.2)
  | l => ([], l)

/-- The tree over some nodes: nodes in the order made, the last level's node. -/
def buildTree (fuel : Nat) (ns : List CNode) (level : List Nat) : List CNode × Nat :=
  match fuel, level with
  | f + 1, _ :: _ :: _ =>
    let q := pairUp ns.length level
    buildTree f (ns ++ q.1) q.2
  | _, l => (ns, l.headD 0)

/-- The adder that a node feeds. -/
def nodeParent (ns : List CNode) (k : Nat) : Option Nat :=
  ns.findIdx? (fun n => match n.kind with | .adder l r => l == k || r == k | .leaf _ => false)

/-- Depth of a node in adders above it. -/
def nodeDepth (ns : List CNode) : Nat → Nat → Nat
  | 0, _ => 0
  | f + 1, k => match nodeParent ns k with | some p => nodeDepth ns f p + 1 | none => 0

/-- Prefixes 0 to 48 of a leaf's element in units of 2^(E-48): sign and magnitude digits (R313). -/
def leafPrefixes (e : Int) (x : BitVec 32) : List Int :=
  let v := planeInt e (f32Val x)
  (List.range 49).map (fun j =>
    let a : Int := (v.natAbs / 2 ^ (48 - j) * 2 ^ (48 - j) : Nat)
    if v < 0 then -a else a)

/-- AdderDigit of R314 in units of 2^(E-48): Y(0) to Y(48). -/
def adderPrefixes (l r : List Int) : List Int :=
  (List.range 48).foldl (fun ys k =>
    let i := k + 1
    let j := if i + 2 < 48 then i + 2 else 48
    let y := ys.getLastD 0
    let d := l.getD j 0 + r.getD j 0 - y
    let w : Int := 2 ^ (48 - i)
    ys ++ [if w ≤ 2 * d then y + w else if 2 * d ≤ -w then y - w else y]) [0]

/-- Prefixes of a node's element q of block b. -/
def nodePrefixes (c : Coll) (b q : Nat) : Nat → Nat → List Int
  | 0, _ => []
  | f + 1, k =>
    match c.nodes[k]? with
    | none => []
    | some n =>
      match n.kind with
      | .leaf m => leafPrefixes (c.exps.getD b 0) ((((c.mems[m]?).map (fun x => x.vals)).getD []).getD (256 * b + q) 0)
      | .adder l r => adderPrefixes (nodePrefixes c b q f l) (nodePrefixes c b q f r)

/-- Root of a collective's tree. -/
def Coll.root (c : Coll) : Nat := c.nodes.length - 1

/-- Specials code of element q of block b (R52): over the contributors that have joined. -/
def specialAt (c : Coll) (b q : Nat) : Nat :=
  c.expos.foldl (fun a e =>
    joinSpecial a (specialOf (f32Val ((((c.mems[e.1]?).map (fun x => x.vals)).getD []).getD (256 * b + q) 0)))) 0

/-- A plane of 64 bytes from the codes of its 256 elements (Table 2.5). -/
def planeOf (f : Nat → Nat) : List Byte :=
  (List.range 64).map (fun i =>
    BitVec.ofNat 8 (f (4 * i) + 4 * f (4 * i + 1) + 16 * f (4 * i + 2) + 64 * f (4 * i + 3)))

/-- Code of an element in a plane of 64 bytes. -/
def planeCode (b : List Byte) (q : Nat) : Nat := (b.getD (q / 4) 0).toNat / 4 ^ (q % 4) % 4

/-- Does a digit plane hold the reserved code (R50)? -/
def planeBad (b : List Byte) : Bool := (List.range 256).any (fun q => planeCode b q == 2)

/-- Are reserved bits of a block's header set (R50)? -/
def headBad (b : List Byte) : Bool := decide (2 ^ 22 ≤ natOf (b.take 8))

/-- Digit plane i of block b at the root; a non-finite result has digits 0 (R52). -/
def digitPlane (c : Coll) (b i : Nat) : List Byte :=
  planeOf (fun q =>
    if c.crb.count.toNat ≤ 256 * b + q ∨ specialAt c b q ≠ 0 then 0
    else
      let p := nodePrefixes c b q (c.nodes.length + 1) c.root
      let d := p.getD i 0 - p.getD (i - 1) 0
      if d = 0 then 0 else if 0 < d then 1 else 3)

/-- Header and specials plane of block b with the zero bytes between them (R50, R396). -/
def blockHead (c : Coll) (b : Nat) : List Byte :=
  bytesOf 2 ((c.exps.getD b 0) % 65536).toNat ++ bytesOf 6 c.npl ++ List.replicate 56 (0 : Byte) ++
    planeOf (fun q => if c.crb.count.toNat ≤ 256 * b + q then 0 else specialAt c b q)

/-- The cutoff of the tree's root: the largest of the consumers', once every one has set one (R318). -/
def rootCut (c : Coll) : Option Nat :=
  let cons := (List.range c.mems.length).filter (fun k =>
    match c.mems[k]? with | some m => m.crb.consumes m.index | none => false)
  if cons.all (fun k => c.cuts.any (fun x => x.1 == k)) then
    some (c.cuts.foldl (fun a x => if a < x.2 then x.2 else a) 0)
  else none

/-- Planes that a node may emit (R318). -/
def nodeLimit (c : Coll) (n : CNode) : Nat :=
  match rootCut c with
  | some x => if x + 2 * n.depth < 48 then x + 2 * n.depth else 48
  | none => 48

/-- Planes that a node has sent of a segment: a leaf's are all there. -/
def nodeSent (c : Coll) (k seg : Nat) : Nat :=
  match c.nodes[k]? with
  | some n => match n.kind with | .leaf _ => 48 | .adder _ _ => n.sent.getD seg 0
  | none => 0

/-- Consumers of a collective, by their place. -/
def Coll.consumers (c : Coll) : List Nat :=
  (List.range c.mems.length).filter (fun k => match c.mems[k]? with | some m => m.crb.consumes m.index | none => false)

/-- Cycles from the root to a consumer (R21; log entry 9). -/
def collRoute : Nat := 32

/-- A landing is due at every consumer. -/
def postLandings (s : State) (ctx : Nat) (c : Coll) (seg d : Nat) : State :=
  c.consumers.foldl (fun s k => s.post d (.planeLanded ctx c.inst k seg)) s

/-- ADDER_DIGIT_EMIT (R314, R318): the next digit of a segment, once both inputs have delivered the planes it needs. -/
def execAdderDigitEmit (s : State) : Host.Outcome State Fault Refusal :=
  match s.ev with
  | some (.adderDigitEmit ctx id k seg) =>
    match findColl (s.ctx ctx) id with
    | none => .next s
    | some c =>
      match c.nodes[k]? with
      | none => .next s
      | some n =>
        match n.kind with
        | .leaf _ => .next s
        | .adder l r =>
          let i := nodeSent c k seg + 1
          let need := if i + 2 < 48 then i + 2 else 48
          if nodeLimit c n < i ∨ nodeSent c l seg < need ∨ nodeSent c r seg < need then .next s
          else
            let s := modCollective s ctx id (fun c =>
              { c with nodes := c.nodes.mapIdx (fun j n => if j = k then { n with sent := n.sent.set seg i } else n) })
            let s := match nodeParent c.nodes k with
              | some p => s.post 1 (.adderDigitEmit ctx id p seg)
              | none => postLandings s ctx c seg collRoute
            .next (s.post 8 (.adderDigitEmit ctx id k seg))
  | _ => .next s

/-! ### Inputs of the chip's node (R309, R313, R316 to R318) -/

/-- FP32 values of the members that have joined, combined (R316). -/
def combineVals (c : Coll) (xs : List (List (BitVec 32))) : List (BitVec 32) :=
  (List.range c.crb.count.toNat).map (fun e =>
    let vs := xs.map (fun l => (l.getD e 0).toNat)
    BitVec.ofNat 32
      (match c.crb.red.toNat with
       | 0 => exactThenRound fp32 0 0 (vs.map (decodeFp fp32))
       | 1 => (vs.drop 1).foldl (fun a b => maxFp fp32 a b) (maxFp fp32 (vs.headD 0) (vs.headD 0))
       | _ => (vs.drop 1).foldl (fun a b => minFp fp32 a b) (minFp fp32 (vs.headD 0) (vs.headD 0))))

/-- Contributors by their place, in ordinal order. -/
def Coll.contributors (c : Coll) : List Nat :=
  (List.range c.crb.m.toNat).filterMap (fun i =>
    if c.crb.contributes i then c.mems.findIdx? (fun m => m.ord == c.crb.ord0.toNat + i * c.crb.mstr.toNat) else none)

/-- Members that have joined, by their place (R317). -/
def Coll.joined (c : Coll) : List Nat := c.expos.map (fun e => e.1) ++ c.vals.map (fun e => e.1)

/-- E of each block over the inputs that have joined (R313): M counts as 1 for BCAST. -/
def blockE (c : Coll) : List Int :=
  let lg : Int := if c.crb.op = 3 then 0 else ceilLog2 c.crb.m.toNat
  (List.range c.crb.blocks).map (fun b =>
    match c.expos.foldl (fun e x => maxExp e (x.2.getD b none)) none with
    | some e => e + lg
    | none => 0)

/-- The node closes over the inputs it has: plane mode forms E and the adder tree, FP32 mode the results (R309, R313, R316). -/
def closeNode (s : State) (ctx : Nat) (c : Coll) : State :=
  let segs := List.range c.crb.nseg
  let ins := c.contributors.filter (fun k => c.joined.contains k)
  let cut := match rootCut c with | some x => if x < c.crb.npl.toNat then x else c.crb.npl.toNat | none => c.crb.npl.toNat
  let tree := buildTree (ins.length + 1) (ins.map (fun k => ({ kind := .leaf k } : CNode))) (List.range ins.length)
  let nodes := tree.1.mapIdx (fun k n =>
    { n with depth := nodeDepth tree.1 (tree.1.length + 1) k, sent := List.replicate c.crb.nseg 0 })
  let c' : Coll :=
    if c.crb.plane then { c with closed := true, exps := blockE c, nodes := nodes, npl := cut }
    else
      { c with
        closed := true
        out := combineVals c (ins.map (fun k => ((c.vals.find? (fun e => e.1 == k)).map (fun e => e.2)).getD [])) }
  let s := modCollective s ctx c.inst (fun _ => c')
  let s := segs.foldl (fun s seg =>
    let s := postLandings s ctx c' seg collRoute
    (List.range c'.nodes.length).foldl (fun s k =>
      match c'.nodes[k]? with
      | some n => (match n.kind with | .adder _ _ => s.post 8 (.adderDigitEmit ctx c.inst k seg) | .leaf _ => s)
      | none => s) s) s
  let s := c.consumers.foldl (fun s k => s.post collRoute (.collConsumerDone ctx c.inst k)) s
  c.contributors.foldl (fun s k => s.post (8 * 50) (.contributionAccepted ctx c.inst k)) s

/-- An input arrives after the node went on without it (R317): counted at every consumer whose slot has not been given to
another collective, and a record for the late member's tile. -/
def lateInput (s : State) (ctx : Nat) (c : Coll) (k : Nat) : State :=
  let s := c.consumers.foldl (fun s j =>
    match c.mems[j]? with
    | some m => modV2 s ctx m.idx (fun v => v.modColl m.slot (fun o =>
        if o.inst = c.inst then { o with late := if o.late = 65535 then o.late else o.late + 1 } else o))
    | none => s) s
  let s := dropColls (modCollective s ctx c.inst (fun c => { c with lates := c.lates ++ [k] })) ctx
  match (c.mems[k]?).bind (fun m => locate s ctx m.idx) with
  | some (_, t, _) => sendRecord s (recordOf s t .late 4 false 0 0 0)
  | none => s

/-- An input joins; the first starts the deadline, the last closes the node. -/
def takeInput (s : State) (ctx : Nat) (c : Coll) (k : Nat) (f : Coll → Coll) : State :=
  if c.closed then lateInput s ctx c k
  else if c.joined.contains k then s
  else
    let c' := f c
    let s := modCollective s ctx c.inst (fun _ => c')
    let s := if c.joined.isEmpty ∧ c.crb.dln ≠ 0 then s.post (1600 * c.crb.dln.toNat) (.collDeadlineExpiry ctx c.inst 0) else s
    if c'.contributors.all (fun k => c'.joined.contains k) then closeNode s ctx c' else s

/-- COLL_NODE_INPUT (R309, R313, R316 to R318): an exponent, values, or a consumer's cutoff. A cutoff never rises. -/
def execCollNodeInput (s : State) : Host.Outcome State Fault Refusal :=
  match s.ev with
  | some (.collNodeInput ctx id _ m) =>
    match findColl (s.ctx ctx) id with
    | none => .next s
    | some c =>
      match m with
      | .expo k ex => .next (takeInput s ctx c k (fun c => { c with expos := c.expos ++ [(k, ex)] }))
      | .vals k v => .next (takeInput s ctx c k (fun c => { c with vals := c.vals ++ [(k, v)] }))
      | .cutoff k x =>
        .next (modCollective s ctx id (fun c =>
          if c.cuts.any (fun y => y.1 == k && decide (y.2 ≤ x.toNat)) then c
          else { c with cuts := c.cuts.filter (fun y => y.1 != k) ++ [(k, x.toNat)] }))
  | _ => .next s

/-- COLL_DEADLINE_EXPIRY (R317): the node goes on with the inputs it has; every member's CST says so. -/
def execCollDeadlineExpiry (s : State) : Host.Outcome State Fault Refusal :=
  match s.ev with
  | some (.collDeadlineExpiry ctx id _) =>
    match findColl (s.ctx ctx) id with
    | none => .next s
    | some c =>
      if c.closed || c.joined.isEmpty then .next s
      else
        let s := c.mems.foldl (fun s m =>
          if memHolds s ctx c m then modV2 s ctx m.idx (fun v => v.modColl m.slot (fun o => { o with dlnp := true })) else s) s
        .next (closeNode s ctx c)
  | _ => .next s

/-! ### Landing and completion (R310, R312, R315) -/

/-- Are all counters of a request frozen? -/
def allFrozen (v : VRegs) (c : Crb) : Bool := c.counters.all (fun k => pcSt (v.pc k) != 1)

/-- Blocks of a segment. -/
def segBlocks (c : Crb) (seg : Nat) : List Nat :=
  ((List.range 16).map (fun i => 16 * seg + i)).filter (fun b => decide (b < c.blocks))

/-- Digit planes of a segment's blocks land, then their counter changes (R315); at the cutoff the counter freezes (R318). -/
def landPlane (s : State) (ctx : Nat) (c : Coll) (k seg i : Nat) (m : CMem) (t : TileId) (bs : List (Nat × List Byte)) :
    State :=
  let s := bs.foldl (fun s b => landBytes s ctx t (m.crb.dst.toNat + 3200 * b.1 + 64 + 64 * i) b.2) s
  let s := modCollective s ctx c.inst (fun c => c.modMem k (fun m => { m with landed := m.landed.set seg (i + 1) }))
  modV2 s ctx m.idx (fun v =>
    let x := m.crb.pcb.toNat + seg
    let cut := pcCut (v.pc x)
    let st := if cut ≠ 0 ∧ cut ≤ i then 3 else if i = m.crb.npl.toNat then 2 else 1
    { v with pcnt := v.pcnt.setIfInBounds x (pcMake st cut i) })

/-- Header and specials plane of a segment's blocks land (R396). -/
def landHead (s : State) (ctx : Nat) (c : Coll) (k seg : Nat) (m : CMem) (t : TileId) (bs : List (Nat × List Byte)) :
    State :=
  let s := bs.foldl (fun s b => landBytes s ctx t (m.crb.dst.toNat + 3200 * b.1) b.2) s
  modCollective s ctx c.inst (fun c => c.modMem k (fun m => { m with landed := m.landed.set seg 1 }))

/-- FP32 values of a segment land (R315). -/
def landVals (s : State) (ctx : Nat) (c : Coll) (seg : Nat) (m : CMem) (t : TileId) : State :=
  let bs := ((c.out.drop (4096 * seg)).take 4096).flatMap (fun x => bytesOf 4 x.toNat)
  let s := landBytes s ctx t (m.crb.dst.toNat + 16384 * seg) bs
  modV2 s ctx m.idx (fun v =>
    let x := m.crb.pcb.toNat + seg
    { v with pcnt := v.pcnt.setIfInBounds x (pcMake 2 (pcCut (v.pc x)) 48) })

/-- The next landing of a segment at a consumer, if one may be made now. The consumer checks what it receives: a format error
loses the block, which fails the collective (R50, R310). The chip's own node forms no such block. -/
def landNext (s : State) (ctx : Nat) (c : Coll) (k seg : Nat) (m : CMem) (t : TileId) : State :=
  if !c.crb.plane then landVals s ctx c seg m t
  else
    let i := m.landed.getD seg 0
    if i = 0 then
      let bs := (segBlocks m.crb seg).map (fun b => (b, blockHead c b))
      if bs.any (fun b => headBad b.2) then failColl s ctx c 5
      else (landHead s ctx c k seg m t bs).post 8 (.planeLanded ctx c.inst k seg)
    else if nodeSent c c.root seg < i then s
    else
      let bs := (segBlocks m.crb seg).map (fun b => (b, digitPlane c b i))
      if bs.any (fun b => planeBad b.2) then failColl s ctx c 5
      else
        let s := landPlane s ctx c k seg i m t bs
        if i < nodeSent c c.root seg then s.post 8 (.planeLanded ctx c.inst k seg) else s

/-- PLANE_LANDED (R312, R315): planes for a slot that is not resident are held back; those above a frozen counter's PL are
discarded. -/
def execPlaneLanded (s : State) : Host.Outcome State Fault Refusal :=
  match s.ev with
  | some (.planeLanded ctx id k seg) =>
    match findColl (s.ctx ctx) id with
    | none => .next s
    | some c =>
      match c.mems[k]? with
      | none => .next s
      | some m =>
        match vregsOf s ctx m.idx, delivers s ctx m.idx with
        | some v, some t =>
          if !c.closed || !memRuns s ctx c m || pcSt (v.pc (m.crb.pcb.toNat + seg)) != 1 then .next s
          else .next ((landNext s ctx c k seg m t).post 1 (.collConsumerDone ctx id k))
        | _, _ => .next s
  | _ => .next s

/-- The membership bitmap (R317): bit i for contributor i that joined. -/
def bitmapBytes (c : Coll) : List Byte :=
  let on := c.joined.filterMap (fun k => (c.mems[k]?).map CMem.index)
  (List.range ((c.crb.m.toNat + 7) / 8)).map (fun i =>
    BitVec.ofNat 8 ((List.range 8).foldl (fun a j => if on.contains (8 * i + j) then a + 2 ^ j else a) 0))

/-- COLL_CONSUMER_DONE (Table 17.2): every own counter frozen and membership known. -/
def execCollConsumerDone (s : State) : Host.Outcome State Fault Refusal :=
  match s.ev with
  | some (.collConsumerDone ctx id k) =>
    match findColl (s.ctx ctx) id with
    | none => .next s
    | some c =>
      match c.mems[k]? with
      | none => .next s
      | some m =>
        match vregsOf s ctx m.idx, delivers s ctx m.idx with
        | some v, some t =>
          if !c.closed || !memRuns s ctx c m || !allFrozen v m.crb || !m.crb.consumes m.index then .next s
          else
            let s := if m.crb.mbma = 0 then s else landBytes s ctx t m.crb.mbma.toNat (bitmapBytes c)
            let st := if m.crb.counters.any (fun x => pcSt (v.pc x) == 3) then 5 else 4
            .next (dropColls (endSlot s ctx m st) ctx)
        | _, _ => .next s
  | _ => .next s

/-- CONTRIBUTION_ACCEPTED (Table 17.2): a member that only contributes is done. -/
def execContributionAccepted (s : State) : Host.Outcome State Fault Refusal :=
  match s.ev with
  | some (.contributionAccepted ctx id k) =>
    match findColl (s.ctx ctx) id with
    | none => .next s
    | some c =>
      match c.mems[k]? with
      | none => .next s
      | some m =>
        if !c.closed || !memRuns s ctx c m || m.crb.consumes m.index || m.read < m.crb.nseg then .next s
        else .next (dropColls (endSlot s ctx m 4) ctx)
  | _ => .next s

/-! ### Parking (R319) -/

/-- CST of a slot (Table 17.4). -/
def cstOf (o : CollSlot) : Word :=
  BitVec.ofNat 64 (o.st.toNat * 2 ^ 61 + o.err.toNat * 2 ^ 56 + o.late.toNat * 2 ^ 40 + (if o.dlnp then 2 ^ 39 else 0) +
    (if o.srcRead then 2 ^ 38 else 0) + o.cut.toNat * 2 ^ 32 + o.crb.collid.toNat)

/-- The parked record of a slot (Table 17.5). The communication processors keep the nodes' state in the context; the
runtime's pointer to it is a free value (log entry 2), 0 but for member 0. -/
def parkedRecord (v : VRegs) (o : CollSlot) (ptr : Nat) : List Byte :=
  crbBytes o.crb ++ bytesOf 8 (cstOf o).toNat ++ bytesOf 8 o.lines ++ bytesOf 8 ptr ++ List.replicate 104 (0 : Byte) ++
  v.pcnt.toList.flatMap (fun x => bytesOf 2 x.toNat) ++ List.replicate 3712 (0 : Byte)

/-- Park the running collectives of a virtual tile: records written, slots PARKED. `save` is true for a context save. -/
def parkColls (s : State) (ctx : Nat) (idx : BitVec 20) (save : Bool) : State :=
  match vregsOf s ctx idx with
  | none => s
  | some v =>
    (List.range 8).foldl (fun s k =>
      let o := v.slotOf (BitVec.ofNat 3 k)
      if o.st = 2 then
        let o' := { o with st := 3 }
        let f := s.freshNat
        let zero := !save || o.crb.member v.ord != some 0
        let s := if zero then s else f.2
        let s := writeHbm s ctx (parkedVa (s.ctx ctx) idx k) (parkedRecord v o' (if zero then 0 else f.1))
        modV2 s ctx idx (fun v => v.modColl (BitVec.ofNat 3 k) (fun o => { o with st := 3 }))
      else s) s

/-- Deliveries and source reads of a virtual tile go on (R312, R319). -/
def kickColls (s : State) (ctx : Nat) (idx : BitVec 20) : State :=
  (s.ctx ctx).colls.foldl (fun s c =>
    match c.mems.findIdx? (fun m => m.idx == idx) with
    | none => s
    | some k =>
      match c.mems[k]? with
      | none => s
      | some m =>
        let s := (List.range m.crb.nseg).foldl (fun s seg => s.post 1 (.planeLanded ctx c.inst k seg)) s
        let s := s.post 2 (.collConsumerDone ctx c.inst k)
        let s := s.post 2 (.contributionAccepted ctx c.inst k)
        if m.crb.contributes m.index && decide (m.read < m.crb.nseg) then s.post 1 (.collSourceRead ctx c.inst k m.read)
        else s) s

/-- Load the parked records of a virtual tile into its PARKED slots (R319): CRB, CST, lines and counters from the record. -/
def unparkColls (s : State) (ctx : Nat) (idx : BitVec 20) : State :=
  let mine := (s.ctx ctx).colls.filterMap (fun c => (c.mems.find? (fun m => m.idx == idx)).map (fun m => (c.inst, m.slot)))
  let s := mine.foldl (fun s p =>
    let b := readHbm s ctx (parkedVa (s.ctx ctx) idx p.2.toNat) 4096
    let cst := BitVec.ofNat 64 (limbAt b 0x80)
    let parked := match vregsOf s ctx idx with
      | some v => (v.slotOf p.2).st == 3 && (v.slotOf p.2).inst == p.1
      | none => false
    if cst.extractLsb' 61 3 ≠ 3 ∨ !parked then s
    else
      modV2 s ctx idx (fun v =>
        { v.modColl p.2 (fun _ =>
            { crb := crbOf b, st := 2, err := cst.extractLsb' 56 5, late := cst.extractLsb' 40 16, dlnp := cst.getLsbD 39
              srcRead := cst.getLsbD 38, cut := cst.extractLsb' 32 6, inst := p.1, lines := limbAt b 0x88 }) with
          pcnt := Vector.ofFn (fun i : Fin 64 => BitVec.ofNat 16 (natOf ((b.drop (0x100 + 2 * i.val)).take 2))) })) s
  kickColls s ctx idx

/-! ### The forms (R321 to R326) -/

/-- COLL (R322): the checks in their order, then the request is held behind the vote. -/
def execColl (p : Pred) (k : BitVec 3) (a : GSrc) (s : State) : Host.Outcome State Fault Refusal :=
  issue p 8 .tile [.g a] []
    (fun s t n =>
      match blockPlace s t (gv s t n a) 128 128 false with
      | .error x => x
      | .ok o =>
        match rangeWait s t n [(o, 128)] false with
        | some x => x
        | none =>
          match localRead s t n.val o 128 with
          | .error e => wErrAct e
          | .ok r =>
            let s := r.1
            let v := (s.tile t).v
            let c := crbOf r.2
            let m := c.member v.ord
            if crbBad r.2 (((s.groupOf t).map (fun g => g.v)).getD 0) v.ord then .trap .coll 1
            else if (match m with | some i => !crbRanges v.partw c i | none => false) then .trap .coll 2
            else if m.isNone then .trap .coll 3
            else if crbTaken v c k.toNat then .trap .coll 4
            else
              let s := s.modV t (fun v => v.modColl k (fun _ => { crb := c, st := 1 }))
              .done (ask (hold s t (.coll k)) t n 0 (.value 0))) s

/-- WAITP (R323): the counter is compared at the end of this and each later cycle. -/
def execWaitp (p : Pred) (k j : BitVec 6) (pf : BitVec 3) (a b : GSrc) (s : State) : Host.Outcome State Fault Refusal :=
  issue p 12 .tile [.g a, .g b] []
    (fun s t n =>
      let x := gv s t n a + j.setWidth 64
      if 48 < k.toNat then .trap .illegal 0
      else if 64 ≤ x.toNat then .trap .coll 7
      else .block (.precision x.toNat k.toNat pf s.cycle (gv s t n b).toNat) s) s

/-- What a cutoff does to the consumer's own counters (R318, R324). -/
def cutCounters (v : VRegs) (c : Crb) (x : Nat) : VRegs :=
  onCounters v c (fun p =>
    if pcSt p ≠ 1 then p
    else if !c.plane then pcMake 3 x 0
    else pcMake (if x ≤ pcPl p then 3 else 1) x (pcPl p))

/-- Cycles from a consumer's `pcan` to the node (R318): longer than the launch takes to the headers of inputs that are all
there, which no such cutoff reaches (R396, R398; log entry 9). -/
def cutRoute : Nat := 3 * collStep

/-- PCAN (R318, R324): at once, not held behind the vote. -/
def execPcan (p : Pred) (k : BitVec 3) (c : BitVec 6) (s : State) : Host.Outcome State Fault Refusal :=
  issue p 8 .tile [] []
    (fun s t _ =>
      if c = 0 ∨ 48 < c.toNat then .trap .illegal 0
      else
        let T := s.tile t
        let o := T.v.slotOf k
        if !(o.st == 1 || o.st == 2 || o.st == 3) || (o.st != 1 && !o.crb.consumer T.v.ord) ||
            (o.cut != 0 && decide (o.cut.toNat ≤ c.toNat))
        then .done s
        else
          let s := s.modV t (fun v => v.modColl k (fun o => { o with cut := c }))
          if o.st = 1 then .done s
          else
            let s := s.modV t (fun v => cutCounters v o.crb c.toNat)
            if T.shadow then .done s
            else
              match ((s.ctx T.ctx).colls.find? (fun x => x.inst == o.inst)).bind (fun x => x.mems.findIdx? (fun m => m.idx == T.v.idx)) with
              | none => .done s
              | some i =>
                .done ((s.post cutRoute (.collNodeInput T.ctx o.inst 0 (.cutoff i c))).post 1 (.collConsumerDone T.ctx o.inst i))) s

/-- The trap of a `prd` (R325): the planes, the element, the mode, the level reached. A slot that holds no collective has no
elements. -/
def prdTrap (v : VRegs) (k : BitVec 3) (n : Nat) (e : Word) : Option (Cause × BitVec 32) :=
  let o := v.slotOf k
  if n = 0 ∨ 48 < n then some (.illegal, 0)
  else if e.toNat % 32 ≠ 0 ∨ o.crb.count.toNat ≤ e.toNat then some (.coll, 5)
  else if !o.crb.plane then some (.coll, 6)
  else if pcPl (v.pc (o.crb.pcb.toNat + e.toNat / 4096)) < n then some (.coll, 5)
  else none

/-- Value of an element from its block after n planes (R51, R325); none where one of its digits is the reserved code, which
no collective delivers but software may have stored: the spec gives no value then (log entry 2). -/
def prdVal (b : List Byte) (q n : Nat) : Option Val :=
  match planeCode ((b.drop 64).take 64) q with
  | 1 => some (.inf false)
  | 2 => some (.inf true)
  | 3 => some .nan
  | _ =>
    let ds := (List.range n).map (fun i => planeCode ((b.drop (128 + 64 * i)).take 64) q)
    if ds.contains 2 then none
    else
      let e := readInt true 16 (natOf (b.take 2))
      let x := ds.foldl (fun (a : Int) d => 2 * a + (match d with | 1 => 1 | 3 => -1 | _ => 0)) 0
      some (.fin (decide (x < 0)) x.natAbs (e - n))

/-- The 32 values that a `prd` reads, from the working copy (R325). -/
def prdRead (s : State) (t : TileId) (n : StrandNo) (c : Crb) (e planes : Nat) :
    Except WErr (State × List (Option Val)) :=
  match localRead s t n.val (c.dst.toNat + 3200 * (e / 256)) (128 + 64 * planes) with
  | .error x => .error x
  | .ok r =>
    .ok (r.1, (List.range 32).map (fun i =>
      if c.count.toNat ≤ e + i then some (.fin false 0 0) else prdVal r.2 (e % 256 + i) planes))

/-- Some bits for each value read: `f` of the value, or bits of a free value where the spec gives none. -/
def prdBits (s : State) (w : Nat) (f : Val → Nat) (xs : List (Option Val)) : State × List (BitVec w) :=
  let z := s.freshNat
  (if xs.any Option.isNone then z.2 else s,
   xs.mapIdx (fun i x => match x with | some v => BitVec.ofNat w (f v) | none => BitVec.ofNat w (z.1 / 2 ^ (512 * i))))

/-- PRD_F32 (R325). -/
def execPrdF32 (p : Pred) (k : BitVec 3) (n : BitVec 6) (d : BitVec 4) (a : GSrc) (s : State) :
    Host.Outcome State Fault Refusal :=
  issue p 8 .tile [.g a] [.w d]
    (fun s t m =>
      let v := (s.tile t).v
      let e := gv s t m a
      match prdTrap v k n.toNat e with
      | some x => .trap x.1 x.2
      | none =>
        match prdRead s t m (v.slotOf k).crb e.toNat n.toNat with
        | .error x => wErrAct x
        | .ok r =>
          let bits (x : Val) : Nat := match x with | .fin _ 0 _ => 0 | x => roundVal fp32 0 0 x
          let q := prdBits r.1 32 bits r.2
          .done (laterD q.1 t m (.w d) (BitVec.ofNat 1024 (natOf (q.2.flatMap (fun x => bytesOf 4 x.toNat)))) 4)) s

/-- PRD_LA (R325): logged writes of the issuing strand. -/
def execPrdLa (p : Pred) (k : BitVec 3) (n : BitVec 6) (a c : GSrc) (s : State) : Host.Outcome State Fault Refusal :=
  issue p 8 .tile [.g a, .g c] []
    (fun s t m =>
      let v := (s.tile t).v
      let e := gv s t m a
      match accPlace s t (gv s t m c) 2048 true with
      | .error x => x
      | .ok o =>
        match prdTrap v k n.toNat e with
        | some x => .trap x.1 x.2
        | none =>
          match rangeWait s t m [(o, 2048)] true with
          | some x => x
          | none =>
            match prdRead s t m (v.slotOf k).crb e.toNat n.toNat with
            | .error x => wErrAct x
            | .ok r =>
              let q := prdBits r.1 512 (fun x => (addLa 0 x).toNat) r.2
              match putLocal q.1 t m (t, o) .plain (q.2.flatMap (fun x => bytesOf 64 x.toNat)) with
              | .error x => x
              | .ok s => .done s) s

/-- CSTAT (R326). -/
def execCstat (p : Pred) (k : BitVec 3) (d : BitVec 5) (s : State) : Host.Outcome State Fault Refusal :=
  issue p 8 .tile [] [.g d] (fun s t n => .done (setG s t n d (cstOf ((s.tile t).v.slotOf k)))) s

/-- CSTAT_PC (R326). -/
def execCstatPc (p : Pred) (d : BitVec 5) (a : GSrc) (s : State) : Host.Outcome State Fault Refusal :=
  issue p 8 .tile [.g a] [.g d]
    (fun s t n =>
      let x := gv s t n a
      .done (setG s t n d (if x.toNat < 64 then ((s.tile t).v.pc x.toNat).setWidth 64 else BitVec.allOnes 64))) s

end Sys2Proof.Machine
end

