-- ==== Sys2Proof/Machine/Release.lean ====
section
/-! DEFINITION. The release of a barrier: the decision's release (R273, R279), what a tile does on a commit (R205, R278)
and on an abort (R206, R278), what the group does when its last tile has (R241, R242, R252, R298, R305), and the end of a
group (Table 14.1). -/

namespace Sys2Proof.Machine

open Sys2Proof

/-! ### Order -/

/-- Insert before the first element that comes after it. -/
def insertBy {α : Type} (lt : α → α → Bool) (x : α) : List α → List α
  | [] => [x]
  | y :: r => if lt x y then x :: y :: r else y :: insertBy lt x r

/-- Sort; elements of one key keep their order. -/
def sortBy {α : Type} (lt : α → α → Bool) (l : List α) : List α := l.reverse.foldr (fun x r => insertBy lt x r) []

/-- Sender index first, then sequence (R195, R205). -/
def keyLt (a b : Nat × Nat) : Bool := decide (a.1 < b.1) || (a.1 == b.1 && decide (a.2 < b.2))

/-! ### The slots of a host -/

/-- Ordinal of slot k of physical ordinal j. -/
def ordOf (g : Group) (j k : Nat) : Nat := k * g.hosts.length + j

/-- Physical ordinal of a host or of a shadow. -/
def physOrd (g : Group) (t : TileId) : Nat :=
  match g.hosts.findIdx? (fun h => h == t) with
  | some j => j
  | none => (g.shadows.findIdx? (fun h => h == t)).getD 0

/-- The virtual index of an ordinal (R253). -/
def idxOf (g : Group) (ord : Nat) : BitVec 20 := BitVec.ofNat 20 (g.base * 1024 + ord)

/-- Change the registers of every slot of a host, the resident's and those kept. -/
def modAllSlots (s : State) (t : TileId) (f : VRegs → VRegs) : State :=
  s.modTile t (fun T => { T with v := f T.v, slots := T.slots.map (fun x => { x with regs := f x.regs }) })

/-- The registers of every slot of a host, in slot order. -/
def allSlots (T : Tile) : List VRegs :=
  if T.slots.length ≤ 1 then [T.v] else (List.range T.slots.length).map (fun k => slotRegs T k)

/-! ### Slots of the galley applied (R205, R108) -/

/-- A line after an inbound slot is applied. -/
def slotApply (g : Slot) (old : BitVec 512) : BitVec 512 :=
  match g.kind with
  | .plain => (old &&& ~~~(expandMask g.mask)) ||| (g.data &&& expandMask g.mask)
  | .add =>
    if g.addw = 0 then addLaElem old g.data
    else
      let o := 8 * (g.ofs % 64)
      let w := 8 * g.addw
      let x := (old.toNat / 2 ^ o + g.data.toNat / 2 ^ o) % 2 ^ w
      BitVec.ofNat 512 (old.toNat / 2 ^ (o + w) * 2 ^ (o + w) + x * 2 ^ o + old.toNat % 2 ^ o)
  | .undo => old
  | .out => old

/-- The runs of bytes that a mask covers from byte i on, k bytes of the line being left: offset and length. -/
def maskRuns (m : BitVec 128) : Nat → Nat → List (Nat × Nat)
  | _, 0 => []
  | i, k + 1 =>
    let r := maskRuns m (i + 1) k
    if m.getLsbD (2 * i) || m.getLsbD (2 * i + 1) then
      match r with
      | (a, n) :: q => if a = i + 1 then (i, n + 1) :: q else (i, 1) :: r
      | [] => [(i, 1)]
    else r

/-- The runs of bytes that a slot writes, for watchpoints (R113): offset and length. -/
def slotRuns (g : Slot) : List (Nat × Nat) :=
  if g.kind = .add ∧ g.addw ≠ 0 then [(g.ofs, g.addw)]
  else (maskRuns g.mask 0 64).map (fun r => (g.ofs / 64 * 64 + r.1, r.2))

/-- The watchpoints of a virtual tile see the write of an inbound slot (R113). -/
def slotWatch (g : Slot) (v : VRegs) : VRegs :=
  (slotRuns g).foldl (fun v r => watchRecord v r.1 r.2 2 g.sidx 0) v

/-- Apply an inbound slot to the pool; the resident's watchpoints see it. -/
def applyPool (s : State) (t : TileId) (g : Slot) : State :=
  let a := g.ofs / 64 * 64
  let r := eccRead s t true a 64
  if !r.2 then r.1
  else
    let old := BitVec.ofNat 512 (natOf ((r.1.tile t).mem.bytes a 64))
    r.1.modTile t (fun T =>
      { T with mem := T.mem.store a (bytesOf 64 (slotApply g old).toNat)
               v := slotWatch g T.v })

/-- Apply an inbound slot to the image of a slot that is not resident (R258). -/
def applyBuf (s : State) (ctx : Nat) (va : Word) (g : Slot) : State :=
  let a := va + BitVec.ofNat 64 (4096 + g.ofs / 64 * 64)
  let old := BitVec.ofNat 512 (natOf (readHbm s ctx a 64))
  writeHbm s ctx a (bytesOf 64 (slotApply g old).toNat)

/-- Where an image lies in the save area, by a host's own view of its standing buffers. -/
def slotVa (s : State) (g : Group) (t : TileId) (k : Nat) (working : Bool) : Word :=
  let b := (((s.tile t).slots[k]?).map (fun x => x.buf1)).getD false
  imageVa (s.ctx g.ctx) (idxOf g (ordOf g (physOrd g t) k)) (if b != working then 1 else 0)

/-- What of an inbound slot is applied: nothing of it that a collective has claimed since it was accepted (R311; log entry 28). -/
def Slot.unclaimed (v : VRegs) (x : Slot) : Option Slot :=
  let a := x.ofs / 64 * 64
  if !claimed v a 64 then some x
  else if x.kind = .plain then
    some { x with mask := (List.range 64).foldl (fun m j => if claimed v (a + j) 1 then m &&& ~~~nibMask (a + j) 1 else m) x.mask }
  else none

/-- Apply the inbound slots of a superstep, in the order of sender index and sequence; answers how many (R205). Under
folding each goes into the standing buffer, from which an abort reloads, and the resident slot's into the pool too (R258;
DEDUCED, log entry 20). A mismatch of an element's residue is context-fatal here, after the vote (R138). -/
def applySlots (s : State) (t : TileId) (g : Group) (r : Release) : State × Nat :=
  let mine := (s.tile t).galley.filter (fun x => (x.kind == .plain || x.kind == .add) && x.ss == r.ss && x.att == r.att)
  let order := sortBy (fun a b => keyLt (a.sidx.toNat, a.seq) (b.sidx.toNat, b.seq)) mine
  let s := order.foldl (fun s x =>
    let e := eccSlot s t x
    let c := if x.kind = .add ∧ x.addw = 0 then residueCheck e.1 t 3 (x.res == elemResidue x.data) else (e.1, true)
    if !e.2 then e.1
    else if !c.2 then contextFatal (arst c.1 t 3 0) g.ctx .commitres
    else
      let k := x.ord / g.hosts.length
      match x.unclaimed (slotRegs (c.1.tile t) k) with
      | none => c.1
      | some x =>
        let s := if g.folded then applyBuf c.1 g.ctx (slotVa c.1 g t k false) x else c.1
        if (s.tile t).slot = k then applyPool s t x else modSlot s t k (slotWatch x)) s
  (s.modTile t (fun T => { T with galley := T.galley.filter (fun x => !mine.contains x) }), mine.length)

/-! ### What every release does at a tile -/

/-- The debug event of a virtual tile at a release (R228, R358). -/
def debugRegs (v : VRegs) : VRegs :=
  if v.wptNew = 0 then v
  else { v with dbgr := BitVec.ofNat 64 (2 ^ 63 + v.wptNew.toNat * 2 ^ 48 + v.ss.toNat), wptNew := 0 }

/-- The WPTREC records of a virtual tile at a release. -/
def wptRecords (s : State) (t : TileId) (v : VRegs) : State :=
  (List.range 4).foldl (fun s k =>
    match v.wpt[k]? with
    | some w =>
      if v.wptNew.getLsbD k then
        sendRecord s { recordOf s t .wptrec 4 false 0 (w.record.extractLsb' 0 21) (w.record.extractLsb' 32 32) with
                         ss := v.ss, att := v.att, vidx := v.idx }
      else s
    | none => s) s

/-- Debug events of all slots of a host (R358). -/
def debugEvents (s : State) (t : TileId) : State :=
  modAllSlots ((allSlots (s.tile t)).foldl (fun s v => wptRecords s t v) s) t debugRegs

/-- Does a FIFO hold a byte? -/
def fifoHolds (q : Fifo) : Bool := !q.units.isEmpty || !q.part.isEmpty || !q.partSc.isEmpty || !q.held.isEmpty || !q.reading.isEmpty

/-- The engines at a release or a turn change (R151, R153, R184, R192): FIFOs emptied, partial tiles INVALID, sampler state
zero, gate counts and running CRC reset, armed injections and PEND cleared. -/
def clearEngines (T : Tile) : Tile :=
  { T with
    rleft := T.rleft || fifoHolds T.fa || fifoHolds T.fb, fa := {}, fb := {}
    pt := Vector.replicate 4 {}, gets := [], arrQ := [], arrFly := [], drawn := none, stuck := false, lanes := []
    rpend := false, inja := false, injd := false, samp := T.samp.release, errs := T.errs.filter (fun e => !sampErr e)
    chan := { T.chan with gates := Vector.replicate 8 0, govf := 0, crc := 0xFFFFFFFF } }

/-- Barrier registers of a virtual tile after a release (R278, R281). -/
def clearVote (v : VRegs) : VRegs :=
  { v with bstate := 0, voted := false, ownc := 0, park := false, votes := [], opnd := 0, wild := false, held := [],
           offer := 0 }

/-- Energy credited to a release so far. -/
def energyOf (g : Group) (r : Release) : Nat := ((g.energy.find? (fun e => e.1 == r)).map (fun e => e.2)).getD 0

/-- A tile's energy of the attempt is credited to the release that ends it (R360). What it draws from here until the next
superstep opens counts to none. -/
def takeEnergy (s : State) (t : TileId) (gid : Nat) (r : Release) : State :=
  let e := ((s.tile t).ecnt - (s.tile t).ecnt0).toNat
  (s.modGroup gid (fun g =>
    { g with energy := (r, energyOf g r + e) :: g.energy.filter (fun x => x.1 != r) })).modTile t
    (fun T => { T with ecnt0 := T.ecnt })

/-- Every lock bit of a tile clears; a waiter of each is granted next (R111). -/
def clearLocks (s : State) (t : TileId) : State := (s.tile t).locks.foldl (fun s l => clearLock s t l.h) s

/-! ### Requests that were held behind the vote (R241, R242, R298, R305) -/

/-- The requests that a host's slots have held, by virtual index. -/
def heldOf (T : Tile) (t : TileId) : List (BitVec 20 × TileId × List Held) :=
  ((allSlots T).filter (fun v => !v.held.isEmpty)).map (fun v => (v.idx, t, v.held))

/-- A reply to a strand of a tile that asked before the commit. -/
def replyLate (s : State) (t : TileId) (n : StrandNo) (gen : Nat) (d : BitVec 5) (v : Word) : State :=
  s.post replyDelay (.resultDelivery t n gen (.g d) (v.setWidth 1024))

/-- The incarnation of a shadow's strand that made the same `ckpt.go` as its primary's (R250). -/
def shadowGen (T : Tile) (idx : BitVec 20) (n : StrandNo) (d : BitVec 5) : Nat :=
  (((allSlots T).filter (fun v => v.idx == idx)).flatMap (fun v => v.held)).findSome? (fun h =>
    match h with | .ckpt m gen e _ => if m = n ∧ e = d then some gen else none | _ => none) |>.getD 0

/-- Act on one held request of a host at the commit of superstep `ss`. The reply to a `ckpt.go` goes to the shadow too
(R250). -/
def actHeld (s : State) (g : Group) (ss : BitVec 48) (idx : BitVec 20) (t : TileId) (h : Held) : State :=
  match h with
  | .ckpt n gen d ct =>
    let on := ckRunning (s.ctx g.ctx)
    let s := replyLate (if on then s else startCheckpoint s g.ctx ss (idx, ct)) t n gen d (if on then 1 else 0)
    match (s.tile t).twin with
    | some u => replyLate s u n (shadowGen (s.tile u) idx n d) d (if on then 1 else 0)
    | none => s
  | .enq q m => enterReservation s g.ctx q m
  | .cancel o => s.post 0 (.cancelAtDispatcher g.ctx o)
  | .imp es => imposeList s g.ctx (deviceOf (s.ctx g.ctx).mode (dieOf t)) g.id es
  | .coll _ => s

/-- Act on the held requests of some virtual tiles in the order of virtual index, then issue. -/
def actList (s : State) (g : Group) (ss : BitVec 48) (l : List (BitVec 20 × TileId × List Held)) : State :=
  (sortBy (fun (a b : BitVec 20 × TileId × List Held) => decide (a.1.toNat < b.1.toNat)) l).foldl
    (fun s h => h.2.2.foldl (fun s r => actHeld s g ss h.1 h.2.1 r) s) s

/-- All held requests of the group's hosts at the commit's decision (R25, R241); none is held after that. Pages imposed for
the superstep that closes are free. -/
def actAll (s : State) (g : Group) (ss : BitVec 48) : State :=
  let s := s.modCtx g.ctx (fun x => { x with imposed := x.imposed.filter (fun p => p.1 != g.id) })
  let s := actList s g ss g.gathered
  g.tiles.foldl (fun s t => modAllSlots s t (fun v => { v with held := [] })) s

/-! ### Commit at a tile (R205, R278) -/

/-- A strand that waits in `bar`, `barv` or `waitb` goes on past it, its result register written (R278). -/
def completeWait (s : State) (t : TileId) (n : StrandNo) : State :=
  let S := s.strand t n
  if S.st ≠ .waiting then s
  else
    match S.wait with
    | .bar b d =>
      let s := complete s t n 1
      match d with | some d => setG s t n d (s.tile t).v.res[b.toNat] | none => s
    | .waitb b d => let s := complete s t n 1; setG s t n d (s.tile t).v.res[b.toNat]
    | .release => wake s t n
    | _ => s

/-- Strands at a commit: waits for the release end, halted helpers are FREE, refusals of the attempt are forgotten
(Table 5.1, R349). -/
def commitStrands (s : State) (t : TileId) : State :=
  (List.finRange 11).foldl (fun s n =>
    (completeWait s t n).modStrand t n (fun S =>
      { S with refusedOnce := false, st := if S.st = .halted ∧ n.val ≠ 0 then .free else S.st })) s

/-- The same in an image that was saved at the end of a turn (R258, R278): waiting strands go on, halted helpers are FREE. -/
def fixBuffer (s : State) (t : TileId) (ctx : Nat) (va : Word) (x : VSlot) : State :=
  let w := x.regs.partw
  let at_ (n : StrandNo) (o : Nat) : Word := va + BitVec.ofNat 64 (4096 + imageOfs w n + o)
  let put (s : State) (n : StrandNo) (d : BitVec 5) (b : BitVec 2) : State :=
    if d = 0 then s else writeHbm s ctx (at_ n (8 * d.toNat)) (bytesOf 8 (x.regs.res[b.toNat]).toNat)
  let go (s : State) (n : StrandNo) (len : Nat) : State :=
    let c := natOf (readHbm s ctx (at_ n 0x908) 8)
    let pc := successor (BitVec.ofNat 21 c) len
    writeHbm s ctx (at_ n 0x908) (bytesOf 8 (c / 2 ^ 32 * 2 ^ 32 + 2 * 2 ^ 28 + pc.toNat))
  let s := x.waits.foldl (fun s q =>
    match q.2.1 with
    | .bar b d => go (match d with | some d => put s q.1 d b | none => s) q.1 q.2.2
    | .waitb b d => go (put s q.1 d b) q.1 q.2.2
    | _ => s) s
  (List.finRange 11).foldl (fun s n =>
    if n.val = 0 ∨ !strandExists s t n.val then s
    else
      let c := natOf (readHbm s ctx (at_ n 0x908) 8)
      if c / 2 ^ 28 % 16 = 5 then writeHbm s ctx (at_ n 0x908) (bytesOf 8 (c - 5 * 2 ^ 28)) else s) s

/-- Bytes of a swap of one slot (R258). -/
def swapBytes (w : Word) : Nat := partLimit w 3 - partBase w 1

/-- Load a slot's standing buffer into the host (R258): partitions, registers and strands. Counters, precision counters,
barrier registers and DBGR were kept on the host; a watchpoint record set meanwhile stays, and a register that is owed a
reply is empty. -/
def loadSlot (s : State) (t : TileId) (g : Group) (k nb : Nat) : State :=
  let v := slotRegs (s.tile t) k
  let va := slotVa s g t k false
  let w := v.partw
  let s := s.modTile t (fun T => { T with slot := k, errs := T.errs.filter (fun e => !errIn (partBase w 1) (swapBytes w) e) })
  let s := getImage s g.ctx va t v (partBase w 1)
  let s := s.modV t (fun x =>
    { v with ovb := x.ovb, tvec := x.tvec, idlw := x.idlw, terms := x.terms
             wpt := Vector.ofFn (fun i : Fin 4 =>
               let a := x.wpt[i]
               let b := v.wpt[i]
               if a.base = b.base ∧ a.len = b.len ∧ a.fl = b.fl then b else a) })
  let owed := (((s.tile t).slots[k]?).map (fun x => x.asked)).getD []
  owed.foldl (fun s o => s.modStrand t o.strand (fun S => S.markEmpty (.g o.d))) (loadImages s t nb)

/-- Keep the resident slot's registers with its slot. -/
def keepSlot (T : Tile) (f : VSlot → VSlot) : Tile :=
  { T with slots := T.slots.mapIdx (fun i x => if i = T.slot then f { x with regs := T.v } else x) }

/-- The replies that the resident slot's strands are owed as its turn ends: those owed before, and one for each g register
that is empty with no result under way (R226, R301). -/
def owedNow (s : State) (t : TileId) : List Owed :=
  let T := s.tile t
  let old := ((T.slots[T.slot]?).map (fun x => x.asked)).getD []
  old ++ (List.finRange 11).flatMap (fun n =>
    let S := settled s t n
    ((List.range 32).map (fun d => BitVec.ofNat 5 d)).filterMap (fun d =>
      if S.isEmpty (.g d) && !old.any (fun o => o.strand == n && o.d == d) then some ⟨n, S.gen, d, T.v.ss⟩ else none))

/-- RESULT_DELIVERY (R95): the empty register of the incarnation that asked fills; a result of an earlier one is forgotten (R115). One whose turn has ended on a folded host
is filled in its slot's image, and where the slot is resident again in its strand. -/
def execResultDelivery (s : State) : Host.Outcome State Fault Refusal :=
  match s.ev with
  | some (.resultDelivery t n gen d v) =>
    if (s.strand t n).gen = gen then .next (s.fill t n d v)
    else
      let T := s.tile t
      let mine (o : Owed) : Bool := o.strand == n && o.gen == gen && d == .g o.d
      match T.slots.findIdx? (fun x => x.asked.any mine), s.groupOf t with
      | some k, some g =>
        let x := (T.slots[k]?).getD {}
        let reg : Nat := match d with | .g r => r.toNat | _ => 0
        let write (s : State) (working : Bool) : State :=
          writeHbm s g.ctx (slotVa s g t k working + BitVec.ofNat 64 (4096 + imageOfs (slotRegs T k).partw n + 8 * reg))
            (bytesOf 8 (v.toNat % 2 ^ 64))
        let now := x.asked.any (fun o => mine o && o.ss == (slotRegs T k).ss)
        let s := if now then s else write s false
        let s := if x.wrote then write s true else s
        let s := s.modTile t (fun T =>
          { T with slots := T.slots.mapIdx (fun i y => if i = k then { y with asked := y.asked.filter (fun o => !mine o) } else y) })
        .next (if T.slot = k then s.fill t n d v else s)
      | _, _ => .next s
  | _ => .next s

/-- The first place of some ranges where an image cannot be read or written now (R221, R294), with the reason of its fault: a
page that comes in raises none. -/
def imageBlocked (s : State) (ctx : Nat) (places : List (Word × Nat)) : Option (Word × Option Nat) :=
  places.findSome? (fun p =>
    (pageParts (p.2 / 32768 + 2) p.1.toNat p.2).findSome? (fun q =>
      let va := BitVec.ofNat 64 q.1
      match walk s ctx va with
      | .error _ => some (va, some 1)
      | .ok l => if peHome l.1 ≠ s.chip then none
        else if peState l.1 = 2 ∧ !l.2.2.2 then some (va, some 0)
        else if peState l.1 = 3 ∧ !l.2.2.2 then some (va, none) else none))

/-- The fault of an image's place goes to the runtime once; the step that found it is tried again. -/
def imageFault (s : State) (ctx : Nat) (t : TileId) (b : Word × Option Nat) : State :=
  match b.2 with
  | none => s
  | some reason =>
    if (s.ctx ctx).faults.any (fun f => f.va.toNat / 32768 == b.1.toNat / 32768) then s
    else pageFault s { ctx := ctx, tile := t, who := .outq, va := b.1, write := true } reason

/-- Are the buffers of a host's slots there? If one is not, the state in which the step waits (R221, R294). -/
def buffersWait (s : State) (g : Group) (t : TileId) : Option State :=
  let T := s.tile t
  let n := imgLen T.v.partw
  let places := (List.range T.slots.length).flatMap (fun k => [(slotVa s g t k false, n), (slotVa s g t k true, n)])
  (imageBlocked s g.ctx places).map (imageFault s g.ctx t)

/-- The dispatcher stages the standing buffer of the slot that comes after the resident one through an imposition list (R258,
R298). -/
def stageNext (s : State) (t : TileId) (g : Group) : State :=
  let T := s.tile t
  let k := (T.slot + 1) % (if T.slots.length = 0 then 1 else T.slots.length)
  let va := slotVa s g t k false
  let pages := (pageParts (imgLen T.v.partw / 32768 + 2) va.toNat (imgLen T.v.partw)).map (fun p =>
    BitVec.ofNat 64 (p.1 / 32768 * 32768 + 1))
  imposeList s g.ctx (deviceOf (s.ctx g.ctx).mode (dieOf t)) g.id pages

/-- The prefetches of a host's resident slot are forgotten, parked or asked for, as its image goes out: the image holds what its
bindings have taken (R176). -/
def dropFetches (s : State) (t : TileId) (ctx : Nat) : State :=
  s.withdraw ctx t (fun w => match w with | .stream _ => true | _ => false)

/-- A folded host at a commit (R258): the resident slot to its working buffer, saved waits completed, buffers flip, slot 0
comes in. -/
def commitFold (s : State) (t : TileId) (g : Group) : State :=
  let s := dropFetches (takeImages s t) t g.ctx
  let k := (s.tile t).slot
  let s := putImage s g.ctx (slotVa s g t k true) (s.tile t).v (s.tile t).mem (partBase (s.tile t).v.partw 1)
  let owed := owedNow s t
  let s := s.modTile t (fun T => keepSlot T (fun x => { x with wrote := true, waits := [], asked := owed }))
  let s := (List.range (s.tile t).slots.length).foldl (fun s i =>
    match (s.tile t).slots[i]? with
    | some x => if i ≠ k ∧ x.wrote then fixBuffer s t g.ctx (slotVa s g t i true) x else s
    | none => s) s
  let flipped := (List.range (s.tile t).slots.length).filter (fun i => (((s.tile t).slots[i]?).map (fun x => x.wrote)).getD false)
  let s := s.modTile t (fun T =>
    { T with slots := T.slots.map (fun x =>
        { x with buf1 := if x.wrote then !x.buf1 else x.buf1, wrote := false, halted := false, waits := [], prof := [] }) })
  let s :=
    if (s.tile t).shadow then s
    else
      let ords := flipped.map (fun i => ordOf g (physOrd g t) i)
      s.modGroup g.id (fun g =>
        { g with standing := g.standing.filter (fun o => !ords.contains o) ++ ords.filter (fun o => !g.standing.contains o) })
  stageNext (loadSlot s t g 0 (s.cycle + 1)) t g

/-- Pending collective requests of a tile's slots launch (Table 17.2); a shadow's follow its primary's. -/
def launchColls (s : State) (t : TileId) (g : Group) : State :=
  (List.range (if (s.tile t).slots.length = 0 then 1 else (s.tile t).slots.length)).foldl (fun s i =>
    (List.range 8).foldl (fun s k =>
      let v := slotRegs (s.tile t) i
      let c := BitVec.ofNat 3 k
      if (v.slotOf c).st = 1 then
        if (s.tile t).shadow then
          let inst := ((vregsOf s g.ctx v.idx).map (fun p => (p.slotOf c).inst)).getD 0
          modSlot s t i (fun v => launchSlot v c inst)
        else
          let r := joinColl s g.ctx g.id v c
          let s := modSlot r.1 t i (fun v => launchSlot v c r.2)
          match (s.tile t).twin with
          | some u =>
            if ((slotRegs (s.tile u) i).slotOf c).st = 2 then
              modSlot s u i (fun v => v.modColl c (fun o => { o with inst := r.2 }))
            else s
          | none => s
      else s) s) s

/-- A tile works on a release until this cycle; its superstep opens then (R205, R206). -/
def workUntil (s : State) (T : Tile) (n : Nat) : Nat := (if T.busyUntil < s.cycle then s.cycle else T.busyUntil) + 4 + n

/-- A tile's commit (R205, R278). A request that it has held since the release left the decision point acts now (R241, R242).
An OUT slot is free at once, its line drains from the outbound queue (log entry 78); an error found in an inbound slot after
the vote votes in the superstep that opens (R354; log entry 16). A tile whose group ends or is reshaped opens nothing: its
images keep the superstep that closes (R261, R403). -/
def commitTile (s : State) (t : TileId) (g : Group) (r : Release) : State :=
  let s := if (s.tile t).shadow then s else actList s g r.ss (heldOf (s.tile t) t)
  let s := debugEvents s t
  let s := modAllSlots s t (fun v =>
    { v with bcfg := Vector.ofFn (fun i : Fin 4 => r.bcfg.getD i.val 0)
             res := if r.wild then v.res else v.res.set r.bid.toNat r.result })
  let s := clearLocks (commitStrands s t) t
  let s := s.modTile t (fun T =>
    { clearEngines T with galley := T.galley.filter (fun x => x.kind != .undo && x.kind != .out), outq := [], shut := false })
  let s := if g.folded then commitFold s t g else s
  let s := modAllSlots s t (fun v =>
    let v := clearVote v
    if r.ends || r.reshapes then v else { v with ss := r.ss + 1, att := 0 })
  let a := applySlots s t g r
  let s := launchColls (if g.folded then a.1 else writeImages a.1 t) t g
  let s := (takeEnergy s t g.id r).modTile t (fun T =>
    { T with busyUntil := workUntil s T a.2, opensAt := workUntil s T a.2, ceSent := false, sig := 0
             turning := r.ends || r.reshapes })
  (allSlots (s.tile t)).foldl (fun s v => kickColls s g.ctx v.idx) s

/-! ### Abort at a tile (R206, R278) -/

/-- Restore the lines that are logged; answers how many (R206). -/
def restoreLines (s : State) (t : TileId) : State × Nat :=
  let undo := (s.tile t).galley.filter (fun x => x.kind == .undo)
  (undo.foldl (fun s x =>
    let e := eccSlot s t x
    if !e.2 then e.1
    else
      e.1.modTile t (fun T =>
        { T with mem := T.mem.store x.ofs (bytesOf 64 x.data.toNat), errs := T.errs.filter (fun q => !errIn x.ofs 64 q) })) s,
   undo.length)

/-- Reservations of the requests that a host held are released (R241). A shadow's requests made none (R250). -/
def dropHeld (s : State) (t : TileId) (ctx : Nat) : State :=
  if (s.tile t).shadow then s else
  ((heldOf (s.tile t) t).flatMap (fun h => h.2.2)).foldl (fun s h =>
    match h with | .enq q _ => dropReservation s ctx q | _ => s) s

/-- Pending collective requests are discarded (Table 17.2). -/
def dropPending (v : VRegs) : VRegs := { v with coll := v.coll.map (fun o => if o.st = 1 then {} else o) }

/-- Accesses of a tile's engines that were parked are forgotten; write-backs stay, the read of a collective's tree (R310), and
at an abort overlay loads (R89). -/
def dropParked (s : State) (t : TileId) (ctx : Nat) (ovl : Bool) : State :=
  let stays (w : Accessor) : Bool := match w with | .outq => true | .coll _ => true | .ovl _ => !ovl | _ => false
  s.withdraw ctx t (fun w => !stays w)

/-- A tile's engines at an abort: what is queued, held or runs is discarded (R151, R153, R192), but no overlay load (R89). -/
def stopEngines (T : Tile) : Tile :=
  let T := clearEngines T
  { T with addQ := [], drains := [], chan := { T.chan with cmds := [], park := false } }

/-- A tile's abort (R206, R278). The counters of every slot, DBGR and the state of its collectives stay (R26, R228, R310);
the slot that comes in takes up what was held back for it (R312). -/
def abortTile (s : State) (t : TileId) (g : Group) (r : Release) : State :=
  let s := debugEvents s t
  let s := clearLocks (dropHeld s t g.ctx) t
  let l := restoreLines s t
  let later (x : Slot) : Bool := (x.kind == .plain || x.kind == .add) && (x.ss != r.ss || decide (r.att < x.att))
  let s := (dropParked l.1 t g.ctx false).modTile t (fun T =>
    { stopEngines T with galley := T.galley.filter later, outq := [], acks := [], shut := false })
  let s := modAllSlots s t (fun v =>
    { clearVote (dropPending v) with att := BitVec.ofNat 4 (r.att + 1), lcause := r.cause, latt := BitVec.ofNat 4 r.att })
  let s := s.modTile t (fun T =>
    { T with slots := (keepSlot T id).slots.map (fun x =>
        { x with wrote := false, halted := false, waits := [], prof := [], asked := x.asked.filter (fun o => o.ss != r.ss) }) })
  let s := if g.folded then stageNext (loadSlot s t g 0 (s.cycle + 1)) t g else loadImages s t (s.cycle + 1)
  let s := (takeEnergy s t g.id r).modTile t (fun T =>
    { T with busyUntil := workUntil s T l.2, opensAt := workUntil s T l.2, sig := 0, turning := r.ends })
  (allSlots (s.tile t)).foldl (fun s v => kickColls s g.ctx v.idx) s

/-! ### The end of a group (Table 14.1) -/

/-- A tile as it leaves a group: the pool is kept, strands are free (R78); what its registers read stays (R281), no request,
vote or collective does. -/
def freedTile (T : Tile) : Tile :=
  { mem := T.mem, errs := T.errs.filter (fun e => !sampErr e)
    v := { T.v with votes := [], held := [], wptNew := 0, coll := Vector.replicate 8 {} }
    strands := T.strands.map (fun S => { gen := S.gen + 1 })
    seq := T.seq, opNo := T.opNo, ovlNo := T.ovlNo, arrSeq := T.arrSeq, addSeq := T.addSeq
    rcount := T.rcount, rleft := T.rleft, runit := T.runit, rpti := T.rpti, rssl := T.rssl, samp := T.samp.release
    chan := { seq := T.chan.seq, fault := T.chan.fault, efr := T.chan.efr }, ecnt := T.ecnt }

/-- The clusters placed for a group, or reserved for a move of it, that hold none of some tiles are released. -/
def releaseClusters (s : State) (g : Group) (keep : List TileId) : State :=
  (s.clusters.map (fun e => e.1)).foldl (fun s c =>
    if (s.cluster c).placed ≠ some g.id ∨ keep.any (fun t => clusterOf t == c) then s
    else s.modCluster c (fun k => { k with placed := none, gate := false, idleSince := s.cycle })) s

/-- The kernel when one of its groups has ended (Table 13.4). -/
def Kernel.left (k : Kernel) : Kernel :=
  { k with groups := k.groups - 1, st := if k.groups ≤ 1 ∧ k.st ≠ .failed then .loaded else k.st }

/-- VALID of the segment entries of a group's virtual tiles is cleared; the permissions stay (log entry 21). -/
def clearSegs (x : Ctx) (g : Group) : Ctx :=
  { x with seg := x.seg.map (fun e =>
      if g.base * 1024 ≤ e.1 ∧ e.1 < g.base * 1024 + g.v then (e.1, e.2 &&& 0x7FFFFFFFFFFFFFFF) else e) }

/-- The tiles and clusters of a group are released; it is ended. -/
def leaveTiles (s : State) (g : Group) : State :=
  let s := g.tiles.foldl (fun s t => (dropParked s t g.ctx true).modTile t freedTile) s
  let s := releaseClusters s g []
  let s := s.modGroup g.id (fun g => { g with st := .ended, dp := .open_, replaying := false, nodes := [], parks := [], parkMsgs := [], todo := [] })
  s.modCtx g.ctx (fun x =>
    { clearSegs (x.modKernel g.kimg Kernel.left) g with imposed := x.imposed.filter (fun p => p.1 != g.id) })

/-- Is a context's save complete: no group is left (R218)? -/
def savesDone (s : State) (ctx : Nat) : Bool :=
  (s.ctx ctx).st == .saving && s.groups.all (fun g => g.ctx != ctx || g.st == .ended)

/-- A group ends: tiles to AWAKE, running collectives forgotten, the node completes. -/
def endGroup (s : State) (g : Group) (st : ObjStatus) : State :=
  let s := leaveTiles s g
  let s := s.modCtx g.ctx (fun x =>
    let gone := x.colls.filter (fun c => c.group == g.id)
    { x with colls := x.colls.filter (fun c => c.group != g.id)
             parked := x.parked.filter (fun a => match a.who with | .coll i => !gone.any (fun c => c.inst == i) | _ => true) })
  let s := s.post 0 (.nodeCompletion g.ctx g.node st)
  if savesDone s g.ctx then s.post 0 (.saveComplete g.ctx) else s

/-! ### Cancellation (R235) -/

/-- Act on a cancel: nodes in a queue or in the pool complete CANCELLED, a placed group that has not started is released, a
running one is marked. A cancel of a completed object changes nothing. The object is not closed by it (log entry 23). -/
def cancelObj (s : State) (ctx : Nat) (o : ObjId) : State :=
  let x := s.ctx ctx
  if ((findObj x o).map (fun r => r.st != .pending)).getD false then s
  else
    let hit (m : BitVec 512) : Bool := msgField m 0 1 == 1 && objHolds o (msgObj m)
    let queued := x.queues.toList.flatMap (fun q => q.msgs.filter hit)
    let s := s.modCtx ctx (fun x =>
      let x := { x with queues := x.queues.map (fun q => { q with msgs := q.msgs.filter (fun m => !hit m) }) }
      queued.foldl openMsg x)
    let s := s.modCtx ctx (fun x => modObj x o (fun r => { r with canc := o.level != 0 }))
    let mine (g : Group) : Bool := g.ctx == ctx && objHolds o g.node
    let pooled := s.disp.pool.filter (fun n => n.ctx == ctx && objHolds o n.node)
    let waiting := s.groups.filter (fun g => mine g && g.st == .placed)
    let s := { s with
      disp := { s.disp with pool := s.disp.pool.filter (fun n => !(n.ctx == ctx && objHolds o n.node)) }
      groups := s.groups.map (fun (g : Group) =>
        if mine g ∧ (g.st = GroupSt.running ∨ g.st = GroupSt.reshaping) then { g with cancel := true } else g) }
    let s := s.modCtx ctx (fun x =>
      { x with savedGroups := x.savedGroups.map (fun (g : Group) => if objHolds o g.node then { g with cancel := true } else g) })
    let s := (queued.map msgObj ++ pooled.map (fun n => n.node)).foldl (fun s n => s.post 0 (.nodeCompletion ctx n .cancelled)) s
    settleAll (waiting.foldl (fun s g => endGroup s g .cancelled) s) ctx o

/-- CANCEL_AT_DISPATCHER (R235, R242). -/
def execCancelAtDispatcher (s : State) : Host.Outcome State Fault Refusal :=
  match s.ev with
  | some (.cancelAtDispatcher ctx o) => .next (cancelObj s ctx o)
  | _ => .next s

/-- Has strand 0 of every virtual tile halted (R247)? -/
def allHalted (s : State) (g : Group) : Bool :=
  g.hosts.all (fun t =>
    let T := s.tile t
    if T.slots.length ≤ 1 then controlHalted T
    else (List.range T.slots.length).all (fun k =>
      if k = T.slot then controlHalted T else (((T.slots[k]?).map (fun x => x.halted)).getD false)))

/-- The kernel's record at a commit of a group that drew E nJ (R252). -/
def Kernel.sample (k : Kernel) (e : Nat) : Kernel :=
  let x := BitVec.ofNat 64 e
  { k with ncommit := k.ncommit + 1
           eavg := some (match k.eavg with
             | none => x
             | some a => a - (a >>> (3 : Nat)) + (x >>> (3 : Nat))) }

/-- A commit is to go into the record: in the order of the commits, and on a tie of increasing node number (R252). -/
def Kernel.awaits (k : Kernel) (x : Sample) : Kernel :=
  { k with samples := insertBy (fun a b => keyLt (a.at_, a.node) (b.at_, b.node)) x k.samples }

/-- The energy of a commit is known; the record takes up what stands first. -/
def Kernel.learns (k : Kernel) (gid : Nat) (ss : BitVec 48) (e : Nat) : Kernel :=
  let xs := k.samples.map (fun x => if x.group = gid ∧ x.ss = ss then { x with energy := some e } else x)
  (xs.takeWhile (fun x => x.energy.isSome)).foldl (fun k x => k.sample (x.energy.getD 0))
    { k with samples := xs.dropWhile (fun x => x.energy.isSome) }

/-! ### The decision's release (R273, R279) -/

/-- Is a die overdrawn (R359)? -/
def overdrawn (d : Die) : Bool := decide (d.eres < 0) || decide ((d.tlim.toNat : Int) ≤ d.tmax.toInt)

/-- Is the commit release of a group held (R279)? -/
def commitHeld (s : State) (g : Group) : Bool := (groupDies g).any (fun d => overdrawn (s.die d))

/-- Has a virtual tile of the group cancelled the group's own node in this superstep (R242)? -/
def cancelsSelf (s : State) (g : Group) : Bool :=
  g.hosts.any (fun t => (allSlots (s.tile t)).any (fun v => v.held.any (fun h =>
    match h with | .cancel o => objHolds o g.node | _ => false)))

/-- The plan of a group without the moves to tiles that do not hold its foldings (R254). -/
def fitMoves (s : State) (g : Group) : Group :=
  { g with plan := { g.plan with moves := g.plan.moves.filter (fun m => holdsOn s g g.hosts.length m.2) } }

/-- The hosts of a group after a commit at which `taken` offered tiles are taken (R260): the highest ordinals are given
up as far as the stores of the rest hold the foldings (R254), and the named tiles are replaced. -/
def hostsAfter (s : State) (g : Group) (taken : Nat) : List TileId :=
  let p := g.hosts.length
  let g := fitMoves s g
  hostsWith g (fitGive s g (if g.plan.give + taken < p - g.floor then g.plan.give + taken else p - g.floor))

/-- GIVE after a commit that leaves some hosts (R260): what the dispatcher asked for and could not have stays pending; a
request since the decision replaces it. -/
def giveLeft (g : Group) (hosts : List TileId) : Nat :=
  if g.plan.asked then g.give else g.give - (g.hosts.length - hosts.length)

/-- The clusters reserved for moves that a commit did not make are free again; the runtime is told of a move that is not to be
made (R254). -/
def endMoves (s : State) (g : Group) (hosts : List TileId) : State :=
  let s := releaseClusters s g (g.tiles ++ hosts ++ g.moves.map (fun m => m.2))
  if g.plan.moves.all (fun m => hosts.contains m.2) then s else s.report (.refusedRequest g.ctx)

/-- The largest offer of the superstep that is open at the decision point (R264). -/
def offerOf (s : State) (g : Group) : Nat :=
  g.hosts.foldl (fun a t => (allSlots (s.tile t)).foldl (fun a v =>
    if v.ss = g.ss ∧ v.att.toNat = g.att ∧ a < v.offer.toNat then v.offer.toNat else a) a) 0

/-- The segment entries that waited for this release take effect (R220). -/
def takeSegs (x : Ctx) (g : Group) : Ctx :=
  let mine := x.segPend.filter (fun e => e.2.2 == g.id)
  { x with seg := mine.foldl (fun l e => assocSet e.1 e.2.1 l) x.seg, segPend := x.segPend.filter (fun e => e.2.2 != g.id) }

/-- Cycles from the decision until a host's write-backs leave: its release has come, behind the data of its link (R205, R269). -/
def drainDelay (s : State) (g : Group) (t : TileId) : Nat :=
  let hold := (ioLinks (dieOf t)).foldl (fun n l => max n (dataUntil s l 4)) 0 - s.cycle
  backDelay s g t + 4 + (if multiDie g then hold else 0)

/-- The write-backs of a group's hosts leave their outbound queues, in the order of R195. -/
def releaseWrites (s : State) (g : Group) : State :=
  let ls := g.hosts.flatMap (fun t => (s.tile t).outq.map (fun l =>
    ({ ctx := g.ctx, chip := s.chip, tile := t, vidx := l.vidx, seq := l.seq, va := l.va, n := l.n, data := l.data
       strand := l.strand, pc := l.pc } : WriteBack)))
  let ls := sortBy (fun a b => keyLt (a.vidx.toNat, a.seq) (b.vidx.toNat, b.seq)) ls
  let s := s.modCtx g.ctx (fun x => { x with drains := x.drains ++ ls })
  ls.foldl (fun s w => s.postDrain (drainDelay s g w.tile) w) s

/-- The decision point opens the next attempt (Table 15.4). -/
def Group.opened (g : Group) (ss : BitVec 48) (att : Nat) : Group :=
  { g with
    dp := .open_, ss := ss, att := att, count := 0, opnd := 0, opc := 0, bid := none, timer := 0, tmo := 0, nodes := []
    parks := [], parkMsgs := [], bcfgW := [] }

/-- What a RELEASE says. -/
def releaseOf (g : Group) (cause : BitVec 8) (ends reshapes : Bool) : Release :=
  { ss := g.ss, att := g.att, cause := cause, wild := g.bid.isNone, bid := g.bid.getD 0
    result := g.res[(g.bid.getD 0).toNat], bcfg := g.bcfg.toList, ends := ends, reshapes := reshapes }

/-- The tiles that are to run a release. -/
def Group.sends (g : Group) (r : Release) : List (TileId × Release) := g.todo ++ g.tiles.map (fun t => (t, r))

/-- The release goes to every tile of the group, for a group on several dies across the links from the I/O chiplet (R267,
R269). -/
def sendRelease (s : State) (g : Group) (f : TileId → Ev) : State :=
  g.tiles.foldl (fun s t =>
    let h := anchorHops g (dieOf t) (rowOf t) (colOf t)
    if multiDie g then s.cross (dieOf t) false (some g.id) h (f t) else s.post h (f t)) s

/-- A commit release leaves the decision point: between the decision and the opening of the next superstep the requests held
behind the vote act (R25). -/
def releaseCommit (s : State) (g : Group) : State :=
  let ends := g.plan.cancel || cancelsSelf s g || allHalted s g
  let f := s.freshNat
  let off := offerOf s g
  let taken := if ends ∨ g.plan.saving ∨ off = 0 then 0 else f.1 % (off + 1)
  let s := if off = 0 then s else f.2
  let hosts := hostsAfter s g taken
  let moved := !ends && !g.plan.saving && hosts != g.hosts
  let r := releaseOf g 0 (ends || g.plan.saving) moved
  let s := releaseWrites s g
  let s := s.modCtx g.ctx (fun x => takeSegs x g)
  let s := actAll s { g with gathered := g.hosts.flatMap (fun t => heldOf (s.tile t) t) } g.ss
  let s := if ends || g.plan.saving || g.plan.moves.isEmpty then s else endMoves s g hosts
  let s := s.modCtx g.ctx (fun x =>
    modObj (x.modKernel g.kimg (fun k => k.awaits { at_ := s.cycle, node := g.node.node.toNat, group := g.id, ss := g.ss }))
      g.node (fun o => { o with ss := g.ss }))
  let s := s.modGroup g.id (fun g =>
    { g.opened (g.ss + 1) 0 with
      todo := g.sends r
      plan := { g.plan with ends := ends, halted := allHalted s g }, replaying := false, dmrBad := [], dmrNow := []
      newHosts := if moved then hosts else []
      give := if ends then 0 else giveLeft g hosts, moves := if ends then [] else g.moves })
  let s :=
    if kernelReplays s g.ctx g.kimg then s
    else s.modCtx g.ctx (fun x => x.modKernel g.kimg (fun k => { k with st := if k.st = .retrying then .running else k.st }))
  sendRelease s g (fun t => .releaseCommitAtTile g.id t r)

/-- Does the group's abort spend its budget, or is its cause KFAIL (R248)? -/
def abortFails (s : State) (g : Group) : Bool :=
  g.cause == 0x0A ||
    (match (s.ctx g.ctx).kernel g.kimg with | some k => decide (k.att ≤ g.att + 1) | none => true)

/-- Is the kernel of a group FAILED (Table 13.4)? An abort of the group then ends it (Tables 14.1 and 15.4). -/
def kernelFailed (s : State) (g : Group) : Bool :=
  match (s.ctx g.ctx).kernel g.kimg with | some k => k.st == .failed | none => true

/-- An abort release leaves the decision point (R248). The control node is told when the budget is spent. -/
def releaseAbort (s : State) (g : Group) : State :=
  let fails := abortFails s g || kernelFailed s g
  let ends := fails || g.plan.cancel
  let r := releaseOf g g.cause ends false
  let s := s.modCtx g.ctx (fun x => x.modKernel g.kimg (fun k =>
    if fails then { k with st := .failed, fails := if k.fails < 65535 then k.fails + 1 else k.fails }
    else { k with st := if k.st = .failed then .failed else .retrying }))
  let s := if abortFails s g then s.report (.kernelFailed g.ctx g.kimg g.who g.ss g.cause) else s
  let s := s.modCtx g.ctx (fun x => modObj (takeSegs x g) g.node (fun o => { o with ss := g.ss }))
  let s := s.modGroup g.id (fun g =>
    { g.opened g.ss (g.att + 1) with
      todo := g.sends r, replaying := !fails, dmrBad := g.dmrNow, dmrNow := [], give := if ends then 0 else g.give
      plan := { g.plan with ends := ends, fails := fails } })
  sendRelease s g (fun t => .releaseAbortAtTile g.id t r)

/-- DECISION_RELEASE (R273, R279): a commit release waits while a die is overdrawn; an abort release never does. -/
def execDecisionRelease (s : State) : Host.Outcome State Fault Refusal :=
  match s.ev with
  | some (.decisionRelease gid) =>
    match s.group gid with
    | none => .next s
    | some g =>
      if g.st ≠ .running ∨ s.cycle < g.decideAt then .next s
      else if g.dp = .commit then
        .next (if commitHeld s g then s.post 1 (.decisionRelease gid) else releaseCommit (flushGroup s gid) g)
      else if g.dp = .abort then .next (releaseAbort (flushGroup s gid) g)
      else .next s
  | _ => .next s

end Sys2Proof.Machine
end

