-- ==== Sys2Proof/Machine/Group.lean ====
section
/-! DEFINITION. The group (14_group): images of virtual tiles and their placing, the release at a tile and what the group
does when its last tile has run it (R205, R206, R252, R278, Table 14.1), the launch (R247, R255), the start gate (R256),
turns under folding (R258), reshapes and saves (R260, R261), and the forms `vtid` and `offer` (R262 to R264). -/

namespace Sys2Proof.Machine

open Sys2Proof

/-! ### Images of virtual tiles -/

/-- A virtual tile's image: the partitions from code to accumulator, and its foreshore counted from its base. -/
structure VImg where
  ord : Nat
  regs : VRegs
  pool : Mem
  fore : Mem
  deriving DecidableEq, Repr

/-- The `n` bytes of a memory from an address on, as they lie from another. -/
def Mem.window (m : Mem) (a n to_ : Nat) : Mem :=
  m.filterMap (fun c => if a ≤ c.1 ∧ c.1 < a + n then some (c.1 - a + to_, c.2) else none)

/-- Bytes of the foreshore partition. -/
def foreLen (w : Word) : Nat := granOf w 5 * 16384

/-- The image of a virtual tile as it stands at a barrier (R257, R259): its host's store, or its standing buffer. -/
def imgOf (s : State) (g : Group) (ord : Nat) : VImg :=
  let p := g.hosts.length
  let T := s.tile ((g.hosts[ord % p]?).getD 0)
  let k := ord / p
  let v := slotRegs T k
  let w := v.partw
  let b := partBase w 1
  let code := T.mem.window 0 b 0
  let va := imageVa (s.ctx g.ctx) v.idx (standingBuf g ord) + BitVec.ofNat 64 (4096 + b)
  { ord := ord, regs := v, fore := T.mem.window (partBase w 5 + k * foreLen w) (foreLen w) 0
    pool :=
      if T.slot = k then T.mem.window 0 (imgPool w) 0 else code.store b (readHbm s g.ctx va (imgPool w - b)) }

/-- The host of an ordinal. -/
def Group.hostOf (g : Group) (ord : Nat) : TileId := (g.hosts[ord % g.hosts.length]?).getD 0

/-- The registers of a virtual tile as its group's superstep opens. -/
def VRegs.opens (v : VRegs) (g : Group) : VRegs := { v with ss := g.ss, att := BitVec.ofNat 4 g.att }

/-- A tile that hosts the images of its ordinals (R254, R259): the first resident, engines empty. The superstep of the group
opens. -/
def hostTile (s : State) (g : Group) (imgs : List VImg) (t : TileId) (twin : Option TileId) (shadow : Bool) : Tile :=
  let p := g.hosts.length
  let mine := imgs.filter (fun i => i.ord % p == physOrd g t)
  let T := freedTile (s.tile t)
  match mine with
  | [] => T
  | first :: _ =>
    let w := first.regs.partw
    let fores := mine.flatMap (fun i => i.fore.window 0 (foreLen w) (partBase w 5 + i.ord / p * foreLen w))
    { T with
      running := true, group := g.id, ctx := g.ctx, twin := twin, shadow := shadow, turning := true
      mem := fores.foldl (fun m c => m.write c.1 c.2) first.pool, errs := T.errs.filter (fun e => !errIn 0 (storeNeed w g.v p) e)
      v := first.regs.opens g, slots := if g.folded then mine.map (fun i => { regs := i.regs.opens g }) else [], ecnt0 := T.ecnt }

/-- Place the images of all of a group's virtual tiles on its hosts, and on the shadows of DMR; a folded group's images are
in their buffers too. The strands go on at cycle `nb`. -/
def placeHosts (s : State) (g : Group) (imgs : List VImg) (nb : Nat) : State :=
  let put (s : State) (t : TileId) (twin : Option TileId) (shadow : Bool) : State :=
    (loadImages (s.setTile t (hostTile s g imgs t twin shadow)) t nb).modTile t (fun T => { T with turning := false })
  let s := (List.range g.hosts.length).foldl (fun s j =>
    match g.hosts[j]?, g.shadows[j]? with
    | some t, some u => put (put s t (some u) false) u (some t) true
    | some t, none => put s t none false
    | none, _ => s) s
  let s :=
    if g.folded then
      imgs.foldl (fun s i => putImage s g.ctx (imageVa (s.ctx g.ctx) i.regs.idx 0) i.regs i.pool 0) s
    else s
  let s := s.modGroup g.id (fun g => { g with standing := [] })
  if g.folded then g.tiles.foldl (fun s t => stageNext s t { g with standing := [] }) s else s

/-- The runtime is told of a place in the save area that is not there (R221); the step is tried again. -/
def waitMapped (s : State) (g : Group) (b : Word × Option Nat) (e : Ev) : State :=
  (imageFault s g.ctx ((g.hosts[0]?).getD 0) b).post 64 e

/-! ### Segment entries (Table 4.3, R220, R254) -/

/-- A segment entry that names a host (Table 4.3); its permissions and its limit are as the monitor wrote them, the limit at
most CAP. -/
def segFor (s : State) (old : Word) (t : TileId) : Word :=
  let lim := old.toNat % 2 ^ 22
  BitVec.ofNat 64 (2 ^ 63 + old.toNat / 2 ^ 60 % 8 * 2 ^ 60 + (physOf s t).toNat * 2 ^ 24 +
    (if lim < capOf t then lim else capOf t))

/-- The entries of all virtual tiles of a group name their hosts. -/
def writeSegs (s : State) (g : Group) : State :=
  s.modCtx g.ctx (fun x =>
    { x with seg := (List.range g.v).foldl (fun l k =>
        let i := g.base * 1024 + k
        assocSet i (segFor s (assocGet 0 i l) (g.hostOf k)) l) x.seg })

/-! ### A commit release at a tile (R205, R278) -/

/-- The energy of a release has been taken up (R360). -/
def dropEnergy (s : State) (g : Group) (r : Release) : State :=
  s.modGroup g.id (fun g => { g with energy := g.energy.filter (fun e => e.1 != r) })

/-- What the group does once its last tile has run a commit release (R252, R255): the kernel's record, then the end, the save
or the reshape that the decision took up. -/
def finishCommit (s : State) (g : Group) (r : Release) : State :=
  let s := s.modCtx g.ctx (fun x => x.modKernel g.kimg (fun k => k.learns g.id r.ss (energyOf g r / 1000)))
  let s := dropEnergy s g r
  if !r.ends ∧ !r.reshapes then s
  else if g.plan.ends then endGroup s g (if g.plan.halted ∧ !g.plan.cancel then .done else .cancelled)
  else if g.plan.saving ∨ !g.newHosts.isEmpty then
    let bytes := g.v * imgLen (s.tile ((g.hosts[0]?).getD 0)).v.partw
    (s.modGroup g.id (fun g => { g with st := .reshaping })).post (bytes / 128 + 64) (.reshapeDone g.id)
  else s

/-- A tile has run a release. -/
def ranRelease (s : State) (gid : Nat) (t : TileId) (r : Release) : State :=
  s.modGroup gid (fun g => { g with todo := g.todo.erase (t, r) })

/-- Has a tile of the group yet to run the release? -/
def Group.runs (g : Group) (r : Release) : Bool := g.todo.any (fun x => x.2 == r)

/-- The release that a tile runs next: it runs them in the order in which they left the decision point. -/
def Group.nextRelease (g : Group) (t : TileId) : Option Release := (g.todo.find? (fun x => x.1 == t)).map (fun x => x.2)

/-- RELEASE_COMMIT_AT_TILE (R205, R278): a folded host waits for buffers that are not there (R221). -/
def execReleaseCommitAtTile (s : State) : Host.Outcome State Fault Refusal :=
  match s.ev with
  | some (.releaseCommitAtTile gid t r) =>
    match s.group gid with
    | none => .next s
    | some g =>
      if g.st ≠ .running ∨ !g.todo.contains (t, r) then .next s
      else if g.nextRelease t ≠ some r then .next (s.post 1 (.releaseCommitAtTile gid t r))
      else
        match (if g.folded then buffersWait s g t else none) with
        | some s => .next (s.post 64 (.releaseCommitAtTile gid t r))
        | none =>
          let s := ranRelease (commitTile s t g r) gid t r
          match s.group gid with
          | some g => .next (if g.runs r then s else finishCommit s g r)
          | none => .next s
  | _ => .next s

/-- What the group does once its last tile has run an abort release (R248, R252): the energy is lost; a spent budget or a
pending cancel ends the group. -/
def finishAbort (s : State) (g : Group) (r : Release) : State :=
  let s := s.modCtx g.ctx (fun x => x.modKernel g.kimg (fun k =>
    { k with elost := k.elost + BitVec.ofNat 64 (energyOf g r / 1000) }))
  let s := dropEnergy s g r
  if r.ends then endGroup s g (if g.plan.fails then .failed else .cancelled) else s

/-- RELEASE_ABORT_AT_TILE (R206, R278). -/
def execReleaseAbortAtTile (s : State) : Host.Outcome State Fault Refusal :=
  match s.ev with
  | some (.releaseAbortAtTile gid t r) =>
    match s.group gid with
    | none => .next s
    | some g =>
      if g.st ≠ .running ∨ !g.todo.contains (t, r) then .next s
      else if g.nextRelease t ≠ some r then .next (s.post 1 (.releaseAbortAtTile gid t r))
      else
        match (if g.folded then buffersWait s g t else none) with
        | some s => .next (s.post 64 (.releaseAbortAtTile gid t r))
        | none =>
          let s := ranRelease (abortTile s t g r) gid t r
          match s.group gid with
          | some g => .next (if g.runs r then s else finishAbort s g r)
          | none => .next s
  | _ => .next s

/-! ### The launch (R80, R82, R247, R255) -/

/-- Does the launch fail R80 or R82 at a host? -/
def badPart (k : Kernel) (t : TileId) : Bool :=
  let w := k.partw
  (List.range 6).any (fun i => decide (6 ≤ spanOf w i)) || granOf w 0 == 0 || granOf w 1 == 0 ||
  decide (capOf t < partLimit w 5) ||
  (List.range 11).any (fun n => (k.entries.getD n 0).getLsbD 31 && decide (granOf w 1 * 16384 < 4096 * (n + 1)))

/-- Strand 0 of a virtual tile at the launch. -/
def launchStrand (g : Group) (k : Kernel) : Strand :=
  { st := .started, pc := (k.entries.getD 0 0).extractLsb' 0 21
    g := ((Vector.replicate 32 (0 : Word)).set 1 g.arg).set 2 g.kimg }

/-- The image of a virtual tile at the launch (R247): the sections from HBM, all else zero, strand 0 at entry 0. -/
def launchImg (s : State) (g : Group) (k : Kernel) (ord : Nat) : VImg :=
  let w := k.partw
  let load (fore : Bool) : Mem :=
    k.secs.foldl (fun m c =>
      if c.kind = 5 ∨ (c.kind = 4) ≠ (fore = true) then m
      else m.store (if fore then c.pofs - partBase w 5 else c.pofs) (readHbm s g.ctx (g.kimg + BitVec.ofNat 64 c.fofs) c.slen)) []
  let strands := (List.finRange 11).foldl (fun (m : Mem) n =>
    if 4096 * (n.val + 1) ≤ granOf w 1 * 16384 then
      m.store (imageOfs w n) (strandImage (if n.val = 0 then launchStrand g k else {}))
    else m) (load false)
  { ord := ord, pool := strands, fore := load true
    regs := { v := BitVec.ofNat 20 g.v, idx := idxOf g ord, ord := ord, partw := maskPartw w, ovb := maskOvb k.ovb,
              tvec := maskTvec k.tvec, idlw := maskIdlw k.idlw } }

/-- The record of a launch that is refused (R345, R351), of the group's first virtual tile and its host. -/
def badpartRecord (s : State) (g : Group) : TrapRec :=
  { code := Cause.code .badpart, cls := 4, defer := false, ctx := BitVec.ofNat 5 g.ctx, att := BitVec.ofNat 4 g.att, ss := g.ss
    strand := 0, vidx := BitVec.ofNat 20 (g.base * 1024), phys := physOf s (g.hosts.headD 0), pc := 0, info := 0, colmap := 0 }

/-- A launch that is refused (R247): BADPART, with its record (R345). -/
def refuseLaunch (s : State) (g : Group) : State :=
  let s := sendRecord s (badpartRecord s g)
  let s := s.modCtx g.ctx (fun x => x.modKernel g.kimg (fun k =>
    { k with fails := if k.fails < 65535 then k.fails + 1 else k.fails }))
  endGroup (s.report (.badpart g.ctx g.kimg)) g .failed

/-- Superstep 0 opens (R255). -/
def launch (s : State) (g : Group) (k : Kernel) : State :=
  let s := placeHosts s g ((List.range g.v).map (launchImg s g k)) (s.cycle + 1)
  (writeSegs s g).modGroup g.id (fun g => { g with st := .running })

/-- BST of a virtual tile that has moved to another host reads zero (R281). -/
def VRegs.moved (v : VRegs) : VRegs :=
  { v with bstate := 0, bbid := 0, park := false, voted := false, ownc := 0, lcause := 0, latt := 0 }

/-- The image of a saved virtual tile, from its slot and the monitor's map (R221, Table 11.4). -/
def savedImg (s : State) (g : Group) (ord : Nat) : VImg :=
  let v := ((g.kept.find? (fun e => e.1 == ord)).map (fun e => e.2)).getD {}
  let va := imageVa (s.ctx g.ctx) (idxOf g ord) 0
  { ord := ord, fore := [], regs := { (descLoad (readHbm s g.ctx va 4096) v).moved with ss := g.ss, att := 0 }
    pool := Mem.store [] 0 (readHbm s g.ctx (va + 4096) (imgPool v.partw)) }

/-- A saved group resumes at OPEN of its superstep, attempt 0 (Table 11.4); its foreshores are zero (R221). -/
def restoreGroup (s : State) (g : Group) : State :=
  let s := placeHosts s g ((List.range g.v).map (savedImg s g)) (s.cycle + 1)
  let s := (writeSegs s g).modGroup g.id (fun g => { g with st := .running, kept := [] })
  let s := (groupClusters g).foldl (fun s c => s.post 1 (.clusterStartGateOpen g.id c)) s
  (List.range g.v).foldl (fun s o => unparkColls s g.ctx (idxOf g o)) s

/-- Places in the save area that a restore reads. -/
def savedPlaces (s : State) (g : Group) : List (Word × Nat) :=
  g.kept.flatMap (fun e =>
    let x := s.ctx g.ctx
    (imageVa x (idxOf g e.1) 0, imgLen e.2.partw) ::
      ((List.range 8).filter (fun k => (e.2.slotOf (BitVec.ofNat 3 k)).st == 3)).map (fun k => (parkedVa x (idxOf g e.1) k, 4096)))

/-- GROUP_START (R247, R255): the last cluster of a placed group is usable. -/
def execGroupStart (s : State) : Host.Outcome State Fault Refusal :=
  match s.ev with
  | some (.groupStart gid) =>
    match s.group gid with
    | none => .next s
    | some g =>
      if g.st ≠ .placed ∨ !allUsable s g then .next s
      else if !g.kept.isEmpty then
        match imageBlocked s g.ctx (savedPlaces s g) with
        | some b => .next (waitMapped s g b (.groupStart gid))
        | none => .next (restoreGroup s g)
      else
        match (s.ctx g.ctx).kernel g.kimg with
        | none => .next (endGroup s g .failed)
        | some k =>
          if g.tiles.any (badPart k) then .next (refuseLaunch s g)
          else
            let places := (List.range g.v).map (fun i => (imageVa (s.ctx g.ctx) (idxOf g i) 0, imgLen k.partw))
            match (if g.folded then imageBlocked s g.ctx places else none) with
            | some b => .next (waitMapped s g b (.groupStart gid))
            | none => .next (launch s g k)
  | _ => .next s

/-! ### The start gate (R256) -/

/-- Has strand 0 of every tile of the group in a cluster left STARTED? -/
def gateReady (s : State) (g : Group) (c : ClusterId) : Bool :=
  g.st == .running && !g.folded &&
    (g.tiles.filter (fun t => clusterOf t == c)).all (fun t => (s.strand t 0).st != .started)

/-- Strands of a cluster that wait at the gate go on. -/
def wakeGate (s : State) (c : ClusterId) : State :=
  (List.range 8).foldl (fun s p =>
    (List.finRange 11).foldl (fun s n =>
      if (s.strand (tileAt c p) n).st = .waiting ∧ (s.strand (tileAt c p) n).wait = .gate c then wake s (tileAt c p) n else s) s) s

/-- CLUSTER_START_GATE_OPEN (R97, R256). -/
def execClusterStartGateOpen (s : State) : Host.Outcome State Fault Refusal :=
  match s.ev with
  | some (.clusterStartGateOpen gid c) =>
    match s.group gid with
    | none => .next s
    | some g =>
      .next (if gateReady s g c ∧ !(s.cluster c).gate then wakeGate (s.modCluster c (fun k => { k with gate := true })) c else s)
  | _ => .next s

/-! ### Turns under folding (R258) -/

/-- The strands that the release will complete, with the length of their instruction (R258, R278). -/
def barWaits (T : Tile) : List (StrandNo × Wait × Nat) :=
  (List.finRange 11).filterMap (fun n =>
    let S := T.strands[n.val]
    match S.wait with
    | .bar _ _ => if S.st = .waiting then some (n, S.wait, S.wlen) else none
    | .waitb _ _ => if S.st = .waiting then some (n, S.wait, S.wlen) else none
    | _ => none)

/-- The outgoing slot is saved in its working buffer and the next comes in. -/
def turnChange (s : State) (t : TileId) (g : Group) : State :=
  let s := writeImages s t
  let T := s.tile t
  let k := T.slot
  let w := T.v.partw
  let s := putImage s g.ctx (slotVa s g t k true) T.v T.mem (partBase w 1)
  let waits := barWaits T
  let owed := owedNow s t
  let prof := (T.galley.filter (fun x => x.kind == .undo)).map (fun x => (x.ofs / 64, x.profile))
  let s := s.modTile t (fun T =>
    clearEngines { keepSlot T (fun x =>
        { x with wrote := true, halted := controlHalted T, waits := waits, asked := owed, prof := prof }) with
      sig := if T.twin.isSome then turnSignature T else 0, galley := T.galley.filter (fun x => x.kind != .undo) })
  let cost := (2 * swapBytes w + 255) / 256 + 64
  let s := (loadSlot (dropFetches s t g.ctx) t g (k + 1) (s.cycle + cost)).modTile t (fun T => { T with busyUntil := s.cycle + cost })
  stageNext (kickColls s g.ctx (s.tile t).v.idx) t g

/-- FOLD_TURN_CHANGE (R258). -/
def execFoldTurnChange (s : State) : Host.Outcome State Fault Refusal :=
  match s.ev with
  | some (.foldTurnChange t) =>
    match s.groupOf t with
    | none => .next s
    | some g =>
      if !arrivalReady s t || !moreTurns s t || !(s.tile t).v.votes.isEmpty then .next s
      else
        match buffersWait s g t with
        | some s => .next s
        | none =>
          -- what the outgoing image takes is read (R354)
          let w := (s.tile t).v.partw
          let r := eccRead s t false (partBase w 2) (partLimit w 3 - partBase w 2)
          .next (if r.2 then turnChange r.1 t g else r.1)
  | _ => .next s

/-! ### Requests for a reshape (R255, R260) -/

/-- GIVE_UP_REQUEST (Table 14.1): a later request replaces an earlier one, and one that comes at or after a decision what that
decision leaves unmet. -/
def execGiveUpRequest (s : State) : Host.Outcome State Fault Refusal :=
  match s.ev with
  | some (.giveUpRequest gid n) =>
    .next (s.modGroup gid (fun g =>
      if g.st = .running ∨ g.st = .reshaping then
        { g with give := n, plan := { g.plan with asked := g.dp == .commit && decide (g.decideAt ≤ s.cycle) } }
      else g))
  | _ => .next s

/-- May a tile become the host of physical ordinal j (R16, R246, R250, R260)? -/
def moveOk (s : State) (g : Group) (j : Nat) (t : TileId) : Bool :=
  let k := s.cluster (clusterOf t)
  let need := storeNeed (s.tile ((g.hosts[0]?).getD 0)).v.partw g.v g.hosts.length
  (((s.ctx g.ctx).enbl[dieOf t]?).getD 0).getLsbD (t % 1024) && tileGiven (s.ctx g.ctx) t && decide (t < 4096 ∧ need ≤ capOf t) &&
  (k.placed.isNone || k.placed == some g.id) && k.power != .test && !k.tfail && !g.tiles.contains t &&
  !g.moves.any (fun m => m.2 == t) &&
  (match g.shadows[j]? with | some u => clusterOf u != clusterOf t | none => true)

/-- A cluster is reserved for a group and woken. -/
def reserveCluster (s : State) (g : Group) (c : ClusterId) : State :=
  if (s.cluster c).placed.isSome then s
  else
    let s := s.modCluster c (fun k => { k with placed := some g.id, gate := false })
    if (s.cluster c).power = .awake then s else s.post 0 (.clusterWake c)

/-- MOVE_REQUEST (R260): the physical tiles that the virtual ordinals name are replaced one for one in ordinal order, at the
commit that takes the request up. -/
def execMoveRequest (s : State) : Host.Outcome State Fault Refusal :=
  match s.ev with
  | some (.moveRequest gid ords tiles) =>
    match s.group gid with
    | none => .next s
    | some g =>
      let p := g.hosts.length
      let os := sortBy (fun (a b : Nat) => decide (a < b)) ords
      let js := os.map (fun o => o % p)
      let ms := os.zip tiles
      if (g.st ≠ .running ∧ g.st ≠ .reshaping) ∨ js.length ≠ tiles.length ∨ !js.Nodup ∨ !tiles.Nodup ∨
          ords.any (fun o => decide (g.v ≤ o)) ∨ !ms.all (fun m => moveOk s g (m.1 % p) m.2) then
        .next (s.report (.refusedRequest g.ctx))
      else
        let s := s.modGroup gid (fun g => { g with moves := g.moves.filter (fun m => !js.contains (m.1 % p)) ++ ms })
        .next (tiles.foldl (fun s t => reserveCluster s g (clusterOf t)) s)
  | _ => .next s

/-! ### The reshape and the save (R221, R261) -/

/-- A group's images are saved; its tiles are released and its map is kept for `ctxs.rest` (R221). -/
def saveGroup (s : State) (g : Group) : State :=
  let imgs := (List.range g.v).map (imgOf s g)
  let s := imgs.foldl (fun s i => parkColls s g.ctx i.regs.idx true) s
  let kept := (List.range g.v).map (fun o => (o, (imgOf s g o).regs))
  let s := imgs.foldl (fun s i => putImage s g.ctx (imageVa (s.ctx g.ctx) i.regs.idx 0) i.regs i.pool 0) s
  let s := s.modCtx g.ctx (fun x => { x with savedGroups := x.savedGroups ++ [{ g with kept := kept, standing := [], give := 0 }] })
  let s := leaveTiles s g
  if savesDone s g.ctx then s.post 0 (.saveComplete g.ctx) else s

/-- Places in the save area that a save or a reshape reads or writes for some ordinals. -/
def imagePlaces (s : State) (g : Group) (ords : List Nat) : List (Word × Nat) :=
  ords.flatMap (fun o =>
    let i := imgOf s g o
    let x := s.ctx g.ctx
    (imageVa x i.regs.idx 0, imgLen i.regs.partw) ::
      ((List.range 8).filter (fun k => (i.regs.slotOf (BitVec.ofNat 3 k)).st == 2)).map (fun k => (parkedVa x i.regs.idx k, 4096)))

/-- The group after a reshape. -/
def Group.reshaped (g : Group) : Group :=
  { g with hosts := g.newHosts, shadows := g.shadows.take g.newHosts.length, st := .running, newHosts := [] }

/-- The images move, the entries are rewritten, tiles that host nothing are released (R261). -/
def reshape (s : State) (g n : Group) (moved : List Nat) : State :=
  let s := moved.foldl (fun s o => parkColls s g.ctx (idxOf g o) false) s
  let imgs := (List.range g.v).map (fun o =>
    let i := imgOf s g o
    if moved.contains o then { i with fore := [], regs := i.regs.moved } else i)
  let s := imgs.foldl (fun s i =>
    if moved.contains i.ord ∧ !n.folded then putImage s g.ctx (imageVa (s.ctx g.ctx) i.regs.idx 0) i.regs i.pool 0 else s) s
  let s := (g.tiles.filter (fun t => !n.tiles.contains t)).foldl (fun s t => (dropParked s t g.ctx true).modTile t freedTile) s
  let s := s.modGroup g.id (fun _ => n)
  let s := writeSegs (placeHosts s n imgs (s.cycle + 1)) n
  let gained := (groupClusters n).filter (fun c => n.tiles.any (fun t => clusterOf t == c && !g.tiles.contains t))
  let s := gained.foldl (fun s c =>
    (s.modCluster c (fun k => { k with gate := false, placed := some g.id })).post 1 (.clusterStartGateOpen g.id c)) s
  let s := releaseClusters s n (n.tiles ++ n.moves.map (fun m => m.2))
  (List.range n.v).foldl (fun s o =>
    if moved.contains o then unparkColls s n.ctx (idxOf n o) else kickColls s n.ctx (idxOf n o)) s

/-- RESHAPE_DONE (R221, R261): the step waits for places that are not mapped and for clusters that are not usable. -/
def execReshapeDone (s : State) : Host.Outcome State Fault Refusal :=
  match s.ev with
  | some (.reshapeDone gid) =>
    match s.group gid with
    | none => .next s
    | some g =>
      if g.st ≠ .reshaping then .next s
      else if g.plan.saving then
        match imageBlocked s g.ctx (imagePlaces s g (List.range g.v)) with
        | some b => .next (waitMapped s g b (.reshapeDone gid))
        | none => .next (saveGroup (g.tiles.foldl takeImages s) g)
      else
        let n := g.reshaped
        let moved := (List.range g.v).filter (fun o => g.hostOf o != n.hostOf o)
        match imageBlocked s g.ctx (imagePlaces s g (if n.folded then List.range g.v else moved)) with
        | some b => .next (waitMapped s g b (.reshapeDone gid))
        | none =>
          .next (if allUsable s n then reshape (g.tiles.foldl takeImages s) g n moved else s.post 64 (.reshapeDone gid))
  | _ => .next s

/-! ### The forms (R262 to R264) -/

/-- GSHAPE (Table 14.2). -/
def gshapeOf (g : Group) (T : Tile) : Word :=
  let p := g.hosts.length
  BitVec.ofNat 64 (p * 2 ^ 44 + (g.v + p - 1) / p * 2 ^ 40 + T.slot * 2 ^ 36 + g.base * 2 ^ 20 + T.v.ord)

/-- A form that reads the group map. -/
def mapForm (s : State) (t : TileId) (n : StrandNo) (d : BitVec 5) (f : Group → Word) : Act :=
  match s.groupOf t with
  | some g => .done (setG s t n d (f g))
  | none => .done s

/-- VTID_SHAPE (R262). -/
def execVtidShape (p : Pred) (d : BitVec 5) (s : State) : Host.Outcome State Fault Refusal :=
  issue p 8 .tile [] [.g d] (fun s t n => mapForm s t n d (fun g => gshapeOf g (s.tile t))) s

/-- VTID_ORD (R262). -/
def execVtidOrd (p : Pred) (d : BitVec 5) (a : GSrc) (s : State) : Host.Outcome State Fault Refusal :=
  issue p 8 .tile [.g a] [.g d]
    (fun s t n => mapForm s t n d (fun g =>
      let x := (gv s t n a).toNat
      if g.base * 1024 ≤ x ∧ x < g.base * 1024 + g.v ∧ x < 2 ^ 20 then BitVec.ofNat 64 (x - g.base * 1024)
      else BitVec.allOnes 64)) s

/-- VTID_IDX (R262). -/
def execVtidIdx (p : Pred) (d : BitVec 5) (a : GSrc) (s : State) : Host.Outcome State Fault Refusal :=
  issue p 8 .tile [.g a] [.g d]
    (fun s t n => mapForm s t n d (fun g =>
      let x := (gv s t n a).toNat
      if x < g.v then BitVec.ofNat 64 (g.base * 1024 + x) else BitVec.allOnes 64)) s

/-- VTID_HOST (R262). -/
def execVtidHost (p : Pred) (d : BitVec 5) (a : GSrc) (s : State) : Host.Outcome State Fault Refusal :=
  issue p 8 .tile [.g a] [.g d]
    (fun s t n => mapForm s t n d (fun g =>
      let x := (gv s t n a).toNat
      if x < g.v then
        BitVec.ofNat 64 ((physOf s (g.hostOf x)).toNat * 2 ^ 44 + x / g.hosts.length * 2 ^ 4)
      else BitVec.allOnes 64)) s

/-- OFFER (R263, R264): the largest of the superstep counts. -/
def execOffer (p : Pred) (a : GSrc) (s : State) : Host.Outcome State Fault Refusal :=
  issue p 8 .control [.g a] []
    (fun s t n =>
      let x := gv s t n a
      if 2 ^ 20 ≤ x.toNat then .trap .illegal 0
      else .done (s.modV t (fun v => { v with offer := if v.offer.toNat < x.toNat then x.extractLsb' 0 20 else v.offer }))) s

/-- OFFER_RD (Table 14.3). -/
def execOfferRd (p : Pred) (d : BitVec 5) (s : State) : Host.Outcome State Fault Refusal :=
  issue p 8 .tile [] [.g d]
    (fun s t n => mapForm s t n d (fun g =>
      BitVec.ofNat 64 (g.hosts.length * 2 ^ 44 + g.give % 2 ^ 20 * 2 ^ 24 + offerOf s g * 2 ^ 4))) s

end Sys2Proof.Machine
end

