-- ==== Sys2Proof/Machine/Context.lean ====
section
/-! DEFINITION. Contexts and the root monitor (11_context): boot and attestation (R216, R217), the states of a context
(R218 to R221, R224), the inundation sweep (R222, R223), loading, resetting and retiring kernels (R246, R248). -/

namespace Sys2Proof.Machine

open Sys2Proof

/-! ### Boot and trust (R216, R217) -/

/-- The bytes of a digest or a field element. -/
def wide (x : BitVec 384) : List Byte := beBytes 48 x.toNat

/-- COLD_RESET (R216): the boot ROM waits for an image. Free values and what was told stay those of the model. -/
def execColdReset (s : State) : Host.Outcome State Fault Refusal :=
  match s.ev with
  | some .coldReset => .next { State.reset with free := s.free, reports := s.reports }
  | _ => .next s

/-- The monitor's image starts: its own memory holds it, strand 0 begins at address 0 (log entry 15). -/
def startMonitor (s : State) (img : List Byte) : State :=
  (s.modTile monitorTile (fun T => { T with mem := Mem.store [] 0 img })).modStrand monitorTile 0 (fun _ =>
    { st := .ready, notBefore := s.cycle + 1 })

/-- MONITOR_IMAGE_RECEIVE (R216): an image that does not verify is reported and discarded. -/
def execMonitorImageReceive (s : State) : Host.Outcome State Fault Refusal :=
  match s.ev with
  | some (.monitorImageReceive img x y r q) =>
    if s.mon.boot ≠ .waiting then .next s
    else
      let d := sha384 img
      if img.length ≤ 262144 ∧ sha384 (wide x ++ wide y) = Config.fusedKeyHash ∧ ecdsaVerify d x y r q then
        .next (startMonitor { s with mon := { s.mon with boot := .monitor, m1 := d } } img)
      else .next (s.report .imageRefused)
  | _ => .next s

/-- CHIP_NUMBER_ASSIGN (R20, R216): the monitor takes the number from the control node. -/
def execChipNumberAssign (s : State) : Host.Outcome State Fault Refusal :=
  match s.ev with
  | some (.chipNumberAssign c) => .next (if s.mon.boot = .monitor then { s with chip := c } else s)
  | _ => .next s

/-- RUNTIME_IMAGE_LOAD (R216): measured, not signed. -/
def execRuntimeImageLoad (s : State) : Host.Outcome State Fault Refusal :=
  match s.ev with
  | some (.runtimeImageLoad img) =>
    .next (if s.mon.boot = .monitor then { s with mon := { s.mon with boot := .runtime, m2 := sha384 img } } else s)
  | _ => .next s

/-- An attestation report (Table 11.3). -/
def attestation (s : State) (ctx : Nat) (nonce : List Byte) : List Byte :=
  let x := s.ctx ctx
  let body := nonce ++ [s.chip, BitVec.ofNat 8 ctx, if ctx = 0 then 0 else x.mode.setWidth 8] ++ List.replicate 5 (0 : Byte) ++
    wide s.mon.m1 ++ wide s.mon.m2 ++ wide (if ctx = 0 then 0 else x.meas) ++ List.replicate 184 (0 : Byte)
  let d := sha384 body
  let sg := ecdsaSign d Config.identityKey (Config.signNonce d)
  body ++ wide sg.1 ++ wide sg.2 ++ List.replicate 32 (0 : Byte)

/-- ATTESTATION_REQUEST (R217): from the control node. -/
def execAttestationRequest (s : State) : Host.Outcome State Fault Refusal :=
  match s.ev with
  | some (.attestationRequest ctx nonce) =>
    .next (if s.mon.boot = .waiting then s else s.report (.attestation ctx (attestation s ctx (wide nonce))))
  | _ => .next s

/-! ### Creation, segments, start (Table 11.4, R219, R220) -/

/-- Tiles whose unit has failed a test: that of a position, or all eight of a cluster for its copy engine (R16, R362). One that
a later test passes leaves the bitmaps too: R16 makes no exception for it. -/
def failedTiles (s : State) : List TileId :=
  s.clusters.flatMap (fun e =>
    let bad (u : Nat) : Bool := ((e.2.records[u]?).getD 0).extractLsb' 36 12 != 0
    ((List.range 8).filter (fun u => bad u || bad 8)).map (tileAt e.1))

/-- The package bitmap of a die without some tiles. -/
def dropTiles (d : Nat) (b : BitVec 1024) (ts : List TileId) : BitVec 1024 :=
  ts.foldl (fun b t => if dieOf t = d then b &&& ~~~((1 : BitVec 1024) <<< (t % 1024)) else b) b

/-- `ctxs.new` (Table 11.4, R16): the lowest free number (log entry 29), or none. Which gather patterns the monitor
gives the context (R189) is a free value among the ranges of the 16 entries (log entry 2). A save area at or above 2^51 is
refused, though the guard names its alignment only (DESIGN CHOICE, log entry 90). -/
def ctxNew (s : State) (a b : Word) : State × Word :=
  let z := (a.extractLsb' 12 16).toNat
  let num := (List.range 32).find? (fun c => c != 0 && (s.ctx c).st == .free)
  match num with
  | none => (s, BitVec.allOnes 64)
  | some c =>
    if s.mon.dead ∨ 3 ≤ a.toNat % 4 ∨ (a &&& 0xFFFFFFFFF0000FF0) ≠ 0 ∨ z < 9 ∨ 0x201 < z ∨ b.toNat % 2 ^ 27 ≠ 0 ∨
        2 ^ 51 ≤ b.toNat then (s, BitVec.allOnes 64)
    else
      let ts := failedTiles s
      let dies := s.dies.mapFinIdx (fun d D _ => { D with enabled := dropTiles d D.enabled ts })
      let s := { s with dies := dies }
      let lo := s.freshNat
      let k := lo.2.freshNat
      let s := k.2
      let x : Ctx :=
        { st := .building, mode := a.extractLsb' 0 2, debug := a.getLsbD 2, trace := a.getLsbD 3, sab := b, z := z
          sgtLo := lo.1 % 16, sgtN := k.1 % (17 - lo.1 % 16)
          enbl := Vector.ofFn (fun d : Fin 4 => (s.die d.val).enabled) }
      (s.modCtx c (fun _ => x), BitVec.ofNat 64 c)

/-- `ctxs.seg` (R220): while a group that uses the entry runs, it waits for the group's next release. -/
def ctxSeg (s : State) (a b : Word) : State :=
  let c := (a.extractLsb' 20 5).toNat
  let i := (a.extractLsb' 0 20).toNat
  let e := b &&& 0xF0000FFFFF3FFFFF
  if (s.ctx c).st ≠ .building ∧ (s.ctx c).st ≠ .live then s
  else
    match s.groups.find? (fun g =>
        g.ctx == c && (g.st == .running || g.st == .reshaping) && decide (g.base * 1024 ≤ i ∧ i < g.base * 1024 + g.v)) with
    | some g => s.modCtx c (fun x => { x with segPend := x.segPend ++ [(i, e, g.id)] })
    | none => s.modCtx c (fun x => { x with seg := assocSet i e x.seg })

/-- Open or close the queues of a context (R214, R218). -/
def setQueues (x : Ctx) (on : Bool) : Ctx :=
  { x with queues := x.queues.mapFinIdx (fun q k _ => { k with open_ := on && decide (q < 4 * devicesOf x.mode) }) }

/-- `ctxs.go` (Table 11.4). -/
def ctxGo (s : State) (c : Nat) : State × Word :=
  if (s.ctx c).st = .building then (s.modCtx c (fun x => setQueues { x with st := .live } true), 0)
  else (s, BitVec.allOnes 64)

/-- `ctxs.save` (Table 11.4): every group gives up all its tiles at its next barrier (R260). -/
def ctxSave (s : State) (c : Nat) : State × Word :=
  if (s.ctx c).st ≠ .live then (s, BitVec.allOnes 64)
  else
    let s := s.modCtx c (fun x => setQueues { x with st := .saving } false)
    let s := { s with groups := s.groups.map (fun g => if g.ctx = c ∧ g.st ≠ .ended then { g with saving := true, give := g.hosts.length } else g) }
    (if savesDone s c then s.post 0 (.saveComplete c) else s, 0)

/-! ### Save and restore (R218, R221) -/

/-- CTXST (Table 11.5), as a tile of a logical device reads it; a FREE context's holds no number. Where no tile of the context
reads it (the root monitor, the header of the save area) LDEV is 0 (DESIGN CHOICE, log entry 90). -/
def ctxstOf (s : State) (c dev : Nat) : Word :=
  let x := s.ctx c
  let st := match x.st with | .free => 0 | .building => 1 | .live => 2 | .saving => 3 | .saved => 4 | .sweeping => 5
  BitVec.ofNat 64 ((if x.trace then 2 ^ 58 else 0) + (if x.debug then 2 ^ 57 else 0) + st * 2 ^ 54 + x.mode.toNat * 2 ^ 52 +
    dev % 4 * 2 ^ 50 + (if x.st = .free then 0 else c % 32) * 2 ^ 45)

/-- SAVE_COMPLETE (R218, R221): the header is written once its page is mapped. -/
def execSaveComplete (s : State) : Host.Outcome State Fault Refusal :=
  match s.ev with
  | some (.saveComplete c) =>
    let x := s.ctx c
    if !savesDone s c then .next s
    else
    match imageBlocked s c [(x.sab, 4096)] with
    | some b => .next ((imageFault s c monitorTile b).post 64 (.saveComplete c))
    | none =>
      let n := x.savedGroups.foldl (fun n g => n + g.v) 0
      let head := bytesOf 8 n ++ bytesOf 8 (ctxstOf s c 0).toNat ++ bytesOf 8 (x.z * 4096) ++ List.replicate 4072 (0 : Byte)
      .next ((writeHbm s c x.sab head).modCtx c (fun x => { x with st := .saved }))
  | _ => .next s

/-- Tiles for a saved group, as many as it had (R237, R254). -/
def placeSaved (s : State) (g : Group) : Option Group :=
  let p := g.hosts.length
  let w := ((g.kept[0]?).map (fun e => e.2.partw)).getD 0
  let need := storeNeed w g.v p
  let dmr := !g.shadows.isEmpty
  (placeTiles s (s.ctx g.ctx) g.dev (if dmr then 2 * p else p) p need 0 0).map (fun ts =>
    { g with st := .placed, hosts := ts.take p, shadows := ts.drop p, saving := false, plan := {}, give := 0, moves := [] })

/-- A placed group holds its clusters, and they are woken (R237). -/
def holdClusters (s : State) (g : Group) : State :=
  let s := (groupClusters g).foldl (fun s c =>
    let s := s.modCluster c (fun k => { k with placed := some g.id, gate := false })
    if (s.cluster c).power = .awake then s else s.post 0 (.clusterWake c)) s
  if allUsable s g then s.post 0 (.groupStart g.id) else s

/-- Place all saved groups, or none; one of a FAILED kernel is refused, its node completes FAILED (Table 13.4). -/
def placeAll (s : State) : List Group → Option State
  | [] => some s
  | g :: r =>
    if ((s.ctx g.ctx).kernel g.kimg).any (fun k => k.st == .failed) then
      placeAll (s.post 0 (.nodeCompletion g.ctx g.node .failed)) r
    else
    match placeSaved s g with
    | none => none
    | some h =>
      let s := { s with groups := s.groups.filter (fun (x : Group) => x.id != g.id) ++ [h] }
      let s := s.modCtx g.ctx (fun x => x.modKernel g.kimg (fun k => k.placed (kernelReplays s g.ctx g.kimg)))
      placeAll (holdClusters s h) r

/-- `ctxs.rest` (Table 11.4). -/
def ctxRest (s : State) (c : Nat) : State × Word :=
  if (s.ctx c).st ≠ .saved then (s, BitVec.allOnes 64)
  else
    match placeAll s (s.ctx c).savedGroups with
    | none => (s, BitVec.allOnes 64)
    | some s => ((s.modCtx c (fun x => setQueues { x with st := .live, savedGroups := [] } true)).post 0 .poolIntake, 0)

/-! ### Pages of kernel images (R246, R248) -/

/-- Where the leaf of an address stands: the frame of its table and its index there. -/
def leafPlace (s : State) (ctx : Nat) (va : Word) : Option (Nat × Nat) :=
  match walk s ctx va with | .ok l => some (l.2.1, l.2.2.1) | .error _ => none

/-- PINM and EW of an entry. -/
def pinBits : Word := 0x2400000000000000

/-- Give the pages of a retired kernel their bits back, but for those of another loaded kernel (R246, R248). -/
def unpinImage (s : State) (ctx : Nat) (k : Kernel) : State :=
  k.pages.foldl (fun s p =>
    if (s.ctx ctx).kernels.any (fun j => j.kimg != k.kimg && j.st != .retired && j.pages.any (fun q => leafPlace s ctx q.1 == leafPlace s ctx p.1))
    then s
    else
      match walk s ctx p.1 with
      | .ok l => setLeaf s ctx l ((l.1 &&& ~~~pinBits) ||| p.2)
      | .error _ => s) s

/-! ### The inundation sweep (R222, R223, R227) -/

/-- Is a step in flight a packet of a context? -/
def packetOf (ctx : Nat) (e : Ev) : Bool :=
  match e with
  | .remoteLoadArrival r => r.src.ctx == ctx
  | .remoteLoadReturn r _ _ => r.src.ctx == ctx
  | .deltaArrival p => p.src.ctx == ctx
  | .foreshoreWriteArrival p => p.src.ctx == ctx
  | .msgArrival m => m.src.ctx == ctx
  | .ackArrival o _ _ => o.ctx == ctx
  | _ => false

/-- The packets of a context are discarded (R222 step 4). -/
def dropPackets (s : State) (ctx : Nat) : State :=
  { s with agenda := s.agenda.filter (fun e => !packetOf ctx e.2) }

/-- Tiles that run a context. -/
def ctxTiles (s : State) (ctx : Nat) : List TileId :=
  (s.tiles.filter (fun e => e.2.running && e.2.ctx == ctx)).map (fun e => e.1)

/-- The token goes out; every tile has it within 64 cy, and SWT later gives its clean bit (R222 steps 2 to 5). -/
def sendToken (s : State) (ctx : Nat) (ts : List TileId) : State :=
  (ts.foldl (fun s t => s.post 32 (.sweepTokenAtTile ctx t)) s).post (64 + 16384) (.sweepSwtExpiry ctx)

/-- A sweep begins (R218, R222 step 1): entries invalid, messages discarded, nodes cancelled, kernels RETIRED, the
checkpoint invalid, a save stopped. -/
def startSweep (s : State) (ctx : Nat) (r : Report) : State :=
  let x := s.ctx ctx
  if x.st = .free ∨ x.st = .sweeping then s
  else
    let nodes := (x.objs.filter (fun o => o.id.level == 0 && o.st == .pending)).map (fun o => o.id)
    let s := endCheckpoint (s.report r) ctx 3
    let s := (x.kernels.filter (fun k => k.st != .retired)).foldl (fun s k =>
      (unpinImage s ctx k).modCtx ctx (fun x => x.modKernel k.kimg (fun k => { k with st := .retired, groups := 0 }))) s
    let s := { s with
      disp := { s.disp with pool := s.disp.pool.filter (fun n => n.ctx != ctx) }
      groups := s.groups.map (fun (g : Group) => if g.ctx = ctx then { g with st := .ended } else g) }
    let s := s.modCtx ctx (fun x =>
      { x with
        st := .sweeping, seg := [], segPend := [], savedGroups := [], imposed := [], sweepRound := 1, sweepTiles := []
        queues := x.queues.map (fun q => { q with open_ := false, msgs := [], rsv := 0 }), ckCopy := [] })
    let s := nodes.foldl (fun s n => s.post 0 (.nodeCompletion ctx n .cancelled)) s
    sendToken s ctx (ctxTiles s ctx)

/-- A tile is swept (R222 step 3): nothing of the context stays, the sampler's error bits do (R153); the pool is zero after
4,096 cy. -/
def sweepTile (T : Tile) (now : Nat) : Tile :=
  { freedTile T with
    mem := [], errs := [], v := {}, rcount := 0, rleft := false, runit := 0, rpti := 0, rssl := 0
    chan := { seq := T.chan.seq }, busyUntil := now + 4096 }

/-- SWEEP_TOKEN_AT_TILE (R222, R223): at once, whatever the tile is doing. -/
def execSweepTokenAtTile (s : State) : Host.Outcome State Fault Refusal :=
  match s.ev with
  | some (.sweepTokenAtTile ctx t) =>
    if (s.ctx ctx).st ≠ .sweeping then .next s
    else
      let s := dropPackets s ctx
      let mine := (s.tile t).ctx == ctx && (s.tile t).running || (s.ctx ctx).sweepTiles.contains t
      let s := if mine then s.modTile t (fun T => sweepTile T s.cycle) else s
      .next (s.modCtx ctx (fun x =>
        { x with
          colls := [], parked := x.parked.filter (fun a => a.tile != t)
          sweepTiles := if mine ∧ !x.sweepTiles.contains t then x.sweepTiles ++ [t] else x.sweepTiles }))
  | _ => .next s

/-- Is every tile of the context scrubbed, and no packet of it left? -/
def sweepClean (s : State) (ctx : Nat) : Bool :=
  (ctxTiles s ctx).isEmpty && (s.ctx ctx).sweepTiles.all (fun t => decide ((s.tile t).busyUntil ≤ s.cycle)) &&
    !s.agenda.any (fun e => packetOf ctx e.2)

/-- SWEEP_SWT_EXPIRY (R222 step 5): the clean bits are ANDed to the monitor; the clusters are released. -/
def execSweepSwtExpiry (s : State) : Host.Outcome State Fault Refusal :=
  match s.ev with
  | some (.sweepSwtExpiry ctx) =>
    if (s.ctx ctx).st ≠ .sweeping then .next s
    else
      let s := dropPackets s ctx
      let s := (s.groups.filter (fun g => g.ctx == ctx)).foldl (fun s g => releaseClusters s g []) s
      .next (s.post 64 (.sweepCleanResult ctx (sweepClean s ctx)))
  | _ => .next s

/-- SWEEP_CLEAN_RESULT (R222 step 6): the pages are scrubbed; or steps 3 to 5 run once more; or the package is lost. -/
def execSweepCleanResult (s : State) : Host.Outcome State Fault Refusal :=
  match s.ev with
  | some (.sweepCleanResult ctx clean) =>
    let x := s.ctx ctx
    if x.st ≠ .sweeping then .next s
    else if clean then .next ((s.modCtx ctx (fun x => { x with sweepRound := 3 })).post 64 (.purgeConfirmed ctx))
    else if x.sweepRound = 1 then
      .next (sendToken (s.modCtx ctx (fun x => { x with sweepRound := 2 })) ctx
        (x.sweepTiles ++ (ctxTiles s ctx).filter (fun t => !x.sweepTiles.contains t)))
    else
      let r : TrapRec :=
        { code := 0x45, cls := 3, defer := false, ctx := BitVec.ofNat 5 ctx, att := 0, ss := 0, strand := 0, vidx := 0,
          phys := 0, pc := 0, info := 0, colmap := 0 }
      .next (({ s with mon := { s.mon with dead := true } }.report .packageFatal).report (.record (recBytes r)))
  | _ => .next s

/-- Scrub `n` bytes from a frame of a context to zero. -/
def scrubFrame (s : State) (mode : BitVec 2) (frame n : Nat) : State :=
  match frameDev mode frame with
  | none => s
  | some d =>
    { s with hbm := s.hbm.filter (fun c =>
        let p := hbmPa mode c.1
        !decide (p.1 = d.1 ∧ d.2 * 32768 ≤ p.2 ∧ p.2 < d.2 * 32768 + n)) }

/-- PURGE_CONFIRMED (R218, R222 step 6): pages zero and freed, the number free. -/
def execPurgeConfirmed (s : State) : Host.Outcome State Fault Refusal :=
  match s.ev with
  | some (.purgeConfirmed ctx) =>
    let x := s.ctx ctx
    if x.st ≠ .sweeping ∨ x.sweepRound ≠ 3 then .next s
    else
      let s := (leavesOf s ctx).foldl (fun s l =>
        if peHome l.2.1 ≠ s.chip ∨ (!l.2.2.2.2 && peState l.2.1 == 2) then s
        else scrubFrame s x.mode (peFrame l.2.1) (if l.2.2.2.2 then 2 ^ 27 else 32768)) s
      let s := { s with tier := s.tier.filter (fun c => !decide (c.1 / 2 ^ 43 = ctx)) }
      .next (s.modCtx ctx (fun _ => {}))
  | _ => .next s

/-! ### Kernels (R246, R248) -/

/-- The header and section table of an image. -/
structure Header where
  bytes : List Byte
  nsec : Nat
  ilen : Nat
  partw : Word
  entries : List (BitVec 32)
  secs : List Section
  deriving DecidableEq, Repr

/-- Read the header and the section table (Tables 13.1, 13.2). -/
def headerOf (s : State) (ctx : Nat) (kimg : Word) : Header :=
  let b := readHbm s ctx kimg 256
  let f (o n : Nat) : Nat := natOf ((b.drop o).take n)
  let nsec := f 20 2
  let t := readHbm s ctx (kimg + 256) (16 * nsec)
  let g (k o n : Nat) : Nat := natOf ((t.drop (16 * k + o)).take n)
  { bytes := b ++ t, nsec := nsec, ilen := f 16 4, partw := BitVec.ofNat 64 (f 8 8)
    entries := (List.range 11).map (fun i => BitVec.ofNat 32 (f (24 + 4 * i) 4))
    secs := (List.range nsec).map (fun k => { kind := g k 0 1, pofs := g k 4 4, fofs := g k 8 4, slen := g k 12 4 }) }

/-- A field of the header. -/
def Header.field (h : Header) (o n : Nat) : Nat := natOf ((h.bytes.drop o).take n)

/-- Partition of a section's kind; an overlay is loaded into code. -/
def kindPart (k : Nat) : Option Nat :=
  match k with | 1 => some 0 | 2 => some 2 | 3 => some 3 | 4 => some 5 | 5 => some 0 | _ => none

/-- Does a section lie within the image and its partition? -/
def secInside (h : Header) (c : Section) : Bool :=
  match kindPart c.kind with
  | none => false
  | some k =>
    decide (c.fofs + c.slen ≤ h.ilen ∧ 256 + 16 * h.nsec ≤ c.fofs ∧ partBase h.partw k ≤ c.pofs ∧
      (c.kind = 5 ∨ c.pofs + c.slen ≤ partLimit h.partw k))

/-- Do two resident sections overlap? -/
def secsOverlap : List Section → Bool
  | [] => false
  | c :: r =>
    r.any (fun d => c.kind != 5 && d.kind != 5 && decide (c.pofs < d.pofs + d.slen ∧ d.pofs < c.pofs + c.slen)) || secsOverlap r

/-- Reserved bytes and bits of the header and the section table. -/
def reservedZero (h : Header) : Bool :=
  let kfl := h.field 6 2
  decide (kfl / 256 = 0 ∧ kfl / 4 % 4 = 0 ∧ h.field 22 2 = 0 ∧ h.field 68 4 = 0 ∧ h.field 160 96 = 0) &&
  h.entries.all (fun e => (e &&& 0x7FE00000) == 0) &&
  (List.range h.nsec).all (fun k => decide (h.field (256 + 16 * k + 1) 3 = 0))

/-- May the monitor read some bytes of an image (R246): each page is mapped, well formed, readable, and RESIDENT or SETTLED. -/
def imageReadable (s : State) (ctx : Nat) (va : Word) (n : Nat) : Bool :=
  (pageParts (n / 32768 + 2) va.toNat n).all (fun p =>
    match translate s ctx (BitVec.ofNat 64 p.1) p.2 false, walk s ctx (BitVec.ofNat 64 p.1) with
    | .refused, _ => false
    | .away _, _ => true
    | _, .ok l => l.2.2.2 || peState l.1 == 0 || peState l.1 == 4
    | _, .error _ => false)

/-- Does a write-back that has not drained touch an image (R195)? The monitor's read waits behind it. -/
def imageBehind (s : State) (ctx : Nat) (va : Word) (n : Nat) : Bool := drainTouches (s.ctx ctx) va.toNat n

/-- The first check of R246 that an image fails, by its place in R246's list from 1; the pages' check is the 13th. An NSEC
outside 1 to 64 fails as the 3rd and a section that begins within the section table as the 7th, which R246's list does not
name (DESIGN CHOICE, log entry 90). -/
def loadCheck (s : State) (ctx : Nat) (kimg : Word) (h : Header) : Option Nat :=
  let w := h.partw
  let xb := partLimit w 0
  let attempts := h.field 6 2 / 16 % 16
  let checks : List Bool :=
    [decide (h.field 0 4 = 0x314B5147 ∧ h.field 4 2 = 1), decide (attempts ≠ 0),
     decide (256 + 16 * h.nsec ≤ h.ilen ∧ 1 ≤ h.nsec ∧ h.nsec ≤ 64),
     (List.range 6).all (fun i => decide (spanOf w i < 6)) && decide (granOf w 0 ≠ 0 ∧ granOf w 1 ≠ 0 ∧ partLimit w 5 ≤ 0x200000),
     (h.entries.getD 0 0).getLsbD 31,
     h.entries.all (fun e =>
       let a := e.toNat % 2 ^ 21
       !e.getLsbD 31 || decide (a % 4 = 0 ∧ a < xb ∧ a % 32 ≠ 28)),
     h.secs.all (secInside h),
     h.secs.all (fun c => decide (c.fofs % 32 = 0) && ((c.kind != 1 && c.kind != 5) || decide (c.pofs % 32 = 0 ∧ c.slen % 32 = 0))),
     !secsOverlap h.secs, h.secs.all (fun c => c.kind != 5 || decide (c.pofs + c.slen ≤ xb)),
     decide (imgLen w ≤ (s.ctx ctx).z * 4096), reservedZero h,
     imageReadable s ctx kimg h.ilen]
  (checks.findIdx? (fun b => !b)).map (fun i => i + 1)

/-- Pages of an image: every page of 32 KiB that holds a byte of it. -/
def imagePages (kimg : Word) (n : Nat) : List Word :=
  let first := kimg.toNat / 32768
  (List.range ((kimg.toNat + n + 32767) / 32768 - first)).map (fun i => BitVec.ofNat 64 (32768 * (first + i)))

/-- Pin the pages of an image and withdraw EW (R246). Answers the bits that the entries had. -/
def pinImage (s : State) (ctx : Nat) (pages : List Word) : State × List (Word × Word) :=
  pages.foldl (fun (r : State × List (Word × Word)) va =>
    match walk r.1 ctx va with
    | .error _ => r
    | .ok l =>
      let loaded := (r.1.ctx ctx).kernels.filter (fun k => k.st != .retired)
      let prior := (loaded.flatMap (fun k => k.pages) ++ r.2).find? (fun p => leafPlace r.1 ctx p.1 == some (l.2.1, l.2.2.1))
      let old := match prior with | some p => p.2 | none => l.1 &&& pinBits
      (setLeaf r.1 ctx l ((l.1 &&& ~~~pinBits) ||| 0x2000000000000000), r.2 ++ [(va, old)])) (s, [])

/-- The record of a kernel that is loaded (R246). -/
def kernelOfHeader (kimg : Word) (h : Header) (pages : List (Word × Word)) : Kernel :=
  let kfl := h.field 6 2
  { kimg := kimg, det := kfl % 2 == 1, dmr := kfl / 2 % 2 == 1, att := kfl / 16 % 16, partw := maskPartw h.partw, ilen := h.ilen
    entries := h.entries, ovb := maskOvb (BitVec.ofNat 64 (h.field 72 8)), tvec := maskTvec (BitVec.ofNat 64 (h.field 80 8))
    idlw := maskIdlw (BitVec.ofNat 64 (h.field 88 8)), amask := BitVec.ofNat 256 (h.field 96 32), secs := h.secs, pages := pages }

/-- Load a kernel that has passed its checks: measured, pinned, recorded (R217, R246). -/
def loadKernel (s : State) (ctx : Nat) (kimg : Word) (h : Header) : State :=
  let d := sha384 (readHbm s ctx kimg h.ilen)
  let r := pinImage s ctx (imagePages kimg h.ilen)
  r.1.modCtx ctx (fun x =>
    { x with meas := sha384 (wide x.meas ++ wide d)
             kernels := x.kernels.filter (fun k => k.kimg != kimg) ++ [kernelOfHeader kimg h r.2] })

/-- KERNEL_LOAD_REQUEST (R246). The 14th reason for a refusal is a loaded kernel at the address, or 1,024 of them. -/
def execKernelLoadRequest (s : State) : Host.Outcome State Fault Refusal :=
  match s.ev with
  | some (.kernelLoadRequest ctx kimg) =>
    let x := s.ctx ctx
    let live := x.kernels.filter (fun k => k.st != .retired)
    if (x.st ≠ .building ∧ x.st ≠ .live) ∨ kimg.toNat % 4096 ≠ 0 then .next (s.report (.refusedRequest ctx))
    else if live.any (fun k => k.kimg == kimg) ∨ 1024 ≤ live.length then .next (s.report (.loadRefused ctx kimg 14))
    else if !imageReadable s ctx kimg 256 then .next (s.report (.loadRefused ctx kimg 13))
    else
      let h := headerOf s ctx kimg
      if imageBehind s ctx kimg (256 + 16 * h.nsec + h.ilen) then .next (s.post 1 (.kernelLoadRequest ctx kimg))
      else
      match loadCheck s ctx kimg h with
      | some k => .next (s.report (.loadRefused ctx kimg k))
      | none => .next (loadKernel s ctx kimg h)
  | _ => .next s

/-- KERNEL_RESET_REQUEST (Table 13.4). -/
def execKernelResetRequest (s : State) : Host.Outcome State Fault Refusal :=
  match s.ev with
  | some (.kernelResetRequest ctx kimg) =>
    match (s.ctx ctx).kernel kimg with
    | some k =>
      if k.st = .failed ∧ k.groups = 0 then .next (s.modCtx ctx (fun x => x.modKernel kimg (fun k => { k with st := .loaded })))
      else .next (s.report (.refusedRequest ctx))
    | none => .next (s.report (.refusedRequest ctx))
  | _ => .next s

/-- KERNEL_RETIRE_REQUEST (Table 13.4). -/
def execKernelRetireRequest (s : State) : Host.Outcome State Fault Refusal :=
  match s.ev with
  | some (.kernelRetireRequest ctx kimg) =>
    match (s.ctx ctx).kernel kimg with
    | some k =>
      if (k.st = .loaded ∨ k.st = .failed) ∧ k.groups = 0 then
        .next ((unpinImage s ctx k).modCtx ctx (fun x => x.modKernel kimg (fun k => { k with st := .retired })))
      else .next (s.report (.refusedRequest ctx))
    | none => .next (s.report (.refusedRequest ctx))
  | _ => .next s

/-! ### Requests to the monitor (R212, Table 11.1) -/

/-- Act on a request that the monitor grants; one in the wrong state is refused (Table 11.4). -/
def monitorAct (s : State) (m : MonReq) : State :=
  let answer (r : State × Word) : State := if r.2 = BitVec.allOnes 64 then s.report (.refusedRequest 0) else r.1
  match m with
  | .new a b => answer (ctxNew s a b)
  | .seg a b => ctxSeg s a b
  | .go c => answer (ctxGo s c)
  | .save c => answer (ctxSave s c)
  | .rest c => answer (ctxRest s c)
  | .kill c x => startSweep s c (.killed c x)
  | .test c => if c < 512 then s.modCluster c (fun k => { k with tpend := true }) else s
  | .grant c ts => s.modCtx c (fun x => { x with granted := ts })
  | .fatal c x =>
    let code := Cause.code x
    let r : TrapRec :=
      { code := code, cls := 3, defer := false, ctx := BitVec.ofNat 5 c, att := 0, ss := 0, strand := 0, vidx := 0, phys := 0,
        pc := 0, info := 0, colmap := 0 }
    if (s.ctx c).st = .free ∨ (s.ctx c).st = .sweeping then s else startSweep (s.report (.record (recBytes r))) c (.fatal c code)

/-- MONITOR_REQUEST (R212): nothing leaves reset before the monitor's image runs (R216). -/
def execMonitorRequest (s : State) : Host.Outcome State Fault Refusal :=
  match s.ev with
  | some (.monitorRequest m) => .next (if s.mon.boot = .waiting then s else monitorAct s m)
  | _ => .next s

end Sys2Proof.Machine
end

