-- ==== Sys2Proof/Machine/System.lean ====
section
/-! DEFINITION. System forms (R224 to R228), the replies of the dispatcher, the monitor and the runtime (R226, R240, R304,
R363), energy, heat and test forms (R359, R361, R363), the ORPHAN check (R87, R96). -/

namespace Sys2Proof.Machine

open Sys2Proof

/-! ### Replies (R226, R240) -/

/-- The kernel record (Table 13.5): all ones for no kernel and for a retired one (R248). -/
def kernelWord (x : Ctx) (kimg : Word) (w : BitVec 2) : Word :=
  match x.kernel kimg with
  | none => BitVec.allOnes 64
  | some k =>
    match k.st with
    | .retired => BitVec.allOnes 64
    | st =>
      let code := match st with | .loaded => 0 | .running => 1 | .retrying => 2 | .failed => 3 | .retired => 4
      match w.toNat with
      | 0 =>
        BitVec.ofNat 64 (code * 2 ^ 61 + (if k.det then 2 ^ 60 else 0) + (if k.dmr then 2 ^ 59 else 0) + k.att % 16 * 2 ^ 55 +
          k.groups % 2 ^ 11 * 2 ^ 44 + k.fails % 2 ^ 16 * 2 ^ 16 + k.dmrmis % 2 ^ 16)
      | 1 => k.eavg.getD 0
      | 2 => k.elost
      | _ => k.ncommit

/-- The record of a unit of a cluster (Table 20.2, R363): `ctx` 0 is the root monitor. -/
def testWord (s : State) (ctx : Nat) (g : Word) (u : Nat) : Word :=
  if 511 < g.toNat ∨ 8 < u ∨ (ctx ≠ 0 ∧ !clusterHolds s g.toNat ctx) then BitVec.allOnes 64
  else ((s.cluster g.toNat).records[u]?).getD 0

/-- What a query comes to when its reply leaves. -/
def answer (s : State) (q : DispQuery) : State × Word :=
  match q with
  | .value v => (s, v)
  | .status v => (s, v)
  | .record c o => (s, objRecord (s.ctx c) o)
  | .qst c k => (s, qstOf (s.ctx c) k)
  | .clst c g =>
    (s, if 511 < g.toNat ∨ (c ≠ 0 ∧ !clusterHolds s g.toNat c) then BitVec.allOnes 64 else clstOf s g.toNat)
  | .kernel c k w => (s, kernelWord (s.ctx c) k w)
  | .test c g u => (s, testWord s c g u.toNat)
  | .pstat c va => pstatOf s c va
  | .pdev c d => (s, pdevOf (s.ctx c) d)
  | .ckst c => (s, (s.ctx c).ckst)

/-- Is a reply to a shadow early: the shadow has yet to make the request that its primary has made in the same superstep and
attempt (R250)? -/
def shadowAwaits (s : State) (t : TileId) (n : StrandNo) (gen : Nat) : Bool :=
  let T := s.tile t
  T.shadow && T.running && (T.strands[n.val]).gen == gen &&
    (match T.twin with | some u => (s.tile u).v.ss == T.v.ss && (s.tile u).v.att == T.v.att | none => false)

/-- A reply fills g[D], and the arrival no longer waits for it. -/
def deliverReply (s : State) (t : TileId) (n : StrandNo) (gen : Nat) (d : BitVec 5) (holds : Bool) (v : Word) : State :=
  (s.modTile t (fun T => { T with acks := if holds then T.acks.erase (n, gen) else T.acks })).post 0
    (.resultDelivery t n gen (.g d) (v.setWidth 1024))

/-- DISPATCHER_REPLY (R240): the reply to a primary's `enq` or `cancel` reaches its shadow too (R250). -/
def execDispatcherReply (s : State) : Host.Outcome State Fault Refusal :=
  match s.ev with
  | some (.dispatcherReply t n gen d q) =>
    match q with
    | .value v =>
      if !(s.tile t).acks.contains (n, gen) then
        .next (if shadowAwaits s t n gen then s.post 16 (.dispatcherReply t n gen d q) else s)
      else
        let s := deliverReply s t n gen d true v
        .next (match shadowOf s t with | some u => s.post 16 (.dispatcherReply u n (s.strand u n).gen d q) | none => s)
    | _ =>
      let r := answer s q
      .next (deliverReply r.1 t n gen d (queryHolds q) r.2)
  | _ => .next s

/-! ### `sys` (R226) -/

/-- Service 0x8000: the report is written at an alias address of the caller's store; none where the store is not there
or a collective has claimed it (R311) (log entry 30). -/
def attestAt (s : State) (t : TileId) (n : StrandNo) (a : Word) : Except WErr State :=
  if 2 ^ 21 ≤ a.toNat ∨ !ownOk s t a.toNat 512 ∨ claimed (s.tile t).v a.toNat 512 then .error (.galley 0)
  else
    match localRead s t n.val a.toNat 48 with
    | .error e => .error e
    | .ok r =>
      .ok (engineWrite r.1 t (.engine n (posOf t)) .plain a.toNat (attestation r.1 (r.1.tile t).ctx r.2)).1

/-- SYS (R226). The send comes after the strand's earlier stores, as a push does (R191). The runtime's reply is its own, after a time that nothing bounds: free values (log entry 2). A shadow's
request goes nowhere; the reply reaches both copies (R250). -/
def execSys (p : Pred) (k : BitVec 16) (d : BitVec 5) (a : GSrc) (s : State) : Host.Outcome State Fault Refusal :=
  issue p 8 .any [.g a] [.g d]
    (fun s t n =>
      let x := gv s t n a
      let gen := (s.strand t n).gen
      let b := beforeOf (s.strand t n)
      let s := noteItem s t 2 (k.setWidth 64) (bytesOf 8 x.toNat)
      let s := (s.modStrand t n (fun S => S.markEmpty (.g d))).modTile t (fun T => { T with acks := T.acks ++ [(n, gen)] })
      if 0x8000 ≤ k.toNat then .done (s.post replyDelay (.sysReply t n gen d k x (BitVec.allOnes 64) b))
      else if discards s t then .done s
      else
        let f := s.freshNat
        let v := f.2.freshNat
        .done ((v.2.report (.service (v.2.tile t).ctx t n k x)).post (f.1 + 1) (.sysReply t n gen d k x (BitVec.ofNat 64 v.1) b))) s

/-- The reply to a primary reaches its shadow too (R250), once the shadow has asked. -/
def replyShadow (s : State) (t : TileId) (n : StrandNo) (d : BitVec 5) (k : BitVec 16) (x v : Word) : State :=
  match shadowOf s t with
  | none => s
  | some u => s.post 16 (.sysReply u n (s.strand u n).gen d k x v {})

/-- SYS_REPLY (R226): not before the stores that its request came after have been performed. -/
def execSysReply (s : State) : Host.Outcome State Fault Refusal :=
  match s.ev with
  | some (.sysReply t n gen d k x v b) =>
    let T := s.tile t
    if !T.acks.contains (n, gen) then
      .next (if shadowAwaits s t n gen then s.post 16 (.sysReply t n gen d k x v b) else s)
    else if !beforeMet s t n b then .next (s.post 1 (.sysReply t n gen d k x v b))
    else if 0x8000 ≤ k.toNat then
      if k = 0x8000 then
        match attestAt s t n x with
        | .ok s => .next (deliverReply s t n gen d true 0)
        | .error (.ecc s) => .next (s.post 1 (.sysReply t n gen d k x v b))
        | .error _ => .next (deliverReply s t n gen d true (BitVec.allOnes 64))
      else .next (deliverReply s t n gen d true (BitVec.allOnes 64))
    else .next (replyShadow (deliverReply s t n gen d true v) t n d k x v)
  | _ => .next s

/-! ### `trap`, `tret`, `kill`, `dbg` (R225, R227, R228) -/

/-- TRAP (R225). -/
def execTrap (p : Pred) (n : BitVec 24) (s : State) : Host.Outcome State Fault Refusal :=
  issue p 8 .any [] [] (fun _ _ _ => .trap .swtrap (n.setWidth 32)) s

/-- TRET (R113, R225). -/
def execTret (p : Pred) (s : State) : Host.Outcome State Fault Refusal :=
  issue p 8 .any [] []
    (fun s t n =>
      let S := s.strand t n
      if !S.inHandler then .trap .illegal 0
      else
        .goto (S.trappc.setWidth 21)
          (s.modStrand t n (fun S => { S with inHandler := false, suppress := S.watching, watching := false }))) s

/-- KILL (R227): the strand stops at once. -/
def execKill (p : Pred) (c : BitVec 8) (s : State) : Host.Outcome State Fault Refusal :=
  issue p 8 .any [] []
    (fun s t n =>
      let ctx := (s.tile t).ctx
      let s := s.modStrand t n (fun S => { S with st := .free, gen := S.gen + 1 })
      .stop (if ctx = 0 then s else s.post 0 (.monitorRequest (.kill ctx c)))) s

/-- KILL_CTX (R227). -/
def execKillCtx (p : Pred) (a : GSrc) (c : BitVec 8) (s : State) : Host.Outcome State Fault Refusal :=
  issue p 8 .monitor [.g a] []
    (fun s t n =>
      let ctx := ((gv s t n a).extractLsb' 0 5).toNat
      .done (startSweep s ctx (.killed ctx c))) s

/-- DBG_RD (R228): VALID is cleared; no abort undoes it. -/
def execDbgRd (p : Pred) (d : BitVec 5) (s : State) : Host.Outcome State Fault Refusal :=
  issue p 12 .any [] [.g d]
    (fun s t n =>
      let x := (s.tile t).v.dbgr
      .done ((setG s t n d x).modV t (fun v => { v with dbgr := x &&& 0x7FFFFFFFFFFFFFFF }))) s

/-- DBG_MARK (R228). -/
def execDbgMark (p : Pred) (a : GSrc) (v : BitVec 36) (s : State) : Host.Outcome State Fault Refusal :=
  issue p 12 .any [.g a] []
    (fun s t n =>
      let c := (s.tile t).ctx
      .done (if (s.ctx c).trace then s.report (.mark c v (gv s t n a)) else s)) s

/-- DBG_BRK (R228). -/
def execDbgBrk (p : Pred) (v : BitVec 36) (s : State) : Host.Outcome State Fault Refusal :=
  issue p 12 .any [] []
    (fun s t _ => if (s.ctx (s.tile t).ctx).debug then .trap .brk ((v.setWidth 24).setWidth 32) else .done s) s

/-! ### `ctxs` (R219, R224) -/

/-- CTXS_RD (R219, Table 11.8): a tile reads its own context; naming one is the monitor's. -/
def execCtxsRd (p : Pred) (w : Bool) (d : BitVec 5) (a : GSrc) (s : State) : Host.Outcome State Fault Refusal :=
  issue p 12 (if a.r = 0 then .any else .monitor) [.g a] [.g d]
    (fun s t n =>
      let own := t != monitorTile
      let c := if own then (s.tile t).ctx else (gv s t n a).toNat
      let dev := if own then ownDevice s t else 0
      .done (setG s t n d (if w then (s.ctx c).sab else ctxstOf s c dev))) s

/-- A privileged form with a result. -/
def monForm (p : Pred) (len : Nat) (d : BitVec 5) (srcs : List GSrc) (f : State → TileId → StrandNo → State × Word) (s : State) :
    Host.Outcome State Fault Refusal :=
  issue p len .monitor (srcs.map (fun a => .g a)) [.g d]
    (fun s t n => let r := f s t n; .done (setG r.1 t n d r.2)) s

/-- CTXS_NEW (Table 11.4). -/
def execCtxsNew (p : Pred) (d : BitVec 5) (a b : GSrc) (s : State) : Host.Outcome State Fault Refusal :=
  monForm p 12 d [a, b] (fun s t n => ctxNew s (gv s t n a) (gv s t n b)) s

/-- CTXS_SEG (R220). -/
def execCtxsSeg (p : Pred) (a b : GSrc) (s : State) : Host.Outcome State Fault Refusal :=
  issue p 12 .monitor [.g a, .g b] [] (fun s t n => .done (ctxSeg s (gv s t n a) (gv s t n b))) s

/-- CTXS_GO (Table 11.4). -/
def execCtxsGo (p : Pred) (d : BitVec 5) (a : GSrc) (s : State) : Host.Outcome State Fault Refusal :=
  monForm p 12 d [a] (fun s t n => ctxGo s (gv s t n a |>.extractLsb' 0 5).toNat) s

/-- CTXS_SAVE (Table 11.4). -/
def execCtxsSave (p : Pred) (d : BitVec 5) (a : GSrc) (s : State) : Host.Outcome State Fault Refusal :=
  monForm p 12 d [a] (fun s t n => ctxSave s (gv s t n a |>.extractLsb' 0 5).toNat) s

/-- CTXS_REST (Table 11.4). -/
def execCtxsRest (p : Pred) (d : BitVec 5) (a : GSrc) (s : State) : Host.Outcome State Fault Refusal :=
  monForm p 12 d [a] (fun s t n => ctxRest s (gv s t n a |>.extractLsb' 0 5).toNat) s

/-! ### Energy, heat and test (R359 to R363) -/

/-- PLIM (Table 20.1): 0 is read as 1. -/
def Die.limit (d : Die) : Nat := if d.plim = 0 then 1 else d.plim.toNat

/-- ERES after a tick with a draw (R359). -/
def reservoirNext (plim : Nat) (level : Int) (draw : Nat) : Int :=
  let top : Int := plim * 10000000
  let x := level + plim * 1000 - draw
  if x < -top then -top else if top < x then top else x

/-- The larger of two signed readings. -/
def maxTemp (a b : BitVec 16) : BitVec 16 := if a.toInt < b.toInt then b else a

/-- A die at the end of a µs (R359, R361); what the sensors read is a free value (log entry 2). -/
def dieTick (d : Die) (draw temps : Nat) : Die :=
  let d := { d with plim := d.plimW.getD d.plim, tlim := d.tlimW.getD d.tlim, plimW := none, tlimW := none }
  let ets : Vector (BitVec 16) 16 := Vector.ofFn (fun i : Fin 16 => BitVec.ofNat 16 (temps / 2 ^ (16 * i.val)))
  let top := ets.foldl maxTemp 0x8000
  let peaks := (top :: d.peaks).take 100
  let tmax := peaks.foldl maxTemp 0x8000
  { d with eres := reservoirNext d.limit d.eres draw, ets := ets, peaks := peaks, tmax := tmax
           head := BitVec.ofNat 16 ((d.tlim.toNat : Int) - tmax.toInt).toNat }

/-- RESERVOIR_TICK (R359): the four dies at the end of every µs. A die draws what its tiles count and what its mesh, adders
and engines draw, a free value. -/
def execReservoirTick (s : State) : Host.Outcome State Fault Refusal :=
  match s.ev with
  | some .reservoirTick =>
    .next ((List.range 4).foldl (fun s d =>
      let e := s.freshNat
      let h := e.2.freshNat
      h.2.modDie d (fun D => { dieTick D ((D.drawn + e.1) / 1000) h.1 with drawn := 0 })) s)
  | _ => .next s

/-- ETHM (Table 20.1). -/
def ethmOf (d : Die) : Word :=
  BitVec.ofNat 64 (d.tlim.toNat * 2 ^ 48 + d.tmax.toNat * 2 ^ 32 + d.head.toNat * 2 ^ 16)

/-- A form that reads a register of a die; a die above 3 reads all ones. -/
def dieForm (f : Die → Word) (p : Pred) (d : BitVec 5) (a : GSrc) (s : State) : Host.Outcome State Fault Refusal :=
  issue p 8 .any [.g a] [.g d]
    (fun s t n =>
      let k := (gv s t n a).toNat
      .done (setG s t n d (if 3 < k then BitVec.allOnes 64 else f (s.die k)))) s

/-- ECNT_K (R252, R363). -/
def execEcntK (p : Pred) (w : BitVec 2) (d : BitVec 5) (a : GSrc) (s : State) : Host.Outcome State Fault Refusal :=
  issue p 8 .any [.g a] [.g d] (fun s t n => .done (ask s t n d (.kernel (s.tile t).ctx (gv s t n a) w))) s

/-- ECNT_RES (R363). -/
def execEcntRes (p : Pred) (d : BitVec 5) (a : GSrc) (s : State) : Host.Outcome State Fault Refusal :=
  dieForm (fun D => BitVec.ofInt 64 D.eres) p d a s

/-- ECNT_THM (R363). -/
def execEcntThm (p : Pred) (d : BitVec 5) (a : GSrc) (s : State) : Host.Outcome State Fault Refusal :=
  dieForm ethmOf p d a s

/-- ECNT_TS (R363). -/
def execEcntTs (p : Pred) (k : BitVec 4) (d : BitVec 5) (a : GSrc) (s : State) : Host.Outcome State Fault Refusal :=
  dieForm (fun D => (D.ets[k.toNat]).setWidth 64) p d a s

/-- ECNT_SET (R363): from the next tick on. -/
def execEcntSet (p : Pred) (r : Bool) (a b : GSrc) (s : State) : Host.Outcome State Fault Refusal :=
  issue p 8 .monitor [.g a, .g b] []
    (fun s t n =>
      let k := (gv s t n a).toNat
      let x := gv s t n b
      .done (if 3 < k then s
        else s.modDie k (fun D =>
          if r then { D with tlimW := some (x.extractLsb' 48 16) } else { D with plimW := some (x.extractLsb' 0 16) }))) s

/-- TST_RD (R363). -/
def execTstRd (p : Pred) (u : BitVec 4) (d : BitVec 5) (a : GSrc) (s : State) : Host.Outcome State Fault Refusal :=
  issue p 12 .any [.g a] [.g d] (fun s t n => .done (ask s t n d (.test (s.tile t).ctx (gv s t n a) u))) s

/-- TST_REQ (R363). -/
def execTstReq (p : Pred) (d : BitVec 5) (a : GSrc) (s : State) : Host.Outcome State Fault Refusal :=
  monForm p 12 d [a] (fun s t n =>
    let c := (gv s t n a).toNat
    if 511 < c then (s, BitVec.allOnes 64)
    else (s.modCluster c (fun k => { k with tpend := true }), if s.disp.ten then 0 else 1)) s

/-! ### The ORPHAN check (R87, R96) -/

/-- Does an operation of the tile other than a sluice term raise counter c (R96)? -/
def raisedBy (s : State) (t : TileId) (c : BitVec 4) : Bool :=
  let T := s.tile t
  let x := s.ctx T.ctx
  T.chan.cmds.any (fun q => q.ct == c) || T.ovls.any (fun o => o.ct == c) || T.samp.atbs.any (fun a => a.ct == c) ||
  T.arrQ.any (fun q => match q.op with | .smpl _ _ _ _ _ ct _ => ct == c | _ => false) ||
  T.drains.any (fun d => d.ct == c && decide (d.elem ≤ 1024)) ||
  T.strands.toList.any (fun S => S.q.toList.any (fun q => q.valid && q.cnte && !q.exh && q.ct == c)) ||
  (T.fa.bind.live && T.fa.bind.cnte && T.fa.bind.ct == c) || (T.fb.bind.live && T.fb.bind.cnte && T.fb.bind.ct == c) ||
  x.xfers.any (fun f => f.cts.contains (T.v.idx, c)) ||
  T.v.held.any (fun h => match h with | .ckpt _ _ _ k => k == c | _ => false) ||
  x.ckCt == some (T.v.idx, c) ||
  T.v.coll.any (fun o => (o.st == 1 || o.st == 2 || o.st == 3) && o.crb.cdone.setWidth 4 == c)

/-- Will counter c be raised, by an operation or by an enabled term of KIND 1 whose inputs are pending (R96)? -/
def willRaise (s : State) (t : TileId) : Nat → BitVec 4 → Bool
  | 0, c => raisedBy s t c
  | f + 1, c =>
    raisedBy s t c ||
    (s.tile t).v.terms.any (fun w =>
      w.getLsbD 63 && w.getLsbD 62 && w.extractLsb' 58 4 == c &&
      (List.finRange 16).all (fun i =>
        !w.getLsbD i.val || decide ((w.extractLsb' 24 16).toNat ≤ ((s.tile t).v.c[i]).toNat) ||
          willRaise s t f (BitVec.ofNat 4 i.val)))

/-- Has the stream of a binding a fill or a drain under way, parked or not? -/
def streamMoves (S : Strand) (k : Fin 8) : Bool :=
  let q := S.q[k]
  if q.out then !q.pend.isEmpty else q.valid && !q.stopped && (q.busy || decide (q.ahead < recPieces q.rcd))

/-- Does the strand that holds a lock bit live? -/
def holderLives (s : State) (u : TileId) (h : BitVec 8) : Bool :=
  match (s.tile u).locks.find? (fun l => l.h == h) with
  | some l => liveSt ((((s.tile (tileAt (clusterOf u) l.pos)).strands[l.strand]?).map (fun S => S.st)).getD .free)
  | none => true

/-- Is a complete unit in a FIFO, or is one to come (R96, R133)? -/
def unitComes (T : Tile) (fb : Bool) : Bool :=
  let q := T.fifo fb
  q.ready || (q.bind.live && !q.bind.stopped) ||
    T.chan.cmds.any (fun c => c.dsp == 3 && decide (c.dst.toNat = if fb then 1 else 0))

/-- Does the array hold work (R96, R133): an operation runs, or the command at the head has its units complete or a fill
outstanding? -/
def arrayWorks (s : State) (t : TileId) : Bool :=
  let T := s.tile t
  !T.arrFly.isEmpty || decide (s.cycle < T.arrFree) ||
  match T.arrQ with
  | [] => false
  | c :: _ =>
    match c.op with
    | .mma _ _ _ _ _ => unitComes T false && unitComes T true
    | .smp _ _ _ _ _ _ => unitComes T false && unitComes T true
    | .smpl _ _ _ _ _ _ _ => (unitComes T false && unitComes T true) || (T.samp.run.map (fun r => r.ended)).getD false
    | .mrep fb n w => n == 0 || decide (w ≤ (T.fifo fb).units.length) || unitComes { T with fa := { T.fa with units := [], held := [] }, fb := { T.fb with units := [], held := [] } } fb
    | _ => true

/-- Does the adder hold work: its head does not wait for a partial tile that the array will not write? -/
def adderWorks (s : State) (t : TileId) : Bool :=
  match (s.tile t).addQ with
  | [] => false
  | c :: _ => c.running || arrayWorks s t ||
    (match addNeeds c.op with | some (n, need) => ptReady (s.tile t) n need | none => true)

/-- Can the wait of a live strand be released (R96)? -/
def canProceed (s : State) (t : TileId) (n : StrandNo) : Bool :=
  let T := s.tile t
  let S := T.strands[n.val]
  if S.st ≠ .waiting then true
  else
    match S.wait with
    | .stream k _ _ => streamMoves S k
    | .fifoBound fb => let b := (T.fifo fb).bind; b.live && !b.stopped
    | .tapped => tapFlight T
    | .counter _ ct _ _ _ tmo => tmo != 0 || willRaise s t 8 ct
    | .roomArr => arrayWorks s t
    | .samp _ => arrayWorks s t
    | .roomAdd _ => adderWorks s t
    | .overlap seqs => adderWorks s t || T.drains.any (fun d => seqs.contains d.seq)
    | .mwait arr add =>
      (!(arrSeqs T).any (fun q => arr.contains q) || arrayWorks s t) &&
        (!(addSeqs T).any (fun q => add.contains q) || adderWorks s t || !T.drains.isEmpty)
    | .roomChan => !T.chan.cmds.isEmpty
    | .lock u h _ _ _ => holderLives s u h
    | _ => true

/-- The strand whose wait began first; on a tie the lower number (R96). -/
def oldestWait (T : Tile) (ns : List StrandNo) : Option StrandNo :=
  ns.foldl (fun r n =>
    match r with
    | none => some n
    | some m => if (T.strands[n.val]).since < (T.strands[m.val]).since then some n else some m) none

/-- IDLE_WATCHDOG_EXPIRY (R87, R96). -/
def execIdleWatchdogExpiry (s : State) : Host.Outcome State Fault Refusal :=
  match s.ev with
  | some (.idleWatchdogExpiry t) =>
    let T := s.tile t
    let live := (List.finRange 11).filter (fun n => liveSt (T.strands[n.val]).st)
    if !T.running || live.any (canProceed s t) then .next s
    else
      match oldestWait T live with
      | none => .next s
      | some n => let S := T.strands[n.val]; .next (takePrecise s t n .orphan 0 S.pc (successor S.pc S.wlen))
  | _ => .next s

end Sys2Proof.Machine
end

