-- ==== Sys2Proof/Machine/Link.lean ====
section
/-! DEFINITION. The links (18_link): flits with replay (R330 to R335), states, training and retraining (R336, R337), lanes
(R341), rates and the overtop governor (R339, R340), the link forms (R343, R344), routes (R329). -/

namespace Sys2Proof.Machine

open Sys2Proof

/-! ### Links by number (Table 18.1) -/

/-- A scale-up port. -/
def isPort (l : Nat) : Bool := decide (48 ≤ l)

/-- The path of a link: the links that join the same two chiplets (R329). -/
def pathOf (l : Nat) : List Nat :=
  if l < 32 then (List.range 8).map (fun m => l / 8 * 8 + m)
  else if l < 48 then (List.range 4).map (fun m => l / 4 * 4 + m)
  else ((List.range 16).filter (fun p => Config.portPeer p == Config.portPeer (l - 48))).map (fun p => 48 + p)

/-- UP, OVERTOP or DEGRADED (R336). -/
def Link.operational (k : Link) : Bool := k.st == .up || k.st == .overtop || k.st == .degraded

/-- The retraining window RTW in cycles (R336). -/
def rtw (l : Nat) : Nat := if isPort l then 3200 else 800

/-- RTO in cycles (R332). -/
def rto (l : Nat) : Nat := if isPort l then 12800 else 3200

/-- Cycles that a flit travels (R267, R334). -/
def flitDelay (l : Nat) : Nat := if isPort l then 400 else 96

def bmin (a b : BitVec 3) : BitVec 3 := if a.toNat ≤ b.toNat then a else b

/-- min(TARGET, GCAP). -/
def Link.aim (k : Link) : BitVec 3 := bmin k.target k.gcap

/-! ### Degradations (R341) -/

/-- DEGC and the LINKDEG record: kinds 1 backoff, 2 lane on a spare, 3 halving, 4 FAILED. -/
def degrade (s : State) (l kind : Nat) : State :=
  let s := s.modLink l (fun k => { k with degc := if k.degc = BitVec.allOnes 16 then k.degc else k.degc + 1 })
  s.report (.record (recBytes
    { code := Cause.code .linkdeg, cls := 4, defer := false, ctx := 0, att := 0, ss := 0, strand := 0, vidx := 0, phys := 0,
      pc := 0, info := BitVec.ofNat 32 (l + kind * 256), colmap := 0 }))

/-! ### Training and retraining (R336, R337) -/

/-- A free bit. -/
def freeBit (s : State) : Bool × State := (Config.freeNat s.free % 2 == 1, { s with free := s.free + 1 })

/-- TRAINING at a step. -/
def enterTraining (s : State) (l : Nat) (step : BitVec 3) : State :=
  let r := freeBit s
  (r.2.modLink l (fun k => { k with st := .training, step := step, busyUntil := s.cycle + rtw l, retNew := 0 })).post (rtw l)
    (.linkTrainingDone l r.1)

/-- A retrain to a step is requested: it starts at once on an operational link, and otherwise waits (R337). -/
def requestStep (s : State) (l : Nat) (step : BitVec 3) : State :=
  let k := s.link l
  if k.operational then
    let r := freeBit s
    (r.2.modLink l (fun k => { k with st := .stepping, want := step, busyUntil := s.cycle + rtw l, retNew := 0 })).post (rtw l)
      (.linkRetrainDone l r.1)
  else if k.st == .stepping || k.st == .training then s.modLink l (fun k => { k with pending := true })
  else s

/-- Does a direction of a link hold no flit? -/
def LinkDir.clear (D : LinkDir) : Bool := D.buf.isEmpty && D.wait.isEmpty && D.barWait.isEmpty

/-- `lnkset.down` takes effect once no flit is held and the flows of the link have moved: none has unacknowledged traffic on it
(R329, Table 18.3). -/
def closeLink (s : State) (l : Nat) : State :=
  let k := s.link l
  if k.closing && k.d0.clear && k.d1.clear && s.flows.all (fun f => f.link != l || decide (f.till ≤ s.cycle)) then
    s.modLink l (fun k => { k with st := .down, closing := false, pending := false })
  else s

/-- Retired lanes of a link, spares included. -/
def Link.retired (k : Link) (port : Bool) : Nat :=
  let ones (n : Nat) (x : Nat) : Nat := ((List.range n).filter (fun i => x.testBit i)).length
  if port then ones 4 k.ret.toNat else ones 64 k.ret.toNat + ones 4 k.spret.toNat

/-- Retire lanes: bits 63:0 the data lanes, 67:64 the spares. -/
def Link.retire (k : Link) (port : Bool) (mask : BitVec 68) : Link :=
  if port then { k with ret := k.ret ||| ((mask.extractLsb' 0 4).setWidth 64) }
  else { k with ret := k.ret ||| mask.extractLsb' 0 64, spret := k.spret ||| mask.extractLsb' 64 4 }

/-- Does training find the lanes that it needs (R336)? -/
def Link.lanesLeft (k : Link) (port : Bool) : Bool :=
  if port then decide (k.retired port ≤ 2) else decide (k.retired port ≤ 36)

/-- Must the width be halved (R336)? -/
def Link.halves (k : Link) (port : Bool) : Bool :=
  if port then decide (0 < k.retired port) else decide (4 < k.retired port)

/-- Spares in use at full width: those in use that are good, then the lowest good ones, until each retired data lane has
one (R341). -/
def Link.mapSpares (k : Link) : BitVec 4 :=
  let need := ((List.range 64).filter (fun i => k.ret.getLsbD i)).length
  (List.range 4).foldl
    (fun u i =>
      if ((List.range 4).filter (fun j => u.getLsbD j)).length < need ∧ !u.getLsbD i ∧ !k.spret.getLsbD i then
        u ||| BitVec.ofNat 4 (2 ^ i)
      else u)
    (k.spuse &&& ~~~ k.spret)

/-- The lanes that the training or retrain under way goes by: those retired since it began wait for the next (R337). -/
def Link.applied (k : Link) : Link :=
  { k with ret := k.ret &&& ~~~ (k.retNew.extractLsb' 0 64), spret := k.spret &&& ~~~ (k.retNew.extractLsb' 64 4) }

/-- How the wait of a sender ends whose packet, or its acknowledgement, is lost (R335). -/
def lossOf (e : Ev) : Option Ev :=
  match e with
  | .deltaArrival p => some (.ackArrival p.src .refused 0)
  | .foreshoreWriteArrival p => some (.ackArrival p.src .refused 0)
  | .msgArrival m => some (.ackArrival m.src .refused 0)
  | .remoteLoadArrival r => some (.remoteLoadReturn r 0 .refused)
  | .remoteLoadReturn r _ _ => some (.remoteLoadReturn r 0 .refused)
  | .ackArrival o _ _ => some (.ackArrival o .refused 0)
  | _ => none

/-- The packets that wait for a link while its training goes on wait `n` cycles more (R336). -/
def shiftFlows (s : State) (l n : Nat) : State :=
  let late (f : Flow) : Bool := f.link == l && decide (s.cycle + 96 ≤ f.across)
  let xs := s.flows.filter late
  let s' : State := { s with agenda := xs.foldl (fun a f => agendaAdd (f.due + n) f.ev (a.erase (f.due, f.ev))) s.agenda }
  { s' with flows := s.flows.map (fun f =>
      let f' : Flow := if xs.any (fun x => x.due == f.due && x.ev == f.ev) then { f with due := f.due + n } else f
      if late f then { f' with across := f.across + n, till := f.till + n } else f') }

/-- Does a flit carry traffic of the group (R335)? A barrier message (Table 15.1) and a trap record (Table 19.2) say whose
they are; of a flit of another channel, whose format the spec does not give, a free bit says so (log entry 2). -/
def flitOfGroup (g : Group) (free : Bool) (f : Flit) : Bool :=
  let x := natOf f.payload
  if f.vc = 1 then decide (x / 2 ^ 171 % 32 = g.ctx ∧ x / 2 ^ 161 % 1024 = g.base)
  else if f.vc = 2 then
    let r := x / 2 ^ 152 % 2 ^ 20
    decide (x / 2 ^ 47 % 32 = g.ctx ∧ g.base * 1024 ≤ r ∧ r < g.base * 1024 + g.v)
  else free

/-- The package's traffic that a FAILED link held is lost (R335): packets that are not across, whose senders' waits end. A
barrier message of the package reaches its node all the same: the spec gives no way to do without (log entry 69). -/
def losePackets (s : State) (l : Nat) : State :=
  let lost := s.flows.filter (fun f => f.link == l && f.vc == 0 && decide (s.cycle < f.across))
  let s : State := { s with
    agenda := lost.foldl (fun a f => a.erase (f.due, f.ev)) s.agenda
    flows := s.flows.filter (fun f => f.link != l && !lost.any (fun x => x.due == f.due && x.ev == f.ev)) }
  s.postAll (lost.filterMap (fun f => lossOf f.ev))

/-- A direction of a FAILED link: the replay buffer is empty, the receiver expects the next flit (log entry 94). -/
def LinkDir.lose (D : LinkDir) : LinkDir := { D with buf := [], eseq := D.seq, nakOut := false, rewinds := 0, barWait := [] }

/-- What a FAILED link held is lost (R335): a group that had a flit among it votes abort with LINKLOSS. Barrier messages that
waited there for data take another link. -/
def loseFlits (s : State) (l : Nat) : State :=
  let k := s.link l
  let flits := (k.d0.buf ++ k.d1.buf).map (fun x => x.2)
  let mine := s.flows.filter (fun f => f.link == l && decide (s.cycle < f.till))
  let s := (losePackets s l).modLink l (fun k => { k with d0 := k.d0.lose, d1 := k.d1.lose, st := .failed, pending := false, fails := 0 })
  let s := k.d0.barWait.foldl (fun s b => s.cross b.die true b.group b.delay b.ev) s
  let s := k.d1.barWait.foldl (fun s b => s.cross b.die false b.group b.delay b.ev) s
  (s.groups.filter (fun g => g.st == GroupSt.running)).foldl
    (fun s g =>
      let r := freeBit s
      if flits.any (flitOfGroup g r.1) || mine.any (fun f => f.group == some g.id) then
        let s := r.2.post 0 (.abortAtDecision g.id (abortMsg g.ss g.att (Cause.code .linkloss) none))
        decisionSends s g
          { code := Cause.code .linkloss, cls := 1, defer := false, ctx := BitVec.ofNat 5 g.ctx, att := BitVec.ofNat 4 g.att,
            ss := g.ss, strand := 0, vidx := BitVec.ofNat 20 (g.base * 1024), phys := decisionPhys s g, pc := 0, info := 0, colmap := 0 }
      else r.2)
    s

/-- A die whose links to the I/O chiplet are all FAILED ends every context with a tile on it (R329). -/
def dieLost (s : State) (l : Nat) : State :=
  if l < 32 ∧ (pathOf l).all (fun j => (s.link j).st == .failed) then
    let d := l / 8
    ((List.range 32).filter (fun c => s.groups.any (fun g => g.ctx == c && g.st != GroupSt.ended && (groupDies g).contains d))).foldl
      (fun s c => contextFatal s c .dielost) s
  else s

/-- FAILED (Table 18.3). -/
def enterFailed (s : State) (l : Nat) : State :=
  closeLink (dieLost (degrade (loseFlits s l) l 4) l) l

/-! ### Flits (R330 to R335, R340) -/

/-- A truth value as a bit of weight `w`. -/
def bitAt (b : Bool) (w : Nat) : Nat := if b then 2 ^ w else 0

/-- Bytes 0 to 15 of a flit as a number (Table 18.2). -/
def flitHeader (f : Flit) : Nat :=
  f.seq.toNat + bitAt f.seqd 20 + f.vc.toNat * 2 ^ 22 + f.ack.toNat * 2 ^ 24 + bitAt f.ackv 36 + bitAt f.nak 37 +
    f.payload.length % 256 * 2 ^ 38 + f.cvc.toNat * 2 ^ 46 + f.crd.toNat * 2 ^ 48

/-- Bytes 0 to 251 of a flit: header and payload, zeros behind it. -/
def flitBody (f : Flit) : List Byte := bytesOf 16 (flitHeader f) ++ (f.payload ++ List.replicate 236 0).take 236

/-- The 256 bytes of a flit (R330). One that arrives bad differs in its CRC: which bytes suffer makes no difference, since a
flit with a bad CRC is discarded whole (R332). -/
def flitBytes (f : Flit) : List Byte :=
  let c := crc32 (flitBody f)
  flitBody f ++ bytesOf 4 (if f.good then c else ~~~c).toNat

/-- What 256 received bytes say (R330). A good flit of the reserved kinds 2 and 3 delivers nothing, as kind 0 (log entry 68). -/
def flitOf (bs : List Byte) : Flit :=
  let h := natOf (bs.take 16)
  { good := crc32 (bs.take 252) == BitVec.ofNat 32 (natOf ((bs.drop 252).take 4))
    seqd := decide (h / 2 ^ 20 % 4 = 1)
    seq := BitVec.ofNat 12 h
    vc := BitVec.ofNat 2 (h / 2 ^ 22)
    ackv := decide (h / 2 ^ 36 % 2 = 1)
    ack := BitVec.ofNat 12 (h / 2 ^ 24)
    nak := decide (h / 2 ^ 37 % 2 = 1)
    cvc := BitVec.ofNat 2 (h / 2 ^ 46)
    crd := BitVec.ofNat 8 (h / 2 ^ 48)
    payload := (bs.drop 16).take (h / 2 ^ 38 % 256) }

/-- A flit sent arrives after the travel time and `d` cycles more. -/
def sendFlit (s : State) (l d : Nat) (dir : Bool) (f : Flit) : State :=
  s.post (flitDelay l + d) (.flitReceive l dir (flitBytes f))

/-- A null flit that carries an acknowledgement or a NAK, and a credit of a channel. Whether it arrives good is a free value. -/
def sendNull (s : State) (l : Nat) (dir : Bool) (ack : BitVec 12) (nak : Bool) (cvc : BitVec 2) (crd : BitVec 8) : State :=
  let r := freeBit s
  sendFlit r.2 l 0 dir
    { good := r.1, seqd := false, seq := 0, vc := 0, ackv := true, ack := ack, nak := nak, cvc := cvc, crd := crd, payload := [] }

/-- The governor (R340): a rewind beyond RMAX in a window at a step above 2. -/
def governor (s : State) (l : Nat) : State :=
  let k := s.link l
  if 2 < k.step.toNat ∧ k.rmax.toNat < k.rew.toNat then
    let cap := k.step - 1
    let s := s.modLink l (fun k => { k with gcap := cap, flits := 0, rew := 0, backoff := (s.cycle, cap) })
    degrade (requestStep s l (bmin k.target cap)) l 1
  else s

/-- The sender of a direction rewinds (R332, R335): every buffered flit goes out again in order. -/
def rewind (s : State) (l : Nat) (dir : Bool) : State :=
  let s := s.modLink l (fun k =>
    let D := k.dir dir
    { k.setDir dir { D with rewinds := D.rewinds + 1, progress := s.cycle } with lrep := k.lrep + 1, rew := k.rew + 1 })
  let s := ((s.link l).dir dir).buf.zipIdx.foldl
    (fun s x =>
      let r := freeBit s
      sendFlit r.2 l x.2 dir { x.1.2 with good := r.1 })
    s
  let s := governor s l
  if 8 ≤ ((s.link l).dir dir).rewinds then
    requestStep (s.modLink l (fun k => k.setDir dir { k.dir dir with rewinds := 0 })) l (s.link l).step
  else s

/-- Is a sequence number at most another, modulo 4,096 (R331)? -/
def seqLe (a b : BitVec 12) : Bool := decide ((b - a).toNat < 2048)

/-- A sequenced flit is sent: it counts in the governor's window, and with payload as a slot used (R339, R340). -/
def flitSent (s : State) (l : Nat) (dir : Bool) (f : Flit) : State :=
  if !f.seqd then s
  else
    s.modLink l (fun k =>
      let full := decide (2 ^ 20 ≤ k.flits.toNat)
      let D := k.dir dir
      let k := k.setDir dir { D with paid := if f.payload.isEmpty then D.paid else D.paid + 1 }
      { k with flits := if full then 1 else k.flits + 1, rew := if full then 0 else k.rew })

/-- May the sender send a new flit (R269, R331, R336)? The link is operational, the replay buffer has room, the flit's channel has
credit, and no data that went before a barrier message is unacknowledged. -/
def flitGoes (k : Link) (D : LinkDir) (f : Flit) : Bool :=
  k.operational && decide (D.buf.length < 1024) && decide (0 < D.credit[f.vc.toNat]) &&
    !(f.vc == 1 && D.buf.any (fun x => x.2.vc == 0))

/-- A new flit takes the next sequence number, a credit and a place in the replay buffer (R331). -/
def flitEnters (s : State) (l : Nat) (dir : Bool) (f : Flit) : State :=
  let D := (s.link l).dir dir
  let s := s.modLink l (fun k => k.setDir dir
    { D with
      seq := D.seq + 1, buf := D.buf ++ [(D.seq, { f with seq := D.seq, good := true })]
      credit := D.credit.set f.vc.toNat (D.credit[f.vc.toNat] - 1)
      progress := if D.buf.isEmpty then s.cycle else D.progress })
  if D.buf.isEmpty then s.post (rto l) (.replayTimeout l dir) else s

/-- The first held flit that may go, with those that stay. -/
def nextFlit (k : Link) (D : LinkDir) : List Flit → Option (Flit × List Flit)
  | [] => none
  | f :: r =>
    if flitGoes k D f then some (f, r)
    else (nextFlit k D r).map (fun x => (x.1, f :: x.2))

/-- The flits that the sender holds go out, as many as may: a channel that waits does not hold up another (R331). -/
def drainWait (s : State) (l : Nat) (dir : Bool) : Nat → State
  | 0 => s
  | n + 1 =>
    let k := s.link l
    let D := k.dir dir
    match nextFlit k D D.wait with
    | none => s
    | some (f, r) =>
      let s := s.modLink l (fun k => k.setDir dir { D with wait := r })
      let b := freeBit (flitEnters s l dir f)
      drainWait (sendFlit b.2 l 0 dir { f with seq := D.seq, good := b.1 }) l dir n

/-- The barrier messages go out whose earlier data has been acknowledged (R269). -/
def serveBars (s : State) (l : Nat) (dir : Bool) : State :=
  let D := (s.link l).dir dir
  let ready (b : BarWait) : Bool := b.seqs.all (fun q => !D.buf.any (fun x => x.1 == q))
  let s := s.modLink l (fun k => k.setDir dir { D with barWait := D.barWait.filter (fun b => !ready b) })
  (D.barWait.filter ready).foldl (fun s b => s.barSend l b.die (!dir) b.group b.after b.delay b.ev) s

/-- ACK, NAK and CRD of a good flit, for the sender of the other direction (Table 18.2, R332). -/
def flitAcks (s : State) (l : Nat) (dir : Bool) (f : Flit) : State :=
  let o := !dir
  let s := s.modLink l (fun k =>
    let D := k.dir o
    k.setDir o { D with credit := D.credit.set f.cvc.toNat (D.credit[f.cvc.toNat] + f.crd.toNat) })
  let s :=
    if !f.ackv then s
    else
      let D := (s.link l).dir o
      let left := D.buf.filter (fun x => !seqLe x.1 f.ack)
      let s :=
        if left.length < D.buf.length then
          s.modLink l (fun k => k.setDir o { k.dir o with buf := left, progress := s.cycle, rewinds := 0 })
        else s
      if f.nak then rewind s l o else s
  closeLink (drainWait (serveBars s l o) l o ((s.link l).dir o).wait.length) l

/-- A NAK of ESEQ - 1 goes back unless one is outstanding (R332). -/
def sendNak (s : State) (l : Nat) (dir : Bool) : State :=
  let D := (s.link l).dir dir
  if D.nakOut then s
  else sendNull (s.modLink l (fun k => k.setDir dir { D with nakOut := true })) l (!dir) (D.eseq - 1) true 0 0

/-- The receiver's part (R332). The receive buffer of a delivered flit is free at once: its credit goes back with the
acknowledgement (R331; log entry 94). -/
def flitTaken (s : State) (l : Nat) (dir : Bool) (f : Flit) : State :=
  let D := (s.link l).dir dir
  if !f.good then sendNak (s.modLink l (fun k => { k with lcrc := k.lcrc + 1 })) l dir
  else
    let s := flitAcks s l dir f
    let D' := (s.link l).dir dir
    if !f.seqd then s
    else if f.seq = D.eseq then
      sendNull
        (s.modLink l (fun k => k.setDir dir
          { D' with delivered := D'.delivered ++ [(f.vc, f.payload)], eseq := D.eseq + 1, nakOut := false }))
        l (!dir) D.eseq false f.vc 1
    else if seqLe f.seq D.eseq then s
    else sendNak s l dir

/-- The flit that the sender of a bad one keeps: its channel and its payload are free values (log entry 2). -/
def unknownFlit (s : State) (f : Flit) : Flit × State :=
  let v := s.freshNat
  let n := v.2.freshNat
  let p := n.2.freshNat
  ({ f with good := true, vc := BitVec.ofNat 2 v.1, payload := bytesOf (n.1 % 237) p.1 }, p.2)

/-- Is it a new flit of the sender's, behind those that it holds? -/
def flitNew (D : LinkDir) (f : Flit) : Bool := f.seqd && f.seq == D.seq + BitVec.ofNat 12 D.wait.length

/-- A new flit of a sender: it goes out and is received, or the sender holds it (R331, R336). -/
def newFlit (s : State) (l : Nat) (dir : Bool) (f : Flit) : State :=
  let u := if f.good then (f, s) else unknownFlit s f
  let s := u.2
  let k := s.link l
  let D := k.dir dir
  if flitGoes k D u.1 && !D.wait.any (fun x => x.vc == u.1.vc) then
    flitTaken (flitEnters (flitSent s l dir f) l dir u.1) l dir { f with seq := D.seq }
  else s.modLink l (fun k => k.setDir dir { D with wait := D.wait ++ [u.1] })

/-- FLIT_RECEIVE (R330 to R332, R336): while the link is not operational a new flit is held at its sender, and one on its way
comes later; on a link that is DOWN or FAILED nothing is on its way. -/
def execFlitReceive (s : State) : Host.Outcome State Fault Refusal :=
  match s.ev with
  | some (.flitReceive l dir bs) =>
    let k := s.link l
    let f := flitOf bs
    if flitNew (k.dir dir) f then .next (newFlit s l dir f)
    else if k.operational then .next (flitTaken (flitSent s l dir f) l dir f)
    else if k.st == .stepping || k.st == .training then .next (s.post (rtw l) (.flitReceive l dir bs))
    else .next s
  | _ => .next s

/-- REPLAY_TIMEOUT (R332): no progress of ACK for RTO while flits are unacknowledged. -/
def execReplayTimeout (s : State) : Host.Outcome State Fault Refusal :=
  match s.ev with
  | some (.replayTimeout l dir) =>
    let k := s.link l
    let D := k.dir dir
    if D.buf.isEmpty then .next s
    else if s.cycle < D.progress + rto l then .next (s.post (D.progress + rto l - s.cycle) (.replayTimeout l dir))
    else if k.operational then .next (rewind (s.post (rto l) (.replayTimeout l dir)) l dir)
    else .next (s.post (rto l) (.replayTimeout l dir))
  | _ => .next s

/-! ### The end of a training (R336, R337, R341) -/

/-- Training or a retrain succeeds at a step (Table 18.3, R337, R341): traffic resumes. With AUTO = 0 the link goes on to its step
(R339). -/
def trained (s : State) (l : Nat) (step : BitVec 3) : State :=
  let k := (s.link l).applied
  let half := k.halves (isPort l)
  let use := if half ∨ isPort l then k.spuse &&& ~~~ k.spret else k.mapSpares
  let new := ((List.range 4).filter (fun i => use.getLsbD i && !k.spuse.getLsbD i)).length
  let step := if half ∧ 2 < step.toNat then 2 else step
  let st : LinkSt := if half then .degraded else if 2 < step.toNat then .overtop else .up
  let s := s.modLink l (fun k => { k with st := st, step := step, half := half, spuse := use, fails := 0, pending := false })
  let s := (List.range new).foldl (fun s _ => degrade s l 2) s
  let s := if half && !k.half then degrade s l 3 else s
  let top := if half ∧ 2 < k.aim.toNat then 2 else k.aim
  let s := if k.pending || (!k.auto_ && step != top) then requestStep s l (s.link l).aim else s
  closeLink (drainWait (drainWait s.sendHeld l false 4096) l true 4096) l

/-- Training fails (Table 18.3). -/
def trainFails (s : State) (l : Nat) (fails : Nat) (step : BitVec 3) : State :=
  if 4 ≤ fails then enterFailed s l
  else
    let s := s.modLink l (fun k => { k with fails := fails })
    closeLink (enterTraining (shiftFlows s l (rtw l)) l (if step = 0 then 0 else step - 1)) l

/-- Training tries the lanes: those that fail it, a free choice, are retired (R336, R341). -/
def tryLanes (s : State) (l : Nat) : State :=
  let r := s.freshNat
  r.2.modLink l (fun k => k.retire (isPort l) (BitVec.ofNat 68 r.1))

/-- LINK_TRAINING_DONE (Table 18.3). -/
def execLinkTrainingDone (s : State) : Host.Outcome State Fault Refusal :=
  match s.ev with
  | some (.linkTrainingDone l ok) =>
    let k := s.link l
    if k.st ≠ .training ∨ s.cycle < k.busyUntil then .next s
    else
      let s := tryLanes s l
      if ok ∧ (s.link l).applied.lanesLeft (isPort l) then .next (trained s l k.step) else .next (trainFails s l (k.fails + 1) k.step)
  | _ => .next s

/-- LINK_RETRAIN_DONE (Table 18.3): a failed retrain is the first failure of a training. -/
def execLinkRetrainDone (s : State) : Host.Outcome State Fault Refusal :=
  match s.ev with
  | some (.linkRetrainDone l ok) =>
    let k := s.link l
    if k.st ≠ .stepping ∨ s.cycle < k.busyUntil then .next s
    else
      let s := tryLanes s l
      if ok ∧ (s.link l).applied.lanesLeft (isPort l) then .next (trained s l k.want) else .next (trainFails s l 1 k.want)
  | _ => .next s

/-! ### Stepping with traffic (R339) and routes (R329) -/

/-- The step up to which a link with AUTO = 1 goes with its traffic (R339). -/
def Link.top (k : Link) : BitVec 3 := if k.half ∧ 2 < k.aim.toNat then 2 else k.aim

/-- May a link step up with its traffic (R339)? -/
def mayStepUp (k : Link) : Bool := k.auto_ && k.operational && decide (k.step.toNat < k.top.toNat)

/-- AUTO_STEP_DOWN (R339). -/
def execAutoStepDown (s : State) : Host.Outcome State Fault Refusal :=
  match s.ev with
  | some (.autoStepDown l) =>
    let k := s.link l
    if k.auto_ && k.operational && decide (k.floor_.toNat < k.step.toNat) then .next (requestStep s l (k.step - 1))
    else .next s
  | _ => .next s

/-- AUTO_STEP_UP (R339). -/
def execAutoStepUp (s : State) : Host.Outcome State Fault Refusal :=
  match s.ev with
  | some (.autoStepUp l) =>
    let k := s.link l
    .next (if mayStepUp k then requestStep s l (k.step + 1) else s)
  | _ => .next s

/-- ROUTE_TABLE_CHANGE (R329): traffic that a FAILED port held takes the new route. -/
def execRouteTableChange (s : State) : Host.Outcome State Fault Refusal :=
  match s.ev with
  | some (.routeTableChange r) => .next { s with routes := r }.sendHeld
  | _ => .next s

/-! ### Link forms (R343, R344, Tables 18.5 to 18.8) -/

/-- A register of a link. -/
def linkWord (k : Link) (r : BitVec 3) : Word :=
  match r.toNat with
  | 0 =>
    let st : Nat := match k.st with
      | .down => 0 | .training => 1 | .up => 2 | .overtop => 3 | .stepping => 4 | .degraded => 5 | .failed => 6
    BitVec.ofNat 64 (st * 2 ^ 61 + k.step.toNat * 2 ^ 58 + k.gcap.toNat * 2 ^ 55 + (if k.half then 2 ^ 54 else 0) +
      k.spuse.toNat * 2 ^ 48 + k.spret.toNat * 2 ^ 44 + k.degc.toNat * 2 ^ 16)
  | 1 => k.ret
  | 2 => k.lcrc
  | 3 => k.lrep
  | 4 => k.flits ++ k.rew
  | _ =>
    BitVec.ofNat 64 ((if k.auto_ then 2 ^ 63 else 0) + (if k.oven then 2 ^ 62 else 0) + k.target.toNat * 2 ^ 55 +
      k.floor_.toNat * 2 ^ 52 + k.rmax.toNat * 2 ^ 16)

/-- LNKRD (R344). -/
def execLnkrd (p : Pred) (r : BitVec 3) (d : BitVec 5) (a : GSrc) (s : State) : Host.Outcome State Fault Refusal :=
  issue p 8 .any [.g a] [.g d]
    (fun s t n =>
      let l := (gv s t n a).toNat
      .done (setG s t n d (if l < 64 then linkWord (s.link l) r else BitVec.allOnes 64))) s

/-- `Lnkset` (R344). A backoff of the same cycle then lowers GCAP from the write (R337). A write that finds the link training
requests nothing; the step with AUTO = 0 follows when the training ends (R339; DEDUCED, log entry 31). -/
def lnkSet (s : State) (L v : Word) : State × Word :=
  let l := L.toNat
  let target := v.extractLsb' 55 3
  let floor := v.extractLsb' 52 3
  let oven := v.getLsbD 62
  if 64 ≤ l then (s, 4)
  else if target.toNat < floor.toNat ∨ (2 < target.toNat ∧ (!oven ∨ 48 ≤ l)) ∨ (oven ∧ 48 ≤ l) then (s, 1)
  else
    let s := s.modLink l (fun k =>
      let back := decide (k.backoff.1 = s.cycle)
      let cap := if back then bmin 6 k.backoff.2 else 6
      { k with auto_ := v.getLsbD 63, oven := oven, target := target, floor_ := floor, rmax := v.extractLsb' 16 16
               gcap := cap, want := if back then bmin target cap else k.want })
    let k := s.link l
    (if k.operational ∧ k.step ≠ k.aim then requestStep s l k.aim else s, 0)

/-- `LnksetUp` (R344). -/
def lnkUp (s : State) (L : Word) : State × Word :=
  let l := L.toNat
  if 64 ≤ l then (s, 4)
  else
    let k := s.link l
    if k.st = .down ∨ k.st = .failed then
      (enterTraining (s.modLink l (fun k => { k with fails := 0, closing := false, cold := false, pending := false })) l k.aim, 0)
    else (s, 2)

/-- `LnksetDown` (R344). -/
def lnkDown (s : State) (L : Word) : State × Word :=
  let l := L.toNat
  if 64 ≤ l then (s, 4)
  else if (s.link l).st = .down then (s, 2)
  else if (pathOf l).all (fun j => j == l || (s.link j).st == .down || (s.link j).st == .failed) then (s, 3)
  else (closeLink (s.modLink l (fun k => { k with closing := true })) l, 0)

/-- `Lnkret` (R344). A lane retired while the link trains waits for the next retrain (R337). -/
def lnkRet (s : State) (L : Word) (n : BitVec 7) : State × Word :=
  let l := L.toNat
  if 64 ≤ l then (s, 4)
  else if isPort l ∧ 3 < n.toNat then (s, 1)
  else
    let k := s.link l
    if (if n.toNat < 64 then k.ret.getLsbD n.toNat else k.spret.getLsbD (n.toNat - 64)) then (s, 2)
    else
      let m : BitVec 68 := BitVec.ofNat 68 (2 ^ n.toNat)
      let s := s.modLink l (fun k =>
        let k := k.retire (isPort l) m
        if k.st == .stepping || k.st == .training then { k with retNew := k.retNew ||| m } else k)
      (requestStep s l k.step, 0)

/-- LNKSET (R344). -/
def execLnkset (p : Pred) (d : BitVec 5) (a b : GSrc) (s : State) : Host.Outcome State Fault Refusal :=
  monForm p 12 d [a, b] (fun s t n => lnkSet s (gv s t n a) (gv s t n b)) s

/-- LNKSET_UP (R344). -/
def execLnksetUp (p : Pred) (d : BitVec 5) (a : GSrc) (s : State) : Host.Outcome State Fault Refusal :=
  monForm p 12 d [a] (fun s t n => lnkUp s (gv s t n a)) s

/-- LNKSET_DOWN (R344). -/
def execLnksetDown (p : Pred) (d : BitVec 5) (a : GSrc) (s : State) : Host.Outcome State Fault Refusal :=
  monForm p 12 d [a] (fun s t n => lnkDown s (gv s t n a)) s

/-- LNKRET (R344). -/
def execLnkret (p : Pred) (n : BitVec 7) (d : BitVec 5) (a : GSrc) (s : State) : Host.Outcome State Fault Refusal :=
  monForm p 8 d [a] (fun s t m => lnkRet s (gv s t m a) n) s

/-! ### The end of a cycle -/

/-- Flit slots of a direction in 64 µs (R330, Table 18.4). -/
def flitSlots (l : Nat) (k : Link) : Nat :=
  let n :=
    if isPort l then [7000, 14000, 28000].getD k.step.toNat 28000
    else [32000, 48000, 64000, 72000, 80000, 88000, 96000].getD k.step.toNat 96000
  if k.half then n / 2 else n

/-- A link steps up when a sender holds more than 64 flits (R339): those held here, or, as a free value says of one link in a
cycle, those of the package's packets, whose flits are not counted (log entry 94). -/
def stepUps (s : State) : State :=
  let ls := (List.range 64).filter (fun l => mayStepUp (s.link l))
  if ls.isEmpty then s
  else
    let r := s.freshNat
    ls.foldl (fun s l =>
      let k := s.link l
      if decide (64 < k.d0.wait.length ∨ 64 < k.d1.wait.length) || r.1 % 128 == l then s.post 1 (.autoStepUp l) else s) r.2

/-- After 64 µs a link steps down in which each direction had payload in fewer than a quarter of its slots (R339): it counts the
flits received here; a free value says whether the package's packets filled more (log entry 94). -/
def stepDowns (s : State) : State :=
  if s.cycle % 102400 ≠ 102399 then s
  else
    (List.range 64).foldl
      (fun s l =>
        let k := s.link l
        let few := decide (4 * k.d0.paid < flitSlots l k) && decide (4 * k.d1.paid < flitSlots l k)
        let s := if k.d0.paid = 0 ∧ k.d1.paid = 0 then s else
          s.modLink l (fun k => { k with d0 := { k.d0 with paid := 0 }, d1 := { k.d1 with paid := 0 } })
        if k.auto_ && k.operational && few then
          let r := freeBit s
          if r.1 then r.2.post 1 (.autoStepDown l) else r.2
        else s) s

/-- Links at the end of a cycle: after cold reset training starts (Table 18.3), on the scale-up ports once the monitor's
image runs, since no port leaves reset before (R216); a link that is to go down does when its flows have moved; traffic may
step a link (R339). -/
def tickLinks (s : State) : State :=
  let s := (List.range 64).foldl
    (fun s l =>
      let k := s.link l
      if k.cold && (!isPort l || s.mon.boot != .waiting) then
        enterTraining (s.modLink l (fun k => { k with cold := false })) l k.aim
      else if k.closing then closeLink s l else s) s
  stepUps (stepDowns s)

end Sys2Proof.Machine
end

