-- ==== Sys2Proof/Machine/Scalar.lean ====
section
/-! DEFINITION. The scalar forms 0x00 to 0x1C: no operation (R68), arithmetic (R99, R100), the other scalar forms
(R101), context tile addresses (R102), special registers (R90 to R92). -/

namespace Sys2Proof.Machine

open Sys2Proof

/-- NOP (R68). -/
def execNop (p : Pred) (s : State) : Host.Outcome State Fault Refusal :=
  issue p 8 .any [] [] (fun s _ _ => .done s) s

/-! ### The forms of R61 and R99 -/

/-- The 64-bit result of a form of R99: `f` gives the exact result from the operands read by the width code. -/
def aluRes (f : Nat → Int → Int → Int) (wd : BitVec 3) (a b : Word) : Word :=
  let w := 8 * widthBytes wd
  let sg := decide (4 ≤ wd.toNat)
  BitVec.ofInt 64 (readInt sg w (wrapInt w (f w (readInt sg w a.toNat) (readInt sg w b.toNat))))

/-- A form of R99 whose result stands in the issue cycle. -/
def aluNow (f : Nat → Int → Int → Int) (p : Pred) (o : AluOps) (s : State) : Host.Outcome State Fault Refusal :=
  issue p 8 .any (aluSrcs o) [.g o.d]
    (fun s t n => .done (setG s t n o.d (aluRes f o.wd (gv s t n o.a) (aluVal s t n o.b)))) s

/-- A form of R99 whose result comes `lat` cycles later (Table 5.3). -/
def aluLate (lat : Nat) (f : Nat → Int → Int → Int) (p : Pred) (o : AluOps) (s : State) :
    Host.Outcome State Fault Refusal :=
  issue p 8 .any (aluSrcs o) [.g o.d]
    (fun s t n => .done (laterG s t n o.d (aluRes f o.wd (gv s t n o.a) (aluVal s t n o.b)) lat)) s

/-- F of `add` (Table 5.4). -/
def fAdd (_ : Nat) (x y : Int) : Int := x + y
/-- F of `sub`. -/
def fSub (_ : Nat) (x y : Int) : Int := x - y
/-- F of `mul`. -/
def fMul (_ : Nat) (x y : Int) : Int := x * y
/-- F of `mulh`: bits [2w-1:w] of the exact product. -/
def fMulh (w : Nat) (x y : Int) : Int := x * y / (2 ^ w : Int)
/-- F of `div` (R34). -/
def fDiv (_ : Nat) (x y : Int) : Int := if y = 0 then -1 else x.tdiv y
/-- F of `rem` (R34). -/
def fRem (_ : Nat) (x y : Int) : Int := if y = 0 then x else x.tmod y
/-- F of `and`. -/
def fAnd (w : Nat) (x y : Int) : Int := ((wrapInt w x &&& wrapInt w y : Nat) : Int)
/-- F of `or`. -/
def fOr (w : Nat) (x y : Int) : Int := ((wrapInt w x ||| wrapInt w y : Nat) : Int)
/-- F of `xor`. -/
def fXor (w : Nat) (x y : Int) : Int := ((wrapInt w x ^^^ wrapInt w y : Nat) : Int)
/-- F of `andn`. -/
def fAndn (w : Nat) (x y : Int) : Int := ((wrapInt w x &&& (2 ^ w - 1 - wrapInt w y) : Nat) : Int)
/-- F of `shl`. -/
def fShl (w : Nat) (x y : Int) : Int := ((wrapInt w x * 2 ^ (wrapInt w y % w) : Nat) : Int)
/-- F of `shr`. -/
def fShr (w : Nat) (x y : Int) : Int := ((wrapInt w x / 2 ^ (wrapInt w y % w) : Nat) : Int)
/-- F of `sra`. -/
def fSra (w : Nat) (x y : Int) : Int := readInt true w (wrapInt w x) / (2 ^ (wrapInt w y % w) : Int)
/-- F of `rot`. -/
def fRot (w : Nat) (x y : Int) : Int :=
  let k := wrapInt w y % w
  ((wrapInt w x * 2 ^ k + wrapInt w x / 2 ^ (w - k) : Nat) : Int)
/-- F of `min`. -/
def fMin (_ : Nat) (x y : Int) : Int := if x ≤ y then x else y
/-- F of `max`. -/
def fMax (_ : Nat) (x y : Int) : Int := if x ≤ y then y else x

/-- ADD (R99). -/
def execAdd (p : Pred) (o : AluOps) (s : State) : Host.Outcome State Fault Refusal := aluNow fAdd p o s
/-- SUB (R99). -/
def execSub (p : Pred) (o : AluOps) (s : State) : Host.Outcome State Fault Refusal := aluNow fSub p o s
/-- MUL (R99, Table 5.3). -/
def execMul (p : Pred) (o : AluOps) (s : State) : Host.Outcome State Fault Refusal := aluLate 3 fMul p o s
/-- MULH (R99). -/
def execMulh (p : Pred) (o : AluOps) (s : State) : Host.Outcome State Fault Refusal := aluLate 3 fMulh p o s
/-- DIV (R99, R34). -/
def execDiv (p : Pred) (o : AluOps) (s : State) : Host.Outcome State Fault Refusal := aluLate 20 fDiv p o s
/-- REM (R99, R34). -/
def execRem (p : Pred) (o : AluOps) (s : State) : Host.Outcome State Fault Refusal := aluLate 20 fRem p o s
/-- AND (R99). -/
def execAnd (p : Pred) (o : AluOps) (s : State) : Host.Outcome State Fault Refusal := aluNow fAnd p o s
/-- OR (R99). -/
def execOr (p : Pred) (o : AluOps) (s : State) : Host.Outcome State Fault Refusal := aluNow fOr p o s
/-- XOR (R99). -/
def execXor (p : Pred) (o : AluOps) (s : State) : Host.Outcome State Fault Refusal := aluNow fXor p o s
/-- ANDN (R99). -/
def execAndn (p : Pred) (o : AluOps) (s : State) : Host.Outcome State Fault Refusal := aluNow fAndn p o s
/-- SHL (R99). -/
def execShl (p : Pred) (o : AluOps) (s : State) : Host.Outcome State Fault Refusal := aluNow fShl p o s
/-- SHR (R99). -/
def execShr (p : Pred) (o : AluOps) (s : State) : Host.Outcome State Fault Refusal := aluNow fShr p o s
/-- SRA (R99). -/
def execSra (p : Pred) (o : AluOps) (s : State) : Host.Outcome State Fault Refusal := aluNow fSra p o s
/-- ROT (R99). -/
def execRot (p : Pred) (o : AluOps) (s : State) : Host.Outcome State Fault Refusal := aluNow fRot p o s
/-- MIN (R99). -/
def execMin (p : Pred) (o : AluOps) (s : State) : Host.Outcome State Fault Refusal := aluNow fMin p o s
/-- MAX (R99). -/
def execMax (p : Pred) (o : AluOps) (s : State) : Host.Outcome State Fault Refusal := aluNow fMax p o s

/-! ### Other scalar forms (R100 to R102) -/

/-- CMP (R101). -/
def execCmp (p : Pred) (cond : BitVec 4) (d : BitVec 3) (a b : GSrc) (imm : BitVec 26) (s : State) :
    Host.Outcome State Fault Refusal :=
  issue p 8 .any [.g a, .g b] []
    (fun s t n => .done (setP s t n d (cmpCond cond (gv s t n a) (gv s t n b + imm.signExtend 64)))) s

/-- SEL (R101). -/
def execSel (p : Pred) (d : BitVec 5) (a b : GSrc) (c : BitVec 3) (neg : Bool) (s : State) :
    Host.Outcome State Fault Refusal :=
  issue p 8 .any [.g a, .g b] [.g d]
    (fun s t n => .done (setG s t n d (if ((s.strand t n).rp c != neg) then gv s t n a else gv s t n b))) s

/-- Leading zeros of 64 bits. -/
def clz64 (x : Word) : Nat := if x = 0 then 64 else 63 - Nat.log2 x.toNat

/-- Trailing zeros of 64 bits. -/
def ctz64 (x : Word) : Nat := ((List.range 64).find? (fun i => x.getLsbD i)).getD 64

/-- Ones of 64 bits. -/
def popc64 (x : Word) : Nat := ((List.range 64).filter (fun i => x.getLsbD i)).length

/-- A form with one g source and a g result in the issue cycle. -/
def unaryG (f : Word → Word) (p : Pred) (d : BitVec 5) (a : GSrc) (s : State) : Host.Outcome State Fault Refusal :=
  issue p 8 .any [.g a] [.g d] (fun s t n => .done (setG s t n d (f (gv s t n a)))) s

/-- BITC_CLZ (R101). -/
def execBitcClz (p : Pred) (d : BitVec 5) (a : GSrc) (s : State) : Host.Outcome State Fault Refusal :=
  unaryG (fun x => BitVec.ofNat 64 (clz64 x)) p d a s

/-- BITC_CTZ (R101). -/
def execBitcCtz (p : Pred) (d : BitVec 5) (a : GSrc) (s : State) : Host.Outcome State Fault Refusal :=
  unaryG (fun x => BitVec.ofNat 64 (ctz64 x)) p d a s

/-- BITC_POPC (R101). -/
def execBitcPopc (p : Pred) (d : BitVec 5) (a : GSrc) (s : State) : Host.Outcome State Fault Refusal :=
  unaryG (fun x => BitVec.ofNat 64 (popc64 x)) p d a s

/-- Bits [pos + len - 1 : pos] extended (R101). -/
def extBits (sx : Bool) (x : Word) (pos len : Nat) : Word := BitVec.ofInt 64 (readInt sx len (x.toNat / 2 ^ pos))

/-- Bits [pos + len - 1 : pos] replaced (R101). -/
def insBits (old x : Word) (pos len : Nat) : Word :=
  let m : Word := BitVec.ofNat 64 ((2 ^ len - 1) * 2 ^ pos)
  (old &&& ~~~m) ||| (BitVec.ofNat 64 (x.toNat * 2 ^ pos) &&& m)

/-- Is the bit range of `ext` and `ins` legal (R101)? -/
def rangeOk (pos : BitVec 6) (len : BitVec 7) : Bool :=
  decide (1 ≤ len.toNat ∧ len.toNat ≤ 64 ∧ pos.toNat + len.toNat ≤ 64)

/-- EXT (R101). -/
def execExt (p : Pred) (sx : Bool) (d : BitVec 5) (a : GSrc) (pos : BitVec 6) (len : BitVec 7) (s : State) :
    Host.Outcome State Fault Refusal :=
  issue p 8 .any [.g a] [.g d]
    (fun s t n =>
      if rangeOk pos len then .done (setG s t n d (extBits sx (gv s t n a) pos.toNat len.toNat)) else .trap .illegal 0) s

/-- INS (R101). -/
def execIns (p : Pred) (d : BitVec 5) (a : GSrc) (pos : BitVec 6) (len : BitVec 7) (s : State) :
    Host.Outcome State Fault Refusal :=
  issue p 8 .any [.g a] [.g d]
    (fun s t n =>
      if rangeOk pos len then
        .done (setG s t n d (insBits ((s.strand t n).rg d) (gv s t n a) pos.toNat len.toNat))
      else .trap .illegal 0) s

/-- LI (R101). -/
def execLi (p : Pred) (d : BitVec 5) (v : Word) (s : State) : Host.Outcome State Fault Refusal :=
  issue p 16 .any [] [.g d] (fun s t n => .done (setG s t n d v)) s

/-- LEA (R101). -/
def execLea (p : Pred) (sc : BitVec 2) (d : BitVec 5) (a b : GSrc) (imm : BitVec 26) (s : State) :
    Host.Outcome State Fault Refusal :=
  issue p 8 .any [.g a, .g b] [.g d]
    (fun s t n => .done (setG s t n d (gv s t n a + (gv s t n b <<< sc.toNat) + imm.signExtend 64))) s

/-- A context tile address from an index and an offset (R102). -/
def gtaOf (idx : BitVec 20) (ofs : Word) : Word := (idx.setWidth 64 <<< (44 : Nat)) ||| (ofs &&& 0x1FFFFF)

/-- GTA_IDX (R102). -/
def execGtaIdx (p : Pred) (d : BitVec 5) (a b : GSrc) (s : State) : Host.Outcome State Fault Refusal :=
  issue p 12 .any [.g a, .g b] [.g d]
    (fun s t n => .done (setG s t n d (gtaOf ((gv s t n a).setWidth 20) (gv s t n b)))) s

/-- The index of the virtual tile at a row and column distance in the same block of 1,024 (R102). -/
def gtaRelIdx (v : BitVec 20) (drow dcol : BitVec 5) : BitVec 20 :=
  v.extractLsb' 10 10 ++ (v.extractLsb' 5 5 + drow) ++ (v.extractLsb' 0 5 + dcol)

/-- GTA_REL (R102). -/
def execGtaRel (p : Pred) (d : BitVec 5) (b : GSrc) (drow dcol : BitVec 5) (s : State) :
    Host.Outcome State Fault Refusal :=
  issue p 12 .any [.g b] [.g d]
    (fun s t n => .done (setG s t n d (gtaOf (gtaRelIdx (s.tile t).v.idx drow dcol) (gv s t n b)))) s

/-- PLOG (R101). -/
def execPlog (p : Pred) (tt : BitVec 4) (d a b : BitVec 3) (s : State) : Host.Outcome State Fault Refusal :=
  issue p 8 .any [] []
    (fun s t n => .done (setP s t n d (truth tt ((s.strand t n).rp a) ((s.strand t n).rp b)))) s

/-- ADDC (R100): the sum is written, extended as in R99, and its carry is written to the carry predicate. -/
def execAddc (p : Pred) (wd : BitVec 3) (d : BitVec 5) (a b : GSrc) (pc : BitVec 3) (s : State) :
    Host.Outcome State Fault Refusal :=
  issue p 8 .any [.g a, .g b] [.g d]
    (fun s t n =>
      let w := 8 * widthBytes wd
      let sum := (gv s t n a).toNat % 2 ^ w + (gv s t n b).toNat % 2 ^ w + carryIn (s.strand t n) pc
      .done (setP (setG s t n d (extendTo wd sum)) t n pc (decide (2 ^ w ≤ sum)))) s

/-! ### Special registers (R90 to R92) -/

/-- SST.STATE (Table 4.5). -/
def stCode (x : StrandSt) : Nat :=
  match x with | .free => 0 | .started => 1 | .ready => 2 | .waiting => 3 | .trapped => 4 | .halted => 5

/-- SST.WAIT (Table 4.5). DESIGN CHOICE (log entry 92): 5, engine, for a strand that waits for its own `vla` or tile command
(R128, R143). -/
def waitCode (w : Wait) : Nat :=
  match w with
  | .idle => 0
  | .gate _ => 1 | .ecc => 1 | .rload => 1 | .fence _ _ => 1 | .lock _ _ _ _ _ => 1
  | .regs _ => 2
  | .stream _ _ _ => 3 | .fifoBound _ => 3 | .tapped => 3
  | .counter _ _ _ _ _ _ => 4
  | .roomArr => 5 | .roomAdd _ => 5 | .roomChan => 5 | .ovl => 5 | .overlap _ => 5 | .mwait _ _ => 5 | .engq _ => 5
  | .samp _ => 5 | .until _ => 5
  | .bar _ _ => 6 | .waitb _ _ => 6 | .release => 6
  | .precision _ _ _ _ _ => 7

/-- SST of strand m, read by strand n at an instruction of `len` bytes (R91): the reader's next instruction is its
successor. -/
def sstOf (s : State) (t : TileId) (n : StrandNo) (len : Nat) (m : StrandNo) : Word :=
  let S := s.strand t m
  let pc := if m = n then successor S.pc len else S.pc
  BitVec.ofNat 64 (stCode S.st * 2 ^ 28 + waitCode S.wait * 2 ^ 24 + pc.toNat)

/-- SSN (Table 4.5). -/
def ssnOf (v : VRegs) : Word := (v.att.setWidth 64 <<< (48 : Nat)) ||| v.ss.setWidth 64

/-- VTID (Table 4.5). -/
def vtidOf (v : VRegs) : Word := (v.v.setWidth 64 <<< (20 : Nat)) ||| v.idx.setWidth 64

/-- PBNDk (Table 4.5). -/
def pbndOf (w : Word) (k : Nat) : Word := BitVec.ofNat 64 (partLimit w k * 2 ^ 32 + partBase w k)

/-- IDLW.EXP as it is read: 1 to 9 read as 10 (Table 4.5). -/
def idlwExp (w : Word) : Nat :=
  let e := w.toNat % 64
  if 1 ≤ e ∧ e ≤ 9 then 10 else e

/-- The enable bitmap of a die in force for the context that holds a tile (R16, Table 4.5). -/
def enableMap (s : State) (ctx d : Nat) : BitVec 1024 :=
  if ctx = 0 then fusedBitmap d else ((s.ctx ctx).enbl[d]?).getD 0

/-- The value of a special register (Tables 4.4, 4.5); none for an unassigned number. -/
def specialRead (s : State) (t : TileId) (n : StrandNo) (r : Nat) : Option Word :=
  let T := s.tile t
  let S := T.strands[n.val]
  match r with
  | 0x000 => some (ssnOf T.v)
  | 0x001 => some ((physOf s t).setWidth 64 <<< (44 : Nat))
  | 0x002 => some (vtidOf T.v)
  | 0x003 => some (maskPartw T.v.partw)
  | 0x004 => some (BitVec.ofNat 64 (xbOf s t))
  | 0x005 => some (maskOvb T.v.ovb)
  | 0x006 => some (maskTvec T.v.tvec)
  | 0x007 => some S.tcause
  | 0x008 => some S.trappc
  | 0x009 => some (BitVec.ofNat 64 (capOf t))
  | 0x00A => some (BitVec.ofNat 64 s.cycle)
  | 0x00B => some T.ecnt
  | 0x00C => some (BitVec.ofNat 64 (idlwExp T.v.idlw))
  | 0x00D => some (BitVec.ofNat 64 n.val)
  | 0x020 => some (sstOf s t n 8 n)
  | _ =>
    if 0x010 ≤ r ∧ r ≤ 0x015 then some (pbndOf T.v.partw (r - 0x010))
    else if h : 0x040 ≤ r ∧ r ≤ 0x04A then some (sstOf s t n 8 ⟨r - 0x040, by omega⟩)
    else if 0x100 ≤ r ∧ r ≤ 0x13F then
      some ((enableMap s T.ctx ((r - 0x100) / 16)).extractLsb' (64 * (r % 16)) 64)
    else none

/-- The writable bits of a special register (Table 4.5); zero for a register that is wholly RO. -/
def specialMask (r : Nat) : Word :=
  match r with
  | 0x005 => 0x80000000001FFFFF
  | 0x006 => 0x1FFFFF
  | 0x007 => 0x800000FFFFFFFFFF
  | 0x008 => 0x1FFFFF
  | 0x00C => 0x3F
  | _ => 0

/-- Write a special register (R92); writing IDLW resets the watchdog count. -/
def specialWrite (s : State) (t : TileId) (n : StrandNo) (r : Nat) (v : Word) : State :=
  let x := v &&& specialMask r
  match r with
  | 0x005 => s.modV t (fun g => { g with ovb := x })
  | 0x006 => s.modV t (fun g => { g with tvec := x })
  | 0x007 => s.modStrand t n (fun S => { S with tcause := x })
  | 0x008 => s.modStrand t n (fun S => { S with trappc := x })
  | 0x00C => (s.modV t (fun g => { g with idlw := x })).modTile t (fun T => { T with idle := 0 })
  | _ => s

/-- MFS (R92). -/
def execMfs (p : Pred) (d : BitVec 5) (r : BitVec 12) (s : State) : Host.Outcome State Fault Refusal :=
  issue p 8 .any [] [.g d]
    (fun s t n =>
      match specialRead s t n r.toNat with
      | some v => .done (setG s t n d v)
      | none => .trap .illegal 0) s

/-- Who may write a special register (R92, Table 4.5): OVB, TVEC and IDLW are strand 0's. -/
def mtsWho (k : Nat) : Who := if k = 5 ∨ k = 6 ∨ k = 0xC then .zero else .any

/-- MTS (R92). -/
def execMts (p : Pred) (a : GSrc) (r : BitVec 12) (s : State) : Host.Outcome State Fault Refusal :=
  issue p 8 (mtsWho r.toNat) [.g a] []
    (fun s t n =>
      let k := r.toNat
      let v := gv s t n a
      if (specialRead s t n k).isNone then .trap .illegal 0
      else if (k = 5 ∨ k = 6 ∨ k = 8) ∧ (v.toNat % 4 ≠ 0 ∨ xbOf s t ≤ v.toNat % 2 ^ 21) then .trap .prot 0
      else .done (specialWrite s t n k v)) s

end Sys2Proof.Machine
end

