-- ==== Sys2Proof/Machine/Dispatch.lean ====
section
/-! DEFINITION. One arm per constructor of Instr: the meaning of each instruction and of each step of the part. -/

namespace Sys2Proof.Machine

/-- What an instruction or a step does. -/
def exec (i : Instr) (s : State) : Host.Outcome State Fault Refusal :=
  match i with
  | .nop p => Sys2Proof.Machine.execNop p s
  | .add p o => Sys2Proof.Machine.execAdd p o s
  | .sub p o => Sys2Proof.Machine.execSub p o s
  | .mul p o => Sys2Proof.Machine.execMul p o s
  | .mulh p o => Sys2Proof.Machine.execMulh p o s
  | .div p o => Sys2Proof.Machine.execDiv p o s
  | .rem p o => Sys2Proof.Machine.execRem p o s
  | .and p o => Sys2Proof.Machine.execAnd p o s
  | .or p o => Sys2Proof.Machine.execOr p o s
  | .xor p o => Sys2Proof.Machine.execXor p o s
  | .andn p o => Sys2Proof.Machine.execAndn p o s
  | .shl p o => Sys2Proof.Machine.execShl p o s
  | .shr p o => Sys2Proof.Machine.execShr p o s
  | .sra p o => Sys2Proof.Machine.execSra p o s
  | .rot p o => Sys2Proof.Machine.execRot p o s
  | .cmp p cond d a b imm => Sys2Proof.Machine.execCmp p cond d a b imm s
  | .sel p d a b k0 neg => Sys2Proof.Machine.execSel p d a b k0 neg s
  | .min p o => Sys2Proof.Machine.execMin p o s
  | .max p o => Sys2Proof.Machine.execMax p o s
  | .bitcClz p d a => Sys2Proof.Machine.execBitcClz p d a s
  | .bitcCtz p d a => Sys2Proof.Machine.execBitcCtz p d a s
  | .bitcPopc p d a => Sys2Proof.Machine.execBitcPopc p d a s
  | .ext p sx d a pos len => Sys2Proof.Machine.execExt p sx d a pos len s
  | .ins p d a pos len => Sys2Proof.Machine.execIns p d a pos len s
  | .li p d v => Sys2Proof.Machine.execLi p d v s
  | .lea p sc d a b imm => Sys2Proof.Machine.execLea p sc d a b imm s
  | .gtaIdx p d a b => Sys2Proof.Machine.execGtaIdx p d a b s
  | .gtaRel p d b drow dcol => Sys2Proof.Machine.execGtaRel p d b drow dcol s
  | .plog p tt d a b => Sys2Proof.Machine.execPlog p tt d a b s
  | .mfs p d n => Sys2Proof.Machine.execMfs p d n s
  | .mts p a n => Sys2Proof.Machine.execMts p a n s
  | .addc p wd d a b pc => Sys2Proof.Machine.execAddc p wd d a b pc s
  | .br p imm => Sys2Proof.Machine.execBr p imm s
  | .jmp p a imm => Sys2Proof.Machine.execJmp p a imm s
  | .call p d imm => Sys2Proof.Machine.execCall p d imm s
  | .callR p d a => Sys2Proof.Machine.execCallR p d a s
  | .ret p a => Sys2Proof.Machine.execRet p a s
  | .loop p d imm => Sys2Proof.Machine.execLoop p d imm s
  | .halt p => Sys2Proof.Machine.execHalt p s
  | .yield p => Sys2Proof.Machine.execYield p s
  | .waitc p sub a b ct pf imm => Sys2Proof.Machine.execWaitc p sub a b ct pf imm s
  | .ovlLoc p a b ct base => Sys2Proof.Machine.execOvlLoc p a b ct base s
  | .ovlHbm p a b ct base => Sys2Proof.Machine.execOvlHbm p a b ct base s
  | .ld p wd d a imm => Sys2Proof.Machine.execLd p wd d a imm s
  | .st p wd a b imm => Sys2Proof.Machine.execSt p wd a b imm s
  | .ldg p d a imm => Sys2Proof.Machine.execLdg p d a imm s
  | .stg p a b imm => Sys2Proof.Machine.execStg p a b imm s
  | .st4 p a b imm => Sys2Proof.Machine.execSt4 p a b imm s
  | .st4G p a b imm => Sys2Proof.Machine.execSt4G p a b imm s
  | .ldl p wd d a imm => Sys2Proof.Machine.execLdl p wd d a imm s
  | .stu p wd a b imm => Sys2Proof.Machine.execStu p wd a b imm s
  | .addd p a b imm => Sys2Proof.Machine.execAddd p a b imm s
  | .ldw p d a imm => Sys2Proof.Machine.execLdw p d a imm s
  | .stw p a b imm => Sys2Proof.Machine.execStw p a b imm s
  | .fence p sc => Sys2Proof.Machine.execFence p sc s
  | .lbLoad p wd d a imm => Sys2Proof.Machine.execLbLoad p wd d a imm s
  | .lbStore p wd a b imm => Sys2Proof.Machine.execLbStore p wd a b imm s
  | .msg p ct a b imm => Sys2Proof.Machine.execMsg p ct a b imm s
  | .msgZ p ct a imm => Sys2Proof.Machine.execMsgZ p ct a imm s
  | .wptSet p n a b fl => Sys2Proof.Machine.execWptSet p n a b fl s
  | .wptClr p n => Sys2Proof.Machine.execWptClr p n s
  | .wptRd p n d => Sys2Proof.Machine.execWptRd p n d s
  | .vadd p sat o rm c => Sys2Proof.Machine.execVadd p sat o rm c s
  | .vsub p sat o rm c => Sys2Proof.Machine.execVsub p sat o rm c s
  | .vmul p sat o rm c => Sys2Proof.Machine.execVmul p sat o rm c s
  | .vfma p k rm o c => Sys2Proof.Machine.execVfma p k rm o c s
  | .vmin p o => Sys2Proof.Machine.execVmin p o s
  | .vmax p o => Sys2Proof.Machine.execVmax p o s
  | .vdiv p rm o => Sys2Proof.Machine.execVdiv p rm o s
  | .vsqrt p rm d a => Sys2Proof.Machine.execVsqrt p rm d a s
  | .vrsq p rm d a => Sys2Proof.Machine.execVrsq p rm d a s
  | .vexp2 p rm d a => Sys2Proof.Machine.execVexp2 p rm d a s
  | .vlog2 p rm d a => Sys2Proof.Machine.execVlog2 p rm d a s
  | .vcmp p k o => Sys2Proof.Machine.execVcmp p k o s
  | .vsel p o c => Sys2Proof.Machine.execVsel p o c s
  | .vcvt p ty tgt k rm d a b c => Sys2Proof.Machine.execVcvt p ty tgt k rm d a b c s
  | .vcvtXs p ty tgt k rm d a c => Sys2Proof.Machine.execVcvtXs p ty tgt k rm d a c s
  | .vqnt p d a => Sys2Proof.Machine.execVqnt p d a s
  | .vqntS p d a => Sys2Proof.Machine.execVqntS p d a s
  | .vdq p d a b k => Sys2Proof.Machine.execVdq p d a b k s
  | .vredSum p ty rm d a => Sys2Proof.Machine.execVredSum p ty rm d a s
  | .vredMin p ty d a => Sys2Proof.Machine.execVredMin p ty d a s
  | .vredMax p ty d a => Sys2Proof.Machine.execVredMax p ty d a s
  | .vredAmax p ty d a => Sys2Proof.Machine.execVredAmax p ty d a s
  | .vperm p o => Sys2Proof.Machine.execVperm p o s
  | .vshuf p pat ty d a b k0 => Sys2Proof.Machine.execVshuf p pat ty d a b k0 s
  | .vbcast p ty d a => Sys2Proof.Machine.execVbcast p ty d a s
  | .vbcastLane p ty d a k => Sys2Proof.Machine.execVbcastLane p ty d a k s
  | .vlogic p tt d a b => Sys2Proof.Machine.execVlogic p tt d a b s
  | .vshift p k ty d a b => Sys2Proof.Machine.execVshift p k ty d a b s
  | .vmovgGet p ty d a k => Sys2Proof.Machine.execVmovgGet p ty d a k s
  | .vmovgPut p ty d a k => Sys2Proof.Machine.execVmovgPut p ty d a k s
  | .vrng p nx d a b => Sys2Proof.Machine.execVrng p nx d a b s
  | .vla p a c sub => Sys2Proof.Machine.execVla p a c sub s
  | .vlaP p a b c sub => Sys2Proof.Machine.execVlaP p a b c sub s
  | .vlard p rm d a c sub => Sys2Proof.Machine.execVlard p rm d a c sub s
  | .mma p ty x n => Sys2Proof.Machine.execMma p ty x n s
  | .mmam p ty x n m => Sys2Proof.Machine.execMmam p ty x n m s
  | .saa p ty n off a b c => Sys2Proof.Machine.execSaa p ty n off a b c s
  | .acc p ty n off b c => Sys2Proof.Machine.execAcc p ty n off b c s
  | .lard p z rm off a b c => Sys2Proof.Machine.execLard p z rm off a b c s
  | .lazero p off c => Sys2Proof.Machine.execLazero p off c s
  | .drain p z ct a b imm => Sys2Proof.Machine.execDrain p z ct a b imm s
  | .ptmovSt p ty n c => Sys2Proof.Machine.execPtmovSt p ty n c s
  | .ptmovLd p ty n c => Sys2Proof.Machine.execPtmovLd p ty n c s
  | .ptmovGet p ty n r d => Sys2Proof.Machine.execPtmovGet p ty n r d s
  | .mrepA p n w => Sys2Proof.Machine.execMrepA p n w s
  | .mrepB p n w => Sys2Proof.Machine.execMrepB p n w s
  | .rchkRd p d => Sys2Proof.Machine.execRchkRd p d s
  | .rchkClr p d => Sys2Proof.Machine.execRchkClr p d s
  | .rchkInj p u => Sys2Proof.Machine.execRchkInj p u s
  | .mwaitArr p => Sys2Proof.Machine.execMwaitArr p s
  | .mwaitAdd p => Sys2Proof.Machine.execMwaitAdd p s
  | .mwaitAll p => Sys2Proof.Machine.execMwaitAll p s
  | .nrmCur p a b => Sys2Proof.Machine.execNrmCur p a b s
  | .nrmSt p a b c => Sys2Proof.Machine.execNrmSt p a b c s
  | .nrmLd p a b c => Sys2Proof.Machine.execNrmLd p a b c s
  | .atb p ct a b c => Sys2Proof.Machine.execAtb p ct a b c s
  | .smp p ty x n a b c => Sys2Proof.Machine.execSmp p ty x n a b c s
  | .smpl p ty x n ct a b c => Sys2Proof.Machine.execSmpl p ty x n ct a b c s
  | .svarUp p n r => Sys2Proof.Machine.execSvarUp p n r s
  | .svarRd p d => Sys2Proof.Machine.execSvarRd p d s
  | .svarInv p d => Sys2Proof.Machine.execSvarInv p d s
  | .svarSt p c => Sys2Proof.Machine.execSvarSt p c s
  | .svarLd p c => Sys2Proof.Machine.execSvarLd p c s
  | .sclrVar p => Sys2Proof.Machine.execSclrVar p s
  | .sclrErr p => Sys2Proof.Machine.execSclrErr p s
  | .sclrAll p => Sys2Proof.Machine.execSclrAll p s
  | .sdraw p nx d a b c => Sys2Proof.Machine.execSdraw p nx d a b c s
  | .sbindIn p cnt ct d a b c start => Sys2Proof.Machine.execSbindIn p cnt ct d a b c start s
  | .sbindOut p cnt ct d a b c start => Sys2Proof.Machine.execSbindOut p cnt ct d a b c start s
  | .sbindFa p sink cnt ct a b c start => Sys2Proof.Machine.execSbindFa p sink cnt ct a b c start s
  | .sbindFb p sink cnt ct a b c start => Sys2Proof.Machine.execSbindFb p sink cnt ct a b c start s
  | .sunbind p d => Sys2Proof.Machine.execSunbind p d s
  | .sunbindFa p => Sys2Proof.Machine.execSunbindFa p s
  | .sunbindFb p => Sys2Proof.Machine.execSunbindFb p s
  | .sunbindPos p d a => Sys2Proof.Machine.execSunbindPos p d a s
  | .sunbindPosa p d => Sys2Proof.Machine.execSunbindPosa p d s
  | .sunbindPosb p d => Sys2Proof.Machine.execSunbindPosb p d s
  | .cpy p fn fl ct a b c crc gate => Sys2Proof.Machine.execCpy p fn fl ct a b c crc gate s
  | .cpym p fn fl ct a b c ty x n gate => Sys2Proof.Machine.execCpym p fn fl ct a b c ty x n gate s
  | .sxwSet p k a => Sys2Proof.Machine.execSxwSet p k a s
  | .sxwClr p k => Sys2Proof.Machine.execSxwClr p k s
  | .sxwRd p k d => Sys2Proof.Machine.execSxwRd p k d s
  | .cntSet p n m a => Sys2Proof.Machine.execCntSet p n m a s
  | .cntAdd p n m a => Sys2Proof.Machine.execCntAdd p n m a s
  | .cntRd p n d => Sys2Proof.Machine.execCntRd p n d s
  | .sgtSet p e desc => Sys2Proof.Machine.execSgtSet p e desc s
  | .sgtGo p e dst ct a b c => Sys2Proof.Machine.execSgtGo p e dst ct a b c s
  | .sgtRd p e d => Sys2Proof.Machine.execSgtRd p e d s
  | .sgtFlt p k0 d => Sys2Proof.Machine.execSgtFlt p k0 d s
  | .engSt p d => Sys2Proof.Machine.execEngSt p d s
  | .engFlt p d => Sys2Proof.Machine.execEngFlt p d s
  | .engCrc p d => Sys2Proof.Machine.execEngCrc p d s
  | .engQ p => Sys2Proof.Machine.execEngQ p s
  | .bar p n => Sys2Proof.Machine.execBar p n s
  | .barv p n d a => Sys2Proof.Machine.execBarv p n d a s
  | .bara p n a => Sys2Proof.Machine.execBara p n a s
  | .baraN p n => Sys2Proof.Machine.execBaraN p n s
  | .waitb p n d => Sys2Proof.Machine.execWaitb p n d s
  | .vabort p u => Sys2Proof.Machine.execVabort p u s
  | .bcfg p n a op => Sys2Proof.Machine.execBcfg p n a op s
  | .bred p n d => Sys2Proof.Machine.execBred p n d s
  | .bredCfg p n d => Sys2Proof.Machine.execBredCfg p n d s
  | .bredSt p d => Sys2Proof.Machine.execBredSt p d s
  | .glchk p d => Sys2Proof.Machine.execGlchk p d s
  | .coll p k0 a => Sys2Proof.Machine.execColl p k0 a s
  | .waitp p k j pf a b => Sys2Proof.Machine.execWaitp p k j pf a b s
  | .pcan p k0 c => Sys2Proof.Machine.execPcan p k0 c s
  | .prdF32 p k0 k d a => Sys2Proof.Machine.execPrdF32 p k0 k d a s
  | .prdLa p k0 k a c => Sys2Proof.Machine.execPrdLa p k0 k a c s
  | .cstat p k0 d => Sys2Proof.Machine.execCstat p k0 d s
  | .cstatPc p d a => Sys2Proof.Machine.execCstatPc p d a s
  | .start p n a imm => Sys2Proof.Machine.execStart p n a imm s
  | .hstop p n => Sys2Proof.Machine.execHstop p n s
  | .hstopAll p => Sys2Proof.Machine.execHstopAll p s
  | .enq p q d a => Sys2Proof.Machine.execEnq p q d a s
  | .ccnt p lv d a b => Sys2Proof.Machine.execCcnt p lv d a b s
  | .ccntQ p q d => Sys2Proof.Machine.execCcntQ p q d s
  | .cancel p lv d a b => Sys2Proof.Machine.execCancel p lv d a b s
  | .vtidShape p d => Sys2Proof.Machine.execVtidShape p d s
  | .vtidOrd p d a => Sys2Proof.Machine.execVtidOrd p d a s
  | .vtidIdx p d a => Sys2Proof.Machine.execVtidIdx p d a s
  | .vtidHost p d a => Sys2Proof.Machine.execVtidHost p d a s
  | .offer p a => Sys2Proof.Machine.execOffer p a s
  | .offerRd p d => Sys2Proof.Machine.execOfferRd p d s
  | .imp p a => Sys2Proof.Machine.execImp p a s
  | .offl p ct d a imm => Sys2Proof.Machine.execOffl p ct d a imm s
  | .retn p ct d a imm => Sys2Proof.Machine.execRetn p ct d a imm s
  | .pstat p d a => Sys2Proof.Machine.execPstat p d a s
  | .pstatDev p d => Sys2Proof.Machine.execPstatDev p d s
  | .pin p d a => Sys2Proof.Machine.execPin p d a s
  | .pinClr p d a => Sys2Proof.Machine.execPinClr p d a s
  | .pinUns p d a => Sys2Proof.Machine.execPinUns p d a s
  | .ckptGo p ct d => Sys2Proof.Machine.execCkptGo p ct d s
  | .ckptRd p d => Sys2Proof.Machine.execCkptRd p d s
  | .lnkrd p r d a => Sys2Proof.Machine.execLnkrd p r d a s
  | .lnkset p d a b => Sys2Proof.Machine.execLnkset p d a b s
  | .lnksetUp p d a => Sys2Proof.Machine.execLnksetUp p d a s
  | .lnksetDown p d a => Sys2Proof.Machine.execLnksetDown p d a s
  | .lnkret p n d a => Sys2Proof.Machine.execLnkret p n d a s
  | .trap p n => Sys2Proof.Machine.execTrap p n s
  | .tret p => Sys2Proof.Machine.execTret p s
  | .sys p k0 d a => Sys2Proof.Machine.execSys p k0 d a s
  | .ctxsRd p w d a => Sys2Proof.Machine.execCtxsRd p w d a s
  | .ctxsNew p d a b => Sys2Proof.Machine.execCtxsNew p d a b s
  | .ctxsSeg p a b => Sys2Proof.Machine.execCtxsSeg p a b s
  | .ctxsGo p d a => Sys2Proof.Machine.execCtxsGo p d a s
  | .ctxsSave p d a => Sys2Proof.Machine.execCtxsSave p d a s
  | .ctxsRest p d a => Sys2Proof.Machine.execCtxsRest p d a s
  | .kill p c => Sys2Proof.Machine.execKill p c s
  | .killCtx p a c => Sys2Proof.Machine.execKillCtx p a c s
  | .idleRd p d a => Sys2Proof.Machine.execIdleRd p d a s
  | .idleSet p a => Sys2Proof.Machine.execIdleSet p a s
  | .tstReq p d a => Sys2Proof.Machine.execTstReq p d a s
  | .tstRd p u d a => Sys2Proof.Machine.execTstRd p u d a s
  | .ecntK p w d a => Sys2Proof.Machine.execEcntK p w d a s
  | .ecntRes p d a => Sys2Proof.Machine.execEcntRes p d a s
  | .ecntThm p d a => Sys2Proof.Machine.execEcntThm p d a s
  | .ecntTs p k0 d a => Sys2Proof.Machine.execEcntTs p k0 d a s
  | .ecntSet p r a b => Sys2Proof.Machine.execEcntSet p r a b s
  | .dbgRd p d => Sys2Proof.Machine.execDbgRd p d s
  | .dbgMark p a v => Sys2Proof.Machine.execDbgMark p a v s
  | .dbgBrk p v => Sys2Proof.Machine.execDbgBrk p v s
  | .deferredTrap => Sys2Proof.Machine.execDeferredTrap s
  | .resultDelivery => Sys2Proof.Machine.execResultDelivery s
  | .remoteLoadArrival => Sys2Proof.Machine.execRemoteLoadArrival s
  | .remoteLoadReturn => Sys2Proof.Machine.execRemoteLoadReturn s
  | .deltaArrival => Sys2Proof.Machine.execDeltaArrival s
  | .foreshoreWriteArrival => Sys2Proof.Machine.execForeshoreWriteArrival s
  | .msgArrival => Sys2Proof.Machine.execMsgArrival s
  | .ackArrival => Sys2Proof.Machine.execAckArrival s
  | .lockGrant => Sys2Proof.Machine.execLockGrant s
  | .ovlDone => Sys2Proof.Machine.execOvlDone s
  | .idleWatchdogExpiry => Sys2Proof.Machine.execIdleWatchdogExpiry s
  | .waitcTimeout => Sys2Proof.Machine.execWaitcTimeout s
  | .waitpTimeout => Sys2Proof.Machine.execWaitpTimeout s
  | .fifoUnitComplete => Sys2Proof.Machine.execFifoUnitComplete s
  | .arrayOpStart => Sys2Proof.Machine.execArrayOpStart s
  | .partialTileWritten => Sys2Proof.Machine.execPartialTileWritten s
  | .adderCmdStart => Sys2Proof.Machine.execAdderCmdStart s
  | .adderCmdPerformed => Sys2Proof.Machine.execAdderCmdPerformed s
  | .drainStart => Sys2Proof.Machine.execDrainStart s
  | .drainSourceReadDone => Sys2Proof.Machine.execDrainSourceReadDone s
  | .atbBuildStart => Sys2Proof.Machine.execAtbBuildStart s
  | .atbDone => Sys2Proof.Machine.execAtbDone s
  | .smpAtHead => Sys2Proof.Machine.execSmpAtHead s
  | .smplBatchDecision => Sys2Proof.Machine.execSmplBatchDecision s
  | .smplDone => Sys2Proof.Machine.execSmplDone s
  | .streamPieceFetched => Sys2Proof.Machine.execStreamPieceFetched s
  | .streamOutPiecePerformed => Sys2Proof.Machine.execStreamOutPiecePerformed s
  | .copyCmdStart => Sys2Proof.Machine.execCopyCmdStart s
  | .copyCmdPerformed => Sys2Proof.Machine.execCopyCmdPerformed s
  | .copyAccessRefused => Sys2Proof.Machine.execCopyAccessRefused s
  | .cpymFollowon => Sys2Proof.Machine.execCpymFollowon s
  | .gatherRefused => Sys2Proof.Machine.execGatherRefused s
  | .sluiceTermFire => Sys2Proof.Machine.execSluiceTermFire s
  | .arriveSend => Sys2Proof.Machine.execArriveSend s
  | .barrierNodeArrive => Sys2Proof.Machine.execBarrierNodeArrive s
  | .arriveAtDecision => Sys2Proof.Machine.execArriveAtDecision s
  | .abortAtDecision => Sys2Proof.Machine.execAbortAtDecision s
  | .barrierTimeout => Sys2Proof.Machine.execBarrierTimeout s
  | .decisionRelease => Sys2Proof.Machine.execDecisionRelease s
  | .parkAssert => Sys2Proof.Machine.execParkAssert s
  | .parkWithdraw => Sys2Proof.Machine.execParkWithdraw s
  | .bcfgControlArrival => Sys2Proof.Machine.execBcfgControlArrival s
  | .glchkReply => Sys2Proof.Machine.execGlchkReply s
  | .releaseCommitAtTile => Sys2Proof.Machine.execReleaseCommitAtTile s
  | .releaseAbortAtTile => Sys2Proof.Machine.execReleaseAbortAtTile s
  | .groupStart => Sys2Proof.Machine.execGroupStart s
  | .clusterStartGateOpen => Sys2Proof.Machine.execClusterStartGateOpen s
  | .giveUpRequest => Sys2Proof.Machine.execGiveUpRequest s
  | .moveRequest => Sys2Proof.Machine.execMoveRequest s
  | .reshapeDone => Sys2Proof.Machine.execReshapeDone s
  | .foldTurnChange => Sys2Proof.Machine.execFoldTurnChange s
  | .launchMessageOffer => Sys2Proof.Machine.execLaunchMessageOffer s
  | .poolIntake => Sys2Proof.Machine.execPoolIntake s
  | .admissionStep => Sys2Proof.Machine.execAdmissionStep s
  | .nodeCompletion => Sys2Proof.Machine.execNodeCompletion s
  | .cancelAtDispatcher => Sys2Proof.Machine.execCancelAtDispatcher s
  | .dispatcherReply => Sys2Proof.Machine.execDispatcherReply s
  | .clusterWake => Sys2Proof.Machine.execClusterWake s
  | .clusterUsable => Sys2Proof.Machine.execClusterUsable s
  | .clusterRetain => Sys2Proof.Machine.execClusterRetain s
  | .clusterGate => Sys2Proof.Machine.execClusterGate s
  | .testStart => Sys2Proof.Machine.execTestStart s
  | .testDone => Sys2Proof.Machine.execTestDone s
  | .coldReset => Sys2Proof.Machine.execColdReset s
  | .monitorImageReceive => Sys2Proof.Machine.execMonitorImageReceive s
  | .monitorRequest => Sys2Proof.Machine.execMonitorRequest s
  | .attestationRequest => Sys2Proof.Machine.execAttestationRequest s
  | .kernelLoadRequest => Sys2Proof.Machine.execKernelLoadRequest s
  | .kernelResetRequest => Sys2Proof.Machine.execKernelResetRequest s
  | .kernelRetireRequest => Sys2Proof.Machine.execKernelRetireRequest s
  | .sysReply => Sys2Proof.Machine.execSysReply s
  | .saveComplete => Sys2Proof.Machine.execSaveComplete s
  | .sweepTokenAtTile => Sys2Proof.Machine.execSweepTokenAtTile s
  | .sweepSwtExpiry => Sys2Proof.Machine.execSweepSwtExpiry s
  | .sweepCleanResult => Sys2Proof.Machine.execSweepCleanResult s
  | .purgeConfirmed => Sys2Proof.Machine.execPurgeConfirmed s
  | .pageAccess => Sys2Proof.Machine.execPageAccess s
  | .offlCopyDone => Sys2Proof.Machine.execOfflCopyDone s
  | .retnCopyDone => Sys2Proof.Machine.execRetnCopyDone s
  | .writebackDrain => Sys2Proof.Machine.execWritebackDrain s
  | .pageTableWrite => Sys2Proof.Machine.execPageTableWrite s
  | .faultRefuse => Sys2Proof.Machine.execFaultRefuse s
  | .checkpointDone => Sys2Proof.Machine.execCheckpointDone s
  | .collAllLaunched => Sys2Proof.Machine.execCollAllLaunched s
  | .collSourceRead => Sys2Proof.Machine.execCollSourceRead s
  | .adderDigitEmit => Sys2Proof.Machine.execAdderDigitEmit s
  | .planeLanded => Sys2Proof.Machine.execPlaneLanded s
  | .collDeadlineExpiry => Sys2Proof.Machine.execCollDeadlineExpiry s
  | .contributionAccepted => Sys2Proof.Machine.execContributionAccepted s
  | .collConsumerDone => Sys2Proof.Machine.execCollConsumerDone s
  | .flitReceive => Sys2Proof.Machine.execFlitReceive s
  | .replayTimeout => Sys2Proof.Machine.execReplayTimeout s
  | .linkTrainingDone => Sys2Proof.Machine.execLinkTrainingDone s
  | .linkRetrainDone => Sys2Proof.Machine.execLinkRetrainDone s
  | .autoStepDown => Sys2Proof.Machine.execAutoStepDown s
  | .autoStepUp => Sys2Proof.Machine.execAutoStepUp s
  | .reservoirTick => Sys2Proof.Machine.execReservoirTick s
  | .backgroundScrubRead => Sys2Proof.Machine.execBackgroundScrubRead s
  | .trapRecordArrival => Sys2Proof.Machine.execTrapRecordArrival s
  | .rowCollectorForward => Sys2Proof.Machine.execRowCollectorForward s
  | .trapUnitDeliver => Sys2Proof.Machine.execTrapUnitDeliver s
  | .fetchFault => Sys2Proof.Machine.execFetchFault s
  | .softError => Sys2Proof.Machine.execSoftError s
  | .freeListFill => Sys2Proof.Machine.execFreeListFill s
  | .tableBaseWrite => Sys2Proof.Machine.execTableBaseWrite s
  | .chipNumberAssign => Sys2Proof.Machine.execChipNumberAssign s
  | .runtimeImageLoad => Sys2Proof.Machine.execRuntimeImageLoad s
  | .collNodeInput => Sys2Proof.Machine.execCollNodeInput s
  | .routeTableChange => Sys2Proof.Machine.execRouteTableChange s

end Sys2Proof.Machine
end

