-- ==== Sys2Proof/Decode.lean ====
section
/-! DEFINITION. Decoding and encoding of instructions (03_encoding R53 to R68): the lengths of R53, the layouts of
R57 and Tables 3.1 and 3.2, the opcode map of Table 3.5. A word decodes when its fields name an instruction, the
instruction is well formed, and every other bit is zero, as R8 and R62 require. -/

namespace Sys2Proof

/-- The fields of Tables 3.1 and 3.2. `imm` holds IMM26, IMM36 or IMM64; `sub` holds SUB or SUB8. -/
structure Fields where
  op : BitVec 8 := 0
  d : BitVec 6 := 0
  a : BitVec 6 := 0
  b : BitVec 6 := 0
  ea : Bool := false
  eb : Bool := false
  pr : BitVec 3 := 0
  pn : Bool := false
  fn : BitVec 4 := 0
  c : BitVec 6 := 0
  ec : Bool := false
  rm : BitVec 3 := 0
  ty : BitVec 4 := 0
  ct : BitVec 4 := 0
  fl : BitVec 4 := 0
  sub : BitVec 12 := 0
  imm : BitVec 64 := 0
  deriving DecidableEq, Repr

/-- The four layouts of R57. -/
inductive Layout where
  | i64 | t64 | w96 | l128
  deriving DecidableEq, Repr

/-- Why a word is no instruction (R53, R55 checks 3, 5 and 6), or why bytes hold none. -/
inductive DecodeErr where
  | truncated | lenZero | unassignedOp | wrongLength | badField
  deriving DecidableEq, Repr

/-- Length in bytes of a layout (R53, R57). -/
def Layout.bytes : Layout → Nat
  | .i64 => 8 | .t64 => 8 | .w96 => 12 | .l128 => 16

/-- The LEN code of a layout (R53). -/
def Layout.len : Layout → BitVec 2
  | .i64 => 1 | .t64 => 1 | .w96 => 2 | .l128 => 3

/-- The layout of each assigned opcode (Table 3.5); the others are unassigned (R67). -/
def layoutOf (op : BitVec 8) : Option Layout :=
  match op.toNat with
  | 0x00 => some .i64
  | 0x01 => some .i64
  | 0x02 => some .i64
  | 0x03 => some .i64
  | 0x04 => some .i64
  | 0x05 => some .i64
  | 0x06 => some .i64
  | 0x07 => some .i64
  | 0x08 => some .i64
  | 0x09 => some .i64
  | 0x0A => some .i64
  | 0x0B => some .i64
  | 0x0C => some .i64
  | 0x0D => some .i64
  | 0x0E => some .i64
  | 0x0F => some .i64
  | 0x10 => some .i64
  | 0x11 => some .i64
  | 0x12 => some .i64
  | 0x13 => some .i64
  | 0x14 => some .i64
  | 0x15 => some .i64
  | 0x16 => some .l128
  | 0x17 => some .i64
  | 0x18 => some .w96
  | 0x19 => some .i64
  | 0x1A => some .i64
  | 0x1B => some .i64
  | 0x1C => some .i64
  | 0x20 => some .i64
  | 0x21 => some .i64
  | 0x22 => some .i64
  | 0x23 => some .i64
  | 0x24 => some .i64
  | 0x25 => some .i64
  | 0x26 => some .i64
  | 0x27 => some .w96
  | 0x28 => some .w96
  | 0x30 => some .i64
  | 0x31 => some .i64
  | 0x32 => some .w96
  | 0x33 => some .w96
  | 0x34 => some .i64
  | 0x35 => some .i64
  | 0x36 => some .i64
  | 0x37 => some .w96
  | 0x38 => some .i64
  | 0x39 => some .i64
  | 0x3A => some .i64
  | 0x3B => some .i64
  | 0x3C => some .w96
  | 0x3D => some .w96
  | 0x40 => some .t64
  | 0x41 => some .t64
  | 0x42 => some .t64
  | 0x43 => some .t64
  | 0x44 => some .t64
  | 0x45 => some .t64
  | 0x46 => some .t64
  | 0x47 => some .t64
  | 0x48 => some .t64
  | 0x49 => some .t64
  | 0x4A => some .t64
  | 0x4B => some .t64
  | 0x4C => some .t64
  | 0x4D => some .t64
  | 0x4E => some .t64
  | 0x4F => some .t64
  | 0x50 => some .t64
  | 0x51 => some .t64
  | 0x52 => some .t64
  | 0x53 => some .t64
  | 0x54 => some .t64
  | 0x55 => some .t64
  | 0x56 => some .t64
  | 0x57 => some .t64
  | 0x58 => some .t64
  | 0x59 => some .t64
  | 0x60 => some .t64
  | 0x61 => some .l128
  | 0x62 => some .t64
  | 0x63 => some .t64
  | 0x64 => some .t64
  | 0x65 => some .t64
  | 0x66 => some .w96
  | 0x67 => some .t64
  | 0x68 => some .t64
  | 0x69 => some .t64
  | 0x6A => some .t64
  | 0x70 => some .t64
  | 0x71 => some .w96
  | 0x72 => some .t64
  | 0x73 => some .w96
  | 0x74 => some .t64
  | 0x75 => some .t64
  | 0x76 => some .t64
  | 0x78 => some .l128
  | 0x79 => some .t64
  | 0x7A => some .w96
  | 0x7B => some .w96
  | 0x7C => some .w96
  | 0x7D => some .t64
  | 0x7E => some .l128
  | 0x7F => some .w96
  | 0x80 => some .t64
  | 0x81 => some .t64
  | 0x82 => some .t64
  | 0x83 => some .t64
  | 0x84 => some .t64
  | 0x85 => some .w96
  | 0x86 => some .t64
  | 0x87 => some .t64
  | 0x90 => some .t64
  | 0x91 => some .w96
  | 0x92 => some .t64
  | 0x93 => some .t64
  | 0x94 => some .t64
  | 0x98 => some .i64
  | 0x99 => some .i64
  | 0x9A => some .t64
  | 0x9B => some .t64
  | 0x9C => some .t64
  | 0x9D => some .t64
  | 0x9E => some .t64
  | 0xA0 => some .t64
  | 0xA1 => some .w96
  | 0xA2 => some .w96
  | 0xA3 => some .t64
  | 0xA4 => some .t64
  | 0xA5 => some .w96
  | 0xA8 => some .t64
  | 0xA9 => some .w96
  | 0xAA => some .t64
  | 0xB0 => some .i64
  | 0xB1 => some .i64
  | 0xB2 => some .i64
  | 0xB3 => some .w96
  | 0xB4 => some .t64
  | 0xB5 => some .t64
  | 0xB6 => some .w96
  | 0xB7 => some .t64
  | 0xB8 => some .w96
  | _ => none

/-- A 6-bit field naming a w register (R58). -/
def encW (r : BitVec 4) : BitVec 6 := 0b10#2 ++ r
/-- A 6-bit field naming a q register (R58). -/
def encQ (r : BitVec 3) : BitVec 6 := 0b110#3 ++ r
/-- A 6-bit field naming a vector register (R58). -/
def encV : VReg → BitVec 6
  | .w r => encW r
  | .q r => encQ r
/-- The vector register a field names, if its class is right (the re-encoding check refuses the other classes). -/
def decV (f : BitVec 6) : VReg := if f.getLsbD 4 then .q (f.setWidth 3) else .w (f.setWidth 4)
/-- One bit in a 4-bit field. -/
def bit4 (b : Bool) : BitVec 4 := (BitVec.ofBool b).setWidth 4
/-- One bit in a 12-bit field. -/
def bit12 (b : Bool) : BitVec 12 := (BitVec.ofBool b).setWidth 12
/-- One bit in a 64-bit field. -/
def bit64 (b : Bool) : BitVec 64 := (BitVec.ofBool b).setWidth 64

/-- FN of the forms of R61. -/
def aluFn (o : AluOps) : BitVec 4 := (match o.b with | .reg _ => 0#1 | .imm _ => 1#1) ++ o.wd
/-- B of the forms of R61. -/
def aluBr (o : AluOps) : BitVec 6 := match o.b with | .reg b => b.r.setWidth 6 | .imm _ => 0
/-- EB of the forms of R61. -/
def aluEb (o : AluOps) : Bool := match o.b with | .reg b => b.e | .imm _ => false
/-- IMM26 of the forms of R61. -/
def aluImm (o : AluOps) : BitVec 64 := match o.b with | .reg _ => 0 | .imm i => i.setWidth 64
/-- D of `ldg` (R106). -/
def memDstD : MemDst → BitVec 6 | .g _ d => d.setWidth 6 | .v d => encW d
/-- FN of `ldg` (R106). -/
def memDstFn : MemDst → BitVec 4 | .g wd _ => wd.setWidth 4 | .v _ => 8
/-- B of `stg` and `msg` (R106, R109). -/
def memSrcB : MemSrc → BitVec 6 | .g _ b => b.r.setWidth 6 | .v b => encW b.r
/-- EB of `stg` and `msg`. -/
def memSrcE : MemSrc → Bool | .g _ b => b.e | .v b => b.e
/-- FN of `stg` and `msg`. -/
def memSrcFn : MemSrc → BitVec 4 | .g wd _ => wd.setWidth 4 | .v _ => 8
/-- B of `addd` (R108). -/
def addSrcB : AddSrc → BitVec 6 | .g _ b => b.r.setWidth 6 | .la b => encW b.r
/-- EB of `addd`. -/
def addSrcE : AddSrc → Bool | .g _ b => b.e | .la b => b.e
/-- TY of `addd`. -/
def addSrcTy : AddSrc → BitVec 4 | .g ty _ => ty | .la _ => 13
/-- C of `mmam` (R136). -/
def maskC : MaskSrc → BitVec 6 | .imm _ => 0 | .reg c => c.r.setWidth 6
/-- EC of `mmam`. -/
def maskE : MaskSrc → Bool | .imm _ => false | .reg c => c.e
/-- IMM64 of `mmam`. -/
def maskImm : MaskSrc → BitVec 64 | .imm m => m | .reg _ => 0
/-- A of `saa` (R144). -/
def scaleA : Scale → BitVec 6 | .one => 0 | .reg v => encV v.r
/-- EA of `saa`. -/
def scaleE : Scale → Bool | .one => false | .reg v => v.e
/-- B of `vshift` (R121). -/
def shiftBB : ShiftB → BitVec 6 | .reg b => encV b.r | .imm _ => 0
/-- EB of `vshift`. -/
def shiftBE : ShiftB → Bool | .reg b => b.e | .imm _ => false
/-- FN[2] of `vshift`. -/
def shiftBFn : ShiftB → BitVec 4 | .reg _ => 0 | .imm _ => 4
/-- SUB of `vshift`. -/
def shiftBS : ShiftB → BitVec 12 | .reg _ => 0 | .imm s => s.setWidth 12
/-- B of a form whose second source may be absent. -/
def optVB : Option VSrc → BitVec 6 | none => 0 | some v => encV v.r
/-- EB of a form whose second source may be absent. -/
def optVE : Option VSrc → Bool | none => false | some v => v.e
/-- C of a form that rounds stochastically (R120, R124). -/
def optWC : Option WSrc → BitVec 6 | none => 0 | some v => encW v.r
/-- EC of a form that rounds stochastically. -/
def optWE : Option WSrc → Bool | none => false | some v => v.e

/-- The operands of the forms of R61. -/
def parseAlu (f : Fields) : AluOps :=
  { wd := f.fn.setWidth 3, d := f.d.setWidth 5, a := ⟨f.a.setWidth 5, f.ea⟩,
    b := if f.fn.getLsbD 3 then .imm (f.imm.setWidth 26) else .reg ⟨f.b.setWidth 5, f.eb⟩ }
/-- The operands of the three-register vector forms. -/
def parseVOps (f : Fields) : VOps := { ty := f.ty, d := decV f.d, a := ⟨decV f.a, f.ea⟩, b := ⟨decV f.b, f.eb⟩ }
/-- The destination of `ldg`. -/
def parseMemD (f : Fields) : MemDst := if f.fn == 8 then .v (f.d.setWidth 4) else .g (f.fn.setWidth 3) (f.d.setWidth 5)
/-- The data of `stg` and `msg`. -/
def parseMemS (f : Fields) : MemSrc :=
  if f.fn == 8 then .v ⟨f.b.setWidth 4, f.eb⟩ else .g (f.fn.setWidth 3) ⟨f.b.setWidth 5, f.eb⟩
/-- The data of `addd`. -/
def parseAddS (f : Fields) : AddSrc :=
  if f.ty == 13 then .la ⟨f.b.setWidth 4, f.eb⟩ else .g f.ty ⟨f.b.setWidth 5, f.eb⟩
/-- The masks of `mmam`: C = g0 takes IMM64 (R136). -/
def parseMask (f : Fields) : MaskSrc := if f.c == 0 then .imm f.imm else .reg ⟨f.c.setWidth 5, f.ec⟩
/-- The row scales of `saa`: A = g0 is 1 (R144). -/
def parseScale (f : Fields) : Scale := if f.a == 0 then .one else .reg ⟨decV f.a, f.ea⟩
/-- The shift amount of `vshift`. -/
def parseShB (f : Fields) : ShiftB :=
  if f.fn.getLsbD 2 then .imm (f.sub.setWidth 6) else .reg ⟨decV f.b, f.eb⟩

/-- The forms with OP 0x00 to 0x0F (Table 3.5), read from their fields. -/
def ofFields0 (f : Fields) : Option Instr :=
  match f.op.toNat % 16 with
  | 0 => some (.nop ⟨f.pr, f.pn⟩)
  | 1 => some (.add ⟨f.pr, f.pn⟩ (parseAlu f))
  | 2 => some (.sub ⟨f.pr, f.pn⟩ (parseAlu f))
  | 3 => some (.mul ⟨f.pr, f.pn⟩ (parseAlu f))
  | 4 => some (.mulh ⟨f.pr, f.pn⟩ (parseAlu f))
  | 5 => some (.div ⟨f.pr, f.pn⟩ (parseAlu f))
  | 6 => some (.rem ⟨f.pr, f.pn⟩ (parseAlu f))
  | 7 => some (.and ⟨f.pr, f.pn⟩ (parseAlu f))
  | 8 => some (.or ⟨f.pr, f.pn⟩ (parseAlu f))
  | 9 => some (.xor ⟨f.pr, f.pn⟩ (parseAlu f))
  | 10 => some (.andn ⟨f.pr, f.pn⟩ (parseAlu f))
  | 11 => some (.shl ⟨f.pr, f.pn⟩ (parseAlu f))
  | 12 => some (.shr ⟨f.pr, f.pn⟩ (parseAlu f))
  | 13 => some (.sra ⟨f.pr, f.pn⟩ (parseAlu f))
  | 14 => some (.rot ⟨f.pr, f.pn⟩ (parseAlu f))
  | 15 => some (.cmp ⟨f.pr, f.pn⟩ f.fn (f.d.setWidth 3) ⟨f.a.setWidth 5, f.ea⟩ ⟨f.b.setWidth 5, f.eb⟩ (f.imm.setWidth 26))
  | _ => none

/-- The forms with OP 0x10 to 0x1F (Table 3.5), read from their fields. -/
def ofFields1 (f : Fields) : Option Instr :=
  match f.op.toNat % 16 with
  | 0 => some (.sel ⟨f.pr, f.pn⟩ (f.d.setWidth 5) ⟨f.a.setWidth 5, f.ea⟩ ⟨f.b.setWidth 5, f.eb⟩ (f.imm.extractLsb' 0 3) (f.imm.getLsbD 3))
  | 1 => some (.min ⟨f.pr, f.pn⟩ (parseAlu f))
  | 2 => some (.max ⟨f.pr, f.pn⟩ (parseAlu f))
  | 3 =>
    if f.fn == 0 then some (.bitcClz ⟨f.pr, f.pn⟩ (f.d.setWidth 5) ⟨f.a.setWidth 5, f.ea⟩) else
    if f.fn == 1 then some (.bitcCtz ⟨f.pr, f.pn⟩ (f.d.setWidth 5) ⟨f.a.setWidth 5, f.ea⟩) else
    if f.fn == 2 then some (.bitcPopc ⟨f.pr, f.pn⟩ (f.d.setWidth 5) ⟨f.a.setWidth 5, f.ea⟩) else none
  | 4 => some (.ext ⟨f.pr, f.pn⟩ (f.fn.getLsbD 0) (f.d.setWidth 5) ⟨f.a.setWidth 5, f.ea⟩ (f.imm.extractLsb' 0 6) (f.imm.extractLsb' 6 7))
  | 5 => some (.ins ⟨f.pr, f.pn⟩ (f.d.setWidth 5) ⟨f.a.setWidth 5, f.ea⟩ (f.imm.extractLsb' 0 6) (f.imm.extractLsb' 6 7))
  | 6 => some (.li ⟨f.pr, f.pn⟩ (f.d.setWidth 5) f.imm)
  | 7 => some (.lea ⟨f.pr, f.pn⟩ (f.fn.extractLsb' 0 2) (f.d.setWidth 5) ⟨f.a.setWidth 5, f.ea⟩ ⟨f.b.setWidth 5, f.eb⟩ (f.imm.setWidth 26))
  | 8 =>
    if f.fn == 0 then some (.gtaIdx ⟨f.pr, f.pn⟩ (f.d.setWidth 5) ⟨f.a.setWidth 5, f.ea⟩ ⟨f.b.setWidth 5, f.eb⟩) else
    if f.fn == 1 then some (.gtaRel ⟨f.pr, f.pn⟩ (f.d.setWidth 5) ⟨f.b.setWidth 5, f.eb⟩ (f.imm.extractLsb' 5 5) (f.imm.extractLsb' 0 5)) else none
  | 9 => some (.plog ⟨f.pr, f.pn⟩ f.fn (f.d.setWidth 3) (f.a.setWidth 3) (f.b.setWidth 3))
  | 10 => some (.mfs ⟨f.pr, f.pn⟩ (f.d.setWidth 5) (f.imm.extractLsb' 0 12))
  | 11 => some (.mts ⟨f.pr, f.pn⟩ ⟨f.a.setWidth 5, f.ea⟩ (f.imm.extractLsb' 0 12))
  | 12 => some (.addc ⟨f.pr, f.pn⟩ (f.fn.extractLsb' 0 3) (f.d.setWidth 5) ⟨f.a.setWidth 5, f.ea⟩ ⟨f.b.setWidth 5, f.eb⟩ (f.imm.extractLsb' 0 3))
  | _ => none

/-- The forms with OP 0x20 to 0x2F (Table 3.5), read from their fields. -/
def ofFields2 (f : Fields) : Option Instr :=
  match f.op.toNat % 16 with
  | 0 => some (.br ⟨f.pr, f.pn⟩ (f.imm.setWidth 26))
  | 1 => some (.jmp ⟨f.pr, f.pn⟩ ⟨f.a.setWidth 5, f.ea⟩ (f.imm.setWidth 26))
  | 2 =>
    if f.fn == 0 then some (.call ⟨f.pr, f.pn⟩ (f.d.setWidth 5) (f.imm.setWidth 26)) else
    if f.fn == 1 then some (.callR ⟨f.pr, f.pn⟩ (f.d.setWidth 5) ⟨f.a.setWidth 5, f.ea⟩) else none
  | 3 => some (.ret ⟨f.pr, f.pn⟩ ⟨f.a.setWidth 5, f.ea⟩)
  | 4 => some (.loop ⟨f.pr, f.pn⟩ (f.d.setWidth 5) (f.imm.setWidth 26))
  | 5 => some (.halt ⟨f.pr, f.pn⟩)
  | 6 => some (.yield ⟨f.pr, f.pn⟩)
  | 7 => some (.waitc ⟨f.pr, f.pn⟩ (f.fn.getLsbD 0) ⟨f.a.setWidth 5, f.ea⟩ ⟨f.b.setWidth 5, f.eb⟩ f.ct (f.fl.extractLsb' 0 3) (f.imm.setWidth 36))
  | 8 =>
    if f.fn == 0 then some (.ovlLoc ⟨f.pr, f.pn⟩ ⟨f.a.setWidth 5, f.ea⟩ ⟨f.b.setWidth 5, f.eb⟩ f.ct (f.imm.setWidth 36)) else
    if f.fn == 1 then some (.ovlHbm ⟨f.pr, f.pn⟩ ⟨f.a.setWidth 5, f.ea⟩ ⟨f.b.setWidth 5, f.eb⟩ f.ct (f.imm.setWidth 36)) else none
  | _ => none

/-- The forms with OP 0x30 to 0x3F (Table 3.5), read from their fields. -/
def ofFields3 (f : Fields) : Option Instr :=
  match f.op.toNat % 16 with
  | 0 => some (.ld ⟨f.pr, f.pn⟩ (f.fn.extractLsb' 0 3) (f.d.setWidth 5) ⟨f.a.setWidth 5, f.ea⟩ (f.imm.setWidth 26))
  | 1 => some (.st ⟨f.pr, f.pn⟩ (f.fn.extractLsb' 0 3) ⟨f.a.setWidth 5, f.ea⟩ ⟨f.b.setWidth 5, f.eb⟩ (f.imm.setWidth 26))
  | 2 => some (.ldg ⟨f.pr, f.pn⟩ (parseMemD f) ⟨f.a.setWidth 5, f.ea⟩ (f.imm.setWidth 36))
  | 3 => some (.stg ⟨f.pr, f.pn⟩ ⟨f.a.setWidth 5, f.ea⟩ (parseMemS f) (f.imm.setWidth 36))
  | 4 =>
    if f.fn == 0 then some (.st4 ⟨f.pr, f.pn⟩ ⟨f.a.setWidth 5, f.ea⟩ ⟨f.b.setWidth 5, f.eb⟩ (f.imm.setWidth 26)) else
    if f.fn == 1 then some (.st4G ⟨f.pr, f.pn⟩ ⟨f.a.setWidth 5, f.ea⟩ ⟨f.b.setWidth 5, f.eb⟩ (f.imm.setWidth 26)) else none
  | 5 => some (.ldl ⟨f.pr, f.pn⟩ (f.fn.extractLsb' 0 3) (f.d.setWidth 5) ⟨f.a.setWidth 5, f.ea⟩ (f.imm.setWidth 26))
  | 6 => some (.stu ⟨f.pr, f.pn⟩ (f.fn.extractLsb' 0 3) ⟨f.a.setWidth 5, f.ea⟩ ⟨f.b.setWidth 5, f.eb⟩ (f.imm.setWidth 26))
  | 7 => some (.addd ⟨f.pr, f.pn⟩ ⟨f.a.setWidth 5, f.ea⟩ (parseAddS f) (f.imm.setWidth 36))
  | 8 => some (.ldw ⟨f.pr, f.pn⟩ (f.d.setWidth 4) ⟨f.a.setWidth 5, f.ea⟩ (f.imm.setWidth 26))
  | 9 => some (.stw ⟨f.pr, f.pn⟩ ⟨f.a.setWidth 5, f.ea⟩ ⟨f.b.setWidth 4, f.eb⟩ (f.imm.setWidth 26))
  | 10 => some (.fence ⟨f.pr, f.pn⟩ (f.fn.extractLsb' 0 2))
  | 11 =>
    if !(f.fn.getLsbD 3) then some (.lbLoad ⟨f.pr, f.pn⟩ (f.fn.extractLsb' 0 3) (f.d.setWidth 5) ⟨f.a.setWidth 5, f.ea⟩ (f.imm.setWidth 26)) else
    if f.fn.getLsbD 3 then some (.lbStore ⟨f.pr, f.pn⟩ (f.fn.extractLsb' 0 3) ⟨f.a.setWidth 5, f.ea⟩ ⟨f.b.setWidth 5, f.eb⟩ (f.imm.setWidth 26)) else none
  | 12 =>
    if !(f.fl.getLsbD 0) then some (.msg ⟨f.pr, f.pn⟩ f.ct ⟨f.a.setWidth 5, f.ea⟩ (parseMemS f) (f.imm.setWidth 36)) else
    if f.fl.getLsbD 0 then some (.msgZ ⟨f.pr, f.pn⟩ f.ct ⟨f.a.setWidth 5, f.ea⟩ (f.imm.setWidth 36)) else none
  | 13 =>
    if f.fn == 0 then some (.wptSet ⟨f.pr, f.pn⟩ (f.imm.extractLsb' 0 2) ⟨f.a.setWidth 5, f.ea⟩ ⟨f.b.setWidth 5, f.eb⟩ (f.fl.extractLsb' 0 2)) else
    if f.fn == 1 then some (.wptClr ⟨f.pr, f.pn⟩ (f.imm.extractLsb' 0 2)) else
    if f.fn == 2 then some (.wptRd ⟨f.pr, f.pn⟩ (f.imm.extractLsb' 0 2) (f.d.setWidth 5)) else none
  | _ => none

/-- The forms with OP 0x40 to 0x4F (Table 3.5), read from their fields. -/
def ofFields4 (f : Fields) : Option Instr :=
  match f.op.toNat % 16 with
  | 0 => some (.vadd ⟨f.pr, f.pn⟩ (f.fn.getLsbD 0) (parseVOps f) f.rm (if f.rm == 4 && f.ty == 8 then some ⟨f.c.setWidth 4, f.ec⟩ else none))
  | 1 => some (.vsub ⟨f.pr, f.pn⟩ (f.fn.getLsbD 0) (parseVOps f) f.rm (if f.rm == 4 && f.ty == 8 then some ⟨f.c.setWidth 4, f.ec⟩ else none))
  | 2 => some (.vmul ⟨f.pr, f.pn⟩ (f.fn.getLsbD 0) (parseVOps f) f.rm (if f.rm == 4 && f.ty == 8 then some ⟨f.c.setWidth 4, f.ec⟩ else none))
  | 3 => some (.vfma ⟨f.pr, f.pn⟩ f.fn f.rm (parseVOps f) ⟨decV f.c, f.ec⟩)
  | 4 => some (.vmin ⟨f.pr, f.pn⟩ (parseVOps f))
  | 5 => some (.vmax ⟨f.pr, f.pn⟩ (parseVOps f))
  | 6 => some (.vdiv ⟨f.pr, f.pn⟩ f.rm (parseVOps f))
  | 7 => some (.vsqrt ⟨f.pr, f.pn⟩ f.rm (decV f.d) ⟨decV f.a, f.ea⟩)
  | 8 => some (.vrsq ⟨f.pr, f.pn⟩ f.rm (decV f.d) ⟨decV f.a, f.ea⟩)
  | 9 => some (.vexp2 ⟨f.pr, f.pn⟩ f.rm (decV f.d) ⟨decV f.a, f.ea⟩)
  | 10 => some (.vlog2 ⟨f.pr, f.pn⟩ f.rm (decV f.d) ⟨decV f.a, f.ea⟩)
  | 11 => some (.vcmp ⟨f.pr, f.pn⟩ f.fn (parseVOps f))
  | 12 => some (.vsel ⟨f.pr, f.pn⟩ (parseVOps f) ⟨decV f.c, f.ec⟩)
  | 13 =>
    if f.fn == 0 then some (.vcvt ⟨f.pr, f.pn⟩ f.ty (f.sub.extractLsb' 0 4) (f.sub.extractLsb' 4 3) f.rm (decV f.d) ⟨decV f.a, f.ea⟩ (if f.ty == 12 then some ⟨decV f.b, f.eb⟩ else none) (if f.rm == 4 && f.ty == 8 then some ⟨f.c.setWidth 4, f.ec⟩ else none)) else
    if f.fn == 1 then some (.vcvtXs ⟨f.pr, f.pn⟩ f.ty (f.sub.extractLsb' 0 4) (f.sub.extractLsb' 4 3) f.rm (decV f.d) ⟨decV f.a, f.ea⟩ (if f.rm == 4 && f.ty == 8 then some ⟨f.c.setWidth 4, f.ec⟩ else none)) else none
  | 14 =>
    if f.fn == 0 then some (.vqnt ⟨f.pr, f.pn⟩ (decV f.d) ⟨f.a.setWidth 4, f.ea⟩) else
    if f.fn == 1 then some (.vqntS ⟨f.pr, f.pn⟩ (f.d.setWidth 5) ⟨f.a.setWidth 4, f.ea⟩) else none
  | 15 => some (.vdq ⟨f.pr, f.pn⟩ (decV f.d) ⟨decV f.a, f.ea⟩ ⟨f.b.setWidth 5, f.eb⟩ (f.sub.extractLsb' 0 2))
  | _ => none

/-- The forms with OP 0x50 to 0x5F (Table 3.5), read from their fields. -/
def ofFields5 (f : Fields) : Option Instr :=
  match f.op.toNat % 16 with
  | 0 =>
    if f.fn == 0 then some (.vredSum ⟨f.pr, f.pn⟩ f.ty f.rm (f.d.setWidth 5) ⟨decV f.a, f.ea⟩) else
    if f.fn == 1 then some (.vredMin ⟨f.pr, f.pn⟩ f.ty (f.d.setWidth 5) ⟨decV f.a, f.ea⟩) else
    if f.fn == 2 then some (.vredMax ⟨f.pr, f.pn⟩ f.ty (f.d.setWidth 5) ⟨decV f.a, f.ea⟩) else
    if f.fn == 3 then some (.vredAmax ⟨f.pr, f.pn⟩ f.ty (f.d.setWidth 5) ⟨decV f.a, f.ea⟩) else none
  | 1 => some (.vperm ⟨f.pr, f.pn⟩ (parseVOps f))
  | 2 => some (.vshuf ⟨f.pr, f.pn⟩ f.fn f.ty (decV f.d) ⟨decV f.a, f.ea⟩ (if f.fn.toNat < 4 then some ⟨decV f.b, f.eb⟩ else none) (f.sub.extractLsb' 0 7))
  | 3 =>
    if f.fn == 0 then some (.vbcast ⟨f.pr, f.pn⟩ f.ty (decV f.d) ⟨f.a.setWidth 5, f.ea⟩) else
    if f.fn == 1 then some (.vbcastLane ⟨f.pr, f.pn⟩ f.ty (decV f.d) ⟨decV f.a, f.ea⟩ (f.sub.extractLsb' 0 7)) else none
  | 4 => some (.vlogic ⟨f.pr, f.pn⟩ f.fn (decV f.d) ⟨decV f.a, f.ea⟩ ⟨decV f.b, f.eb⟩)
  | 5 => some (.vshift ⟨f.pr, f.pn⟩ (f.fn.extractLsb' 0 2) f.ty (decV f.d) ⟨decV f.a, f.ea⟩ (parseShB f))
  | 6 =>
    if f.fn == 0 then some (.vmovgGet ⟨f.pr, f.pn⟩ f.ty (f.d.setWidth 5) ⟨decV f.a, f.ea⟩ (f.sub.extractLsb' 0 7)) else
    if f.fn == 1 then some (.vmovgPut ⟨f.pr, f.pn⟩ f.ty (f.d.setWidth 4) ⟨f.a.setWidth 5, f.ea⟩ (f.sub.extractLsb' 0 7)) else none
  | 7 => some (.vrng ⟨f.pr, f.pn⟩ (f.fn.getLsbD 0) (decV f.d) ⟨f.a.setWidth 5, f.ea⟩ ⟨f.b.setWidth 5, f.eb⟩)
  | 8 =>
    if f.fn == 0 then some (.vla ⟨f.pr, f.pn⟩ ⟨decV f.a, f.ea⟩ ⟨f.c.setWidth 5, f.ec⟩ f.sub) else
    if f.fn == 1 then some (.vlaP ⟨f.pr, f.pn⟩ ⟨decV f.a, f.ea⟩ ⟨decV f.b, f.eb⟩ ⟨f.c.setWidth 5, f.ec⟩ f.sub) else none
  | 9 => some (.vlard ⟨f.pr, f.pn⟩ f.rm (decV f.d) ⟨f.a.setWidth 5, f.ea⟩ ⟨f.c.setWidth 5, f.ec⟩ f.sub)
  | _ => none

/-- The forms with OP 0x60 to 0x6F (Table 3.5), read from their fields. -/
def ofFields6 (f : Fields) : Option Instr :=
  match f.op.toNat % 16 with
  | 0 => some (.mma ⟨f.pr, f.pn⟩ f.ty (f.fn.getLsbD 0) (f.sub.extractLsb' 0 2))
  | 1 => some (.mmam ⟨f.pr, f.pn⟩ f.ty (f.fn.getLsbD 0) (f.sub.extractLsb' 0 2) (parseMask f))
  | 2 => some (.saa ⟨f.pr, f.pn⟩ f.ty (f.sub.extractLsb' 0 2) (f.sub.extractLsb' 2 5) (parseScale f) ⟨f.b.setWidth 5, f.eb⟩ ⟨f.c.setWidth 5, f.ec⟩)
  | 3 => some (.acc ⟨f.pr, f.pn⟩ f.ty (f.sub.extractLsb' 0 2) (f.sub.extractLsb' 2 5) ⟨f.b.setWidth 5, f.eb⟩ ⟨f.c.setWidth 5, f.ec⟩)
  | 4 => some (.lard ⟨f.pr, f.pn⟩ (f.fn.getLsbD 0) f.rm (f.sub.extractLsb' 2 5) ⟨f.a.setWidth 5, f.ea⟩ ⟨f.b.setWidth 5, f.eb⟩ ⟨f.c.setWidth 5, f.ec⟩)
  | 5 => some (.lazero ⟨f.pr, f.pn⟩ (f.sub.extractLsb' 2 5) ⟨f.c.setWidth 5, f.ec⟩)
  | 6 => some (.drain ⟨f.pr, f.pn⟩ (f.fl.getLsbD 0) f.ct ⟨f.a.setWidth 5, f.ea⟩ ⟨f.b.setWidth 5, f.eb⟩ (f.imm.setWidth 36))
  | 7 =>
    if f.fn == 0 then some (.ptmovSt ⟨f.pr, f.pn⟩ f.ty (f.sub.extractLsb' 0 2) ⟨f.c.setWidth 5, f.ec⟩) else
    if f.fn == 1 then some (.ptmovLd ⟨f.pr, f.pn⟩ f.ty (f.sub.extractLsb' 0 2) ⟨f.c.setWidth 5, f.ec⟩) else
    if f.fn == 2 then some (.ptmovGet ⟨f.pr, f.pn⟩ f.ty (f.sub.extractLsb' 0 2) (f.sub.extractLsb' 2 5) (f.d.setWidth 4)) else none
  | 8 =>
    if f.fn == 0 then some (.mrepA ⟨f.pr, f.pn⟩ (f.sub.extractLsb' 0 8) (f.sub.extractLsb' 8 2)) else
    if f.fn == 1 then some (.mrepB ⟨f.pr, f.pn⟩ (f.sub.extractLsb' 0 8) (f.sub.extractLsb' 8 2)) else none
  | 9 =>
    if f.fn == 0 then some (.rchkRd ⟨f.pr, f.pn⟩ (f.d.setWidth 5)) else
    if f.fn == 1 then some (.rchkClr ⟨f.pr, f.pn⟩ (f.d.setWidth 5)) else
    if f.fn == 2 then some (.rchkInj ⟨f.pr, f.pn⟩ (f.sub.extractLsb' 0 2)) else none
  | 10 =>
    if f.fn == 0 then some (.mwaitArr ⟨f.pr, f.pn⟩) else
    if f.fn == 1 then some (.mwaitAdd ⟨f.pr, f.pn⟩) else
    if f.fn == 2 then some (.mwaitAll ⟨f.pr, f.pn⟩) else none
  | _ => none

/-- The forms with OP 0x70 to 0x7F (Table 3.5), read from their fields. -/
def ofFields7 (f : Fields) : Option Instr :=
  match f.op.toNat % 16 with
  | 0 =>
    if f.fn == 0 then some (.nrmCur ⟨f.pr, f.pn⟩ ⟨f.a.setWidth 5, f.ea⟩ ⟨f.b.setWidth 5, f.eb⟩) else
    if f.fn == 1 then some (.nrmSt ⟨f.pr, f.pn⟩ ⟨f.a.setWidth 5, f.ea⟩ ⟨f.b.setWidth 5, f.eb⟩ ⟨f.c.setWidth 5, f.ec⟩) else
    if f.fn == 2 then some (.nrmLd ⟨f.pr, f.pn⟩ ⟨f.a.setWidth 5, f.ea⟩ ⟨f.b.setWidth 5, f.eb⟩ ⟨f.c.setWidth 5, f.ec⟩) else none
  | 1 => some (.atb ⟨f.pr, f.pn⟩ f.ct ⟨f.a.setWidth 5, f.ea⟩ ⟨f.b.setWidth 5, f.eb⟩ ⟨f.c.setWidth 5, f.ec⟩)
  | 2 => some (.smp ⟨f.pr, f.pn⟩ f.ty (f.fn.getLsbD 0) (f.sub.extractLsb' 0 2) ⟨f.a.setWidth 5, f.ea⟩ (f.b.setWidth 5) ⟨f.c.setWidth 5, f.ec⟩)
  | 3 => some (.smpl ⟨f.pr, f.pn⟩ f.ty (f.fn.getLsbD 0) (f.fl.extractLsb' 0 2) f.ct ⟨f.a.setWidth 5, f.ea⟩ (f.b.setWidth 5) ⟨f.c.setWidth 5, f.ec⟩)
  | 4 =>
    if f.fn == 0 then some (.svarUp ⟨f.pr, f.pn⟩ (f.sub.extractLsb' 0 2) (f.sub.extractLsb' 2 5)) else
    if f.fn == 1 then some (.svarRd ⟨f.pr, f.pn⟩ (f.d.setWidth 5)) else
    if f.fn == 2 then some (.svarInv ⟨f.pr, f.pn⟩ (f.d.setWidth 5)) else
    if f.fn == 3 then some (.svarSt ⟨f.pr, f.pn⟩ ⟨f.c.setWidth 5, f.ec⟩) else
    if f.fn == 4 then some (.svarLd ⟨f.pr, f.pn⟩ ⟨f.c.setWidth 5, f.ec⟩) else none
  | 5 =>
    if f.fn == 0 then some (.sclrVar ⟨f.pr, f.pn⟩) else
    if f.fn == 1 then some (.sclrErr ⟨f.pr, f.pn⟩) else
    if f.fn == 2 then some (.sclrAll ⟨f.pr, f.pn⟩) else none
  | 6 => some (.sdraw ⟨f.pr, f.pn⟩ (f.fn.getLsbD 0) (f.d.setWidth 4) ⟨f.a.setWidth 5, f.ea⟩ (f.b.setWidth 5) ⟨f.c.setWidth 5, f.ec⟩)
  | 8 =>
    if f.fn.setWidth 2 == 0#2 then some (.sbindIn ⟨f.pr, f.pn⟩ (f.sub.getLsbD 0) f.ct (f.d.setWidth 3) ⟨f.a.setWidth 5, f.ea⟩ ⟨f.b.setWidth 5, f.eb⟩ ⟨f.c.setWidth 5, f.ec⟩ f.imm) else
    if f.fn.setWidth 2 == 1#2 then some (.sbindOut ⟨f.pr, f.pn⟩ (f.sub.getLsbD 0) f.ct (f.d.setWidth 3) ⟨f.a.setWidth 5, f.ea⟩ ⟨f.b.setWidth 5, f.eb⟩ ⟨f.c.setWidth 5, f.ec⟩ f.imm) else
    if f.fn.setWidth 2 == 2#2 then some (.sbindFa ⟨f.pr, f.pn⟩ (f.fn.getLsbD 2) (f.sub.getLsbD 0) f.ct ⟨f.a.setWidth 5, f.ea⟩ ⟨f.b.setWidth 5, f.eb⟩ ⟨f.c.setWidth 5, f.ec⟩ f.imm) else
    if f.fn.setWidth 2 == 3#2 then some (.sbindFb ⟨f.pr, f.pn⟩ (f.fn.getLsbD 2) (f.sub.getLsbD 0) f.ct ⟨f.a.setWidth 5, f.ea⟩ ⟨f.b.setWidth 5, f.eb⟩ ⟨f.c.setWidth 5, f.ec⟩ f.imm) else none
  | 9 =>
    if f.fn == 0 then some (.sunbind ⟨f.pr, f.pn⟩ (f.d.setWidth 3)) else
    if f.fn == 1 then some (.sunbindFa ⟨f.pr, f.pn⟩) else
    if f.fn == 2 then some (.sunbindFb ⟨f.pr, f.pn⟩) else
    if f.fn == 3 then some (.sunbindPos ⟨f.pr, f.pn⟩ (f.d.setWidth 5) (f.a.setWidth 3)) else
    if f.fn == 4 then some (.sunbindPosa ⟨f.pr, f.pn⟩ (f.d.setWidth 5)) else
    if f.fn == 5 then some (.sunbindPosb ⟨f.pr, f.pn⟩ (f.d.setWidth 5)) else none
  | 10 => some (.cpy ⟨f.pr, f.pn⟩ f.fn f.fl f.ct ⟨f.a.setWidth 5, f.ea⟩ ⟨f.b.setWidth 5, f.eb⟩ ⟨f.c.setWidth 5, f.ec⟩ (f.imm.extractLsb' 0 32) (f.imm.extractLsb' 32 3))
  | 11 => some (.cpym ⟨f.pr, f.pn⟩ f.fn f.fl f.ct ⟨f.a.setWidth 5, f.ea⟩ ⟨f.b.setWidth 5, f.eb⟩ ⟨f.c.setWidth 5, f.ec⟩ (f.imm.extractLsb' 0 4) (f.imm.getLsbD 4) (f.imm.extractLsb' 5 2) (f.imm.extractLsb' 7 3))
  | 12 =>
    if f.fn == 0 then some (.sxwSet ⟨f.pr, f.pn⟩ (f.imm.extractLsb' 0 3) ⟨f.a.setWidth 5, f.ea⟩) else
    if f.fn == 1 then some (.sxwClr ⟨f.pr, f.pn⟩ (f.imm.extractLsb' 0 3)) else
    if f.fn == 2 then some (.sxwRd ⟨f.pr, f.pn⟩ (f.imm.extractLsb' 0 3) (f.d.setWidth 5)) else none
  | 13 =>
    if f.fn == 0 then some (.cntSet ⟨f.pr, f.pn⟩ (f.sub.extractLsb' 0 4) (f.sub.extractLsb' 4 8) ⟨f.a.setWidth 5, f.ea⟩) else
    if f.fn == 1 then some (.cntAdd ⟨f.pr, f.pn⟩ (f.sub.extractLsb' 0 4) (f.sub.extractLsb' 4 8) ⟨f.a.setWidth 5, f.ea⟩) else
    if f.fn == 2 then some (.cntRd ⟨f.pr, f.pn⟩ (f.sub.extractLsb' 0 4) (f.d.setWidth 5)) else none
  | 14 =>
    if f.fn == 0 then some (.sgtSet ⟨f.pr, f.pn⟩ (f.sub.extractLsb' 0 4) f.imm) else
    if f.fn == 1 then some (.sgtGo ⟨f.pr, f.pn⟩ (f.sub.extractLsb' 0 4) (f.sub.extractLsb' 4 2) f.ct ⟨f.a.setWidth 5, f.ea⟩ ⟨f.b.setWidth 5, f.eb⟩ ⟨f.c.setWidth 5, f.ec⟩) else
    if f.fn == 2 then some (.sgtRd ⟨f.pr, f.pn⟩ (f.sub.extractLsb' 0 4) (f.d.setWidth 5)) else
    if f.fn == 3 then some (.sgtFlt ⟨f.pr, f.pn⟩ (f.sub.extractLsb' 0 3) (f.d.setWidth 5)) else none
  | 15 =>
    if f.fn == 0 then some (.engSt ⟨f.pr, f.pn⟩ (f.d.setWidth 5)) else
    if f.fn == 1 then some (.engFlt ⟨f.pr, f.pn⟩ (f.d.setWidth 5)) else
    if f.fn == 2 then some (.engCrc ⟨f.pr, f.pn⟩ (f.d.setWidth 5)) else
    if f.fn == 3 then some (.engQ ⟨f.pr, f.pn⟩) else none
  | _ => none

/-- The forms with OP 0x80 to 0x8F (Table 3.5), read from their fields. -/
def ofFields8 (f : Fields) : Option Instr :=
  match f.op.toNat % 16 with
  | 0 => some (.bar ⟨f.pr, f.pn⟩ (f.sub.extractLsb' 0 2))
  | 1 => some (.barv ⟨f.pr, f.pn⟩ (f.sub.extractLsb' 0 2) (f.d.setWidth 5) ⟨f.a.setWidth 5, f.ea⟩)
  | 2 =>
    if f.fn == 0 then some (.bara ⟨f.pr, f.pn⟩ (f.sub.extractLsb' 0 2) ⟨f.a.setWidth 5, f.ea⟩) else
    if f.fn == 1 then some (.baraN ⟨f.pr, f.pn⟩ (f.sub.extractLsb' 0 2)) else none
  | 3 => some (.waitb ⟨f.pr, f.pn⟩ (f.sub.extractLsb' 0 2) (f.d.setWidth 5))
  | 4 => some (.vabort ⟨f.pr, f.pn⟩ (f.sub.extractLsb' 0 7))
  | 5 => some (.bcfg ⟨f.pr, f.pn⟩ (f.fl.extractLsb' 0 2) ⟨f.a.setWidth 5, f.ea⟩ (f.imm.extractLsb' 0 4))
  | 6 =>
    if f.fn == 0 then some (.bred ⟨f.pr, f.pn⟩ (f.sub.extractLsb' 0 2) (f.d.setWidth 5)) else
    if f.fn == 1 then some (.bredCfg ⟨f.pr, f.pn⟩ (f.sub.extractLsb' 0 2) (f.d.setWidth 5)) else
    if f.fn == 2 then some (.bredSt ⟨f.pr, f.pn⟩ (f.d.setWidth 5)) else none
  | 7 => some (.glchk ⟨f.pr, f.pn⟩ (f.d.setWidth 5))
  | _ => none

/-- The forms with OP 0x90 to 0x9F (Table 3.5), read from their fields. -/
def ofFields9 (f : Fields) : Option Instr :=
  match f.op.toNat % 16 with
  | 0 => some (.coll ⟨f.pr, f.pn⟩ (f.sub.extractLsb' 0 3) ⟨f.a.setWidth 5, f.ea⟩)
  | 1 => some (.waitp ⟨f.pr, f.pn⟩ (f.imm.extractLsb' 0 6) (f.imm.extractLsb' 6 6) (f.fl.extractLsb' 0 3) ⟨f.a.setWidth 5, f.ea⟩ ⟨f.b.setWidth 5, f.eb⟩)
  | 2 => some (.pcan ⟨f.pr, f.pn⟩ (f.sub.extractLsb' 0 3) (f.sub.extractLsb' 3 6))
  | 3 =>
    if f.ty == 8 then some (.prdF32 ⟨f.pr, f.pn⟩ (f.sub.extractLsb' 0 3) (f.sub.extractLsb' 3 6) (f.d.setWidth 4) ⟨f.a.setWidth 5, f.ea⟩) else
    if f.ty == 13 then some (.prdLa ⟨f.pr, f.pn⟩ (f.sub.extractLsb' 0 3) (f.sub.extractLsb' 3 6) ⟨f.a.setWidth 5, f.ea⟩ ⟨f.c.setWidth 5, f.ec⟩) else none
  | 4 =>
    if f.fn == 0 then some (.cstat ⟨f.pr, f.pn⟩ (f.sub.extractLsb' 0 3) (f.d.setWidth 5)) else
    if f.fn == 1 then some (.cstatPc ⟨f.pr, f.pn⟩ (f.d.setWidth 5) ⟨f.a.setWidth 5, f.ea⟩) else none
  | 8 => some (.start ⟨f.pr, f.pn⟩ f.d ⟨f.a.setWidth 5, f.ea⟩ (f.imm.setWidth 26))
  | 9 =>
    if f.fn == 0 then some (.hstop ⟨f.pr, f.pn⟩ f.d) else
    if f.fn == 1 then some (.hstopAll ⟨f.pr, f.pn⟩) else none
  | 10 => some (.enq ⟨f.pr, f.pn⟩ (f.sub.extractLsb' 0 4) (f.d.setWidth 5) ⟨f.a.setWidth 5, f.ea⟩)
  | 11 =>
    if f.fn.toNat < 4 then some (.ccnt ⟨f.pr, f.pn⟩ (f.fn.extractLsb' 0 2) (f.d.setWidth 5) ⟨f.a.setWidth 5, f.ea⟩ ⟨f.b.setWidth 5, f.eb⟩) else
    if f.fn == 4 then some (.ccntQ ⟨f.pr, f.pn⟩ (f.sub.extractLsb' 0 4) (f.d.setWidth 5)) else none
  | 12 => some (.cancel ⟨f.pr, f.pn⟩ (f.fn.extractLsb' 0 2) (f.d.setWidth 5) ⟨f.a.setWidth 5, f.ea⟩ ⟨f.b.setWidth 5, f.eb⟩)
  | 13 =>
    if f.fn == 0 then some (.vtidShape ⟨f.pr, f.pn⟩ (f.d.setWidth 5)) else
    if f.fn == 1 then some (.vtidOrd ⟨f.pr, f.pn⟩ (f.d.setWidth 5) ⟨f.a.setWidth 5, f.ea⟩) else
    if f.fn == 2 then some (.vtidIdx ⟨f.pr, f.pn⟩ (f.d.setWidth 5) ⟨f.a.setWidth 5, f.ea⟩) else
    if f.fn == 3 then some (.vtidHost ⟨f.pr, f.pn⟩ (f.d.setWidth 5) ⟨f.a.setWidth 5, f.ea⟩) else none
  | 14 =>
    if f.fn == 0 then some (.offer ⟨f.pr, f.pn⟩ ⟨f.a.setWidth 5, f.ea⟩) else
    if f.fn == 1 then some (.offerRd ⟨f.pr, f.pn⟩ (f.d.setWidth 5)) else none
  | _ => none

/-- The forms with OP 0xA0 to 0xAF (Table 3.5), read from their fields. -/
def ofFieldsA (f : Fields) : Option Instr :=
  match f.op.toNat % 16 with
  | 0 => some (.imp ⟨f.pr, f.pn⟩ ⟨f.a.setWidth 5, f.ea⟩)
  | 1 => some (.offl ⟨f.pr, f.pn⟩ f.ct (f.d.setWidth 5) ⟨f.a.setWidth 5, f.ea⟩ (f.imm.setWidth 36))
  | 2 => some (.retn ⟨f.pr, f.pn⟩ f.ct (f.d.setWidth 5) ⟨f.a.setWidth 5, f.ea⟩ (f.imm.setWidth 36))
  | 3 =>
    if f.fn == 0 then some (.pstat ⟨f.pr, f.pn⟩ (f.d.setWidth 5) ⟨f.a.setWidth 5, f.ea⟩) else
    if f.fn == 1 then some (.pstatDev ⟨f.pr, f.pn⟩ (f.d.setWidth 5)) else none
  | 4 =>
    if f.fn == 0 then some (.pin ⟨f.pr, f.pn⟩ (f.d.setWidth 5) ⟨f.a.setWidth 5, f.ea⟩) else
    if f.fn == 1 then some (.pinClr ⟨f.pr, f.pn⟩ (f.d.setWidth 5) ⟨f.a.setWidth 5, f.ea⟩) else
    if f.fn == 2 then some (.pinUns ⟨f.pr, f.pn⟩ (f.d.setWidth 5) ⟨f.a.setWidth 5, f.ea⟩) else none
  | 5 =>
    if f.fn == 0 then some (.ckptGo ⟨f.pr, f.pn⟩ f.ct (f.d.setWidth 5)) else
    if f.fn == 1 then some (.ckptRd ⟨f.pr, f.pn⟩ (f.d.setWidth 5)) else none
  | 8 => some (.lnkrd ⟨f.pr, f.pn⟩ (f.sub.extractLsb' 0 3) (f.d.setWidth 5) ⟨f.a.setWidth 5, f.ea⟩)
  | 9 =>
    if f.fn == 0 then some (.lnkset ⟨f.pr, f.pn⟩ (f.d.setWidth 5) ⟨f.a.setWidth 5, f.ea⟩ ⟨f.b.setWidth 5, f.eb⟩) else
    if f.fn == 1 then some (.lnksetUp ⟨f.pr, f.pn⟩ (f.d.setWidth 5) ⟨f.a.setWidth 5, f.ea⟩) else
    if f.fn == 2 then some (.lnksetDown ⟨f.pr, f.pn⟩ (f.d.setWidth 5) ⟨f.a.setWidth 5, f.ea⟩) else none
  | 10 => some (.lnkret ⟨f.pr, f.pn⟩ (f.sub.extractLsb' 0 7) (f.d.setWidth 5) ⟨f.a.setWidth 5, f.ea⟩)
  | _ => none

/-- The forms with OP 0xB0 to 0xBF (Table 3.5), read from their fields. -/
def ofFieldsB (f : Fields) : Option Instr :=
  match f.op.toNat % 16 with
  | 0 => some (.trap ⟨f.pr, f.pn⟩ (f.imm.extractLsb' 0 24))
  | 1 => some (.tret ⟨f.pr, f.pn⟩)
  | 2 => some (.sys ⟨f.pr, f.pn⟩ (f.imm.extractLsb' 0 16) (f.d.setWidth 5) ⟨f.a.setWidth 5, f.ea⟩)
  | 3 =>
    if f.fn == 0 then some (.ctxsRd ⟨f.pr, f.pn⟩ (f.imm.getLsbD 0) (f.d.setWidth 5) ⟨f.a.setWidth 5, f.ea⟩) else
    if f.fn == 1 then some (.ctxsNew ⟨f.pr, f.pn⟩ (f.d.setWidth 5) ⟨f.a.setWidth 5, f.ea⟩ ⟨f.b.setWidth 5, f.eb⟩) else
    if f.fn == 2 then some (.ctxsSeg ⟨f.pr, f.pn⟩ ⟨f.a.setWidth 5, f.ea⟩ ⟨f.b.setWidth 5, f.eb⟩) else
    if f.fn == 3 then some (.ctxsGo ⟨f.pr, f.pn⟩ (f.d.setWidth 5) ⟨f.a.setWidth 5, f.ea⟩) else
    if f.fn == 4 then some (.ctxsSave ⟨f.pr, f.pn⟩ (f.d.setWidth 5) ⟨f.a.setWidth 5, f.ea⟩) else
    if f.fn == 5 then some (.ctxsRest ⟨f.pr, f.pn⟩ (f.d.setWidth 5) ⟨f.a.setWidth 5, f.ea⟩) else none
  | 4 =>
    if f.fn == 0 then some (.kill ⟨f.pr, f.pn⟩ (f.sub.extractLsb' 0 8)) else
    if f.fn == 1 then some (.killCtx ⟨f.pr, f.pn⟩ ⟨f.a.setWidth 5, f.ea⟩ (f.sub.extractLsb' 0 8)) else none
  | 5 =>
    if f.fn == 0 then some (.idleRd ⟨f.pr, f.pn⟩ (f.d.setWidth 5) ⟨f.a.setWidth 5, f.ea⟩) else
    if f.fn == 1 then some (.idleSet ⟨f.pr, f.pn⟩ ⟨f.a.setWidth 5, f.ea⟩) else none
  | 6 =>
    if f.fn == 0 then some (.tstReq ⟨f.pr, f.pn⟩ (f.d.setWidth 5) ⟨f.a.setWidth 5, f.ea⟩) else
    if f.fn == 1 then some (.tstRd ⟨f.pr, f.pn⟩ (f.imm.extractLsb' 0 4) (f.d.setWidth 5) ⟨f.a.setWidth 5, f.ea⟩) else none
  | 7 =>
    if f.fn == 0 then some (.ecntK ⟨f.pr, f.pn⟩ (f.sub.extractLsb' 0 2) (f.d.setWidth 5) ⟨f.a.setWidth 5, f.ea⟩) else
    if f.fn == 1 then some (.ecntRes ⟨f.pr, f.pn⟩ (f.d.setWidth 5) ⟨f.a.setWidth 5, f.ea⟩) else
    if f.fn == 2 then some (.ecntThm ⟨f.pr, f.pn⟩ (f.d.setWidth 5) ⟨f.a.setWidth 5, f.ea⟩) else
    if f.fn == 3 then some (.ecntTs ⟨f.pr, f.pn⟩ (f.sub.extractLsb' 2 4) (f.d.setWidth 5) ⟨f.a.setWidth 5, f.ea⟩) else
    if f.fn == 4 then some (.ecntSet ⟨f.pr, f.pn⟩ (f.sub.getLsbD 2) ⟨f.a.setWidth 5, f.ea⟩ ⟨f.b.setWidth 5, f.eb⟩) else none
  | 8 =>
    if f.fn == 0 then some (.dbgRd ⟨f.pr, f.pn⟩ (f.d.setWidth 5)) else
    if f.fn == 1 then some (.dbgMark ⟨f.pr, f.pn⟩ ⟨f.a.setWidth 5, f.ea⟩ (f.imm.setWidth 36)) else
    if f.fn == 2 then some (.dbgBrk ⟨f.pr, f.pn⟩ (f.imm.setWidth 36)) else none
  | _ => none

/-- The instruction whose fields these are, by opcode (R66, R67). -/
def ofFields (f : Fields) : Option Instr :=
  match f.op.toNat / 16 with
  | 0 => ofFields0 f
  | 1 => ofFields1 f
  | 2 => ofFields2 f
  | 3 => ofFields3 f
  | 4 => ofFields4 f
  | 5 => ofFields5 f
  | 6 => ofFields6 f
  | 7 => ofFields7 f
  | 8 => ofFields8 f
  | 9 => ofFields9 f
  | 10 => ofFieldsA f
  | 11 => ofFieldsB f
  | _ => none

/-- The fields of an instruction (the chapters' encoding tables); none for a hardware step. -/
def toFields (i : Instr) : Option Fields :=
  match i with
  | .nop p => some { op := 0#8, pr := p.pr, pn := p.pn }
  | .add p o => some { op := 1#8, pr := p.pr, pn := p.pn, d := o.d.setWidth 6, a := o.a.r.setWidth 6, ea := o.a.e, fn := aluFn o, b := aluBr o, eb := aluEb o, imm := aluImm o }
  | .sub p o => some { op := 2#8, pr := p.pr, pn := p.pn, d := o.d.setWidth 6, a := o.a.r.setWidth 6, ea := o.a.e, fn := aluFn o, b := aluBr o, eb := aluEb o, imm := aluImm o }
  | .mul p o => some { op := 3#8, pr := p.pr, pn := p.pn, d := o.d.setWidth 6, a := o.a.r.setWidth 6, ea := o.a.e, fn := aluFn o, b := aluBr o, eb := aluEb o, imm := aluImm o }
  | .mulh p o => some { op := 4#8, pr := p.pr, pn := p.pn, d := o.d.setWidth 6, a := o.a.r.setWidth 6, ea := o.a.e, fn := aluFn o, b := aluBr o, eb := aluEb o, imm := aluImm o }
  | .div p o => some { op := 5#8, pr := p.pr, pn := p.pn, d := o.d.setWidth 6, a := o.a.r.setWidth 6, ea := o.a.e, fn := aluFn o, b := aluBr o, eb := aluEb o, imm := aluImm o }
  | .rem p o => some { op := 6#8, pr := p.pr, pn := p.pn, d := o.d.setWidth 6, a := o.a.r.setWidth 6, ea := o.a.e, fn := aluFn o, b := aluBr o, eb := aluEb o, imm := aluImm o }
  | .and p o => some { op := 7#8, pr := p.pr, pn := p.pn, d := o.d.setWidth 6, a := o.a.r.setWidth 6, ea := o.a.e, fn := aluFn o, b := aluBr o, eb := aluEb o, imm := aluImm o }
  | .or p o => some { op := 8#8, pr := p.pr, pn := p.pn, d := o.d.setWidth 6, a := o.a.r.setWidth 6, ea := o.a.e, fn := aluFn o, b := aluBr o, eb := aluEb o, imm := aluImm o }
  | .xor p o => some { op := 9#8, pr := p.pr, pn := p.pn, d := o.d.setWidth 6, a := o.a.r.setWidth 6, ea := o.a.e, fn := aluFn o, b := aluBr o, eb := aluEb o, imm := aluImm o }
  | .andn p o => some { op := 10#8, pr := p.pr, pn := p.pn, d := o.d.setWidth 6, a := o.a.r.setWidth 6, ea := o.a.e, fn := aluFn o, b := aluBr o, eb := aluEb o, imm := aluImm o }
  | .shl p o => some { op := 11#8, pr := p.pr, pn := p.pn, d := o.d.setWidth 6, a := o.a.r.setWidth 6, ea := o.a.e, fn := aluFn o, b := aluBr o, eb := aluEb o, imm := aluImm o }
  | .shr p o => some { op := 12#8, pr := p.pr, pn := p.pn, d := o.d.setWidth 6, a := o.a.r.setWidth 6, ea := o.a.e, fn := aluFn o, b := aluBr o, eb := aluEb o, imm := aluImm o }
  | .sra p o => some { op := 13#8, pr := p.pr, pn := p.pn, d := o.d.setWidth 6, a := o.a.r.setWidth 6, ea := o.a.e, fn := aluFn o, b := aluBr o, eb := aluEb o, imm := aluImm o }
  | .rot p o => some { op := 14#8, pr := p.pr, pn := p.pn, d := o.d.setWidth 6, a := o.a.r.setWidth 6, ea := o.a.e, fn := aluFn o, b := aluBr o, eb := aluEb o, imm := aluImm o }
  | .cmp p cond d a b imm => some { op := 15#8, pr := p.pr, pn := p.pn, fn := cond, d := d.setWidth 6, a := a.r.setWidth 6, ea := a.e, b := b.r.setWidth 6, eb := b.e, imm := imm.setWidth 64 }
  | .sel p d a b s neg => some { op := 16#8, pr := p.pr, pn := p.pn, d := d.setWidth 6, a := a.r.setWidth 6, ea := a.e, b := b.r.setWidth 6, eb := b.e, imm := s.setWidth 64 ||| (bit64 neg <<< 3) }
  | .min p o => some { op := 17#8, pr := p.pr, pn := p.pn, d := o.d.setWidth 6, a := o.a.r.setWidth 6, ea := o.a.e, fn := aluFn o, b := aluBr o, eb := aluEb o, imm := aluImm o }
  | .max p o => some { op := 18#8, pr := p.pr, pn := p.pn, d := o.d.setWidth 6, a := o.a.r.setWidth 6, ea := o.a.e, fn := aluFn o, b := aluBr o, eb := aluEb o, imm := aluImm o }
  | .bitcClz p d a => some { op := 19#8, pr := p.pr, pn := p.pn, d := d.setWidth 6, a := a.r.setWidth 6, ea := a.e, fn := 0 }
  | .bitcCtz p d a => some { op := 19#8, pr := p.pr, pn := p.pn, d := d.setWidth 6, a := a.r.setWidth 6, ea := a.e, fn := 1 }
  | .bitcPopc p d a => some { op := 19#8, pr := p.pr, pn := p.pn, d := d.setWidth 6, a := a.r.setWidth 6, ea := a.e, fn := 2 }
  | .ext p sx d a pos len => some { op := 20#8, pr := p.pr, pn := p.pn, fn := bit4 sx, d := d.setWidth 6, a := a.r.setWidth 6, ea := a.e, imm := pos.setWidth 64 ||| (len.setWidth 64 <<< 6) }
  | .ins p d a pos len => some { op := 21#8, pr := p.pr, pn := p.pn, d := d.setWidth 6, a := a.r.setWidth 6, ea := a.e, imm := pos.setWidth 64 ||| (len.setWidth 64 <<< 6) }
  | .li p d v => some { op := 22#8, pr := p.pr, pn := p.pn, d := d.setWidth 6, imm := v }
  | .lea p sc d a b imm => some { op := 23#8, pr := p.pr, pn := p.pn, fn := sc.setWidth 4, d := d.setWidth 6, a := a.r.setWidth 6, ea := a.e, b := b.r.setWidth 6, eb := b.e, imm := imm.setWidth 64 }
  | .gtaIdx p d a b => some { op := 24#8, pr := p.pr, pn := p.pn, d := d.setWidth 6, a := a.r.setWidth 6, ea := a.e, b := b.r.setWidth 6, eb := b.e, fn := 0 }
  | .gtaRel p d b drow dcol => some { op := 24#8, pr := p.pr, pn := p.pn, d := d.setWidth 6, b := b.r.setWidth 6, eb := b.e, imm := (drow.setWidth 64 <<< 5) ||| dcol.setWidth 64, fn := 1 }
  | .plog p tt d a b => some { op := 25#8, pr := p.pr, pn := p.pn, fn := tt, d := d.setWidth 6, a := a.setWidth 6, b := b.setWidth 6 }
  | .mfs p d n => some { op := 26#8, pr := p.pr, pn := p.pn, d := d.setWidth 6, imm := n.setWidth 64 }
  | .mts p a n => some { op := 27#8, pr := p.pr, pn := p.pn, a := a.r.setWidth 6, ea := a.e, imm := n.setWidth 64 }
  | .addc p wd d a b pc => some { op := 28#8, pr := p.pr, pn := p.pn, fn := wd.setWidth 4, d := d.setWidth 6, a := a.r.setWidth 6, ea := a.e, b := b.r.setWidth 6, eb := b.e, imm := pc.setWidth 64 }
  | .br p imm => some { op := 32#8, pr := p.pr, pn := p.pn, imm := imm.setWidth 64 }
  | .jmp p a imm => some { op := 33#8, pr := p.pr, pn := p.pn, a := a.r.setWidth 6, ea := a.e, imm := imm.setWidth 64 }
  | .call p d imm => some { op := 34#8, pr := p.pr, pn := p.pn, d := d.setWidth 6, imm := imm.setWidth 64, fn := 0 }
  | .callR p d a => some { op := 34#8, pr := p.pr, pn := p.pn, d := d.setWidth 6, a := a.r.setWidth 6, ea := a.e, fn := 1 }
  | .ret p a => some { op := 35#8, pr := p.pr, pn := p.pn, a := a.r.setWidth 6, ea := a.e }
  | .loop p d imm => some { op := 36#8, pr := p.pr, pn := p.pn, d := d.setWidth 6, imm := imm.setWidth 64 }
  | .halt p => some { op := 37#8, pr := p.pr, pn := p.pn }
  | .yield p => some { op := 38#8, pr := p.pr, pn := p.pn }
  | .waitc p sub a b ct pf imm => some { op := 39#8, pr := p.pr, pn := p.pn, fn := bit4 sub, a := a.r.setWidth 6, ea := a.e, b := b.r.setWidth 6, eb := b.e, ct := ct, fl := pf.setWidth 4, imm := imm.setWidth 64 }
  | .ovlLoc p a b ct base => some { op := 40#8, pr := p.pr, pn := p.pn, a := a.r.setWidth 6, ea := a.e, b := b.r.setWidth 6, eb := b.e, ct := ct, imm := base.setWidth 64, fn := 0 }
  | .ovlHbm p a b ct base => some { op := 40#8, pr := p.pr, pn := p.pn, a := a.r.setWidth 6, ea := a.e, b := b.r.setWidth 6, eb := b.e, ct := ct, imm := base.setWidth 64, fn := 1 }
  | .ld p wd d a imm => some { op := 48#8, pr := p.pr, pn := p.pn, fn := wd.setWidth 4, d := d.setWidth 6, a := a.r.setWidth 6, ea := a.e, imm := imm.setWidth 64 }
  | .st p wd a b imm => some { op := 49#8, pr := p.pr, pn := p.pn, fn := wd.setWidth 4, a := a.r.setWidth 6, ea := a.e, b := b.r.setWidth 6, eb := b.e, imm := imm.setWidth 64 }
  | .ldg p d a imm => some { op := 50#8, pr := p.pr, pn := p.pn, d := memDstD d, fn := memDstFn d, a := a.r.setWidth 6, ea := a.e, imm := imm.setWidth 64 }
  | .stg p a b imm => some { op := 51#8, pr := p.pr, pn := p.pn, a := a.r.setWidth 6, ea := a.e, b := memSrcB b, eb := memSrcE b, fn := memSrcFn b, imm := imm.setWidth 64 }
  | .st4 p a b imm => some { op := 52#8, pr := p.pr, pn := p.pn, a := a.r.setWidth 6, ea := a.e, b := b.r.setWidth 6, eb := b.e, imm := imm.setWidth 64, fn := 0 }
  | .st4G p a b imm => some { op := 52#8, pr := p.pr, pn := p.pn, a := a.r.setWidth 6, ea := a.e, b := b.r.setWidth 6, eb := b.e, imm := imm.setWidth 64, fn := 1 }
  | .ldl p wd d a imm => some { op := 53#8, pr := p.pr, pn := p.pn, fn := wd.setWidth 4, d := d.setWidth 6, a := a.r.setWidth 6, ea := a.e, imm := imm.setWidth 64 }
  | .stu p wd a b imm => some { op := 54#8, pr := p.pr, pn := p.pn, fn := wd.setWidth 4, a := a.r.setWidth 6, ea := a.e, b := b.r.setWidth 6, eb := b.e, imm := imm.setWidth 64 }
  | .addd p a b imm => some { op := 55#8, pr := p.pr, pn := p.pn, a := a.r.setWidth 6, ea := a.e, b := addSrcB b, eb := addSrcE b, ty := addSrcTy b, imm := imm.setWidth 64 }
  | .ldw p d a imm => some { op := 56#8, pr := p.pr, pn := p.pn, d := encW d, a := a.r.setWidth 6, ea := a.e, imm := imm.setWidth 64 }
  | .stw p a b imm => some { op := 57#8, pr := p.pr, pn := p.pn, a := a.r.setWidth 6, ea := a.e, b := encW b.r, eb := b.e, imm := imm.setWidth 64 }
  | .fence p sc => some { op := 58#8, pr := p.pr, pn := p.pn, fn := sc.setWidth 4 }
  | .lbLoad p wd d a imm => some { op := 59#8, pr := p.pr, pn := p.pn, fn := wd.setWidth 4 ||| 0, d := d.setWidth 6, a := a.r.setWidth 6, ea := a.e, imm := imm.setWidth 64 }
  | .lbStore p wd a b imm => some { op := 59#8, pr := p.pr, pn := p.pn, fn := wd.setWidth 4 ||| 8, a := a.r.setWidth 6, ea := a.e, b := b.r.setWidth 6, eb := b.e, imm := imm.setWidth 64 }
  | .msg p ct a b imm => some { op := 60#8, pr := p.pr, pn := p.pn, ct := ct, a := a.r.setWidth 6, ea := a.e, b := memSrcB b, eb := memSrcE b, fn := memSrcFn b, imm := imm.setWidth 64 }
  | .msgZ p ct a imm => some { op := 60#8, pr := p.pr, pn := p.pn, ct := ct, a := a.r.setWidth 6, ea := a.e, imm := imm.setWidth 64, fl := 1 }
  | .wptSet p n a b fl => some { op := 61#8, pr := p.pr, pn := p.pn, imm := n.setWidth 64, a := a.r.setWidth 6, ea := a.e, b := b.r.setWidth 6, eb := b.e, fl := fl.setWidth 4, fn := 0 }
  | .wptClr p n => some { op := 61#8, pr := p.pr, pn := p.pn, imm := n.setWidth 64, fn := 1 }
  | .wptRd p n d => some { op := 61#8, pr := p.pr, pn := p.pn, imm := n.setWidth 64, d := d.setWidth 6, fn := 2 }
  | .vadd p sat o rm c => some { op := 64#8, pr := p.pr, pn := p.pn, fn := bit4 sat, ty := o.ty, d := encV o.d, a := encV o.a.r, ea := o.a.e, b := encV o.b.r, eb := o.b.e, rm := rm, c := optWC c, ec := optWE c }
  | .vsub p sat o rm c => some { op := 65#8, pr := p.pr, pn := p.pn, fn := bit4 sat, ty := o.ty, d := encV o.d, a := encV o.a.r, ea := o.a.e, b := encV o.b.r, eb := o.b.e, rm := rm, c := optWC c, ec := optWE c }
  | .vmul p sat o rm c => some { op := 66#8, pr := p.pr, pn := p.pn, fn := bit4 sat, ty := o.ty, d := encV o.d, a := encV o.a.r, ea := o.a.e, b := encV o.b.r, eb := o.b.e, rm := rm, c := optWC c, ec := optWE c }
  | .vfma p k rm o c => some { op := 67#8, pr := p.pr, pn := p.pn, fn := k, rm := rm, ty := o.ty, d := encV o.d, a := encV o.a.r, ea := o.a.e, b := encV o.b.r, eb := o.b.e, c := encV c.r, ec := c.e }
  | .vmin p o => some { op := 68#8, pr := p.pr, pn := p.pn, ty := o.ty, d := encV o.d, a := encV o.a.r, ea := o.a.e, b := encV o.b.r, eb := o.b.e }
  | .vmax p o => some { op := 69#8, pr := p.pr, pn := p.pn, ty := o.ty, d := encV o.d, a := encV o.a.r, ea := o.a.e, b := encV o.b.r, eb := o.b.e }
  | .vdiv p rm o => some { op := 70#8, pr := p.pr, pn := p.pn, rm := rm, ty := o.ty, d := encV o.d, a := encV o.a.r, ea := o.a.e, b := encV o.b.r, eb := o.b.e }
  | .vsqrt p rm d a => some { op := 71#8, pr := p.pr, pn := p.pn, rm := rm, d := encV d, a := encV a.r, ea := a.e, ty := 8 }
  | .vrsq p rm d a => some { op := 72#8, pr := p.pr, pn := p.pn, rm := rm, d := encV d, a := encV a.r, ea := a.e, ty := 8 }
  | .vexp2 p rm d a => some { op := 73#8, pr := p.pr, pn := p.pn, rm := rm, d := encV d, a := encV a.r, ea := a.e, ty := 8 }
  | .vlog2 p rm d a => some { op := 74#8, pr := p.pr, pn := p.pn, rm := rm, d := encV d, a := encV a.r, ea := a.e, ty := 8 }
  | .vcmp p k o => some { op := 75#8, pr := p.pr, pn := p.pn, fn := k, ty := o.ty, d := encV o.d, a := encV o.a.r, ea := o.a.e, b := encV o.b.r, eb := o.b.e }
  | .vsel p o c => some { op := 76#8, pr := p.pr, pn := p.pn, ty := o.ty, d := encV o.d, a := encV o.a.r, ea := o.a.e, b := encV o.b.r, eb := o.b.e, c := encV c.r, ec := c.e }
  | .vcvt p ty tgt k rm d a b c => some { op := 77#8, pr := p.pr, pn := p.pn, ty := ty, sub := tgt.setWidth 12 ||| (k.setWidth 12 <<< 4), rm := rm, d := encV d, a := encV a.r, ea := a.e, b := optVB b, eb := optVE b, c := optWC c, ec := optWE c, fn := 0 }
  | .vcvtXs p ty tgt k rm d a c => some { op := 77#8, pr := p.pr, pn := p.pn, ty := ty, sub := tgt.setWidth 12 ||| (k.setWidth 12 <<< 4), rm := rm, d := encV d, a := encV a.r, ea := a.e, c := optWC c, ec := optWE c, fn := 1 }
  | .vqnt p d a => some { op := 78#8, pr := p.pr, pn := p.pn, d := encV d, a := encW a.r, ea := a.e, fn := 0, ty := 10 }
  | .vqntS p d a => some { op := 78#8, pr := p.pr, pn := p.pn, d := d.setWidth 6, a := encW a.r, ea := a.e, fn := 1, ty := 10 }
  | .vdq p d a b k => some { op := 79#8, pr := p.pr, pn := p.pn, d := encV d, a := encV a.r, ea := a.e, b := b.r.setWidth 6, eb := b.e, sub := k.setWidth 12, ty := 10 }
  | .vredSum p ty rm d a => some { op := 80#8, pr := p.pr, pn := p.pn, ty := ty, rm := rm, d := d.setWidth 6, a := encV a.r, ea := a.e, fn := 0 }
  | .vredMin p ty d a => some { op := 80#8, pr := p.pr, pn := p.pn, ty := ty, d := d.setWidth 6, a := encV a.r, ea := a.e, fn := 1 }
  | .vredMax p ty d a => some { op := 80#8, pr := p.pr, pn := p.pn, ty := ty, d := d.setWidth 6, a := encV a.r, ea := a.e, fn := 2 }
  | .vredAmax p ty d a => some { op := 80#8, pr := p.pr, pn := p.pn, ty := ty, d := d.setWidth 6, a := encV a.r, ea := a.e, fn := 3 }
  | .vperm p o => some { op := 81#8, pr := p.pr, pn := p.pn, ty := o.ty, d := encV o.d, a := encV o.a.r, ea := o.a.e, b := encV o.b.r, eb := o.b.e }
  | .vshuf p pat ty d a b s => some { op := 82#8, pr := p.pr, pn := p.pn, fn := pat, ty := ty, d := encV d, a := encV a.r, ea := a.e, b := optVB b, eb := optVE b, sub := s.setWidth 12 }
  | .vbcast p ty d a => some { op := 83#8, pr := p.pr, pn := p.pn, ty := ty, d := encV d, a := a.r.setWidth 6, ea := a.e, fn := 0 }
  | .vbcastLane p ty d a k => some { op := 83#8, pr := p.pr, pn := p.pn, ty := ty, d := encV d, a := encV a.r, ea := a.e, sub := k.setWidth 12, fn := 1 }
  | .vlogic p tt d a b => some { op := 84#8, pr := p.pr, pn := p.pn, fn := tt, d := encV d, a := encV a.r, ea := a.e, b := encV b.r, eb := b.e }
  | .vshift p k ty d a b => some { op := 85#8, pr := p.pr, pn := p.pn, fn := k.setWidth 4 ||| shiftBFn b, ty := ty, d := encV d, a := encV a.r, ea := a.e, b := shiftBB b, eb := shiftBE b, sub := shiftBS b }
  | .vmovgGet p ty d a k => some { op := 86#8, pr := p.pr, pn := p.pn, ty := ty, d := d.setWidth 6, a := encV a.r, ea := a.e, sub := k.setWidth 12, fn := 0 }
  | .vmovgPut p ty d a k => some { op := 86#8, pr := p.pr, pn := p.pn, ty := ty, d := encW d, a := a.r.setWidth 6, ea := a.e, sub := k.setWidth 12, fn := 1 }
  | .vrng p nx d a b => some { op := 87#8, pr := p.pr, pn := p.pn, fn := bit4 nx, d := encV d, a := a.r.setWidth 6, ea := a.e, b := b.r.setWidth 6, eb := b.e }
  | .vla p a c sub => some { op := 88#8, pr := p.pr, pn := p.pn, a := encV a.r, ea := a.e, c := c.r.setWidth 6, ec := c.e, sub := sub, fn := 0, ty := 8 }
  | .vlaP p a b c sub => some { op := 88#8, pr := p.pr, pn := p.pn, a := encV a.r, ea := a.e, b := encV b.r, eb := b.e, c := c.r.setWidth 6, ec := c.e, sub := sub, fn := 1, ty := 8 }
  | .vlard p rm d a c sub => some { op := 89#8, pr := p.pr, pn := p.pn, rm := rm, d := encV d, a := a.r.setWidth 6, ea := a.e, c := c.r.setWidth 6, ec := c.e, sub := sub, ty := 8 }
  | .mma p ty x n => some { op := 96#8, pr := p.pr, pn := p.pn, ty := ty, fn := bit4 x, sub := n.setWidth 12 }
  | .mmam p ty x n m => some { op := 97#8, pr := p.pr, pn := p.pn, ty := ty, fn := bit4 x, sub := n.setWidth 12, c := maskC m, ec := maskE m, imm := maskImm m }
  | .saa p ty n off a b c => some { op := 98#8, pr := p.pr, pn := p.pn, ty := ty, sub := n.setWidth 12 ||| (off.setWidth 12 <<< 2), a := scaleA a, ea := scaleE a, b := b.r.setWidth 6, eb := b.e, c := c.r.setWidth 6, ec := c.e }
  | .acc p ty n off b c => some { op := 99#8, pr := p.pr, pn := p.pn, ty := ty, sub := n.setWidth 12 ||| (off.setWidth 12 <<< 2), b := b.r.setWidth 6, eb := b.e, c := c.r.setWidth 6, ec := c.e }
  | .lard p z rm off a b c => some { op := 100#8, pr := p.pr, pn := p.pn, fn := bit4 z, rm := rm, sub := (off.setWidth 12 <<< 2), a := a.r.setWidth 6, ea := a.e, b := b.r.setWidth 6, eb := b.e, c := c.r.setWidth 6, ec := c.e, ty := 8 }
  | .lazero p off c => some { op := 101#8, pr := p.pr, pn := p.pn, sub := (off.setWidth 12 <<< 2), c := c.r.setWidth 6, ec := c.e }
  | .drain p z ct a b imm => some { op := 102#8, pr := p.pr, pn := p.pn, fl := bit4 z, ct := ct, a := a.r.setWidth 6, ea := a.e, b := b.r.setWidth 6, eb := b.e, imm := imm.setWidth 64, ty := 13 }
  | .ptmovSt p ty n c => some { op := 103#8, pr := p.pr, pn := p.pn, ty := ty, sub := n.setWidth 12, c := c.r.setWidth 6, ec := c.e, fn := 0 }
  | .ptmovLd p ty n c => some { op := 103#8, pr := p.pr, pn := p.pn, ty := ty, sub := n.setWidth 12, c := c.r.setWidth 6, ec := c.e, fn := 1 }
  | .ptmovGet p ty n r d => some { op := 103#8, pr := p.pr, pn := p.pn, ty := ty, sub := n.setWidth 12 ||| (r.setWidth 12 <<< 2), d := encW d, fn := 2 }
  | .mrepA p n w => some { op := 104#8, pr := p.pr, pn := p.pn, sub := n.setWidth 12 ||| (w.setWidth 12 <<< 8), fn := 0 }
  | .mrepB p n w => some { op := 104#8, pr := p.pr, pn := p.pn, sub := n.setWidth 12 ||| (w.setWidth 12 <<< 8), fn := 1 }
  | .rchkRd p d => some { op := 105#8, pr := p.pr, pn := p.pn, d := d.setWidth 6, fn := 0 }
  | .rchkClr p d => some { op := 105#8, pr := p.pr, pn := p.pn, d := d.setWidth 6, fn := 1 }
  | .rchkInj p u => some { op := 105#8, pr := p.pr, pn := p.pn, sub := u.setWidth 12, fn := 2 }
  | .mwaitArr p => some { op := 106#8, pr := p.pr, pn := p.pn, fn := 0 }
  | .mwaitAdd p => some { op := 106#8, pr := p.pr, pn := p.pn, fn := 1 }
  | .mwaitAll p => some { op := 106#8, pr := p.pr, pn := p.pn, fn := 2 }
  | .nrmCur p a b => some { op := 112#8, pr := p.pr, pn := p.pn, a := a.r.setWidth 6, ea := a.e, b := b.r.setWidth 6, eb := b.e, fn := 0 }
  | .nrmSt p a b c => some { op := 112#8, pr := p.pr, pn := p.pn, a := a.r.setWidth 6, ea := a.e, b := b.r.setWidth 6, eb := b.e, c := c.r.setWidth 6, ec := c.e, fn := 1 }
  | .nrmLd p a b c => some { op := 112#8, pr := p.pr, pn := p.pn, a := a.r.setWidth 6, ea := a.e, b := b.r.setWidth 6, eb := b.e, c := c.r.setWidth 6, ec := c.e, fn := 2 }
  | .atb p ct a b c => some { op := 113#8, pr := p.pr, pn := p.pn, ct := ct, a := a.r.setWidth 6, ea := a.e, b := b.r.setWidth 6, eb := b.e, c := c.r.setWidth 6, ec := c.e }
  | .smp p ty x n a b c => some { op := 114#8, pr := p.pr, pn := p.pn, ty := ty, fn := bit4 x, sub := n.setWidth 12, a := a.r.setWidth 6, ea := a.e, b := b.setWidth 6, c := c.r.setWidth 6, ec := c.e }
  | .smpl p ty x n ct a b c => some { op := 115#8, pr := p.pr, pn := p.pn, ty := ty, fn := bit4 x, fl := n.setWidth 4, ct := ct, a := a.r.setWidth 6, ea := a.e, b := b.setWidth 6, c := c.r.setWidth 6, ec := c.e }
  | .svarUp p n r => some { op := 116#8, pr := p.pr, pn := p.pn, sub := n.setWidth 12 ||| (r.setWidth 12 <<< 2), fn := 0 }
  | .svarRd p d => some { op := 116#8, pr := p.pr, pn := p.pn, d := d.setWidth 6, fn := 1 }
  | .svarInv p d => some { op := 116#8, pr := p.pr, pn := p.pn, d := d.setWidth 6, fn := 2 }
  | .svarSt p c => some { op := 116#8, pr := p.pr, pn := p.pn, c := c.r.setWidth 6, ec := c.e, fn := 3 }
  | .svarLd p c => some { op := 116#8, pr := p.pr, pn := p.pn, c := c.r.setWidth 6, ec := c.e, fn := 4 }
  | .sclrVar p => some { op := 117#8, pr := p.pr, pn := p.pn, fn := 0 }
  | .sclrErr p => some { op := 117#8, pr := p.pr, pn := p.pn, fn := 1 }
  | .sclrAll p => some { op := 117#8, pr := p.pr, pn := p.pn, fn := 2 }
  | .sdraw p nx d a b c => some { op := 118#8, pr := p.pr, pn := p.pn, fn := bit4 nx, d := encW d, a := a.r.setWidth 6, ea := a.e, b := b.setWidth 6, c := c.r.setWidth 6, ec := c.e }
  | .sbindIn p cnt ct d a b c start => some { op := 120#8, pr := p.pr, pn := p.pn, sub := bit12 cnt, ct := ct, d := encQ d, a := a.r.setWidth 6, ea := a.e, b := b.r.setWidth 6, eb := b.e, c := c.r.setWidth 6, ec := c.e, imm := start, fn := 0 }
  | .sbindOut p cnt ct d a b c start => some { op := 120#8, pr := p.pr, pn := p.pn, sub := bit12 cnt, ct := ct, d := encQ d, a := a.r.setWidth 6, ea := a.e, b := b.r.setWidth 6, eb := b.e, c := c.r.setWidth 6, ec := c.e, imm := start, fn := 1 }
  | .sbindFa p sink cnt ct a b c start => some { op := 120#8, pr := p.pr, pn := p.pn, fn := (bit4 sink <<< 2) ||| 2, sub := bit12 cnt, ct := ct, a := a.r.setWidth 6, ea := a.e, b := b.r.setWidth 6, eb := b.e, c := c.r.setWidth 6, ec := c.e, imm := start }
  | .sbindFb p sink cnt ct a b c start => some { op := 120#8, pr := p.pr, pn := p.pn, fn := (bit4 sink <<< 2) ||| 3, sub := bit12 cnt, ct := ct, a := a.r.setWidth 6, ea := a.e, b := b.r.setWidth 6, eb := b.e, c := c.r.setWidth 6, ec := c.e, imm := start }
  | .sunbind p d => some { op := 121#8, pr := p.pr, pn := p.pn, d := encQ d, fn := 0 }
  | .sunbindFa p => some { op := 121#8, pr := p.pr, pn := p.pn, fn := 1 }
  | .sunbindFb p => some { op := 121#8, pr := p.pr, pn := p.pn, fn := 2 }
  | .sunbindPos p d a => some { op := 121#8, pr := p.pr, pn := p.pn, d := d.setWidth 6, a := encQ a, fn := 3 }
  | .sunbindPosa p d => some { op := 121#8, pr := p.pr, pn := p.pn, d := d.setWidth 6, fn := 4 }
  | .sunbindPosb p d => some { op := 121#8, pr := p.pr, pn := p.pn, d := d.setWidth 6, fn := 5 }
  | .cpy p fn fl ct a b c crc gate => some { op := 122#8, pr := p.pr, pn := p.pn, fn := fn, fl := fl, ct := ct, a := a.r.setWidth 6, ea := a.e, b := b.r.setWidth 6, eb := b.e, c := c.r.setWidth 6, ec := c.e, imm := crc.setWidth 64 ||| (gate.setWidth 64 <<< 32) }
  | .cpym p fn fl ct a b c ty x n gate => some { op := 123#8, pr := p.pr, pn := p.pn, fn := fn, fl := fl, ct := ct, a := a.r.setWidth 6, ea := a.e, b := b.r.setWidth 6, eb := b.e, c := c.r.setWidth 6, ec := c.e, imm := ty.setWidth 64 ||| (bit64 x <<< 4) ||| (n.setWidth 64 <<< 5) ||| (gate.setWidth 64 <<< 7) }
  | .sxwSet p k a => some { op := 124#8, pr := p.pr, pn := p.pn, imm := k.setWidth 64, a := a.r.setWidth 6, ea := a.e, fn := 0 }
  | .sxwClr p k => some { op := 124#8, pr := p.pr, pn := p.pn, imm := k.setWidth 64, fn := 1 }
  | .sxwRd p k d => some { op := 124#8, pr := p.pr, pn := p.pn, imm := k.setWidth 64, d := d.setWidth 6, fn := 2 }
  | .cntSet p n m a => some { op := 125#8, pr := p.pr, pn := p.pn, sub := n.setWidth 12 ||| (m.setWidth 12 <<< 4), a := a.r.setWidth 6, ea := a.e, fn := 0 }
  | .cntAdd p n m a => some { op := 125#8, pr := p.pr, pn := p.pn, sub := n.setWidth 12 ||| (m.setWidth 12 <<< 4), a := a.r.setWidth 6, ea := a.e, fn := 1 }
  | .cntRd p n d => some { op := 125#8, pr := p.pr, pn := p.pn, sub := n.setWidth 12, d := d.setWidth 6, fn := 2 }
  | .sgtSet p e desc => some { op := 126#8, pr := p.pr, pn := p.pn, sub := e.setWidth 12, imm := desc, fn := 0 }
  | .sgtGo p e dst ct a b c => some { op := 126#8, pr := p.pr, pn := p.pn, sub := e.setWidth 12 ||| (dst.setWidth 12 <<< 4), ct := ct, a := a.r.setWidth 6, ea := a.e, b := b.r.setWidth 6, eb := b.e, c := c.r.setWidth 6, ec := c.e, fn := 1 }
  | .sgtRd p e d => some { op := 126#8, pr := p.pr, pn := p.pn, sub := e.setWidth 12, d := d.setWidth 6, fn := 2 }
  | .sgtFlt p s d => some { op := 126#8, pr := p.pr, pn := p.pn, sub := s.setWidth 12, d := d.setWidth 6, fn := 3 }
  | .engSt p d => some { op := 127#8, pr := p.pr, pn := p.pn, d := d.setWidth 6, fn := 0 }
  | .engFlt p d => some { op := 127#8, pr := p.pr, pn := p.pn, d := d.setWidth 6, fn := 1 }
  | .engCrc p d => some { op := 127#8, pr := p.pr, pn := p.pn, d := d.setWidth 6, fn := 2 }
  | .engQ p => some { op := 127#8, pr := p.pr, pn := p.pn, fn := 3 }
  | .bar p n => some { op := 128#8, pr := p.pr, pn := p.pn, sub := n.setWidth 12 }
  | .barv p n d a => some { op := 129#8, pr := p.pr, pn := p.pn, sub := n.setWidth 12, d := d.setWidth 6, a := a.r.setWidth 6, ea := a.e }
  | .bara p n a => some { op := 130#8, pr := p.pr, pn := p.pn, sub := n.setWidth 12, a := a.r.setWidth 6, ea := a.e, fn := 0 }
  | .baraN p n => some { op := 130#8, pr := p.pr, pn := p.pn, sub := n.setWidth 12, fn := 1 }
  | .waitb p n d => some { op := 131#8, pr := p.pr, pn := p.pn, sub := n.setWidth 12, d := d.setWidth 6 }
  | .vabort p u => some { op := 132#8, pr := p.pr, pn := p.pn, sub := u.setWidth 12 }
  | .bcfg p n a op => some { op := 133#8, pr := p.pr, pn := p.pn, fl := n.setWidth 4, a := a.r.setWidth 6, ea := a.e, imm := op.setWidth 64 }
  | .bred p n d => some { op := 134#8, pr := p.pr, pn := p.pn, sub := n.setWidth 12, d := d.setWidth 6, fn := 0 }
  | .bredCfg p n d => some { op := 134#8, pr := p.pr, pn := p.pn, sub := n.setWidth 12, d := d.setWidth 6, fn := 1 }
  | .bredSt p d => some { op := 134#8, pr := p.pr, pn := p.pn, d := d.setWidth 6, fn := 2 }
  | .glchk p d => some { op := 135#8, pr := p.pr, pn := p.pn, d := d.setWidth 6 }
  | .coll p s a => some { op := 144#8, pr := p.pr, pn := p.pn, sub := s.setWidth 12, a := a.r.setWidth 6, ea := a.e }
  | .waitp p k j pf a b => some { op := 145#8, pr := p.pr, pn := p.pn, imm := k.setWidth 64 ||| (j.setWidth 64 <<< 6), fl := pf.setWidth 4, a := a.r.setWidth 6, ea := a.e, b := b.r.setWidth 6, eb := b.e }
  | .pcan p s c => some { op := 146#8, pr := p.pr, pn := p.pn, sub := s.setWidth 12 ||| (c.setWidth 12 <<< 3) }
  | .prdF32 p s k d a => some { op := 147#8, pr := p.pr, pn := p.pn, sub := s.setWidth 12 ||| (k.setWidth 12 <<< 3), d := encW d, a := a.r.setWidth 6, ea := a.e, ty := 8 }
  | .prdLa p s k a c => some { op := 147#8, pr := p.pr, pn := p.pn, sub := s.setWidth 12 ||| (k.setWidth 12 <<< 3), a := a.r.setWidth 6, ea := a.e, c := c.r.setWidth 6, ec := c.e, ty := 13 }
  | .cstat p s d => some { op := 148#8, pr := p.pr, pn := p.pn, sub := s.setWidth 12, d := d.setWidth 6, fn := 0 }
  | .cstatPc p d a => some { op := 148#8, pr := p.pr, pn := p.pn, d := d.setWidth 6, a := a.r.setWidth 6, ea := a.e, fn := 1 }
  | .start p n a imm => some { op := 152#8, pr := p.pr, pn := p.pn, d := n, a := a.r.setWidth 6, ea := a.e, imm := imm.setWidth 64 }
  | .hstop p n => some { op := 153#8, pr := p.pr, pn := p.pn, d := n, fn := 0 }
  | .hstopAll p => some { op := 153#8, pr := p.pr, pn := p.pn, fn := 1 }
  | .enq p q d a => some { op := 154#8, pr := p.pr, pn := p.pn, sub := q.setWidth 12, d := d.setWidth 6, a := a.r.setWidth 6, ea := a.e }
  | .ccnt p lv d a b => some { op := 155#8, pr := p.pr, pn := p.pn, fn := lv.setWidth 4, d := d.setWidth 6, a := a.r.setWidth 6, ea := a.e, b := b.r.setWidth 6, eb := b.e }
  | .ccntQ p q d => some { op := 155#8, pr := p.pr, pn := p.pn, sub := q.setWidth 12, d := d.setWidth 6, fn := 4 }
  | .cancel p lv d a b => some { op := 156#8, pr := p.pr, pn := p.pn, fn := lv.setWidth 4, d := d.setWidth 6, a := a.r.setWidth 6, ea := a.e, b := b.r.setWidth 6, eb := b.e }
  | .vtidShape p d => some { op := 157#8, pr := p.pr, pn := p.pn, d := d.setWidth 6, fn := 0 }
  | .vtidOrd p d a => some { op := 157#8, pr := p.pr, pn := p.pn, d := d.setWidth 6, a := a.r.setWidth 6, ea := a.e, fn := 1 }
  | .vtidIdx p d a => some { op := 157#8, pr := p.pr, pn := p.pn, d := d.setWidth 6, a := a.r.setWidth 6, ea := a.e, fn := 2 }
  | .vtidHost p d a => some { op := 157#8, pr := p.pr, pn := p.pn, d := d.setWidth 6, a := a.r.setWidth 6, ea := a.e, fn := 3 }
  | .offer p a => some { op := 158#8, pr := p.pr, pn := p.pn, a := a.r.setWidth 6, ea := a.e, fn := 0 }
  | .offerRd p d => some { op := 158#8, pr := p.pr, pn := p.pn, d := d.setWidth 6, fn := 1 }
  | .imp p a => some { op := 160#8, pr := p.pr, pn := p.pn, a := a.r.setWidth 6, ea := a.e }
  | .offl p ct d a imm => some { op := 161#8, pr := p.pr, pn := p.pn, ct := ct, d := d.setWidth 6, a := a.r.setWidth 6, ea := a.e, imm := imm.setWidth 64 }
  | .retn p ct d a imm => some { op := 162#8, pr := p.pr, pn := p.pn, ct := ct, d := d.setWidth 6, a := a.r.setWidth 6, ea := a.e, imm := imm.setWidth 64 }
  | .pstat p d a => some { op := 163#8, pr := p.pr, pn := p.pn, d := d.setWidth 6, a := a.r.setWidth 6, ea := a.e, fn := 0 }
  | .pstatDev p d => some { op := 163#8, pr := p.pr, pn := p.pn, d := d.setWidth 6, fn := 1 }
  | .pin p d a => some { op := 164#8, pr := p.pr, pn := p.pn, d := d.setWidth 6, a := a.r.setWidth 6, ea := a.e, fn := 0 }
  | .pinClr p d a => some { op := 164#8, pr := p.pr, pn := p.pn, d := d.setWidth 6, a := a.r.setWidth 6, ea := a.e, fn := 1 }
  | .pinUns p d a => some { op := 164#8, pr := p.pr, pn := p.pn, d := d.setWidth 6, a := a.r.setWidth 6, ea := a.e, fn := 2 }
  | .ckptGo p ct d => some { op := 165#8, pr := p.pr, pn := p.pn, ct := ct, d := d.setWidth 6, fn := 0 }
  | .ckptRd p d => some { op := 165#8, pr := p.pr, pn := p.pn, d := d.setWidth 6, fn := 1 }
  | .lnkrd p r d a => some { op := 168#8, pr := p.pr, pn := p.pn, sub := r.setWidth 12, d := d.setWidth 6, a := a.r.setWidth 6, ea := a.e }
  | .lnkset p d a b => some { op := 169#8, pr := p.pr, pn := p.pn, d := d.setWidth 6, a := a.r.setWidth 6, ea := a.e, b := b.r.setWidth 6, eb := b.e, fn := 0 }
  | .lnksetUp p d a => some { op := 169#8, pr := p.pr, pn := p.pn, d := d.setWidth 6, a := a.r.setWidth 6, ea := a.e, fn := 1 }
  | .lnksetDown p d a => some { op := 169#8, pr := p.pr, pn := p.pn, d := d.setWidth 6, a := a.r.setWidth 6, ea := a.e, fn := 2 }
  | .lnkret p n d a => some { op := 170#8, pr := p.pr, pn := p.pn, sub := n.setWidth 12, d := d.setWidth 6, a := a.r.setWidth 6, ea := a.e }
  | .trap p n => some { op := 176#8, pr := p.pr, pn := p.pn, imm := n.setWidth 64 }
  | .tret p => some { op := 177#8, pr := p.pr, pn := p.pn }
  | .sys p s d a => some { op := 178#8, pr := p.pr, pn := p.pn, imm := s.setWidth 64, d := d.setWidth 6, a := a.r.setWidth 6, ea := a.e }
  | .ctxsRd p w d a => some { op := 179#8, pr := p.pr, pn := p.pn, imm := bit64 w, d := d.setWidth 6, a := a.r.setWidth 6, ea := a.e, fn := 0 }
  | .ctxsNew p d a b => some { op := 179#8, pr := p.pr, pn := p.pn, d := d.setWidth 6, a := a.r.setWidth 6, ea := a.e, b := b.r.setWidth 6, eb := b.e, fn := 1 }
  | .ctxsSeg p a b => some { op := 179#8, pr := p.pr, pn := p.pn, a := a.r.setWidth 6, ea := a.e, b := b.r.setWidth 6, eb := b.e, fn := 2 }
  | .ctxsGo p d a => some { op := 179#8, pr := p.pr, pn := p.pn, d := d.setWidth 6, a := a.r.setWidth 6, ea := a.e, fn := 3 }
  | .ctxsSave p d a => some { op := 179#8, pr := p.pr, pn := p.pn, d := d.setWidth 6, a := a.r.setWidth 6, ea := a.e, fn := 4 }
  | .ctxsRest p d a => some { op := 179#8, pr := p.pr, pn := p.pn, d := d.setWidth 6, a := a.r.setWidth 6, ea := a.e, fn := 5 }
  | .kill p c => some { op := 180#8, pr := p.pr, pn := p.pn, sub := c.setWidth 12, fn := 0 }
  | .killCtx p a c => some { op := 180#8, pr := p.pr, pn := p.pn, a := a.r.setWidth 6, ea := a.e, sub := c.setWidth 12, fn := 1 }
  | .idleRd p d a => some { op := 181#8, pr := p.pr, pn := p.pn, d := d.setWidth 6, a := a.r.setWidth 6, ea := a.e, fn := 0 }
  | .idleSet p a => some { op := 181#8, pr := p.pr, pn := p.pn, a := a.r.setWidth 6, ea := a.e, fn := 1 }
  | .tstReq p d a => some { op := 182#8, pr := p.pr, pn := p.pn, d := d.setWidth 6, a := a.r.setWidth 6, ea := a.e, fn := 0 }
  | .tstRd p u d a => some { op := 182#8, pr := p.pr, pn := p.pn, imm := u.setWidth 64, d := d.setWidth 6, a := a.r.setWidth 6, ea := a.e, fn := 1 }
  | .ecntK p w d a => some { op := 183#8, pr := p.pr, pn := p.pn, sub := w.setWidth 12, d := d.setWidth 6, a := a.r.setWidth 6, ea := a.e, fn := 0 }
  | .ecntRes p d a => some { op := 183#8, pr := p.pr, pn := p.pn, d := d.setWidth 6, a := a.r.setWidth 6, ea := a.e, fn := 1 }
  | .ecntThm p d a => some { op := 183#8, pr := p.pr, pn := p.pn, d := d.setWidth 6, a := a.r.setWidth 6, ea := a.e, fn := 2 }
  | .ecntTs p s d a => some { op := 183#8, pr := p.pr, pn := p.pn, sub := (s.setWidth 12 <<< 2), d := d.setWidth 6, a := a.r.setWidth 6, ea := a.e, fn := 3 }
  | .ecntSet p r a b => some { op := 183#8, pr := p.pr, pn := p.pn, sub := (bit12 r <<< 2), a := a.r.setWidth 6, ea := a.e, b := b.r.setWidth 6, eb := b.e, fn := 4 }
  | .dbgRd p d => some { op := 184#8, pr := p.pr, pn := p.pn, d := d.setWidth 6, fn := 0 }
  | .dbgMark p a v => some { op := 184#8, pr := p.pr, pn := p.pn, a := a.r.setWidth 6, ea := a.e, imm := v.setWidth 64, fn := 1 }
  | .dbgBrk p v => some { op := 184#8, pr := p.pr, pn := p.pn, imm := v.setWidth 64, fn := 2 }
  | .deferredTrap => none
  | .resultDelivery => none
  | .remoteLoadArrival => none
  | .remoteLoadReturn => none
  | .deltaArrival => none
  | .foreshoreWriteArrival => none
  | .msgArrival => none
  | .ackArrival => none
  | .lockGrant => none
  | .ovlDone => none
  | .idleWatchdogExpiry => none
  | .waitcTimeout => none
  | .waitpTimeout => none
  | .fifoUnitComplete => none
  | .arrayOpStart => none
  | .partialTileWritten => none
  | .adderCmdStart => none
  | .adderCmdPerformed => none
  | .drainStart => none
  | .drainSourceReadDone => none
  | .atbBuildStart => none
  | .atbDone => none
  | .smpAtHead => none
  | .smplBatchDecision => none
  | .smplDone => none
  | .streamPieceFetched => none
  | .streamOutPiecePerformed => none
  | .copyCmdStart => none
  | .copyCmdPerformed => none
  | .copyAccessRefused => none
  | .cpymFollowon => none
  | .gatherRefused => none
  | .sluiceTermFire => none
  | .arriveSend => none
  | .barrierNodeArrive => none
  | .arriveAtDecision => none
  | .abortAtDecision => none
  | .barrierTimeout => none
  | .decisionRelease => none
  | .parkAssert => none
  | .parkWithdraw => none
  | .bcfgControlArrival => none
  | .glchkReply => none
  | .releaseCommitAtTile => none
  | .releaseAbortAtTile => none
  | .groupStart => none
  | .clusterStartGateOpen => none
  | .giveUpRequest => none
  | .moveRequest => none
  | .reshapeDone => none
  | .foldTurnChange => none
  | .launchMessageOffer => none
  | .poolIntake => none
  | .admissionStep => none
  | .nodeCompletion => none
  | .cancelAtDispatcher => none
  | .dispatcherReply => none
  | .clusterWake => none
  | .clusterUsable => none
  | .clusterRetain => none
  | .clusterGate => none
  | .testStart => none
  | .testDone => none
  | .coldReset => none
  | .monitorImageReceive => none
  | .monitorRequest => none
  | .attestationRequest => none
  | .kernelLoadRequest => none
  | .kernelResetRequest => none
  | .kernelRetireRequest => none
  | .sysReply => none
  | .saveComplete => none
  | .sweepTokenAtTile => none
  | .sweepSwtExpiry => none
  | .sweepCleanResult => none
  | .purgeConfirmed => none
  | .pageAccess => none
  | .offlCopyDone => none
  | .retnCopyDone => none
  | .writebackDrain => none
  | .pageTableWrite => none
  | .faultRefuse => none
  | .checkpointDone => none
  | .collAllLaunched => none
  | .collSourceRead => none
  | .adderDigitEmit => none
  | .planeLanded => none
  | .collDeadlineExpiry => none
  | .contributionAccepted => none
  | .collConsumerDone => none
  | .flitReceive => none
  | .replayTimeout => none
  | .linkTrainingDone => none
  | .linkRetrainDone => none
  | .autoStepDown => none
  | .autoStepUp => none
  | .reservoirTick => none
  | .backgroundScrubRead => none
  | .trapRecordArrival => none
  | .rowCollectorForward => none
  | .trapUnitDeliver => none
  | .fetchFault => none
  | .softError => none
  | .freeListFill => none
  | .tableBaseWrite => none
  | .chipNumberAssign => none
  | .runtimeImageLoad => none
  | .collNodeInput => none
  | .routeTableChange => none

/-- The common block, bits [37:0] (Table 3.1). -/
def packLow (len : BitVec 2) (f : Fields) : BitVec 38 :=
  f.fn ++ BitVec.ofBool f.pn ++ f.pr ++ BitVec.ofBool f.eb ++ BitVec.ofBool f.ea ++ f.b ++ f.a ++ f.d ++ f.op ++ len

/-- Bits [55:38] of the layouts other than I64 (Table 3.2). -/
def packMid (f : Fields) : BitVec 14 := f.ty ++ f.rm ++ BitVec.ofBool f.ec ++ f.c

/-- The word of an instruction's fields, zero above its length (Table 3.2). -/
def packWord (l : Layout) (f : Fields) : BitVec 128 :=
  match l with
  | .i64 => (f.imm.setWidth 26 ++ packLow l.len f).setWidth 128
  | .t64 => (f.sub ++ packMid f ++ packLow l.len f).setWidth 128
  | .w96 => (f.imm.setWidth 36 ++ f.fl ++ f.ct ++ packMid f ++ packLow l.len f).setWidth 128
  | .l128 => (f.imm ++ f.sub.setWidth 8 ++ f.ct ++ packMid f ++ packLow l.len f)

/-- The fields of a word in a layout (Tables 3.1 and 3.2). -/
def unpackWord (l : Layout) (w : BitVec 128) : Fields :=
  let lo : Fields :=
    { op := w.extractLsb' 2 8, d := w.extractLsb' 10 6, a := w.extractLsb' 16 6, b := w.extractLsb' 22 6,
      ea := w.getLsbD 28, eb := w.getLsbD 29, pr := w.extractLsb' 30 3, pn := w.getLsbD 33, fn := w.extractLsb' 34 4 }
  let mid : Fields :=
    { lo with c := w.extractLsb' 38 6, ec := w.getLsbD 44, rm := w.extractLsb' 45 3, ty := w.extractLsb' 48 4 }
  match l with
  | .i64 => { lo with imm := (w.extractLsb' 38 26).setWidth 64 }
  | .t64 => { mid with sub := w.extractLsb' 52 12 }
  | .w96 => { mid with ct := w.extractLsb' 52 4, fl := w.extractLsb' 56 4, imm := (w.extractLsb' 60 36).setWidth 64 }
  | .l128 => { mid with ct := w.extractLsb' 52 4, sub := (w.extractLsb' 56 8).setWidth 12, imm := w.extractLsb' 64 64 }

/-- The word of an instruction, with its layout; none for a hardware step. -/
def encode (i : Instr) : Option (Layout × BitVec 128) :=
  match toFields i with
  | none => none
  | some f =>
    match layoutOf f.op with
    | none => none
    | some l => some (l, packWord l f)

/-- Length in bytes that the LEN code of a word gives (R53); 0 for LEN = 0b00. -/
def lenBytes (len : BitVec 2) : Nat :=
  match len.toNat with | 1 => 8 | 2 => 12 | 3 => 16 | _ => 0

/-- Decode a word: checks 3, 5 and 6 of R55. The bits above the instruction's length must be zero. -/
def decodeWord (w : BitVec 128) : Except DecodeErr (Instr × Nat) :=
  if w.extractLsb' 0 2 == 0 then .error .lenZero
  else
    match layoutOf (w.extractLsb' 2 8) with
    | none => .error .unassignedOp
    | some l =>
      if l.len != w.extractLsb' 0 2 then .error .wrongLength
      else
        match ofFields (unpackWord l w) with
        | none => .error .badField
        | some i =>
          if wellFormed i && (match toFields i with | some f => packWord l f == w | none => false) then
            .ok (i, l.bytes)
          else .error .badField

/-- Bytes in memory order as one little-endian number (R3, R53). -/
def leNat : List Byte → Nat
  | [] => 0
  | b :: bs => b.toNat + 256 * leNat bs

/-- `n` bytes of a number, in memory order (R3). -/
def leBytes : Nat → Nat → List Byte
  | 0, _ => []
  | n + 1, v => BitVec.ofNat 8 v :: leBytes n (v / 256)

/-- Decode the instruction at the head of a list of bytes; answers it with its length in bytes. -/
def decode (bs : List Byte) : Except DecodeErr (Instr × Nat) :=
  match bs with
  | [] => .error .truncated
  | b :: _ =>
    let n := lenBytes (b.setWidth 2)
    if n == 0 then .error .lenZero
    else if bs.length < n then .error .truncated
    else decodeWord (BitVec.ofNat 128 (leNat (bs.take n)))

/-- The bytes of an instruction in memory (R53); empty for a hardware step. -/
def encodeBytes (i : Instr) : List Byte :=
  match encode i with
  | none => []
  | some (l, w) => leBytes l.bytes w.toNat

/-- The instruction read from the bits of an opcode-table row: `w` in its `nbits` bits, zero above. -/
def decodeTableWord (nbits w : Nat) : Option Instr :=
  match decode (leBytes 16 (w % 2 ^ nbits)) with
  | .ok (i, _) => some i
  | .error _ => none

end Sys2Proof
end

