-- ==== Sys2Proof/Machine/Fetch.lean ====
section
/-! DEFINITION. Which strand issues (R86), and the fetch at its PC with checks 1 to 6 of R55 (R54, R88, R89). -/

namespace Sys2Proof.Machine

open Sys2Proof

/-- Is a strand ready in this cycle (R86)? -/
def strandReady (s : State) (S : Strand) : Bool := S.st == .ready && decide (S.notBefore ≤ s.cycle)

/-- May the strands of a tile issue at all: it runs, or is the booted monitor core; no commit, abort or image swap is
under way (R205, R206, R258). -/
def tileIssues (s : State) (t : TileId) : Bool :=
  let T := s.tile t
  (if t = monitorTile then s.mon.boot != .waiting else T.running) && decide (T.busyUntil ≤ s.cycle) && !T.turning

/-- The strands in ring order, the holder first (R86). -/
def ringFrom (h : StrandNo) : List StrandNo := (List.range 11).map (fun i => Fin.ofNat 11 (h.val + i))

/-- The strand that issues on a tile: the holder if it is ready, else the first ready one after it (R86). -/
def pickStrand (s : State) (t : TileId) : Option StrandNo :=
  if tileIssues s t then (ringFrom (s.tile t).holder).find? (fun n => strandReady s (s.strand t n)) else none

/-- The next tile, from the issue cursor on, with a strand that issues. -/
def nextIssue (s : State) : Option (TileId × StrandNo) :=
  s.tiles.findSome? (fun e => if s.issued ≤ e.1 then (pickStrand s e.1).map (fun n => (e.1, n)) else none)

/-- A strand is picked: the tile has had its issue in this cycle, unless the strand passes the slot on (R86). -/
def beginIssue (s : State) (t : TileId) (n : StrandNo) : State := { s with cur := (t, n), issued := t + 1 }

/-- The trap a word takes that is no instruction (R55 checks 3 to 6). -/
def decodeCause (e : DecodeErr) : Cause :=
  match e with
  | .truncated => .fetchalign
  | .lenZero => .illegal
  | .unassignedOp => .illegal
  | .wrongLength => .illegal
  | .badField => .illegal

/-- Fetch at an address: checks 1 to 6 of R55, the overlay trap (R88), and the stall of a range being loaded (R89). The
instruction lies in the rest of its 32-byte block (R54). With OVB.EN = 1 every offset from XB on raises OVERLAY, as R88 says,
the register-file partition's too, where Table 4.2 has PROT (log entry 83). -/
def fetchAt (s : State) (t : TileId) (pc : BitVec 21) : FetchRes :=
  let T := s.tile t
  let a := pc.toNat
  if xbOf s t ≤ a then (if T.v.ovb.getLsbD 63 then .fault .overlay else .fault .prot)
  else if a % 4 ≠ 0 ∨ a % 32 = 28 then .fault .fetchalign
  else if T.ovls.any (fun o => decide (o.base ≤ a ∧ a < o.base + o.len)) then .stall .ovl s
  else
    let room := if 32 - a % 32 < 16 then 32 - a % 32 else 16
    match decode (T.mem.bytes a room) with
    | .error e => .fault (decodeCause e)
    | .ok (i, len) =>
      let r := eccRead s t false a len
      if r.2 then .run i r.1 else .stall .ecc r.1

/-- After an instruction: watchpoints are suppressed for one execution only (R113). -/
def afterIssue (was : Bool) (t : TileId) (n : StrandNo) (s : State) : State :=
  if was && (s.strand t n).st != .waiting then s.modStrand t n (fun S => { S with suppress := false }) else s

end Sys2Proof.Machine
end

