-- ==== Sys2Proof/Machine/Tick.lean ====
section
/-! DEFINITION. The end of a cycle, in phases: the engines' steps that can start join the agenda; then sluice terms (R178,
R187); then each tile's votes (R271); then waits that end, counters compared (R104, R178), the watchdog (R87), timers and
policies, and the cycle counter. -/

namespace Sys2Proof.Machine

open Sys2Proof

/-- The phase after every tile has had its issue: the engines' steps have joined the agenda. -/
def issueEnd : Nat := 4098

/-- The phase after the sluice terms have joined the agenda. -/
def sluiceEnd : Nat := 4099

/-! ### Steps of the engines -/

/-- A step, where its condition holds. -/
def evIf (b : Bool) (e : Ev) : List Ev := if b then [e] else []

/-- A q register's steps (R174): a piece to fetch, a piece to perform. -/
def streamEvents (s : State) (t : TileId) (n : StrandNo) : List Ev :=
  (List.finRange 8).flatMap (fun k =>
    evIf (fetchReady s t n k) (.streamPieceFetched t (.q n k) true) ++
    evIf (outReady (s.strand t n) k) (.streamOutPiecePerformed t n k))

/-- The `mma` of a `cpym` whose copy has been performed, with room for it (R185). -/
def followReady (T : Tile) : Bool :=
  match T.chan.cmds with
  | c :: _ => c.started && decide (c.len ≤ c.done) && c.follow.isSome && !arrFull T
  | [] => false

/-- The steps of a tile that can happen in this cycle. -/
def tileEvents (s : State) (t : TileId) : List Ev :=
  let T := s.tile t
  if !T.running then []
  else
    evIf (arrStarts s t) (.arrayOpStart t) ++ evIf (flyWrites s t) (.partialTileWritten t) ++
    evIf (addStarts T) (.adderCmdStart t) ++
    evIf ((T.addQ.head?.map (fun c => c.running && decide (c.due ≤ s.cycle))).getD false) (.adderCmdPerformed t) ++
    evIf (drainStarts T).isSome (.drainStart t) ++
    evIf ((T.samp.atbs.head?.map (fun a => a.built.isNone)).getD false) (.atbBuildStart t) ++
    evIf (smpReady s t) (.smpAtHead t) ++
    evIf (copyStarts s t) (.copyCmdStart t) ++ evIf (copyRuns s t) (.copyCmdPerformed t) ++
    evIf (followReady T) (.cpymFollowon t) ++
    (List.finRange 11).flatMap (fun n => streamEvents s t n) ++
    evIf (fillReady s t false) (.streamPieceFetched t .fa true) ++
    evIf (fillReady s t true) (.streamPieceFetched t .fb true) ++
    evIf (arrivalReady s t && !moreTurns s t) (.arriveSend t) ++ evIf (arrivalReady s t && moreTurns s t) (.foldTurnChange t) ++
    evIf (parkWanted s t && !T.v.park) (.parkAssert t) ++ evIf (!parkWanted s t && T.v.park) (.parkWithdraw t)

/-- The gates that open (R256). -/
def gateEvents (s : State) : List Ev :=
  (s.groups.filter (fun g => g.st == GroupSt.running && !g.folded)).flatMap (fun g =>
    (groupClusters g).flatMap (fun c => evIf (!(s.cluster c).gate && gateReady s g c) (.clusterStartGateOpen g.id c)))

/-- Every tile has issued: the steps whose conditions hold now join the agenda. -/
def endIssue (s : State) : State :=
  let s' : State := { s with issued := issueEnd }
  s'.postAll (s.tiles.flatMap (fun e => tileEvents s e.1) ++ gateEvents s)

/-- Sluice terms 0 to 7 of every tile, in index order (R178). -/
def sluice (s : State) : State :=
  let s' : State := { s with issued := sluiceEnd }
  s'.postAll
    (s.tiles.flatMap (fun e =>
      if e.2.running then (List.finRange 8).flatMap (fun k => evIf (termNow e.2 k != 0) (.sluiceTermFire e.1 k)) else []))

/-! ### Waits -/

/-- Does what a waiting strand waits for hold, so that its instruction is examined again (R86)? -/
def wakes (s : State) (t : TileId) (S : Strand) : Bool :=
  let T := s.tile t
  match S.wait with
  | .regs rs => rs.all (fun r => !S.isEmpty r)
  | .stream k need out =>
    let q := S.q[k]
    if out then !qTakes q || decide (q.pend.length < 4) else !qGives q need || decide (need ≤ q.have_.length)
  | .gate c => (s.cluster c).gate
  | .fifoBound fb => !(T.fifo fb).bind.live
  | .tapped => !tapFlight T
  | .roomArr => !arrFull T
  | .roomAdd vla => !addFull T && (!vla || decide ((T.addQ.filter isVla).length < 4))
  | .roomChan => decide (T.chan.cmds.length < 16)
  | .overlap seqs => !(addSeqs T).any (fun q => seqs.contains q)
  | _ => false

/-- Does what the strand waits for end its instruction? -/
def completes (s : State) (t : TileId) (n : StrandNo) (S : Strand) : Bool :=
  let T := s.tile t
  match S.wait with
  | .fence ops adds =>
    !ops.any (fun i => opWaits s t n i) && !adds.any (fun q => T.addQ.any (fun c => c.seq == q) || T.drains.any (fun d => d.seq == q))
  | .mwait arr add => !(arrSeqs T).any (fun q => arr.contains q) && !(addSeqs T).any (fun q => add.contains q)
  | .engq seqs => !T.chan.cmds.any (fun c => seqs.contains c.seq)
  | .until c => decide (c ≤ s.cycle + 1)
  | _ => false

/-- `waitc` at the end of a cycle (R104): the threshold wins over the timeout. -/
def compareCounter (s : State) (t : TileId) (n : StrandNo) (thr : BitVec 32) (ct : BitVec 4) (sub : Bool) (pf : BitVec 3)
    (start tmo : Nat) : State :=
  let c := (s.tile t).v.c[ct.toNat]
  if thr.toNat ≤ c.toNat then
    let s := if sub then s.modV t (fun v => { v with c := v.c.set ct.toNat (c - thr) }) else s
    complete (setP s t n pf false) t n 1
  else if tmo ≠ 0 ∧ start + tmo ≤ s.cycle then s.post 1 (.waitcTimeout t n)
  else s

/-- `waitp` at the end of a cycle (R323). -/
def comparePlanes (s : State) (t : TileId) (n : StrandNo) (x k : Nat) (pf : BitVec 3) (start tmo : Nat) : State :=
  let p := (s.tile t).v.pc x
  if k ≤ pcPl p then complete (setP s t n pf false) t n 1
  else if pcSt p ≠ 1 then complete (setP s t n pf true) t n 1
  else if tmo ≠ 0 ∧ start + tmo ≤ s.cycle then s.post 1 (.waitpTimeout t n)
  else s

/-- A strand at the end of a cycle: STARTED becomes READY (Table 5.1); a wait may end. -/
def tickStrand (s : State) (t : TileId) (n : StrandNo) : State :=
  let S := s.strand t n
  match S.st with
  | .started => s.modStrand t n (fun S => { S with st := .ready, notBefore := if S.notBefore < s.cycle + 1 then s.cycle + 1 else S.notBefore })
  | .waiting =>
    match S.wait with
    | .counter thr ct sub pf start tmo => compareCounter s t n thr ct sub pf start tmo
    | .precision x k pf start tmo => comparePlanes s t n x k pf start tmo
    | .samp seqs =>
      if (sampSeqs (s.tile t)).any (fun q => seqs.contains q) then s
      else (wake s t n).modStrand t n (fun S => { S with passed := true })
    | _ => if wakes s t S then wake s t n else if completes s t n S then complete s t n 1 else s
  | _ => s

/-! ### Tiles -/

/-- The idle watchdog (R87). -/
def watchdog (s : State) (t : TileId) : State :=
  let T := s.tile t
  if T.didIssue || !T.strands.any (fun S => liveSt S.st) then s.modTile t (fun T => { T with didIssue := false, idle := 0 })
  else
    let e := idlwExp T.v.idlw
    if e ≠ 0 ∧ 2 ^ e ≤ T.idle + 1 then (s.modTile t (fun T => { T with idle := 0 })).post 1 (.idleWatchdogExpiry t)
    else s.modTile t (fun T => { T with idle := T.idle + 1 })

/-- What a RUNNING tile draws in a cycle is a free value (R359, log entry 2): ECNT and its die count it; its superstep does once
it has opened (R360). -/
def drawEnergy (s : State) (t : TileId) : State :=
  let r := s.freshNat
  let e := BitVec.ofNat 64 r.1
  (r.2.modTile t (fun T =>
    { T with ecnt := T.ecnt + e, ecnt0 := if s.cycle < T.opensAt then T.ecnt0 + e else T.ecnt0 })).modDie (dieOf t) (fun D =>
    { D with drawn := D.drawn + r.1 })

/-- A tile at the end of a cycle, up to the counter raises that terms owe the next one. -/
def tickTile (s : State) (t : TileId) : State :=
  let s := (ringFrom (s.tile t).holder).foldl (fun s n => tickStrand s t n) s
  let T := s.tile t
  if !T.running then s
  else
    let s := dropDrains (drainTick (noteReady s t) t) t
    let s := freeUnits s t
    let s := s.modTile t (fun T => { T with oldTerms := [], v := { T.v with cinc := Vector.replicate 16 0 } })
    drawEnergy (watchdog s t) t

/-- The raises that sluice terms owe at the start of a cycle (R187). -/
def owedRaises (s : State) (t : TileId) : State :=
  let cs := (s.tile t).raises
  if cs.isEmpty then s
  else cs.foldl (fun s c => addCounter s t c 1) (s.modTile t (fun T => { T with raises := [] }))

/-! ### The package -/

/-- Steps that come at fixed intervals: energy and heat each µs (R359), admission each 64 cycles (R236), the background read
each 2^26 cycles (R354). -/
def periodic (s : State) : State :=
  let s := if s.cycle % 1600 = 1599 then s.post 1 .reservoirTick else s
  let s := if s.cycle % 64 = 63 ∧ (!s.disp.pool.isEmpty || s.disp.dpolW.isSome) then s.post 1 .admissionStep else s
  if s.cycle % 2 ^ 26 = 2 ^ 26 - 1 then
    s.postAll ((s.tiles.filter (fun e => e.2.running)).map (fun e => .backgroundScrubRead e.1))
  else s

/-- The cycle ends. An `offl` that waited for a checkpoint's copy of its page may be served (R299). -/
def endCycle (s : State) : State :=
  let s := s.tiles.foldl (fun s e => tickTile s e.1) s
  let s := (s.groups.filter (fun g => g.st == GroupSt.running)).foldl tickGroup s
  let s := s.clusters.foldl (fun s e => tickCluster s e.1) s
  let s := tickLinks (periodic ((List.range 32).foldl serveOffl s))
  let s := { s with cycle := s.cycle + 1, issued := 0 }
  s.tiles.foldl (fun s e => owedRaises s e.1) s

/-- The cycle's last phases: the sluice terms; the votes; the end. -/
def tick (s : State) : State :=
  if s.issued < sluiceEnd then sluice s
  else if s.tiles.any (fun e => !e.2.v.votes.isEmpty) then
    s.tiles.foldl (fun s e => if e.2.v.votes.isEmpty then s else sendVotes s e.1) s
  else endCycle s

end Sys2Proof.Machine
end

