-- ==== Sys2Proof/Machine/Step.lean ====
section
/-! DEFINITION. One step of the package: the next step that is due, else the next instruction that issues in this
cycle, else the end of the issue, else the end of the cycle. -/

namespace Sys2Proof.Machine

open Sys2Proof

/-- Change the next state of an outcome. -/
def onNext (f : State → State) (o : Host.Outcome State Fault Refusal) : Host.Outcome State Fault Refusal :=
  match o with
  | .next s => .next (f s)
  | .fault r => .fault r
  | .refused r => .refused r

/-- A hardware step with its operands. -/
def eventStep (s : State) (e : Ev) : Host.Outcome State Fault Refusal :=
  onNext (fun s => { s with ev := none }) (exec e.instr { s with ev := some e })

/-- A strand issues: fetch, decode, execute; a failed fetch is the step FETCH_FAULT. -/
def issueStep (s : State) (t : TileId) (n : StrandNo) : Host.Outcome State Fault Refusal :=
  let s := beginIssue s t n
  match fetchAt s t (s.strand t n).pc with
  | .run i s' => onNext (afterIssue (s.strand t n).suppress t n) (exec i s')
  | .fault c => eventStep s (.fetchFault c)
  | .stall w s' => .next (passOn s' t n 0 w)

/-- What happens when no step is due: an instruction, the end of the issue, the end of the cycle. -/
def cycleStep (s : State) : Host.Outcome State Fault Refusal :=
  match nextIssue s with
  | some (t, n) => issueStep s t n
  | none => if s.issued < issueEnd then .next (endIssue s) else .next (tick s)

/-- One step of the package. -/
def step (s : State) : Host.Outcome State Fault Refusal :=
  match s.agenda with
  | [] => cycleStep s
  | h :: r => if h.1 ≤ s.cycle then eventStep { s with agenda := r } h.2 else cycleStep s

/-- The same instruction as `decodeTableWord` reads, placed where the next step fetches: tile 0 runs a launch with one
granule of code and of register file, its strand 0 is READY at the address 0, and nothing is due before it (log 17). -/
def State.withFetchWord (s : State) (nbits w : Nat) : State :=
  let T : Tile :=
    { s.tile 0 with
      running := true, busyUntil := 0, turning := false, holder := 10, ovls := [], errs := []
      v := { (s.tile 0).v with partw := 0x0000000000000401 }
      mem := ((s.tile 0).mem.clear 0 32).store 0 (leBytes 16 (w % 2 ^ nbits)) }
  let T := T.modStrand 0 (fun S => { S with st := .ready, pc := 0, notBefore := 0, wait := .idle, suppress := false })
  let T := { T with strands := T.strands.mapFinIdx (fun i S _ => if i = 0 then S else { S with st := .free }) }
  { s with
    tiles := [(0, T)], issued := 0, ev := none
    agenda := s.agenda.map (fun e => (if e.1 ≤ s.cycle then s.cycle + 1 else e.1, e.2)) }

end Sys2Proof.Machine
end

