-- ==== Sys2Proof/Safety.lean ====
section
/-! DEFINITION. What counts as a safe step and a safe run, and the words in which statements speak of an instruction:
when its own effect happens, and what the strand that issued it is left with. -/

namespace Sys2Proof

open Sys2Proof.Machine

/-- A step is safe when it answers a next state. -/
def SafeStep (s : State) : Prop := ∃ s', step s = .next s'

/-- States that a run reaches from a state. -/
inductive Reaches (s : State) : State → Prop where
  | start : Reaches s s
  | step {a b : State} : Reaches s a → Machine.step a = .next b → Reaches s b

/-- Every step of every run from a state is safe. -/
def SafeRun (s : State) : Prop := ∀ a, Reaches s a → SafeStep a

/-! ### The strand that issues -/

/-- The strand that issues. -/
def self (s : State) : Strand := s.strand s.cur.1 s.cur.2

/-- Its tile. -/
def here (s : State) : Tile := s.tile s.cur.1

/-- A g source of the strand that issues. -/
def gOf (s : State) (r : GSrc) : Word := gv s s.cur.1 s.cur.2 r

/-- A w source of the strand that issues. -/
def wOf (s : State) (r : WSrc) : VWord := wv s s.cur.1 s.cur.2 r

/-- Write a g register of the strand that issues. -/
def putG (s : State) (d : BitVec 5) (v : Word) : State := setG s s.cur.1 s.cur.2 d v

/-- Write a predicate of the strand that issues. -/
def putP (s : State) (d : BitVec 3) (b : Bool) : State := setP s s.cur.1 s.cur.2 d b

/-- Make a g register of the strand that issues empty, to be filled `lat` cycles later (R95). -/
def putGLater (s : State) (d : BitVec 5) (v : Word) (lat : Nat) : State := laterG s s.cur.1 s.cur.2 d v lat

/-- A vector result of the strand that issues (R118). -/
def putV (s : State) (d : VReg) (v : VWord) (lat : Nat) : State := laterV s s.cur.1 s.cur.2 d v lat

/-- Change the strand that issues. -/
def modSelf (s : State) (f : Strand → Strand) : State := s.modStrand s.cur.1 s.cur.2 f

/-- Change the virtual-scope registers of its tile. -/
def modHere (s : State) (f : VRegs → VRegs) : State := s.modV s.cur.1 f

/-- May the strand execute a form (R55 check 8, R212, R343)? -/
abbrev mayRun (s : State) (who : Who) : Prop :=
  match who with
  | .any => True
  | .zero => s.cur.2.val = 0
  | .tile => s.cur.1 ≠ monitorTile
  | .control => s.cur.1 ≠ monitorTile ∧ s.cur.2.val = 0
  | .monitor => s.cur.1 = monitorTile

/-- The conditions under which an instruction goes on to its own effect (R55 checks 7 to 9, R64, R65, R174): its predicate
is true, the strand may execute the form, no source is empty, every stream register among the operands can give or take
its piece, no destination is empty. -/
structure Ready (s : State) (p : Pred) (who : Who) (srcs : List Src) (dsts : List Dst) : Prop where
  pred : predTrue (self s) p = true
  mode : mayRun s who
  full : ∀ x ∈ srcs, srcEmpty (self s) srcs x = false
  streams : streamTrap (self s) srcs dsts = none
  free : ∀ d ∈ dsts, (self s).isEmpty d = false
  room : fullQ (self s) dsts = none
  early : lateQ (here s) (self s) dsts = false

/-! ### What an instruction leaves -/

/-- `s'` with the strand that issued in `s` gone on to an address: it holds the issue slot, the watchdog restarts (R54,
R86, R87). -/
def wentTo (s s' : State) (pc : BitVec 21) : State :=
  (s'.modTile s.cur.1 (fun T => { T with holder := s.cur.2, idle := 0, didIssue := true })).modStrand s.cur.1 s.cur.2
    (fun S => { S with pc := pc, passed := false })

/-- `s'` with the strand gone on to the sequential successor of an instruction of `len` bytes (R54). -/
def retired (s s' : State) (len : Nat) : State := wentTo s s' (successor (self s).pc len)

/-- `s'` with the strand WAITING in its instruction until an event completes it (R96). -/
def blocked (s s' : State) (len : Nat) (w : Wait) : State :=
  (s'.modTile s.cur.1 (fun T => { T with holder := s.cur.2, idle := 0, didIssue := true })).modStrand s.cur.1 s.cur.2
    (fun S => { S with st := .waiting, wait := w, since := s'.cycle, wlen := len })

/-- `s` with the strand WAITING to have its instruction examined again (R64, R65). -/
def deferred (s : State) (len : Nat) (w : Wait) : State := passOn s s.cur.1 s.cur.2 len w

/-- `s` with the strand in the trap entry (R347, R348): no other effect of the instruction. -/
def trapTaken (s : State) (len : Nat) (c : Cause) (info : BitVec 32) : State :=
  takeTrap (took s s.cur.1 s.cur.2) s.cur.1 s.cur.2 c info (self s).pc (successor (self s).pc len)

end Sys2Proof
end

