-- ==== Sys2Proof/Certificates/Slice0/Obligations.lean ====
section
/-! DEFINITION. The statements for the provers. Each says of one group of instructions, or of the machine, what the cited
rules of the spec say; `Ready` (Safety.lean) is the condition of R55, R64, R65 and R174 under which an instruction goes on
to its own effect, `retired` the strand gone on to the successor. -/

namespace Sys2Proof.Spec

open Sys2Proof Sys2Proof.Machine

/-! ### Scalar results, from Tables 5.4 and 5.5 in the words of bit vectors -/

/-- An operation on w-bit operands; the flag says whether they are read as signed. -/
abbrev BinOp := (w : Nat) → Bool → BitVec w → BitVec w → BitVec w

/-- R99: operands cut to the width of the code, the result extended to 64 bits by its signedness. -/
def aluResult (f : BinOp) (wd : BitVec 3) (a b : Word) : Word :=
  let w := match wd.toNat % 4 with | 0 => 64 | 1 => 32 | 2 => 16 | _ => 8
  let r := f w (wd.getLsbD 2) (a.setWidth w) (b.setWidth w)
  if wd.getLsbD 2 then r.signExtend 64 else r.setWidth 64

/-- Bits [2w-1:w] of the exact product. -/
def mulHigh (w : Nat) (sg : Bool) (x y : BitVec w) : BitVec w :=
  if sg then (x.signExtend (2 * w) * y.signExtend (2 * w)).extractLsb' w w
  else (x.setWidth (2 * w) * y.setWidth (2 * w)).extractLsb' w w

/-- R34. -/
def quot (w : Nat) (sg : Bool) (x y : BitVec w) : BitVec w :=
  if y = 0 then BitVec.allOnes w else if sg then x.sdiv y else x.udiv y

/-- R34. -/
def remd (w : Nat) (sg : Bool) (x y : BitVec w) : BitVec w :=
  if y = 0 then x else if sg then x.srem y else x.umod y

/-- Is x the smaller one in the comparison that the signedness selects? -/
def below (w : Nat) (sg : Bool) (x y : BitVec w) : Bool := if sg then x.slt y else x.ult y

/-- The forms of R99 whose result stands in the issue cycle. -/
def aluForms : List ((Pred → AluOps → Instr) × BinOp) :=
  [(.add, fun _ _ x y => x + y), (.sub, fun _ _ x y => x - y), (.and, fun _ _ x y => x &&& y),
   (.or, fun _ _ x y => x ||| y), (.xor, fun _ _ x y => x ^^^ y), (.andn, fun _ _ x y => x &&& ~~~y),
   (.shl, fun w _ x y => x <<< (y.toNat % w)), (.shr, fun w _ x y => x >>> (y.toNat % w)),
   (.sra, fun w _ x y => x.sshiftRight (y.toNat % w)), (.rot, fun w _ x y => x.rotateLeft (y.toNat % w)),
   (.min, fun w sg x y => if below w sg y x then y else x), (.max, fun w sg x y => if below w sg x y then y else x)]

/-- The forms of R99 with a latency (Table 5.3). -/
def aluLateForms : List ((Pred → AluOps → Instr) × BinOp × Nat) :=
  [(.mul, fun _ _ x y => x * y, 3), (.mulh, mulHigh, 3), (.div, quot, 20), (.rem, remd, 20)]

/-- Second operand of the forms of R61. -/
def operandB (s : State) (o : AluOps) : Word := match o.b with | .reg r => gOf s r | .imm i => i.signExtend 64

/-- Table 5.5, `cmp`: conditions 0 to 9. -/
def compare (c : BitVec 4) (x y : Word) : Bool :=
  match c.toNat with
  | 0 => decide (x = y) | 1 => decide (x ≠ y) | 2 => x.slt y | 3 => !x.slt y | 4 => !y.slt x | 5 => y.slt x
  | 6 => x.ult y | 7 => !x.ult y | 8 => !y.ult x | _ => y.ult x

end Sys2Proof.Spec

open Sys2Proof Sys2Proof.Machine

/-! ### Scalar forms -/

/-- R99, R61, R95: the forms that complete in the issue cycle write the result of Table 5.4, at every width code, with a
register or an immediate as second operand, to g[D] (g0 keeps zero), and go on to the successor. -/
def Sys2Proof.Spec.ScalarResults : Prop :=
  ∀ e ∈ Spec.aluForms, ∀ (p : Pred) (o : AluOps) (s : State), Ready s p .any (aluSrcs o) [.g o.d] →
    exec (e.1 p o) s = .next (retired s (putG s o.d (Spec.aluResult e.2 o.wd (gOf s o.a) (Spec.operandB s o))) 8)

/-- R99, R34, Table 5.3: products, quotients and remainders are delivered to g[D] after their latency, and never trap. -/
def Sys2Proof.Spec.ScalarLateResults : Prop :=
  ∀ e ∈ Spec.aluLateForms, ∀ (p : Pred) (o : AluOps) (s : State), Ready s p .any (aluSrcs o) [.g o.d] →
    exec (e.1 p o) s =
      .next (retired s (putGLater s o.d (Spec.aluResult e.2.1 o.wd (gOf s o.a) (Spec.operandB s o)) e.2.2) 8)

/-- R101, R63: `cmp` and `plog` write a predicate, a write to p0 has no effect, and predicates other than the destination
keep their value; `sel` chooses by p[S] XOR neg, p0 reading true. -/
def Sys2Proof.Spec.PredicateForms : Prop :=
  (∀ p cond d a b imm s, Ready s p .any [.g a, .g b] [] →
    exec (.cmp p cond d a b imm) s =
      .next (retired s (putP s d (Spec.compare cond (gOf s a) (gOf s b + imm.signExtend 64))) 8)) ∧
  (∀ p tt d a b s, Ready s p .any [] [] →
    exec (.plog p tt d a b) s =
      .next (retired s (putP s d
        (tt.getLsbD (2 * ((self s).rp a).toNat + ((self s).rp b).toNat))) 8)) ∧
  (∀ p d a b c neg s, Ready s p .any [.g a, .g b] [.g d] →
    exec (.sel p d a b c neg) s =
      .next (retired s (putG s d (if (self s).rp c ^^ neg then gOf s a else gOf s b)) 8)) ∧
  (∀ (s : State) (d k : BitVec 3) (b : Bool),
    (self (putP s d b)).rp k = if k = 0 then true else if k = d then b else (self s).rp k)

/-- R100: `addc` adds the operands, read as natural numbers of the width, and a carry-in that is 0 for p0; the sum is
extended as in R99, its carry goes to the carry predicate and is dropped for p0. -/
def Sys2Proof.Spec.AddWithCarry : Prop :=
  ∀ p (wd : BitVec 3) (d : BitVec 5) (a b : GSrc) (pc : BitVec 3) (s : State), Ready s p .any [.g a, .g b] [.g d] →
    let w := match wd.toNat % 4 with | 0 => 64 | 1 => 32 | 2 => 16 | _ => 8
    let sum := (gOf s a).toNat % 2 ^ w + (gOf s b).toNat % 2 ^ w + (if pc ≠ 0 ∧ (self s).rp pc = true then 1 else 0)
    let r := BitVec.ofNat w sum
    exec (.addc p wd d a b pc) s =
      .next (retired s (putP (putG s d (if wd.getLsbD 2 then r.signExtend 64 else r.setWidth 64)) pc (decide (2 ^ w ≤ sum))) 8)

/-- R101, R102: counts, bit fields, immediates, scaled addresses and context tile addresses. A bit range of `ext` and `ins`
that is not legal traps ILLEGAL. -/
def Sys2Proof.Spec.BitAndAddressForms : Prop :=
  (∀ p d a s, Ready s p .any [.g a] [.g d] → ∃ c : Nat, c ≤ 64 ∧
    (∀ i, i < c → (gOf s a).getLsbD (63 - i) = false) ∧ (c < 64 → (gOf s a).getLsbD (63 - c) = true) ∧
    exec (.bitcClz p d a) s = .next (retired s (putG s d (BitVec.ofNat 64 c)) 8)) ∧
  (∀ p d a s, Ready s p .any [.g a] [.g d] → ∃ c : Nat, c ≤ 64 ∧
    (∀ i, i < c → (gOf s a).getLsbD i = false) ∧ (c < 64 → (gOf s a).getLsbD c = true) ∧
    exec (.bitcCtz p d a) s = .next (retired s (putG s d (BitVec.ofNat 64 c)) 8)) ∧
  (∀ p d a s, Ready s p .any [.g a] [.g d] →
    exec (.bitcPopc p d a) s =
      .next (retired s (putG s d (BitVec.ofNat 64 ((List.range 64).countP (fun i => (gOf s a).getLsbD i)))) 8)) ∧
  (∀ p sx d a (pos : BitVec 6) (len : BitVec 7) s, Ready s p .any [.g a] [.g d] →
    exec (.ext p sx d a pos len) s =
      if 1 ≤ len.toNat ∧ len.toNat ≤ 64 ∧ pos.toNat + len.toNat ≤ 64 then
        let f := (gOf s a).extractLsb' pos.toNat len.toNat
        .next (retired s (putG s d (if sx then f.signExtend 64 else f.setWidth 64)) 8)
      else .next (trapTaken s 8 .illegal 0)) ∧
  (∀ p d a (pos : BitVec 6) (len : BitVec 7) s, Ready s p .any [.g a] [.g d] →
    if 1 ≤ len.toNat ∧ len.toNat ≤ 64 ∧ pos.toNat + len.toNat ≤ 64 then
      ∃ v : Word, (∀ i, i < 64 → v.getLsbD i =
          if pos.toNat ≤ i ∧ i < pos.toNat + len.toNat then (gOf s a).getLsbD (i - pos.toNat)
          else ((self s).rg d).getLsbD i) ∧
        exec (.ins p d a pos len) s = .next (retired s (putG s d v) 8)
    else exec (.ins p d a pos len) s = .next (trapTaken s 8 .illegal 0)) ∧
  (∀ p d v s, Ready s p .any [] [.g d] → exec (.li p d v) s = .next (retired s (putG s d v) 16)) ∧
  (∀ p (sc : BitVec 2) d a b (imm : BitVec 26) s, Ready s p .any [.g a, .g b] [.g d] →
    exec (.lea p sc d a b imm) s =
      .next (retired s (putG s d (gOf s a + gOf s b * BitVec.ofNat 64 (2 ^ sc.toNat) + imm.signExtend 64)) 8)) ∧
  (∀ p d a b s, Ready s p .any [.g a, .g b] [.g d] →
    exec (.gtaIdx p d a b) s =
      .next (retired s (putG s d (BitVec.ofNat 64 ((gOf s a).toNat % 2 ^ 20 * 2 ^ 44 + (gOf s b).toNat % 2 ^ 21))) 12)) ∧
  (∀ p d b (drow dcol : BitVec 5) s, Ready s p .any [.g b] [.g d] →
    let v := (here s).v.idx.toNat
    let row := (v / 32 % 32 + drow.toNat) % 32
    let col := (v % 32 + dcol.toNat) % 32
    exec (.gtaRel p d b drow dcol) s =
      .next (retired s (putG s d
        (BitVec.ofNat 64 ((v / 1024 * 1024 + row * 32 + col) * 2 ^ 44 + (gOf s b).toNat % 2 ^ 21))) 12))

/-- R58: g0 reads zero and a write to it is discarded; every other g register reads what was written to it last, and a
write leaves the others, every tile but the own and all memory as they were. -/
def Obligations.RegisterFile : Prop :=
  ∀ (s : State) (d k : BitVec 5) (v : Word),
    (self (putG s d v)).rg k = (if k = 0 then 0 else if k = d then v else (self s).rg k) ∧
    (∀ t, t ≠ s.cur.1 → (putG s d v).tile t = s.tile t) ∧ (∀ t, ((putG s d v).tile t).mem = (s.tile t).mem) ∧
    (∀ n, n ≠ s.cur.2 → (putG s d v).strand s.cur.1 n = s.strand s.cur.1 n) ∧
    (putG s d v).hbm = s.hbm ∧ (putG s d v).tier = s.tier

/-- R90 to R92, Tables 3.7, 4.4, 4.5: `mfs` reads the special registers, reserved bits as zero (R8); a number that is not
assigned traps ILLEGAL. -/
def Sys2Proof.Spec.SpecialRegisterReads : Prop :=
  ∀ p d (r : BitVec 12) s, Ready s p .any [] [.g d] →
    let reads (v : Word) : Prop := exec (.mfs p d r) s = .next (retired s (putG s d v) 8)
    let T := here s
    let S := self s
    (r = 0x000 → reads ((T.v.att.setWidth 64 <<< (48 : Nat)) ||| T.v.ss.setWidth 64)) ∧
    (r = 0x001 → reads ((s.chip ++ BitVec.ofNat 12 s.cur.1).setWidth 64 <<< (44 : Nat))) ∧
    (r = 0x002 → reads ((T.v.v.setWidth 64 <<< (20 : Nat)) ||| T.v.idx.setWidth 64)) ∧
    (r = 0x003 → reads (T.v.partw &&& 0x0FFFFFFFFFFFFFFF)) ∧
    (r = 0x004 → s.cur.1 ≠ monitorTile → reads (BitVec.ofNat 64 (16384 * (T.v.partw.toNat % 128)))) ∧
    (r = 0x005 → reads (T.v.ovb &&& 0x80000000001FFFFF)) ∧ (r = 0x006 → reads (T.v.tvec &&& 0x1FFFFF)) ∧
    (r = 0x007 → reads S.tcause) ∧
    (r = 0x008 → reads S.trappc) ∧ (r = 0x009 → reads (BitVec.ofNat 64 (capOf s.cur.1))) ∧
    (r = 0x00A → reads (BitVec.ofNat 64 s.cycle)) ∧ (r = 0x00B → reads T.ecnt) ∧
    (r = 0x00C → let e := T.v.idlw.toNat % 64; reads (BitVec.ofNat 64 (if 1 ≤ e ∧ e ≤ 9 then 10 else e))) ∧
    (r = 0x00D → reads (BitVec.ofNat 64 s.cur.2.val)) ∧
    (∀ m : StrandNo, (r = 0x020 ∧ m = s.cur.2) ∨ r.toNat = 0x040 + m.val → ∃ v : Word, reads v ∧
      v.extractLsb' 0 21 = (if m = s.cur.2 then successor S.pc 8 else (s.strand s.cur.1 m).pc) ∧
      v.extractLsb' 21 3 = 0 ∧ v.extractLsb' 32 32 = 0 ∧
      (v.extractLsb' 28 4).toNat = (match (s.strand s.cur.1 m).st with
        | .free => 0 | .started => 1 | .ready => 2 | .waiting => 3 | .trapped => 4 | .halted => 5)) ∧
    (∀ d w, d < 4 → w < 16 → r.toNat = 0x100 + 16 * d + w →
      reads ((enableMap s T.ctx d).extractLsb' (64 * w) 64)) ∧
    (∀ k, k < 6 → r.toNat = 0x010 + k →
      reads (BitVec.ofNat 64 (partLimit T.v.partw k * 2 ^ 32 + partBase T.v.partw k))) ∧
    (((0x00E ≤ r.toNat ∧ r.toNat < 0x010) ∨ (0x016 ≤ r.toNat ∧ r.toNat < 0x020) ∨ (0x021 ≤ r.toNat ∧ r.toNat < 0x040) ∨
        (0x04B ≤ r.toNat ∧ r.toNat < 0x100) ∨ 0x140 ≤ r.toNat) →
      exec (.mfs p d r) s = .next (trapTaken s 8 .illegal 0))

/-- R55, R92, Table 4.5: `mts` writes the writable bits; OVB, TVEC and IDLW by strand 0 only, else PRIV, be g[A] full or empty
(check 8 comes before check 9); OVB, TVEC and TRAPPC
take only code addresses, else PROT; a write to a read-only register has no effect. -/
def Sys2Proof.Spec.SpecialRegisterWrites : Prop :=
  (∀ p a (r : BitVec 12) s, r = 0x005 ∨ r = 0x006 ∨ r = 0x00C → s.cur.2.val ≠ 0 → predTrue (self s) p = true →
    exec (.mts p a r) s = .next (trapTaken s 8 .priv 0)) ∧
  ∀ p a (r : BitVec 12) s, Ready s p .any [.g a] [] →
    let v := gOf s a
    let leaves (s' : State) : Prop := exec (.mts p a r) s = .next (retired s s' 8)
    let code : Prop := v.toNat % 4 = 0 ∧ v.toNat % 2 ^ 21 < xbOf s s.cur.1
    (r = 0x005 → s.cur.2.val = 0 → code → leaves (modHere s (fun x => { x with ovb := v &&& 0x80000000001FFFFF }))) ∧
    (r = 0x006 → s.cur.2.val = 0 → code → leaves (modHere s (fun x => { x with tvec := v &&& 0x1FFFFF }))) ∧
    (r = 0x007 → leaves (modSelf s (fun S => { S with tcause := v &&& 0x800000FFFFFFFFFF }))) ∧
    (r = 0x008 → code → leaves (modSelf s (fun S => { S with trappc := v &&& 0x1FFFFF }))) ∧
    (r = 0x00C → s.cur.2.val = 0 →
      leaves ((modHere s (fun x => { x with idlw := v &&& 0x3F })).modTile s.cur.1 (fun T => { T with idle := 0 }))) ∧
    (r = 0x008 ∨ ((r = 0x005 ∨ r = 0x006) ∧ s.cur.2.val = 0) → ¬ code →
      exec (.mts p a r) s = .next (trapTaken s 8 .prot 0)) ∧
    (r.toNat < 5 ∨ 0x009 ≤ r.toNat ∧ r.toNat < 0x00C ∨ r = 0x00D ∨ 0x010 ≤ r.toNat ∧ r.toNat < 0x016 ∨ r = 0x020 ∨
      0x040 ≤ r.toNat ∧ r.toNat < 0x04B ∨ 0x100 ≤ r.toNat ∧ r.toNat < 0x140 → leaves s)

/-! ### Control flow -/

/-- R54, R103, Table 5.6: `nop`, branches, jumps, calls, returns, loops, `halt` and `yield`. A jump to a register with a
bit above 20 set traps PROT; `call.r` reads g[A] before it writes the link; `loop` goes on where g[D] reaches zero and
traps ILLEGAL for g0; `halt` of strand 0 with a live helper traps HALTLIVE. That targets wrap is the model's reading
(log entry 36). -/
def Obligations.ControlFlow : Prop :=
  (∀ p s, Ready s p .any [] [] → exec (.nop p) s = .next (retired s s 8)) ∧
  (∀ p (imm : BitVec 26) s, Ready s p .any [] [] →
    exec (.br p imm) s = .next (wentTo s s (BitVec.ofInt 21 ((self s).pc.toNat + 4 * imm.toInt)))) ∧
  (∀ p a (imm : BitVec 26) s, Ready s p .any [.g a] [] →
    exec (.jmp p a imm) s =
      if (gOf s a).toNat < 2 ^ 21 then .next (wentTo s s (BitVec.ofInt 21 ((gOf s a).toNat + imm.toInt)))
      else .next (trapTaken s 8 .prot 0)) ∧
  (∀ p d (imm : BitVec 26) s, Ready s p .any [] [.g d] →
    exec (.call p d imm) s =
      .next (wentTo s (putG s d ((successor (self s).pc 8).setWidth 64)) (BitVec.ofInt 21 ((self s).pc.toNat + 4 * imm.toInt)))) ∧
  (∀ p d a s, Ready s p .any [.g a] [.g d] →
    exec (.callR p d a) s =
      if (gOf s a).toNat < 2 ^ 21 then
        .next (wentTo s (putG s d ((successor (self s).pc 8).setWidth 64)) ((gOf s a).setWidth 21))
      else .next (trapTaken s 8 .prot 0)) ∧
  (∀ p a s, Ready s p .any [.g a] [] →
    exec (.ret p a) s =
      if (gOf s a).toNat < 2 ^ 21 then .next (wentTo s s ((gOf s a).setWidth 21)) else .next (trapTaken s 8 .prot 0)) ∧
  (∀ p d (imm : BitVec 26) s, Ready s p .any [] [.g d] →
    let v := (self s).rg d - 1
    exec (.loop p d imm) s =
      if d = 0 then .next (trapTaken s 8 .illegal 0)
      else if v = 0 then .next (retired s (putG s d v) 8)
      else .next (wentTo s (putG s d v) (BitVec.ofInt 21 ((self s).pc.toNat + 4 * imm.toInt)))) ∧
  (∀ p s, Ready s p .any [] [] →
    exec (.halt p) s =
      if s.cur.2.val = 0 ∧ ∃ n : StrandNo, n.val ≠ 0 ∧ (s.strand s.cur.1 n).st ∈ [.started, .ready, .waiting] then
        .next (trapTaken s 8 .haltlive 0)
      else .next (retired s (modSelf s (fun S => { S with st := .halted, wait := .idle })) 8)) ∧
  (∀ p s, Ready s p .any [] [] →
    exec (.yield p) s = .next (retired s (modSelf s (fun S => { S with notBefore := s.cycle + 2 })) 8))

/-- R104: `waitc` makes the strand wait on its counter from its issue cycle: threshold (g[A] + IMM36) mod 2^32, timeout
g[B]. At the end of this and of each later cycle the level is compared: at or above the threshold, the instruction
completes with the predicate 0 and, with `.sub`, the counter lowered by the threshold; below it, the timeout's cycle calls
for the step WAITC_TIMEOUT, and else nothing changes. -/
def Obligations.WaitOnCounter : Prop :=
  (∀ p sub a b ct pf (imm : BitVec 36) s, Ready s p .any [.g a, .g b] [] →
    exec (.waitc p sub a b ct pf imm) s =
      .next (blocked s s 12 (.counter (BitVec.ofNat 32 ((gOf s a).toNat + imm.toNat)) ct sub pf s.cycle (gOf s b).toNat))) ∧
  (∀ (s : State) (t : TileId) (n : StrandNo) (thr : BitVec 32) (ct : BitVec 4) (sub : Bool) (pf : BitVec 3)
      (start tmo : Nat),
    (s.strand t n).st = .waiting → (s.strand t n).wait = .counter thr ct sub pf start tmo →
    let c := (s.tile t).v.c[ct.toNat]
    let s' := tickStrand s t n
    (thr.toNat ≤ c.toNat →
      (s'.tile t).v.c[ct.toNat] = (if sub then c - thr else c) ∧ (s'.strand t n).st = .ready ∧
      (s'.strand t n).notBefore = s.cycle + 1 ∧
      (s'.strand t n).pc = successor (s.strand t n).pc (s.strand t n).wlen ∧
      (pf ≠ 0 → (s'.strand t n).rp pf = false) ∧ s'.agenda = s.agenda) ∧
    (c.toNat < thr.toNat → tmo ≠ 0 → start + tmo ≤ s.cycle → s' = s.post 1 (.waitcTimeout t n)) ∧
    (c.toNat < thr.toNat → (tmo = 0 ∨ s.cycle < start + tmo) → s' = s))

/-! ### Memory -/

namespace Sys2Proof.Spec

open Sys2Proof Sys2Proof.Machine

/-- Bytes of a width code (R61). -/
def bytesOfCode (wd : BitVec 3) : Nat := match wd.toNat % 4 with | 0 => 8 | 1 => 4 | 2 => 2 | _ => 1

/-- A value of a width code in a g register (R99, R105). -/
def extended (wd : BitVec 3) (x : Nat) : Word :=
  let r := BitVec.ofNat (8 * bytesOfCode wd) x
  if wd.getLsbD 2 then r.signExtend 64 else r.setWidth 64

/-- The effective address of a memory form (R97). -/
def ea {w : Nat} (s : State) (a : GSrc) (imm : BitVec w) : Word := gOf s a + imm.signExtend 64

/-- Does an effective address name the own store (R97)? -/
abbrev namesOwn (s : State) (x : Word) : Prop :=
  x.toNat < 2 ^ 21 ∨ (s.cur.1 ≠ monitorTile ∧ 2 ^ 24 ≤ x.toNat ∧ x.toNat < 2 ^ 25 ∧ x.toNat / 2 ^ 21 % 8 = posOf s.cur.1)

/-- Does it name neither the own store nor the sibling window? -/
abbrev namesNothing (x : Word) : Prop := 2 ^ 21 ≤ x.toNat ∧ (x.toNat < 2 ^ 24 ∨ 2 ^ 25 ≤ x.toNat)

/-- Offset of a local address. -/
def ofsOf (x : Word) : Nat := x.toNat % 2 ^ 21

/-- Does the whole range lie in partition k of a tile (R81)? -/
abbrev liesIn (w : Word) (k ofs len : Nat) : Prop := partBase w k ≤ ofs ∧ ofs + len ≤ partLimit w k

/-- Does it lie in the scratch, the accumulator or the foreshore partition (Table 4.2)? -/
abbrev reachable (w : Word) (ofs len : Nat) : Prop := liesIn w 2 ofs len ∨ liesIn w 3 ofs len ∨ liesIn w 5 ofs len

/-- Does the range touch a 64-byte line? -/
abbrev touches (ofs len line : Nat) : Prop := ofs / 64 ≤ line ∧ line * 64 < ofs + len

/-- An aligned access of a tile's strand to its own store that R81 lets pass, with no adder command of the strand over the
range outstanding (R128), in a store without soft errors. -/
structure OwnAccess (s : State) (x : Word) (len : Nat) : Prop where
  tile : s.cur.1 ≠ monitorTile
  aligned : x.toNat % len = 0
  own : namesOwn s x
  part : reachable (here s).v.partw (ofsOf x) len
  order : ownOverlap (here s) s.cur.2 (ofsOf x) len = []
  sound : (here s).errs = []

/-- An aligned access through the sibling window to tile `u` that R97 lets pass. -/
structure WindowAccess (s : State) (x : Word) (len : Nat) (u : TileId) : Prop where
  tile : s.cur.1 ≠ monitorTile
  aligned : x.toNat % len = 0
  window : 2 ^ 24 ≤ x.toNat ∧ x.toNat < 2 ^ 25
  other : x.toNat / 2 ^ 21 % 8 ≠ posOf s.cur.1
  pos : u = tileAt (clusterOf s.cur.1) (x.toNat / 2 ^ 21 % 8)
  group : siblingOk s s.cur.1 u = true
  part : liesIn (s.tile u).v.partw 2 (ofsOf x) len
  gate : (s.cluster (clusterOf s.cur.1)).gate = true
  det : s.det s.cur.1 = false
  sound : (s.tile u).errs = []

/-- What else a store to the versioned store or the foreshore of tile `u` must meet: no collective has claimed the range
(R311), no other tile's inbound write stands on its lines (R202), its lines are logged or the galley has room for two
(R194, R197), and the tile has not shut its galley. -/
structure Writable (s : State) (u : TileId) (ofs len : Nat) : Prop where
  unclaimed : claimed (s.tile u).v ofs len = false
  quiet : ∀ g ∈ (s.tile u).galley, (g.kind = .plain ∨ g.kind = .add) → touches ofs len (g.ofs / 64) →
    g.sidx = (s.tile u).v.idx
  room : liesIn (s.tile u).v.partw 5 ofs len ∨ (∀ l, touches ofs len l → logged (s.tile u) l = true) ∨
    (s.tile u).galley.length + 2 ≤ galleyCap (s.tile u).v.partw
  open_ : (s.tile u).shut = false

/-- What a strand's store to its own store must meet besides: no watchpoint traps (R113), the arrival has not been sent
or the foreshore is written (R204); in DET mode the foreshore is not written and no other strand has written or read the
lines, by a store on a local path or by a delta of the own tile (R105, R207, R208). -/
structure OwnStore (s : State) (x : Word) (len : Nat) : Prop where
  access : OwnAccess s x len
  writable : Writable s s.cur.1 (ofsOf x) len
  unwatched : (self s).suppress = true ∨ watchTraps (here s).v (ofsOf x) len = false
  early : (here s).v.bstate ≠ 2 ∨ liesIn (here s).v.partw 5 (ofsOf x) len
  det : s.det s.cur.1 = true → ¬ liesIn (here s).v.partw 5 (ofsOf x) len ∧
    ∀ g ∈ (here s).galley, g.kind ≠ .out → touches (ofsOf x) len (g.ofs / 64) →
      otherStrand g.wby s.cur.2.val = none ∧ otherStrand g.rby s.cur.2.val = none

/-- Where a byte of the own store stands: slots of a folded group have foreshores of their own (R259). -/
def place (s : State) (ofs : Nat) : Nat := poolAddr (here s).v.partw (here s).slot ofs

/-- What the store of `len` bytes at `at_` of tile `u` leaves as it was: every other byte of every memory, the standing
version of every versioned byte (R193), every register of every strand, every other tile. -/
structure StoresOnly (s s' : State) (u : TileId) (at_ len : Nat) : Prop where
  mem : ∀ a, ¬ (at_ ≤ a ∧ a < at_ + len) → (s'.tile u).mem.read a = (s.tile u).mem.read a
  standing : ∀ a, versionedAt (s.tile u).v.partw a = true → standingByte (s'.tile u) a = standingByte (s.tile u) a
  strands : (s'.tile u).strands = (s.tile u).strands
  counters : (s'.tile u).v.c = (s.tile u).v.c
  special : (s'.tile u).v.tvec = (s.tile u).v.tvec ∧ (s'.tile u).v.ovb = (s.tile u).v.ovb ∧
    (s'.tile u).v.idlw = (s.tile u).v.idlw
  others : ∀ t, t ≠ u → s'.tile t = s.tile t
  hbm : s'.hbm = s.hbm
  tier : s'.tier = s.tier
  cur : s'.cur = s.cur
  cycle : s'.cycle = s.cycle

/-- Bytes of a number, the lowest first, stand at an address. -/
abbrev holds (T : Tile) (a len : Nat) (x : Nat) : Prop := ∀ i, i < len → (T.mem.read (a + i)).toNat = x / 256 ^ i % 256

end Sys2Proof.Spec

/-- R97, R99, R105, R193: outside DET mode, `ld` and `ldw` from the own store bind the bytes of the working copy, the lowest
first and extended by the width code, after 3 cycles; through the sibling window, those of the sibling's, after 6. -/
def Sys2Proof.Spec.LocalLoads : Prop :=
  (∀ p wd d a (imm : BitVec 26) s, Ready s p .any [.g a] [.g d] → s.det s.cur.1 = false →
    Spec.OwnAccess s (Spec.ea s a imm) (Spec.bytesOfCode wd) → ∃ x : Nat,
      Spec.holds (here s) (Spec.place s (Spec.ofsOf (Spec.ea s a imm))) (Spec.bytesOfCode wd) x ∧
      exec (.ld p wd d a imm) s = .next (retired s (putGLater s d (Spec.extended wd x) 3) 8)) ∧
  (∀ p d a (imm : BitVec 26) s, Ready s p .any [.g a] [.w d] → s.det s.cur.1 = false →
    Spec.OwnAccess s (Spec.ea s a imm) 128 → ∃ x : VWord,
      Spec.holds (here s) (Spec.place s (Spec.ofsOf (Spec.ea s a imm))) 128 x.toNat ∧
      exec (.ldw p d a imm) s = .next (retired s (putV s (.w d) x 3) 8)) ∧
  (∀ p wd d a (imm : BitVec 26) s u, Ready s p .any [.g a] [.g d] →
    Spec.WindowAccess s (Spec.ea s a imm) (Spec.bytesOfCode wd) u → ∃ x : Nat,
      Spec.holds (s.tile u) (Spec.ofsOf (Spec.ea s a imm)) (Spec.bytesOfCode wd) x ∧
      exec (.ld p wd d a imm) s = .next (retired s (putGLater s d (Spec.extended wd x) 6) 8)) ∧
  (∀ p d a (imm : BitVec 26) s u, Ready s p .any [.g a] [.w d] →
    Spec.WindowAccess s (Spec.ea s a imm) 128 u → ∃ x : VWord,
      Spec.holds (s.tile u) (Spec.ofsOf (Spec.ea s a imm)) 128 x.toNat ∧
      exec (.ldw p d a imm) s = .next (retired s (putV s (.w d) x 6) 8))

/-- R207, R208: in DET mode a strand reads its own writes and lines that nobody has written in this superstep from the
working copy, and lines that only other strands have written from the standing version. Writes of the tile to a line are
its stores on a local path and the deltas it has sent to itself; a line that holds only another strand's deltas stands in
the working copy as it did. -/
def Sys2Proof.Spec.DetLoads : Prop :=
  ∀ p wd d a (imm : BitVec 26) s, Ready s p .any [.g a] [.g d] → s.det s.cur.1 = true →
    Spec.OwnAccess s (Spec.ea s a imm) (Spec.bytesOfCode wd) →
    let ofs := Spec.ofsOf (Spec.ea s a imm)
    versionedAt (here s).v.partw ofs = true →
    let gs := ownSlots (here s) (ofs / 64)
    ((∀ g ∈ gs, otherStrand g.wby s.cur.2.val = none) ∨ (∀ g ∈ gs, g.wby.getLsbD s.cur.2.val = false)) →
    ∃ (s' : State) (x : Nat),
      exec (.ld p wd d a imm) s = .next (retired s (putGLater s' d (Spec.extended wd x) 3) 8) ∧
      (∀ t, (s'.tile t).mem = (s.tile t).mem) ∧ (here s').strands = (here s).strands ∧ s'.cur = s.cur ∧
      ((∀ g ∈ gs, g.kind = .undo → otherStrand g.wby s.cur.2.val = none) →
        Spec.holds (here s) ofs (Spec.bytesOfCode wd) x) ∧
      ((∃ g ∈ gs, g.kind = .undo) → (∀ g ∈ gs, g.kind = .undo → otherStrand g.wby s.cur.2.val ≠ none) →
        ∀ i, i < Spec.bytesOfCode wd → (standingByte (here s) (ofs + i)).toNat = x / 256 ^ i % 256)

/-- R105, R107, R193, R194, R201: `st`, `stw` and the local `st4` write their bytes, or their half of a byte, into the
working copy or the foreshore of the own store at once, log each line's first write so that the standing version stays,
and change nothing else. -/
def Sys2Proof.Spec.LocalStores : Prop :=
  (∀ p wd a b (imm : BitVec 26) s, Ready s p .any [.g a, .g b] [] →
    let n := Spec.bytesOfCode wd
    let at_ := Spec.place s (Spec.ofsOf (Spec.ea s a imm))
    Spec.OwnStore s (Spec.ea s a imm) n →
    ∃ s', exec (.st p wd a b imm) s = .next (retired s s' 8) ∧ Spec.StoresOnly s s' s.cur.1 at_ n ∧
      Spec.holds (here s') at_ n ((gOf s b).toNat % 256 ^ n)) ∧
  (∀ p a b (imm : BitVec 26) s, Ready s p .any [.g a, .w b] [] →
    let at_ := Spec.place s (Spec.ofsOf (Spec.ea s a imm))
    Spec.OwnStore s (Spec.ea s a imm) 128 →
    ∃ s', exec (.stw p a b imm) s = .next (retired s s' 8) ∧ Spec.StoresOnly s s' s.cur.1 at_ 128 ∧
      Spec.holds (here s') at_ 128 (wOf s b).toNat) ∧
  (∀ p a b (imm : BitVec 26) s, Ready s p .any [.g a, .g b] [] →
    let at_ := Spec.place s (Spec.ofsOf (Spec.ea s a imm))
    Spec.OwnStore s (Spec.ea s a imm) 1 →
    ∃ s', exec (.st4 p a b imm) s = .next (retired s s' 8) ∧ Spec.StoresOnly s s' s.cur.1 at_ 1 ∧
      ((here s').mem.read at_).extractLsb' (if (gOf s b).getLsbD 4 then 4 else 0) 4 = (gOf s b).extractLsb' 0 4 ∧
      ((here s').mem.read at_).extractLsb' (if (gOf s b).getLsbD 4 then 0 else 4) 4 =
        ((here s).mem.read at_).extractLsb' (if (gOf s b).getLsbD 4 then 0 else 4) 4)

/-- R97, R105, R203: a store through the sibling window writes the sibling's working copy, whose standing version stays,
and no other tile. -/
def Sys2Proof.Spec.WindowStores : Prop :=
  ∀ p wd a b (imm : BitVec 26) s u, Ready s p .any [.g a, .g b] [] →
    let n := Spec.bytesOfCode wd
    let ofs := Spec.ofsOf (Spec.ea s a imm)
    Spec.WindowAccess s (Spec.ea s a imm) n u → Spec.Writable s u ofs n → (here s).v.bstate ≠ 2 →
    ∃ s', exec (.st p wd a b imm) s = .next (retired s s' 8) ∧ Spec.StoresOnly s s' u ofs n ∧
      Spec.holds (s'.tile u) ofs n ((gOf s b).toNat % 256 ^ n)

/-- R97: "An access of n bytes must have ea mod n = 0, or it traps MISALIGN precisely", and an address that names neither
the own store nor the window traps PROT; R81: so does a range that no partition of Table 4.2 holds. The trap is the
only effect. The order of the checks is log entry 40's reading. -/
def Obligations.LocalAccessTraps : Prop :=
  ∀ p wd d a b (imm : BitVec 26) s,
    let n := Spec.bytesOfCode wd
    let x := Spec.ea s a imm
    let bad (x : Word) (n : Nat) : Prop := x.toNat % n = 0 ∧
      (Spec.namesNothing x ∨ (s.cur.1 ≠ monitorTile ∧ Spec.namesOwn s x ∧ ¬ Spec.reachable (here s).v.partw (Spec.ofsOf x) n))
    (Ready s p .any [.g a] [.g d] → x.toNat % n ≠ 0 → exec (.ld p wd d a imm) s = .next (trapTaken s 8 .misalign 0)) ∧
    (Ready s p .any [.g a] [.g d] → bad x n → exec (.ld p wd d a imm) s = .next (trapTaken s 8 .prot 0)) ∧
    (Ready s p .any [.g a, .g b] [] → x.toNat % n ≠ 0 → exec (.st p wd a b imm) s = .next (trapTaken s 8 .misalign 0)) ∧
    (Ready s p .any [.g a, .g b] [] → bad x n → exec (.st p wd a b imm) s = .next (trapTaken s 8 .prot 0)) ∧
    (Ready s p .any [.g a, .g b] [] → bad x 1 → exec (.st4 p a b imm) s = .next (trapTaken s 8 .prot 0)) ∧
    (∀ w, Ready s p .any [.g a] [.w w] → x.toNat % 128 ≠ 0 →
      exec (.ldw p w a imm) s = .next (trapTaken s 8 .misalign 0)) ∧
    (∀ w, Ready s p .any [.g a] [.w w] → bad x 128 → exec (.ldw p w a imm) s = .next (trapTaken s 8 .prot 0)) ∧
    (∀ w, Ready s p .any [.g a, .w w] [] → x.toNat % 128 ≠ 0 →
      exec (.stw p a w imm) s = .next (trapTaken s 8 .misalign 0)) ∧
    (∀ w, Ready s p .any [.g a, .w w] [] → bad x 128 → exec (.stw p a w imm) s = .next (trapTaken s 8 .prot 0))

/-- R111: `ldl` takes a clear lock bit of the own store, h = (o[20:6] XOR (o[20:6] >> 8)) AND 255, for the strand and
loads; on a bit that another strand holds it waits; on one that it holds itself, or with four bits held, it traps
LOCK. `stu` by the holder stores and clears the bit; by another strand it traps LOCK. In DET mode both trap DETBAN.
The model's readings: log entries 41 and 46. -/
def Obligations.Locks : Prop :=
  ∀ p wd d a b (imm : BitVec 26) s,
    let n := Spec.bytesOfCode wd
    let x := Spec.ea s a imm
    let ofs := Spec.ofsOf x
    let h : BitVec 8 := BitVec.ofNat 8 ((ofs / 64) ^^^ (ofs / 64 / 256))
    let mine (l : LockBit) : Prop := l.pos = posOf s.cur.1 ∧ l.strand = s.cur.2.val
    (Ready s p .any [.g a] [.g d] → s.det s.cur.1 = true → exec (.ldl p wd d a imm) s = .next (trapTaken s 8 .detban 0)) ∧
    (Ready s p .any [.g a, .g b] [] → s.det s.cur.1 = true →
      exec (.stu p wd a b imm) s = .next (trapTaken s 8 .detban 0)) ∧
    (Ready s p .any [.g a] [.g d] → s.det s.cur.1 = false → Spec.OwnAccess s x n →
      ((∀ l ∈ (here s).locks, l.h ≠ h) → grantDue s s.cur.1 h = false → locksHeld s s.cur.1 s.cur.2 < 4 →
        ∃ (s' : State) (y : Nat), exec (.ldl p wd d a imm) s = .next (retired s (putGLater s' d (Spec.extended wd y) 3) 8) ∧
          Spec.holds (here s) (Spec.place s ofs) n y ∧
          s' = s.modTile s.cur.1 (fun T =>
            { T with locks := T.locks ++ [{ h := h, pos := posOf s.cur.1, strand := s.cur.2.val }] })) ∧
      ((∃ l, lockHolder s s.cur.1 h = some l ∧ ¬ mine l) → locksHeld s s.cur.1 s.cur.2 < 4 →
        exec (.ldl p wd d a imm) s = .next (blocked s s 8 (.lock s.cur.1 h ofs wd d))) ∧
      ((∃ l, lockHolder s s.cur.1 h = some l ∧ mine l) ∨ 4 ≤ locksHeld s s.cur.1 s.cur.2 →
        exec (.ldl p wd d a imm) s = .next (trapTaken s 8 .lock 0))) ∧
    (Ready s p .any [.g a, .g b] [] → s.det s.cur.1 = false → Spec.OwnStore s x n →
      ((∃ l, lockHolder s s.cur.1 h = some l ∧ mine l) → ∃ s' s'' : State,
        exec (.stu p wd a b imm) s = .next (retired s s'' 8) ∧ Spec.StoresOnly s s' s.cur.1 (Spec.place s ofs) n ∧
        Spec.holds (here s') (Spec.place s ofs) n ((gOf s b).toNat % 256 ^ n) ∧ s'' = clearLock s' s.cur.1 h ∧
        ∀ l ∈ (here s'').locks, l.h ≠ h) ∧
      ((∀ l, lockHolder s s.cur.1 h = some l → ¬ mine l) →
        exec (.stu p wd a b imm) s = .next (trapTaken s 8 .lock 0)))

/-! ### The remote path -/

namespace Sys2Proof.Spec

open Sys2Proof Sys2Proof.Machine

/-- A global address of a form that goes out at once: aligned, its reserved bits zero (R18, R97), the target on this chip,
the tile no shadow of a DMR pair (R250). -/
structure GlobalAccess (s : State) (x : Word) (len : Nat) : Prop where
  aligned : x.toNat % len = 0
  legal : x.toNat / 2 ^ 21 % 2 ^ 23 = 0
  near : segAway s (here s).ctx x = false
  single : (here s).twin = none ∧ (here s).shadow = false

/-- The tile that a global address is routed to. -/
def target (s : State) (x : Word) : TileId := routeOf s (here s).ctx s.cur.1 x

/-- The sender of what the strand sends now. -/
def origin (s : State) : Origin := originOf s s.cur.1 s.cur.2 (self s).pc false

/-- Does an address lie in its target's foreshore? -/
def foreTarget (s : State) (x : Word) : Bool := foreAt (s.tile (target s x)).v.partw (eaOfs x)

/-- The state after the strand has sent something: its tile's sequence and access numbers have gone up, the access is
outstanding, the arrival is under way. -/
def sent (s : State) (x : Word) (load : Bool) (e : Ev) : State :=
  ((bumpOp s s.cur.1).modStrand s.cur.1 s.cur.2 (fun S =>
    { S with ops := S.ops ++ [{ id := (here s).opNo, target := target s x, load := load }] })).send
      s.cur.1 (target s x) false s.cur.1 8 e

/-- The arrival of a remote write. -/
def writeEv (s : State) (x : Word) (b : Payload) : Ev :=
  if foreTarget s x then .foreshoreWriteArrival { src := origin s, ea := x, body := b }
  else .deltaArrival { src := origin s, ea := x, body := b }

/-- May a remote write be sent: the arrival has not been sent, or the foreshore is written (R204)? -/
abbrev early (s : State) (x : Word) : Prop := (here s).v.bstate ≠ 2 ∨ foreTarget s x = true

end Sys2Proof.Spec

/-- R21, R106, R329, R336: what a packet from tile `a` to tile `b` brings comes, within a die, one cycle a hop after the
`d` cycles of its interfaces; between dies it crosses one link of each path of its way, 96 cycles each, and where no link
of a path can carry it, it stays with its sender. -/
def Sys2Proof.Spec.Sends : Prop :=
  ∀ (s : State) (a b : Nat) (engine : Bool) (own : TileId) (d : Nat) (e : Ev), b < 8192 →
    let src := 2 * a + engine.toNat
    let hops := absDiff (rowOf a) (rowOf b) + absDiff (colOf a) (colOf b)
    let ps := packetPaths s src a b
    let legs := legsOf s src b ps
    (dieOf a = dieOf b → s.send a b engine own d e = s.post (d + hops) e) ∧
    (legs = none → (s.send a b engine own d e).agenda = s.agenda ∧ ∃ h, h.ev = e ∧ h.src = src ∧ h.dst = b ∧
      (s.send a b engine own d e).held = s.held ++ [h]) ∧
    (∀ ls, legs = some ls → ls.length = ps.length ∧
      (s.send a b engine own d e).agenda = (s.post (d + hops + ((ls.getLast?.map (fun x => x.2.2)).getD s.cycle - s.cycle)) e).agenda ∧
      (∀ i l f c, ls[i]? = some (l, f, c) → (∃ p, ps[i]? = some p ∧ f = p.1 ∧ flowLink s src b p.2 = some l) ∧
        c = 96 + max (linkFrom s l) (if i = 0 then s.cycle else ((ls[i - 1]?).map (fun x => x.2.2)).getD 0)))

/-- R106, R107, R108, R110, R85: `stg`, the global `st4`, `addd` and the storing `lb` send one packet, which reaches the
receiving interface of the target as `Spec.Sends` says, 8 cycles and its hops after issue, as a foreshore write or a delta; the strand goes on. -/
def Sys2Proof.Spec.RemoteStores : Prop :=
  (∀ p a wd r (imm : BitVec 36) s, Ready s p .any [.g a, .g r] [] → let x := Spec.ea s a imm
    Spec.GlobalAccess s x (Spec.bytesOfCode wd) → Spec.early s x →
    exec (.stg p a (.g wd r) imm) s = .next (retired s (Spec.sent s x false (Spec.writeEv s x
      (.bytes (Spec.bytesOfCode wd) (BitVec.ofNat 1024 ((gOf s r).toNat % 256 ^ Spec.bytesOfCode wd))))) 12)) ∧
  (∀ p a r (imm : BitVec 36) s, Ready s p .any [.g a, .w r] [] → let x := Spec.ea s a imm
    Spec.GlobalAccess s x 128 → Spec.early s x →
    exec (.stg p a (.v r) imm) s =
      .next (retired s (Spec.sent s x false (Spec.writeEv s x (.bytes 128 (wOf s r)))) 12)) ∧
  (∀ p a b (imm : BitVec 26) s, Ready s p .any [.g a, .g b] [] → let x := Spec.ea s a imm
    Spec.GlobalAccess s x 1 → Spec.early s x →
    exec (.st4G p a b imm) s = .next (retired s (Spec.sent s x false (Spec.writeEv s x
      (.nibble ((gOf s b).getLsbD 4) ((gOf s b).extractLsb' 0 4)))) 8)) ∧
  (∀ p a (ty : BitVec 4) r (imm : BitVec 36) s, Ready s p .any [.g a, .g r] [] → let x := Spec.ea s a imm
    let wide := decide (ty.toNat % 4 = 0)
    let n := if wide then 8 else 4
    Spec.GlobalAccess s x n → Spec.early s x →
    exec (.addd p a (.g ty r) imm) s = .next (retired s (Spec.sent s x false (Spec.writeEv s x
      (.addInt wide (BitVec.ofNat 64 ((gOf s r).toNat % 256 ^ n))))) 12)) ∧
  (∀ p a r (imm : BitVec 36) s, Ready s p .any [.g a, .w r] [] → let x := Spec.ea s a imm
    Spec.GlobalAccess s x 128 → Spec.early s x →
    exec (.addd p a (.la r) imm) s = .next (retired s (Spec.sent s x false (Spec.writeEv s x (.addLa (wOf s r)))) 12)) ∧
  (∀ p wd a b (imm : BitVec 26) s, Ready s p .any [.g a, .g b] [] → let y := Spec.ea s a imm
    let n := Spec.bytesOfCode wd
    let x : Word := (here s).v.idx ++ BitVec.ofNat 44 (Spec.ofsOf y)
    y.toNat % n = 0 → Spec.namesOwn s y → s.cur.1 ≠ monitorTile → Spec.reachable (here s).v.partw (Spec.ofsOf y) n →
    Spec.GlobalAccess s x n → Spec.early s x →
    exec (.lbStore p wd a b imm) s = .next (retired s (Spec.sent s x false (Spec.writeEv s x
      (.bytes n (BitVec.ofNat 1024 ((gOf s b).toNat % 256 ^ n))))) 8))

/-- R109: a message carries its data, or none, and the receiver's counter to the target, 8 cycles and its hops away; it does
not wait for a release. -/
def Sys2Proof.Spec.Messages : Prop :=
  (∀ p ct a wd r (imm : BitVec 36) s, Ready s p .any [.g a, .g r] [] → let x := Spec.ea s a imm
    Spec.GlobalAccess s x (Spec.bytesOfCode wd) →
    exec (.msg p ct a (.g wd r) imm) s = .next (retired s (Spec.sent s x false (.msgArrival
      { src := Spec.origin s, ea := x, n := Spec.bytesOfCode wd,
        data := BitVec.ofNat 1024 ((gOf s r).toNat % 256 ^ Spec.bytesOfCode wd), ct := ct })) 12)) ∧
  (∀ p ct a r (imm : BitVec 36) s, Ready s p .any [.g a, .w r] [] → let x := Spec.ea s a imm
    Spec.GlobalAccess s x 128 →
    exec (.msg p ct a (.v r) imm) s = .next (retired s (Spec.sent s x false (.msgArrival
      { src := Spec.origin s, ea := x, n := 128, data := wOf s r, ct := ct })) 12)) ∧
  (∀ p ct a (imm : BitVec 36) s, Ready s p .any [.g a] [] → let x := Spec.ea s a imm
    Spec.GlobalAccess s x 1 →
    exec (.msgZ p ct a imm) s = .next (retired s (Spec.sent s x false (.msgArrival
      { src := Spec.origin s, ea := x, n := 0, data := 0, ct := ct })) 12))

/-- R106, R110, R85: `ldg` and the loading `lb` mark their destination empty and send a load, which reaches the target 8 +
hops cycles after issue, when the segment entry lets it pass; when it does not, the strand waits on the load until PROT
returns. -/
def Sys2Proof.Spec.RemoteLoads : Prop :=
  (∀ p wd d a (imm : BitVec 36) s, Ready s p .any [.g a] [.g d] → let x := Spec.ea s a imm
    let n := Spec.bytesOfCode wd
    let r : LoadReq := { src := Spec.origin s, ea := x, n := n, wd := wd, dst := if d = 0 then .none else .g d }
    x.toNat % n = 0 → x.toNat / 2 ^ 21 % 2 ^ 23 = 0 → segAway s (here s).ctx x = false →
    (segCheck s (here s).ctx x segLoad n ≠ none → ∃ s',
      exec (.ldg p (.g wd d) a imm) s = .next (retired s s' 12) ∧ s'.agenda = (Spec.sent s x true (.remoteLoadArrival r)).agenda ∧
      (self s').isEmpty (.g d) = decide (d ≠ 0) ∧ (∀ k, k ≠ d → (self s').isEmpty (.g k) = (self s).isEmpty (.g k)) ∧
      (self s').g = (self s).g ∧ (self s').ops = (self s).ops ++ [{ id := (here s).opNo, target := Spec.target s x, load := true }]) ∧
    (segCheck s (here s).ctx x segLoad n = none → ∃ s',
      exec (.ldg p (.g wd d) a imm) s = .next (blocked s s' 12 .rload) ∧
      s'.agenda = (s.send s.cur.1 (Spec.target s x) false s.cur.1 (19 + hopsOf s (Spec.target s x) s.cur.1)
        (.remoteLoadReturn r 0 .refused)).agenda ∧ (self s').g = (self s).g)) ∧
  (∀ p d a (imm : BitVec 36) s, Ready s p .any [.g a] [.w d] → let x := Spec.ea s a imm
    let r : LoadReq := { src := Spec.origin s, ea := x, n := 128, wd := 0, dst := .w d }
    x.toNat % 128 = 0 → x.toNat / 2 ^ 21 % 2 ^ 23 = 0 → segAway s (here s).ctx x = false →
    segCheck s (here s).ctx x segLoad 128 ≠ none → ∃ s',
      exec (.ldg p (.v d) a imm) s = .next (retired s s' 12) ∧ s'.agenda = (Spec.sent s x true (.remoteLoadArrival r)).agenda ∧
      (self s').isEmpty (.w d) = true ∧ (self s').w = (self s).w ∧ (self s').g = (self s).g) ∧
  (∀ p wd d a (imm : BitVec 26) s, Ready s p .any [.g a] [.g d] → let y := Spec.ea s a imm
    let n := Spec.bytesOfCode wd
    let x : Word := (here s).v.idx ++ BitVec.ofNat 44 (Spec.ofsOf y)
    let r : LoadReq := { src := Spec.origin s, ea := x, n := n, wd := wd, dst := if d = 0 then .none else .g d }
    y.toNat % n = 0 → Spec.namesOwn s y → s.cur.1 ≠ monitorTile → Spec.reachable (here s).v.partw (Spec.ofsOf y) n →
    segAway s (here s).ctx x = false → segCheck s (here s).ctx x segLoad n ≠ none → ∃ s',
      exec (.lbLoad p wd d a imm) s = .next (retired s s' 8) ∧ s'.agenda = (Spec.sent s x true (.remoteLoadArrival r)).agenda ∧
      (self s').g = (self s).g)

namespace Sys2Proof.Spec

open Sys2Proof Sys2Proof.Machine

/-- Is a precise trap handled (R347, R348)? -/
abbrev handled (T : Tile) (S : Strand) (c : Cause) : Prop :=
  S.inHandler = false ∧ (if c = .overlay then T.v.ovb.getLsbD 63 = true else T.v.tvec.toNat % 2 ^ 21 ≠ 0)

/-- Strand n of tile t has taken a precise trap with the return address `ret` (R347, R348, Table 5.1). -/
structure TrapEntered (s s' : State) (t : TileId) (n : StrandNo) (c : Cause) (info : BitVec 32) (ret : BitVec 21) :
    Prop where
  tcause : (s'.strand t n).tcause = BitVec.ofNat 64 (info.toNat * 256 + (Cause.code c).toNat)
  trappc : (s'.strand t n).trappc = ret.setWidth 64
  goes : handled (s.tile t) (s.strand t n) c → (s'.strand t n).st = .ready ∧ (s'.strand t n).inHandler = true ∧
    (s'.strand t n).notBefore = s.cycle + 1 ∧
    (s'.strand t n).pc = (if c = .overlay then (s.tile t).v.ovb.setWidth 21 else (s.tile t).v.tvec.setWidth 21)
  stops : ¬ handled (s.tile t) (s.strand t n) c → (s'.strand t n).st = .trapped ∧ (s'.strand t n).pc = (s.strand t n).pc ∧
    (s'.strand t n).inHandler = (s.strand t n).inHandler
  regs : (s'.strand t n).g = (s.strand t n).g ∧ (s'.strand t n).w = (s.strand t n).w ∧
    (s'.strand t n).p = (s.strand t n).p ∧ (s'.strand t n).q = (s.strand t n).q ∧
    (s'.strand t n).gE = (s.strand t n).gE ∧ (s'.strand t n).wE = (s.strand t n).wE
  strands : ∀ m, m ≠ n → s'.strand t m = s.strand t m
  counters : (s'.tile t).v.c = (s.tile t).v.c
  mem : (s'.tile t).mem = (s.tile t).mem ∧ (s'.tile t).galley = (s.tile t).galley
  others : ∀ u, u ≠ t → s'.tile u = s.tile u
  hbm : s'.hbm = s.hbm
  tier : s'.tier = s.tier
  clock : s'.cycle = s.cycle
  record : ¬ handled (s.tile t) (s.strand t n) c → ∃ r, r.code = Cause.code c ∧ r.strand.toNat = n.val ∧ r.pc = ret ∧
    r.info = info ∧ r.defer = false ∧ s'.agenda = (s.post 1 (.trapRecordArrival r)).agenda

end Sys2Proof.Spec

/-- R85, R106, R109, R196, R201, R204: what arrives. A load that passes the checks binds the bytes, extended by its width
code for a g register, and answers 11 cycles and its hops later, one that fails is refused; while the target's commit is
under way it waits. The answer fills the register; a refused one traps PROT at the load, once no sweep, abort or deferred
trap of the same cycle is still to come. A write that fails the checks is refused and changes nothing at the target; a
store that passes into the versioned store becomes a delta in a slot of the galley, memory staying as it was, and one
that passes into the foreshore outside DET mode is applied at once; both are acknowledged. A message writes its data and
raises its counter. An acknowledgement ends the access. Each of the six steps completes so. That the flight has no
contention is the model's choice (log entry 9); that the trap of a refused load is taken at the load, which waits for
it, is its reading (log entries 11 and 47). -/
def Obligations.RemoteArrivals : Prop :=
  (∀ (r : LoadReq) s, segCheck s r.src.ctx r.ea segLoad r.n = none →
    let s0 : State := { s with ev := some (.remoteLoadArrival r) }
    exec .remoteLoadArrival s0 = .next (s0.send (routeOf s r.src.ctx r.src.tile r.ea) r.src.tile false r.src.tile 11
      (.remoteLoadReturn r 0 .refused))) ∧
  (∀ (r : LoadReq) s u k, segCheck s r.src.ctx r.ea segLoad r.n = some (u, k) → s.cycle < (s.tile u).busyUntil →
    let s0 : State := { s with ev := some (.remoteLoadArrival r) }
    exec .remoteLoadArrival s0 = .next (s0.post ((s.tile u).busyUntil - s.cycle) (.remoteLoadArrival r))) ∧
  (∀ (r : LoadReq) s u k, segCheck s r.src.ctx r.ea segLoad r.n = some (u, k) → (s.tile u).busyUntil ≤ s.cycle →
    (s.tile u).errs = [] → (s.tile u).slot = k → r.n ≤ 128 →
    let s0 : State := { s with ev := some (.remoteLoadArrival r) }
    ∃ (x : Nat) (v : VWord),
      exec .remoteLoadArrival s0 = .next (s0.send u r.src.tile false r.src.tile 11 (.remoteLoadReturn r v .accept)) ∧
      x < 256 ^ r.n ∧
      (∀ i, i < r.n → x / 256 ^ i % 256 =
        (if foreAt (s.tile u).v.partw (eaOfs r.ea) then
          ((s.tile u).mem.read (poolAddr (s.tile u).v.partw k (eaOfs r.ea) + i)).toNat
         else (standingByte (s.tile u) (eaOfs r.ea + i)).toNat)) ∧
      (∀ d, r.dst = .g d → v = (Spec.extended r.wd x).setWidth 1024) ∧ (∀ d, r.dst = .w d → v = BitVec.ofNat 1024 x)) ∧
  (∀ (r : LoadReq) v s, opOut s r.src.tile r.src.strand r.src.op = true →
    let s0 : State := { s with ev := some (.remoteLoadReturn r v .accept) }
    exec .remoteLoadReturn s0 =
      .next ((opDone s0 r.src.tile r.src.strand r.src.op).fill r.src.tile r.src.strand r.dst v)) ∧
  (∀ (r : LoadReq) v s, opOut s r.src.tile r.src.strand r.src.op = true →
    let t := r.src.tile
    let n := r.src.strand
    let s0 : State := { s with ev := some (.remoteLoadReturn r v .refused) }
    let s1 := opDone s0 t n r.src.op
    (trapWaits s t n true = true → exec .remoteLoadReturn s0 = .next (s0.post 0 (.remoteLoadReturn r v .refused))) ∧
    (trapWaits s t n true = false → liveSt (s.strand t n).st = true → (s.strand t n).deferred = none →
      ∃ s', exec .remoteLoadReturn s0 = .next s' ∧ Spec.TrapEntered s1 s' t n .prot 0 r.src.pc) ∧
    (trapWaits s t n true = false → liveSt (s.strand t n).st = false → exec .remoteLoadReturn s0 = .next s1)) ∧
  (∀ (q : Packet) s, writeCheck s q = none →
    let refused (s0 : State) : State := s0.send (routeOf s q.src.ctx q.src.tile q.ea) q.src.tile false q.src.tile 8
      (.ackArrival q.src .refused 0)
    (let s0 : State := { s with ev := some (.deltaArrival q) }
     exec .deltaArrival s0 = .next (refused s0)) ∧
    (let s0 : State := { s with ev := some (.foreshoreWriteArrival q) }
     exec .foreshoreWriteArrival s0 = .next (refused s0))) ∧
  (∀ (q : Packet) s u k n d, q.body = .bytes n d → n ≤ 64 → writeCheck s q = some (u, k) →
    foreAt (slotRegs (s.tile u) k).partw (eaOfs q.ea) = false → (s.tile u).twin = none →
    q.src.ss = (slotRegs (s.tile u) k).ss → q.src.att = (slotRegs (s.tile u) k).att.toNat →
    0 < n → eaOfs q.ea % 64 + n ≤ 64 → (∀ g ∈ (s.tile u).galley, g.ofs / 64 ≠ eaOfs q.ea / 64) →
    (∀ x ∈ (s.tile u).slots, ∀ e ∈ x.prof, e.1 ≠ eaOfs q.ea / 64) →
    (s.tile u).galley.length < galleyCap (s.tile u).v.partw → ∃ s' g,
    exec .deltaArrival { s with ev := some (.deltaArrival q) } = .next s' ∧
    (s'.tile u).galley = (s.tile u).galley ++ [g] ∧ g.kind = .plain ∧ g.ofs = eaOfs q.ea ∧ g.sidx = q.src.vidx ∧
    g.ss = q.src.ss ∧ g.att = q.src.att ∧ (s'.tile u).mem = (s.tile u).mem ∧
    (∀ i, i < n → (g.data.toNat / 256 ^ (eaOfs q.ea % 64 + i) % 256 : Nat) = d.toNat / 256 ^ i % 256) ∧
    s'.agenda = (s.send u q.src.tile false q.src.tile 8 (.ackArrival q.src .accept 0)).agenda ∧
    (∀ t, t ≠ u → s'.tile t = s.tile t)) ∧
  (∀ (q : Packet) s u k, writeCheck s q = some (u, k) → foreAt (slotRegs (s.tile u) k).partw (eaOfs q.ea) = true →
    s.det u = false → (s.tile u).errs = [] → (s.tile u).twin = none → ∃ s',
    exec .foreshoreWriteArrival { s with ev := some (.foreshoreWriteArrival q) } = .next s' ∧
    (s'.tile u).mem = (s.tile u).mem.store (poolAddr (slotRegs (s.tile u) k).partw k (eaOfs q.ea))
      (mergeBytes q.body ((s.tile u).mem.bytes (poolAddr (slotRegs (s.tile u) k).partw k (eaOfs q.ea)) (Payload.len q.body))) ∧
    s'.agenda = (s.send u q.src.tile false q.src.tile 8 (.ackArrival q.src .accept 0)).agenda ∧
    (∀ t, t ≠ u → s'.tile t = s.tile t)) ∧
  (∀ (m : MsgReq) s u k, segCheck s m.src.ctx m.ea segMsg (max 1 m.n) = some (u, k) → (s.tile u).twin = none →
    (s.tile u).slot = k → (s.tile u).errs = [] → ∃ s',
    exec .msgArrival { s with ev := some (.msgArrival m) } = .next s' ∧
    (s'.tile u).v.c[m.ct.toNat] = (s.tile u).v.c[m.ct.toNat] + 1 ∧
    (s'.tile u).mem = (if m.n = 0 then (s.tile u).mem else
      (s.tile u).mem.store (poolAddr (s.tile u).v.partw k (eaOfs m.ea)) (bytesOf m.n m.data.toNat)) ∧
    s'.agenda = (s.send u m.src.tile false m.src.tile 8 (.ackArrival m.src .accept 0)).agenda ∧
    (∀ t, t ≠ u → s'.tile t = s.tile t)) ∧
  (∀ (m : MsgReq) s, segCheck s m.src.ctx m.ea segMsg (max 1 m.n) = none →
    let s0 : State := { s with ev := some (.msgArrival m) }
    exec .msgArrival s0 = .next (s0.send (routeOf s m.src.ctx m.src.tile m.ea) m.src.tile false m.src.tile 8
      (.ackArrival m.src .refused 0))) ∧
  (∀ (o : Origin) (i : BitVec 32) s, o.engine = false → opOut s o.tile o.strand o.op = true →
    let s0 : State := { s with ev := some (.ackArrival o .accept i) }
    exec .ackArrival s0 = .next (opDone s0 o.tile o.strand o.op) ∧
    opOut (opDone s0 o.tile o.strand o.op) o.tile o.strand o.op = false)

/-! ### Ordering, watchpoints, helpers, overlays -/

namespace Sys2Proof.Spec

open Sys2Proof Sys2Proof.Machine

/-- Does a target lie in the scope of a fence (R112)? -/
abbrev scope (s : State) (sc : BitVec 2) (u : TileId) : Prop :=
  match sc.toNat with
  | 0 => u = s.cur.1
  | 1 => clusterOf u = clusterOf s.cur.1
  | 2 => dieOf u = dieOf s.cur.1
  | _ => u < monitorTile ∧
      deviceOf (s.ctx (here s).ctx).mode (dieOf u) = deviceOf (s.ctx (here s).ctx).mode (dieOf s.cur.1)

/-- Is the strand's access an unperformed one in the scope? One to another chip is in none (R211). -/
abbrev fenced (s : State) (sc : BitVec 2) (o : OpRec) : Prop :=
  o ∈ (self s).ops ∧ o.away = false ∧ scope s sc o.target ∧ opWaits s s.cur.1 s.cur.2 o.id = true

end Sys2Proof.Spec

/-- R112: a `fence` goes on at once when no access of the strand into its scope, no adder command of the strand and no
drain delta of its into the scope is still to be performed; else the strand waits for all of them, and for no other. -/
def Sys2Proof.Spec.Fence : Prop :=
  ∀ p (sc : BitVec 2) s, Ready s p .any [] [] →
    let adds : List Nat := ((here s).addQ.filter (fun c => c.strand == s.cur.2)).map (fun c => c.seq)
    let drs (q : Nat) : Prop := ∃ d ∈ (here s).drains, d.strand = s.cur.2 ∧ segAway s (here s).ctx d.dst = false ∧
      Spec.scope s sc (routeOf s (here s).ctx s.cur.1 d.dst) ∧ d.seq = q
    (((∀ o, ¬ Spec.fenced s sc o) ∧ adds = [] ∧ (∀ q, ¬ drs q)) → exec (.fence p sc) s = .next (retired s s 8)) ∧
    (((∃ o, Spec.fenced s sc o) ∨ adds ≠ [] ∨ (∃ q, drs q)) → ∃ os qs,
      exec (.fence p sc) s = .next (blocked s s 8 (.fence os qs)) ∧
      (∀ i, i ∈ os ↔ ∃ o, Spec.fenced s sc o ∧ o.id = i) ∧ (∀ q, q ∈ qs ↔ q ∈ adds ∨ drs q))

/-- R113, Table 5.7: `wpt` sets a watchpoint with its record cleared, clears it, and reads its record; an empty range or
one beyond CAP traps PROT. A strand's own store that touches a watched byte with FL[0] = 1 traps WATCH. -/
def Sys2Proof.Spec.Watchpoints : Prop :=
  (∀ p n a b fl s, Ready s p .any [.g a, .g b] [] →
    exec (.wptSet p n a b fl) s =
      if (gOf s b).toNat = 0 ∨ capOf s.cur.1 < (gOf s a).toNat + (gOf s b).toNat then .next (trapTaken s 12 .prot 0)
      else .next (retired s (modHere s (fun v =>
        { v with wpt := v.wpt.set n.toNat { base := gOf s a, len := gOf s b, fl := fl, record := 0 } })) 12)) ∧
  (∀ p n s, Ready s p .any [] [] →
    exec (.wptClr p n) s =
      .next (retired s (modHere s (fun v =>
        { v with wpt := v.wpt.set n.toNat { base := 0, len := 0, fl := 0, record := 0 } })) 12)) ∧
  (∀ p n d s, Ready s p .any [] [.g d] →
    exec (.wptRd p n d) s = .next (retired s (putG s d ((here s).v.wpt[n.toNat]).record) 12)) ∧
  (∀ p wd a b (imm : BitVec 26) s, Ready s p .any [.g a, .g b] [] →
    let n := Spec.bytesOfCode wd
    let ofs := Spec.ofsOf (Spec.ea s a imm)
    Spec.OwnAccess s (Spec.ea s a imm) n → claimed (here s).v ofs n = false →
    ((here s).v.bstate ≠ 2 ∨ Spec.liesIn (here s).v.partw 5 ofs n) → s.det s.cur.1 = false → (self s).suppress = false →
    (∃ w ∈ (here s).v.wpt.toList, w.fl.getLsbD 0 = true ∧ ofs < w.base.toNat + w.len.toNat ∧ w.base.toNat < ofs + n) →
    exec (.st p wd a b imm) s = .next (trapTaken s 8 .watch 0))

/-- A strand's prefetches that wait for a page are forgotten (R177). -/
def Sys2Proof.Spec.fetchesDropped (s : State) (t : TileId) (n : StrandNo) : State :=
  (List.finRange 8).foldl (fun s j => dropFetch s t (.q n j)) s

/-- R114, R115, R82, Table 5.1: `start` leaves a helper STARTED at its target with its argument in g1, every other register
zero and full, two cycles before it may issue; a number that is no helper's traps ILLEGAL, a helper that does not exist or
still runs PROT. `hstop` halts a live or trapped helper, drops its waits and its loads; a FREE or HALTED one stays. -/
def Sys2Proof.Spec.Helpers : Prop :=
  (∀ p (h : BitVec 6) a (imm : BitVec 26) s, Ready s p .control [.g a] [] →
    ((h.toNat = 0 ∨ 10 < h.toNat) → exec (.start p h a imm) s = .next (trapTaken s 8 .illegal 0)) ∧
    (∀ k : StrandNo, k.val = h.toNat → k.val ≠ 0 →
      (granOf (here s).v.partw 1 * 16384 < 4096 * (k.val + 1) ∨
        ((s.strand s.cur.1 k).st ≠ .free ∧ (s.strand s.cur.1 k).st ≠ .halted) →
        exec (.start p h a imm) s = .next (trapTaken s 8 .prot 0)) ∧
      (4096 * (k.val + 1) ≤ granOf (here s).v.partw 1 * 16384 →
        ((s.strand s.cur.1 k).st = .free ∨ (s.strand s.cur.1 k).st = .halted) → ∃ S : Strand,
        exec (.start p h a imm) s =
          .next (retired s ((Spec.fetchesDropped s s.cur.1 k).modStrand s.cur.1 k (fun _ => S)) 8) ∧ S.st = .started ∧
        S.pc = BitVec.ofInt 21 ((self s).pc.toNat + 4 * imm.toInt) ∧ S.notBefore = s.cycle + 2 ∧
        (∀ r, S.rg r = if r = 1 then gOf s a else 0) ∧ (∀ r, S.rw r = 0) ∧ (∀ r, r ≠ 0 → S.rp r = false) ∧
        (∀ d, S.isEmpty d = false) ∧ (∀ i : Fin 8, S.q[i].valid = false) ∧ S.inHandler = false))) ∧
  (∀ p (h : BitVec 6) s, Ready s p .control [] [] → ∀ k : StrandNo, k.val = h.toNat → k.val ≠ 0 →
    ((s.strand s.cur.1 k).st = .free ∨ (s.strand s.cur.1 k).st = .halted →
      exec (.hstop p h) s = .next (retired s s 8)) ∧
    ((s.strand s.cur.1 k).st ≠ .free → (s.strand s.cur.1 k).st ≠ .halted →
      exec (.hstop p h) s = .next (retired s (dropLocks (forgetOwed (s.modStrand s.cur.1 k (fun S =>
        { S with st := .halted, wait := .idle, gE := 0, wE := 0, gen := S.gen + 1, passed := false,
                 ops := S.ops.filter (fun o => !o.load) })) s.cur.1 k) s.cur.1 k) 8))) ∧
  (∀ p s, Ready s p .control [] [] → ∃ s', exec (.hstopAll p) s = .next (retired s s' 8) ∧
    (∀ k : StrandNo, k.val ≠ 0 → (s'.strand s.cur.1 k).st = .halted ∨
      (s'.strand s.cur.1 k = s.strand s.cur.1 k ∧ (s.strand s.cur.1 k).st = .free)) ∧
    s'.strand s.cur.1 0 = s.strand s.cur.1 0)

/-- R89: `ovl` takes a legal range of the code partition that no other load meets, with fewer than two outstanding, and
the strand goes on; the step OVL_DONE of a load from the own store writes the bytes of the working copy into the code partition and raises the
counter, and the range is free. A base that is not a multiple of 32 traps ILLEGAL, a range beyond XB or a length that is
not a multiple of 32 traps PROT. -/
def Sys2Proof.Spec.Overlays : Prop :=
  (∀ p a b ct (base : BitVec 36) s, Ready s p .any [.g a, .g b] [] →
    let l := (gOf s b).toNat
    let free := (∀ o ∈ (here s).ovls, o.base + o.len ≤ base.toNat ∨ base.toNat + l ≤ o.base) ∧ (here s).ovls.length < 2
    let load (hbm : Bool) : Ovl :=
      { id := (here s).ovlNo, base := base.toNat, len := l, src := gOf s a, hbm := hbm, ct := ct, strand := s.cur.2,
        pc := (self s).pc, slot := (here s).slot }
    let taken (hbm : Bool) : State :=
      (s.modTile s.cur.1 (fun T => { T with ovls := T.ovls ++ [load hbm], ovlNo := T.ovlNo + 1 })).post
        ((l + 255) / 256) (.ovlDone s.cur.1 (here s).ovlNo)
    ((base.toNat % 32 ≠ 0 ∨ 2 ^ 21 ≤ base.toNat) →
      exec (.ovlLoc p a b ct base) s = .next (trapTaken s 12 .illegal 0) ∧
      exec (.ovlHbm p a b ct base) s = .next (trapTaken s 12 .illegal 0)) ∧
    (base.toNat % 32 = 0 → base.toNat < 2 ^ 21 →
      (l = 0 ∨ l % 32 ≠ 0 ∨ xbOf s s.cur.1 < base.toNat + l →
        exec (.ovlLoc p a b ct base) s = .next (trapTaken s 12 .prot 0) ∧
        exec (.ovlHbm p a b ct base) s = .next (trapTaken s 12 .prot 0)) ∧
      (0 < l → l % 32 = 0 → base.toNat + l ≤ xbOf s s.cur.1 → free →
        (s.cur.1 ≠ monitorTile → (gOf s a).toNat < 2 ^ 21 → Spec.reachable (here s).v.partw (gOf s a).toNat l →
          exec (.ovlLoc p a b ct base) s = .next (retired s (taken false) 12)) ∧
        ((gOf s a).toNat < 2 ^ 51 → exec (.ovlHbm p a b ct base) s = .next (retired s (taken true) 12))))) ∧
  (∀ (o : Ovl) t (s : State), (s.tile t).ovls.find? (fun x => x.id == o.id) = some o → o.hbm = false → (s.tile t).errs = [] →
    o.slot = (s.tile t).slot → ∃ s',
    exec .ovlDone { s with ev := some (.ovlDone t o.id) } = .next s' ∧
    (s'.tile t).mem = (s.tile t).mem.store o.base
      ((s.tile t).mem.bytes (poolAddr (s.tile t).v.partw o.slot o.src.toNat) o.len) ∧ (s'.tile t).v.c[o.ct.toNat] = (s.tile t).v.c[o.ct.toNat] + 1 ∧
    (s'.tile t).ovls = (s.tile t).ovls.filter (fun x => x.id != o.id))

/-! ### Steps of a tile -/

/-- R95, R104, R323, R111, R349, R354: results are delivered to the strand of their generation, which may issue in that
cycle when it waits for registers that are all full now, timeouts end their waits with
the predicate 1, a free lock bit goes to its next waiter, a refusal that has returned leaves the strand TRAPPED with DEFER
set and TRAPPC the refused instruction's address, after a sweep or an abort of the tile that is due in the same cycle,
a soft error comes to stand in its word. -/
def Obligations.TileSteps : Prop :=
  (∀ t n d v (s : State), let s0 : State := { s with ev := some (.resultDelivery t n (s.strand t n).gen d v) }
    exec .resultDelivery s0 = .next (s0.fill t n d v)) ∧
  (∀ t n d v (s : State), let S := (s.strand t n).deliver d v
    (∀ rs, S.st = .waiting → S.wait = .regs rs → (∀ r ∈ rs, S.isEmpty r = false) →
      s.fill t n d v = s.modStrand t n (fun _ => { S with st := .ready, wait := .idle, notBefore := s.cycle })) ∧
    ((∀ rs, S.st = .waiting → S.wait = .regs rs → ∃ r ∈ rs, S.isEmpty r = true) →
      s.fill t n d v = s.modStrand t n (fun _ => S))) ∧
  (∀ t n gen d v (s : State), gen ≠ (s.strand t n).gen →
    (∀ x ∈ (s.tile t).slots, ∀ o ∈ x.asked, ¬ (o.strand = n ∧ o.gen = gen ∧ d = .g o.d)) → let s0 : State := { s with ev := some (.resultDelivery t n gen d v) }
    exec .resultDelivery s0 = .next s0) ∧
  (∀ t n thr ct sub pf start tmo (s : State), (s.strand t n).st = .waiting → (s.strand t n).wait = .counter thr ct sub pf start tmo →
    tmo ≠ 0 → start + tmo < s.cycle → ∃ s', exec .waitcTimeout { s with ev := some (.waitcTimeout t n) } = .next s' ∧
    (s'.strand t n).st = .ready ∧ (s'.strand t n).pc = successor (s.strand t n).pc (s.strand t n).wlen ∧
    (pf ≠ 0 → (s'.strand t n).rp pf = true) ∧ (s'.strand t n).g = (s.strand t n).g ∧ (s'.tile t).v = (s.tile t).v) ∧
  (∀ t n x k pf start tmo (s : State), (s.strand t n).st = .waiting → (s.strand t n).wait = .precision x k pf start tmo →
    tmo ≠ 0 → start + tmo < s.cycle → ∃ s', exec .waitpTimeout { s with ev := some (.waitpTimeout t n) } = .next s' ∧
    (s'.strand t n).st = .ready ∧ (s'.strand t n).pc = successor (s.strand t n).pc (s.strand t n).wlen ∧
    (pf ≠ 0 → (s'.strand t n).rp pf = true) ∧ (s'.strand t n).g = (s.strand t n).g ∧ (s'.tile t).v = (s.tile t).v) ∧
  (∀ u h pos n ofs wd d (s : State), lockHolder s u h = none → nextHolder s u h = some (pos, n) →
    let t := tileAt (clusterOf u) pos
    (s.strand t n).wait = .lock u h ofs wd d → (s.tile u).errs = [] → s.det u = false → ∃ s',
    exec .lockGrant { s with ev := some (.lockGrant u h) } = .next s' ∧
    (s'.tile u).locks = (s.tile u).locks ++ [{ h := h, pos := pos, strand := n.val }] ∧
    (s'.strand t n).st = .ready ∧ (s'.strand t n).isEmpty (.g d) = decide (d ≠ 0)) ∧
  (∀ t n d (s : State), (s.strand t n).deferred = some d → trapWaits s t n false = true →
    let s0 : State := { s with ev := some (.deferredTrap t n) }
    exec .deferredTrap s0 = .next (s0.post 0 (.deferredTrap t n))) ∧
  (∀ t n d (s : State), (s.strand t n).deferred = some d → trapWaits s t n false = false → (s.tile t).running = true →
    liveSt (s.strand t n).st = true → ∃ s',
    exec .deferredTrap { s with ev := some (.deferredTrap t n) } = .next s' ∧ (s'.strand t n).st = .trapped ∧
    (s'.strand t n).tcause.getLsbD 63 = true ∧ (s'.strand t n).tcause.extractLsb' 0 8 = Cause.code d.code ∧
    (s'.strand t n).tcause.extractLsb' 8 32 = d.info ∧ (s'.strand t n).trappc = d.pc.setWidth 64 ∧
    (s'.strand t n).g = (s.strand t n).g ∧ (s'.strand t n).pc = (s.strand t n).pc) ∧
  (∀ t q due (s : State), (∀ c, q ≠ .hbm c) → let s0 : State := { s with ev := some (.softError t q due) }
    exec .softError s0 = .next (s0.modTile t (fun T => { T with errs := T.errs ++ [{ place := q, due := due }] })))

/-! ### The machine -/

namespace Sys2Proof.Spec

open Sys2Proof Sys2Proof.Machine

/-- No step of the hardware is due. -/
abbrev quiet (s : State) : Prop := ∀ e ∈ s.agenda, s.cycle < e.1

/-- The forms that only the root monitor executes (R224, R243, R343, R363), with their lengths. -/
def privileged (i : Instr) : Option (Pred × Nat) :=
  match i with
  | .ctxsNew p _ _ _ => some (p, 12)
  | .ctxsSeg p _ _ => some (p, 12)
  | .ctxsGo p _ _ => some (p, 12)
  | .ctxsSave p _ _ => some (p, 12)
  | .ctxsRest p _ _ => some (p, 12)
  | .ctxsRd p _ _ a => if a.r = 0 then none else some (p, 12)
  | .killCtx p _ _ => some (p, 8)
  | .idleSet p _ => some (p, 8)
  | .tstReq p _ _ => some (p, 12)
  | .ecntSet p _ _ _ => some (p, 8)
  | .lnkset p _ _ _ => some (p, 12)
  | .lnksetUp p _ _ => some (p, 12)
  | .lnksetDown p _ _ => some (p, 12)
  | .lnkret p _ _ _ => some (p, 8)
  | _ => none

/-- The forms that only strand 0 of a tile executes (R114, R115, R187, R263, R283, R286), with their lengths. -/
def controlOnly (i : Instr) : Option (Pred × Nat) :=
  match i with
  | .start p _ _ _ => some (p, 8)
  | .hstop p _ => some (p, 8)
  | .hstopAll p => some (p, 8)
  | .sxwSet p _ _ => some (p, 12)
  | .sxwClr p _ => some (p, 12)
  | .offer p _ => some (p, 8)
  | .bar p _ => some (p, 8)
  | .barv p _ _ _ => some (p, 8)
  | .bara p _ _ => some (p, 8)
  | .baraN p _ => some (p, 8)
  | .bcfg p _ _ _ => some (p, 12)
  | _ => none

/-- Every memory of the package is in its canonical form: addresses strictly rising, no byte listed that an unlisted
address reads as. -/
abbrev Canonical (s : State) : Prop := (∀ t, (s.tile t).mem.wf = true) ∧ s.hbm.wf = true ∧ s.tier.wf = true

end Sys2Proof.Spec

/-- R1, R16, R78, R216, Tables 4.5, 11.4, 12.4, 18.3, 18.6, 20.1: what the spec gives the machine after cold reset. CYC is 0;
at least 960 positions of a die are enabled; no tile runs, every register of every tile that it gives a reset value has it; all memory of the tiles reads zero; every
context is FREE; the queues and the pool are empty; every link is DOWN; the boot ROM waits for a monitor image. Every memory
has its canonical form, which is the model's own (log entry 33). -/
def Obligations.ResetState : Prop :=
  State.reset.cycle = 0 ∧ State.reset.mon.boot = .waiting ∧ State.reset.groups = [] ∧ State.reset.disp.pool = [] ∧
  (∀ t, (State.reset.tile t).running = false ∧ (∀ a, (State.reset.tile t).mem.read a = 0) ∧
    (State.reset.tile t).v.ss = 0 ∧ (State.reset.tile t).v.att = 0 ∧ (State.reset.tile t).v.ovb = 0 ∧
    (State.reset.tile t).v.tvec = 0 ∧ (State.reset.tile t).v.idlw = 20 ∧ (State.reset.tile t).v.partw = 0 ∧
    (State.reset.tile t).ecnt = 0 ∧ (∀ k : Fin 16, (State.reset.tile t).v.c[k] = 0) ∧
    (∀ n, (State.reset.strand t n).st = .free ∧ (State.reset.strand t n).tcause = 0 ∧
      (State.reset.strand t n).trappc = 0)) ∧
  (∀ c, (State.reset.ctx c).st = .free ∧ (State.reset.ctx c).sab = 0 ∧ (State.reset.ctx c).meas = 0) ∧
  (∀ l : Fin 64, State.reset.links[l].st = .down ∧ State.reset.links[l].target = 2 ∧ State.reset.links[l].rmax = 16 ∧
    State.reset.links[l].gcap = 6 ∧ State.reset.links[l].auto_ = true) ∧
  State.reset.disp.gatd = 1000 ∧ State.reset.disp.retd = 50 ∧
  (∀ d : Fin 4, State.reset.dies[d].plim = 700 ∧ State.reset.dies[d].eres = 7000000000 ∧ State.reset.dies[d].tlim = 9500 ∧
    State.reset.dies[d].enabled = fusedBitmap d.val ∧
    960 ≤ (List.range 1024).countP (fun i => State.reset.dies[d].enabled.getLsbD i)) ∧
  Spec.Canonical State.reset

/-- When no step of the hardware is due and the bytes at the PC of the strand that issues decode to an instruction, a step
is that instruction's effect at the state in which the tile has had its issue of the cycle; afterwards a suppression
of watchpoints ends with the instruction (R54, R86, R113). The order of a cycle is the model's (log entry 1). -/
def Obligations.StepRunsDecoded : Prop :=
  ∀ s t n i len, Spec.quiet s → nextIssue s = some (t, n) →
    let pc := (s.strand t n).pc.toNat
    pc < xbOf s t → pc % 4 = 0 → pc % 32 ≠ 28 → (∀ o ∈ (s.tile t).ovls, pc < o.base ∨ o.base + o.len ≤ pc) →
    (s.tile t).errs = [] →
    decode ((s.tile t).mem.bytes pc (if 32 - pc % 32 < 16 then 32 - pc % 32 else 16)) = .ok (i, len) →
    step s = onNext (afterIssue (s.strand t n).suppress t n) (exec i { s with cur := (t, n), issued := t + 1 })

/-- R55 checks 1 to 6, R88: a fetch at or above XB takes the OVERLAY trap when OVB.EN is set, else PROT; below XB, an
address that is not a multiple of 4 or lies in a block's tail takes FETCHALIGN; LEN = 0b00 takes ILLEGAL; an
instruction that would pass its block's end takes FETCHALIGN, and one that does not decode ILLEGAL. TRAPPC is the
fetch address. That this holds in the register-file partition too is the model's reading (log entry 83). -/
def Obligations.FetchFaults : Prop :=
  ∀ s t n, Spec.quiet s → s.ev = none → nextIssue s = some (t, n) →
    let pc := (s.strand t n).pc
    let room := if 32 - pc.toNat % 32 < 16 then 32 - pc.toNat % 32 else 16
    let len := (((s.tile t).mem.read pc.toNat).toNat % 4 + 1) * 4
    let takes (c : Cause) : Prop := ∃ s', step s = .next s' ∧ Spec.TrapEntered s s' t n c 0 pc
    let below : Prop := pc.toNat < xbOf s t ∧ pc.toNat % 4 = 0 ∧ pc.toNat % 32 ≠ 28 ∧
      (∀ o ∈ (s.tile t).ovls, pc.toNat < o.base ∨ o.base + o.len ≤ pc.toNat)
    (xbOf s t ≤ pc.toNat → (s.tile t).v.ovb.getLsbD 63 = true → takes .overlay) ∧
    (xbOf s t ≤ pc.toNat → (s.tile t).v.ovb.getLsbD 63 = false → takes .prot) ∧
    (pc.toNat < xbOf s t → (pc.toNat % 4 ≠ 0 ∨ pc.toNat % 32 = 28) → takes .fetchalign) ∧
    (below → ((s.tile t).mem.read pc.toNat).toNat % 4 = 0 → takes .illegal) ∧
    (below → ((s.tile t).mem.read pc.toNat).toNat % 4 ≠ 0 → 32 < pc.toNat % 32 + len → takes .fetchalign) ∧
    (below → ((s.tile t).mem.read pc.toNat).toNat % 4 ≠ 0 → pc.toNat % 32 + len ≤ 32 →
      (∀ r, decode ((s.tile t).mem.bytes pc.toNat room) ≠ .ok r) → takes .illegal)

/-- R63, R54: an instruction of any form whose predicate is false only takes the issue slot and goes on to the successor at
its length; no register, counter, engine, barrier or memory changes, and no trap but those of the fetch is raised. The
predicate is p[PR], p0 reading true, inverted by PN. -/
def Obligations.PredicatedOff : Prop :=
  (∀ (i : Instr) (f : Fields) (s : State), toFields i = some f → predTrue (self s) ⟨f.pr, f.pn⟩ = false →
    ∃ l, layoutOf f.op = some l ∧ exec i s = .next (retired s s l.bytes)) ∧
  (∀ (S : Strand) (pr : BitVec 3) (pn : Bool),
    predTrue S ⟨pr, pn⟩ = (if pn then !(pr == 0 || S.p.getLsbD pr.toNat) else (pr == 0 || S.p.getLsbD pr.toNat)))

/-- What the operand fields of a form are: its predicate, its length, who may execute it, its register sources in the order A,
B, C, and its register destinations (R56 to R61, R64, R65, and the chapters' tables of forms). A step of the hardware has none. -/
def Sys2Proof.Spec.operands (i : Instr) : Option (Pred × Nat × Who × List Src × List Dst) :=
  match i with
  | .nop p => some (p, 8, .any, [], [])
  | .add p o => some (p, 8, .any, aluSrcs o, [.g o.d])
  | .sub p o => some (p, 8, .any, aluSrcs o, [.g o.d])
  | .mul p o => some (p, 8, .any, aluSrcs o, [.g o.d])
  | .mulh p o => some (p, 8, .any, aluSrcs o, [.g o.d])
  | .div p o => some (p, 8, .any, aluSrcs o, [.g o.d])
  | .rem p o => some (p, 8, .any, aluSrcs o, [.g o.d])
  | .and p o => some (p, 8, .any, aluSrcs o, [.g o.d])
  | .or p o => some (p, 8, .any, aluSrcs o, [.g o.d])
  | .xor p o => some (p, 8, .any, aluSrcs o, [.g o.d])
  | .andn p o => some (p, 8, .any, aluSrcs o, [.g o.d])
  | .shl p o => some (p, 8, .any, aluSrcs o, [.g o.d])
  | .shr p o => some (p, 8, .any, aluSrcs o, [.g o.d])
  | .sra p o => some (p, 8, .any, aluSrcs o, [.g o.d])
  | .rot p o => some (p, 8, .any, aluSrcs o, [.g o.d])
  | .cmp p _ _ a b _ => some (p, 8, .any, [.g a, .g b], [])
  | .sel p d a b _ _ => some (p, 8, .any, [.g a, .g b], [.g d])
  | .min p o => some (p, 8, .any, aluSrcs o, [.g o.d])
  | .max p o => some (p, 8, .any, aluSrcs o, [.g o.d])
  | .bitcClz p d a => some (p, 8, .any, [.g a], [.g d])
  | .bitcCtz p d a => some (p, 8, .any, [.g a], [.g d])
  | .bitcPopc p d a => some (p, 8, .any, [.g a], [.g d])
  | .ext p _ d a _ _ => some (p, 8, .any, [.g a], [.g d])
  | .ins p d a _ _ => some (p, 8, .any, [.g a], [.g d])
  | .li p d _ => some (p, 16, .any, [], [.g d])
  | .lea p _ d a b _ => some (p, 8, .any, [.g a, .g b], [.g d])
  | .gtaIdx p d a b => some (p, 12, .any, [.g a, .g b], [.g d])
  | .gtaRel p d b _ _ => some (p, 12, .any, [.g b], [.g d])
  | .plog p _ _ _ _ => some (p, 8, .any, [], [])
  | .mfs p d _ => some (p, 8, .any, [], [.g d])
  | .mts p a r => some (p, 8, mtsWho r.toNat, [.g a], [])
  | .addc p _ d a b _ => some (p, 8, .any, [.g a, .g b], [.g d])
  | .br p _ => some (p, 8, .any, [], [])
  | .jmp p a _ => some (p, 8, .any, [.g a], [])
  | .call p d _ => some (p, 8, .any, [], [.g d])
  | .callR p d a => some (p, 8, .any, [.g a], [.g d])
  | .ret p a => some (p, 8, .any, [.g a], [])
  | .loop p d _ => some (p, 8, .any, [], [.g d])
  | .halt p => some (p, 8, .any, [], [])
  | .yield p => some (p, 8, .any, [], [])
  | .waitc p _ a b _ _ _ => some (p, 12, .any, [.g a, .g b], [])
  | .ovlLoc p a b _ _ => some (p, 12, .any, [.g a, .g b], [])
  | .ovlHbm p a b _ _ => some (p, 12, .any, [.g a, .g b], [])
  | .ld p _ d a _ => some (p, 8, .any, [.g a], [.g d])
  | .st p _ a b _ => some (p, 8, .any, [.g a, .g b], [])
  | .ldg p (.g _ r) a _ => some (p, 12, .any, [.g a], [.g r])
  | .ldg p (.v r) a _ => some (p, 12, .any, [.g a], [.w r])
  | .stg p a b _ => some (p, 12, .any, .g a :: memSrcs b, [])
  | .st4 p a b _ => some (p, 8, .any, [.g a, .g b], [])
  | .st4G p a b _ => some (p, 8, .any, [.g a, .g b], [])
  | .ldl p _ d a _ => some (p, 8, .any, [.g a], [.g d])
  | .stu p _ a b _ => some (p, 8, .any, [.g a, .g b], [])
  | .addd p a (.g _ r) _ => some (p, 12, .any, [.g a, .g r], [])
  | .addd p a (.la r) _ => some (p, 12, .any, [.g a, .w r], [])
  | .ldw p d a _ => some (p, 8, .any, [.g a], [.w d])
  | .stw p a b _ => some (p, 8, .any, [.g a, .w b], [])
  | .fence p _ => some (p, 8, .any, [], [])
  | .lbLoad p _ d a _ => some (p, 8, .any, [.g a], [.g d])
  | .lbStore p _ a b _ => some (p, 8, .any, [.g a, .g b], [])
  | .msg p _ a b _ => some (p, 12, .any, .g a :: memSrcs b, [])
  | .msgZ p _ a _ => some (p, 12, .any, [.g a], [])
  | .wptSet p _ a b _ => some (p, 12, .any, [.g a, .g b], [])
  | .wptClr p _ => some (p, 12, .any, [], [])
  | .wptRd p _ d => some (p, 12, .any, [], [.g d])
  | .vadd p _ o _ c => some (p, 8, .tile, [.v o.a, .v o.b] ++ optW c, [vdst o.d])
  | .vsub p _ o _ c => some (p, 8, .tile, [.v o.a, .v o.b] ++ optW c, [vdst o.d])
  | .vmul p _ o _ c => some (p, 8, .tile, [.v o.a, .v o.b] ++ optW c, [vdst o.d])
  | .vfma p _ _ o c => some (p, 8, .tile, [.v o.a, .v o.b, .v c], [vdst o.d])
  | .vmin p o => some (p, 8, .tile, [.v o.a, .v o.b], [vdst o.d])
  | .vmax p o => some (p, 8, .tile, [.v o.a, .v o.b], [vdst o.d])
  | .vdiv p _ o => some (p, 8, .tile, [.v o.a, .v o.b], [vdst o.d])
  | .vsqrt p _ d a => some (p, 8, .tile, [.v a], [vdst d])
  | .vrsq p _ d a => some (p, 8, .tile, [.v a], [vdst d])
  | .vexp2 p _ d a => some (p, 8, .tile, [.v a], [vdst d])
  | .vlog2 p _ d a => some (p, 8, .tile, [.v a], [vdst d])
  | .vcmp p _ o => some (p, 8, .tile, [.v o.a, .v o.b], [vdst o.d])
  | .vsel p o c => some (p, 8, .tile, [.v o.a, .v o.b, .v c], [vdst o.d])
  | .vcvt p _ _ _ _ d a b c => some (p, 8, .tile, [.v a] ++ optV b ++ optW c, [vdst d])
  | .vcvtXs p _ _ _ _ d a c => some (p, 8, .tile, [.v a] ++ optW c, [vdst d])
  | .vqnt p d a => some (p, 8, .tile, qntSrcs a, [vdst d])
  | .vqntS p d a => some (p, 8, .tile, qntSrcs a, [.g d])
  | .vdq p d a b _ => some (p, 8, .tile, [.v a, .g b], [vdst d])
  | .vredSum p _ _ d a => some (p, 8, .tile, [.v a], [.g d])
  | .vredMin p _ d a => some (p, 8, .tile, [.v a], [.g d])
  | .vredMax p _ d a => some (p, 8, .tile, [.v a], [.g d])
  | .vredAmax p _ d a => some (p, 8, .tile, [.v a], [.g d])
  | .vperm p o => some (p, 8, .tile, [.v o.a, .v o.b], [vdst o.d])
  | .vshuf p _ _ d a b _ => some (p, 8, .tile, [.v a] ++ optV b, [vdst d])
  | .vbcast p _ d a => some (p, 8, .tile, [.g a], [vdst d])
  | .vbcastLane p _ d a _ => some (p, 8, .tile, [.v a], [vdst d])
  | .vlogic p _ d a b => some (p, 8, .tile, [.v a, .v b], [vdst d])
  | .vshift p _ _ d a (.reg b) => some (p, 8, .tile, [.v a, .v b], [vdst d])
  | .vshift p _ _ d a (.imm _) => some (p, 8, .tile, [.v a], [vdst d])
  | .vmovgGet p _ d a _ => some (p, 8, .tile, [.v a], [.g d])
  | .vmovgPut p _ d a _ => some (p, 8, .tile, [.g a], [.w d])
  | .vrng p _ d a b => some (p, 8, .tile, [.g a] ++ pairSrcs b, [vdst d])
  | .vla p a c _ => some (p, 8, .tile, [.v a, .g c], [])
  | .vlaP p a b c _ => some (p, 8, .tile, [.v a, .v b, .g c], [])
  | .vlard p _ d a c _ => some (p, 8, .tile, [.g a, .g c], [vdst d])
  | .mma p _ _ _ => some (p, 8, .tile, [], [])
  | .mmam p _ _ _ (.imm _) => some (p, 16, .tile, [], [])
  | .mmam p _ _ _ (.reg c) => some (p, 16, .tile, [.g c], [])
  | .saa p _ _ _ a b c => some (p, 8, .tile, scaleSrcs a ++ [.g b, .g c], [])
  | .acc p _ _ _ b c => some (p, 8, .tile, [.g b, .g c], [])
  | .lard p _ _ _ a b c => some (p, 8, .tile, [.g a, .g b, .g c], [])
  | .lazero p _ c => some (p, 8, .tile, [.g c], [])
  | .drain p _ _ a b _ => some (p, 12, .tile, [.g a, .g b], [])
  | .ptmovSt p _ _ c => some (p, 8, .tile, [.g c], [])
  | .ptmovLd p _ _ c => some (p, 8, .tile, [.g c], [])
  | .ptmovGet p _ _ _ d => some (p, 8, .tile, [], [.w d])
  | .mrepA p _ _ => some (p, 8, .tile, [], [])
  | .mrepB p _ _ => some (p, 8, .tile, [], [])
  | .rchkRd p d => some (p, 8, .tile, [], [.g d])
  | .rchkClr p d => some (p, 8, .tile, [], [.g d])
  | .rchkInj p _ => some (p, 8, .tile, [], [])
  | .mwaitArr p => some (p, 8, .tile, [], [])
  | .mwaitAdd p => some (p, 8, .tile, [], [])
  | .mwaitAll p => some (p, 8, .tile, [], [])
  | .nrmCur p a b => some (p, 8, .tile, [.g a, .g b], [])
  | .nrmSt p a b c => some (p, 8, .tile, [.g a, .g b, .g c], [])
  | .nrmLd p a b c => some (p, 8, .tile, [.g a, .g b, .g c], [])
  | .atb p _ a b c => some (p, 12, .tile, [.g a, .g b, .g c], [])
  | .smp p _ _ _ a b c => some (p, 8, .tile, [.g a] ++ pairSrcs ⟨b, false⟩ ++ [.g c], [])
  | .smpl p _ _ _ _ a b c => some (p, 12, .tile, [.g a] ++ pairSrcs ⟨b, false⟩ ++ [.g c], [])
  | .svarUp p _ _ => some (p, 8, .tile, [], [])
  | .svarRd p d => some (p, 8, .tile, [], [.g d])
  | .svarInv p d => some (p, 8, .tile, [], [.g d])
  | .svarSt p c => some (p, 8, .tile, [.g c], [])
  | .svarLd p c => some (p, 8, .tile, [.g c], [])
  | .sclrVar p => some (p, 8, .tile, [], [])
  | .sclrErr p => some (p, 8, .tile, [], [])
  | .sclrAll p => some (p, 8, .tile, [], [])
  | .sdraw p _ d a b c => some (p, 8, .tile, [.g a] ++ pairSrcs ⟨b, false⟩ ++ [.g c], [.w d])
  | .sbindIn p _ _ _ a b c _ => some (p, 16, .tile, [.g a, .g b, .g c], [])
  | .sbindOut p _ _ _ a b c _ => some (p, 16, .tile, [.g a, .g b, .g c], [])
  | .sbindFa p _ _ _ a b c _ => some (p, 16, .tile, [.g a, .g b, .g c], [])
  | .sbindFb p _ _ _ a b c _ => some (p, 16, .tile, [.g a, .g b, .g c], [])
  | .sunbind p _ => some (p, 8, .tile, [], [])
  | .sunbindFa p => some (p, 8, .tile, [], [])
  | .sunbindFb p => some (p, 8, .tile, [], [])
  | .sunbindPos p d _ => some (p, 8, .tile, [], [.g d])
  | .sunbindPosa p d => some (p, 8, .tile, [], [.g d])
  | .sunbindPosb p d => some (p, 8, .tile, [], [.g d])
  | .cpy p _ _ _ a b c _ _ => some (p, 12, .tile, [.g a, .g b, .g c], [])
  | .cpym p _ _ _ a b c _ _ _ _ => some (p, 12, .tile, [.g a, .g b, .g c], [])
  | .sxwSet p _ a => some (p, 12, .control, [.g a], [])
  | .sxwClr p _ => some (p, 12, .control, [], [])
  | .sxwRd p _ d => some (p, 12, .tile, [], [.g d])
  | .cntSet p _ _ a => some (p, 8, .any, [.g a], [])
  | .cntAdd p _ _ a => some (p, 8, .any, [.g a], [])
  | .cntRd p _ d => some (p, 8, .any, [], [.g d])
  | .sgtSet p _ _ => some (p, 16, .tile, [], [])
  | .sgtGo p _ _ _ a b c => some (p, 16, .tile, [.g a, .g b, .g c], [])
  | .sgtRd p _ d => some (p, 16, .tile, [], [.g d])
  | .sgtFlt p _ d => some (p, 16, .tile, [], [.g d])
  | .engSt p d => some (p, 12, .tile, [], [.g d])
  | .engFlt p d => some (p, 12, .tile, [], [.g d])
  | .engCrc p d => some (p, 12, .tile, [], [.g d])
  | .engQ p => some (p, 12, .tile, [], [])
  | .bar p _ => some (p, 8, .control, [], [])
  | .barv p _ d a => some (p, 8, .control, [.g a], [.g d])
  | .bara p _ a => some (p, 8, .control, [.g a], [])
  | .baraN p _ => some (p, 8, .control, [], [])
  | .waitb p _ d => some (p, 8, .tile, [], [.g d])
  | .vabort p _ => some (p, 8, .tile, [], [])
  | .bcfg p _ a _ => some (p, 12, .control, [.g a], [])
  | .bred p _ d => some (p, 8, .tile, [], [.g d])
  | .bredCfg p _ d => some (p, 8, .tile, [], [.g d])
  | .bredSt p d => some (p, 8, .tile, [], [.g d])
  | .glchk p d => some (p, 8, .tile, [], [.g d])
  | .coll p _ a => some (p, 8, .tile, [.g a], [])
  | .waitp p _ _ _ a b => some (p, 12, .tile, [.g a, .g b], [])
  | .pcan p _ _ => some (p, 8, .tile, [], [])
  | .prdF32 p _ _ d a => some (p, 8, .tile, [.g a], [.w d])
  | .prdLa p _ _ a c => some (p, 8, .tile, [.g a, .g c], [])
  | .cstat p _ d => some (p, 8, .tile, [], [.g d])
  | .cstatPc p d a => some (p, 8, .tile, [.g a], [.g d])
  | .start p _ a _ => some (p, 8, .control, [.g a], [])
  | .hstop p _ => some (p, 8, .control, [], [])
  | .hstopAll p => some (p, 8, .control, [], [])
  | .enq p _ d a => some (p, 8, .tile, [.g a], [.g d])
  | .ccnt p _ d a b => some (p, 8, .tile, [.g a, .g b], [.g d])
  | .ccntQ p _ d => some (p, 8, .tile, [], [.g d])
  | .cancel p _ d a b => some (p, 8, .tile, [.g a, .g b], [.g d])
  | .vtidShape p d => some (p, 8, .tile, [], [.g d])
  | .vtidOrd p d a => some (p, 8, .tile, [.g a], [.g d])
  | .vtidIdx p d a => some (p, 8, .tile, [.g a], [.g d])
  | .vtidHost p d a => some (p, 8, .tile, [.g a], [.g d])
  | .offer p a => some (p, 8, .control, [.g a], [])
  | .offerRd p d => some (p, 8, .tile, [], [.g d])
  | .imp p a => some (p, 8, .tile, [.g a], [])
  | .offl p _ d a _ => some (p, 12, .tile, [.g a], [.g d])
  | .retn p _ d a _ => some (p, 12, .tile, [.g a], [.g d])
  | .pstat p d a => some (p, 8, .tile, [.g a], [.g d])
  | .pstatDev p d => some (p, 8, .tile, [], [.g d])
  | .pin p d a => some (p, 8, .tile, [.g a], [.g d])
  | .pinClr p d a => some (p, 8, .tile, [.g a], [.g d])
  | .pinUns p d a => some (p, 8, .tile, [.g a], [.g d])
  | .ckptGo p _ d => some (p, 12, .tile, [], [.g d])
  | .ckptRd p d => some (p, 12, .tile, [], [.g d])
  | .lnkrd p _ d a => some (p, 8, .any, [.g a], [.g d])
  | .lnkset p d a b => some (p, 12, .monitor, [.g a, .g b], [.g d])
  | .lnksetUp p d a => some (p, 12, .monitor, [.g a], [.g d])
  | .lnksetDown p d a => some (p, 12, .monitor, [.g a], [.g d])
  | .lnkret p _ d a => some (p, 8, .monitor, [.g a], [.g d])
  | .trap p _ => some (p, 8, .any, [], [])
  | .tret p => some (p, 8, .any, [], [])
  | .sys p _ d a => some (p, 8, .any, [.g a], [.g d])
  | .ctxsRd p _ d a => some (p, 12, if a.r = 0 then .any else .monitor, [.g a], [.g d])
  | .ctxsNew p d a b => some (p, 12, .monitor, [.g a, .g b], [.g d])
  | .ctxsSeg p a b => some (p, 12, .monitor, [.g a, .g b], [])
  | .ctxsGo p d a => some (p, 12, .monitor, [.g a], [.g d])
  | .ctxsSave p d a => some (p, 12, .monitor, [.g a], [.g d])
  | .ctxsRest p d a => some (p, 12, .monitor, [.g a], [.g d])
  | .kill p _ => some (p, 8, .any, [], [])
  | .killCtx p a _ => some (p, 8, .monitor, [.g a], [])
  | .idleRd p d a => some (p, 8, .any, [.g a], [.g d])
  | .idleSet p a => some (p, 8, .monitor, [.g a], [])
  | .tstReq p d a => some (p, 12, .monitor, [.g a], [.g d])
  | .tstRd p _ d a => some (p, 12, .any, [.g a], [.g d])
  | .ecntK p _ d a => some (p, 8, .any, [.g a], [.g d])
  | .ecntRes p d a => some (p, 8, .any, [.g a], [.g d])
  | .ecntThm p d a => some (p, 8, .any, [.g a], [.g d])
  | .ecntTs p _ d a => some (p, 8, .any, [.g a], [.g d])
  | .ecntSet p _ a b => some (p, 8, .monitor, [.g a, .g b], [])
  | .dbgRd p d => some (p, 12, .any, [], [.g d])
  | .dbgMark p a _ => some (p, 12, .any, [.g a], [])
  | .dbgBrk p _ => some (p, 12, .any, [], [])
  | _ => none

/-- R64, R65, R174: with a true predicate and no right denied, an empty source whose empty bit is 1 traps EMPTY; else an empty
source makes the strand wait, its instruction to be examined again, for the empty registers or, where no register is
empty, for the stream; else an empty destination register makes it wait, whatever the empty bits hold, and then a
destination stream that is full. So every form of the table, on its own sources and destinations. A g or w register is
empty while its bit is set, g0 never; a stream named in k source fields while it holds fewer than k pieces, of k or more
that its binding will still give. -/
def Obligations.EmptyRegisters : Prop :=
  (∀ i, (Spec.operands i).isSome = (toFields i).isSome) ∧
  (∀ i p len who srcs dsts s, Spec.operands i = some (p, len, who, srcs, dsts) → predTrue (self s) p = true →
    (who = .monitor → s.cur.1 = monitorTile) → (who = .control ∨ who = .zero → s.cur.2.val = 0) →
    let empty (x : Src) : Prop := srcEmpty (self s) srcs x = true
    let wait (w : Wait) : Prop := exec i s = .next (deferred s len w)
    let regs : List Dst := (srcs.filter (srcEmpty (self s) srcs)).map Src.dst |>.filter (fun d => (self s).isEmpty d)
    ((∃ x ∈ srcs, x.e = true ∧ empty x) → exec i s = .next (trapTaken s len .empty 0)) ∧
    ((∀ x ∈ srcs, x.e = true → ¬ empty x) → (∃ x ∈ srcs, empty x) →
      (regs ≠ [] → wait (.regs regs)) ∧ (regs = [] → ∃ k : Fin 8, wait (.stream k (qNeed (BitVec.ofFin k) srcs) false))) ∧
    ((∀ x ∈ srcs, ¬ empty x) → streamTrap (self s) srcs dsts = none →
      (∀ ds, dsts.filter (self s).isEmpty = ds → ds ≠ [] → wait (.regs ds)) ∧
      ((∀ d ∈ dsts, (self s).isEmpty d = false) → ∀ k : Fin 8, dsts = [.q (BitVec.ofFin k)] → 4 ≤ (self s).q[k].pend.length →
        wait (.stream k 0 true)))) ∧
  (∀ (S : Strand) srcs (r : GSrc) (w : WSrc) e (v : BitVec 4) (k : Fin 8),
    srcEmpty S srcs (.g r) = (r.r != 0 && S.gE.getLsbD r.r.toNat) ∧ srcEmpty S srcs (.w w) = S.wE.getLsbD w.r.toNat ∧
    srcEmpty S srcs (.v ⟨.w v, e⟩) = S.wE.getLsbD v.toNat ∧
    (srcEmpty S srcs (.v ⟨.q (BitVec.ofFin k), e⟩) = true ↔
      S.q[k].have_.length < qNeed (BitVec.ofFin k) srcs ∧ S.q[k].valid = true ∧ S.q[k].out = false ∧ S.q[k].stopped = false ∧
        S.q[k].next + qNeed (BitVec.ofFin k) srcs ≤ recPieces S.q[k].rcd))

/-- R55 check 8, R114, R212, R224, R343: a privileged form on a tile, and a form of strand 0 on a helper, traps PRIV
whatever its operands hold. That check 8 comes before any operand is examined is log entry 42's reading. -/
def Obligations.Privileges : Prop :=
  (∀ i p len s, Spec.privileged i = some (p, len) → predTrue (self s) p = true → s.cur.1 ≠ monitorTile →
    exec i s = .next (trapTaken s len .priv 0)) ∧
  (∀ i p len s, Spec.controlOnly i = some (p, len) → predTrue (self s) p = true → s.cur.2.val ≠ 0 →
    exec i s = .next (trapTaken s len .priv 0))

/-- R347, R348: a precise trap writes TCAUSE with DEFER 0 and TRAPPC (for SWTRAP the successor), and goes to TVEC, for
OVERLAY to OVB, when it is handled, else the strand is TRAPPED; every register, empty bit, stream, counter and byte of
memory, and every other strand, stands as before; a strand that enters TRAPPED
sends a trap record. -/
def Obligations.TrapEntry : Prop :=
  ∀ s len c info, Spec.TrapEntered s (trapTaken s len c info) s.cur.1 s.cur.2 c info
    (if c = .swtrap then successor (self s).pc len else (self s).pc)

/-- R249, R346, R352: a strand of a running tile that enters TRAPPED sends a trap record with its cause, and the tile, if
it has not voted, votes: GALLEY and CONFLICT as such, any other cause TRAP where AMASK holds its bit and KFAIL where
not. A handled GALLEY or CONFLICT votes too. The model's reading: log entry 39. -/
def Obligations.TrapVotes : Prop :=
  ∀ s len c info, (here s).running = true → (here s).v.voted = false →
    let s' := trapTaken s len c info
    let cause : Cause := if c = .galley ∨ c = .conflict then c else if amaskBit s s.cur.1 c then .trap else .kfail
    (¬ Spec.handled (here s) (self s) c → ∃ v r,
      (here s').v.votes = (here s).v.votes ++ [v] ∧ v.code = Cause.code cause ∧ r.code = Cause.code c ∧
      r.strand.toNat = s.cur.2.val ∧ r.defer = false ∧ s'.agenda = (s.post 1 (.trapRecordArrival r)).agenda) ∧
    (Spec.handled (here s) (self s) c → c = .galley ∨ c = .conflict → ∃ v,
      (here s').v.votes = (here s).v.votes ++ [v] ∧ v.code = Cause.code c ∧ s'.agenda = s.agenda) ∧
    (Spec.handled (here s) (self s) c → c ≠ .galley → c ≠ .conflict →
      (here s').v.votes = (here s).v.votes ∧ s'.agenda = s.agenda)

/-- Every step of the package answers a next state, but for one case: the root monitor core issues a form of a group that
the spec gives it no effect for (R212, R343). -/
def Obligations.Progress : Prop :=
  ∀ s, SafeStep s ∨ (step s = .refused .outsideMonitorRepertoire ∧ ∃ n, nextIssue s = some (monitorTile, n))

/-! ### Encoding -/

/-- Every well-formed instruction of every form, with every operand at every value that its encoding admits, decodes from
its encoding, followed by any bytes, to itself, at its encoding's length. Fields that no rule uses are reserved by the
model's reading (log entry 34). -/
def Obligations.DecodeEncode : Prop :=
  ∀ (i : Instr) (rest : List Byte), wellFormed i = true →
    decode (encodeBytes i ++ rest) = .ok (i, (encodeBytes i).length)

/-- R8, R53, R62, R67: every word that decodes is the encoding of the instruction it decodes to, so no bit is dropped; LEN
= 0b00 and an unassigned opcode decode to nothing. Fields that no rule uses are reserved by the model's reading (log
entry 34). -/
def Obligations.DecodeExact : Prop :=
  (∀ w i n, decodeWord w = .ok (i, n) → ∃ l, encode i = some (l, w) ∧ n = l.bytes ∧ wellFormed i = true) ∧
  (∀ w : BitVec 128, w.toNat % 4 = 0 → decodeWord w = .error .lenZero) ∧
  (∀ w : BitVec 128, w.toNat % 4 ≠ 0 →
    (w.toNat / 4 % 256) ∈ (List.range' 0x1D 3 ++ List.range' 0x29 7 ++ List.range' 0x3E 2 ++ List.range' 0x5A 6 ++
      List.range' 0x6B 5 ++ [0x77] ++ List.range' 0x88 8 ++ List.range' 0x95 3 ++ [0x9F] ++ List.range' 0xA6 2 ++
      List.range' 0xAB 5 ++ List.range' 0xB9 7 ++ List.range' 0xC0 64) → decodeWord w = .error .unassignedOp)

/-- R92, R104, R89, R224, R344, and the encoding examples of the chapters: words that the spec writes out decode to the
instructions that it says they encode. -/
def Obligations.SpecWords : Prop :=
  decodeTableWord 64 0x0000028000000C69 = some (.mfs ⟨0, false⟩ 3 0x00A) ∧
  decodeTableWord 64 0x000001400009006D = some (.mts ⟨0, false⟩ ⟨9, false⟩ 0x005) ∧
  decodeTableWord 96 0x00000000243000040240009E =
    some (.waitc ⟨0, false⟩ true ⟨0, false⟩ ⟨9, false⟩ 3 4 2) ∧
  decodeTableWord 96 0x000008000040000402CA00A2 =
    some (.ovlHbm ⟨0, false⟩ ⟨10, false⟩ ⟨11, false⟩ 4 0x8000) ∧
  decodeTableWord 64 0x00000414000710C1 = some (.ld ⟨0, false⟩ 5 4 ⟨7, false⟩ 0x10) ∧
  decodeTableWord 64 0x00000540000002C1 = some (.trap ⟨0, false⟩ 0x15) ∧
  decodeTableWord 64 0x00000004000602D1 = some (.killCtx ⟨0, false⟩ ⟨6, false⟩ 0) ∧
  decodeTableWord 64 0x00100000000616A1 = some (.lnkrd ⟨0, false⟩ 1 5 ⟨6, false⟩) ∧
  decodeTableWord 64 0x0400000000030AA9 = some (.lnkret ⟨0, false⟩ 64 2 ⟨3, false⟩) ∧
  decodeTableWord 96 0x01C612A6 = some (.lnkset ⟨0, false⟩ 4 ⟨6, false⟩ ⟨7, false⟩)

/-! ### The vector unit -/

namespace Sys2Proof.Spec

open Sys2Proof Sys2Proof.Machine

/-- Lane i of width w (R116). -/
def laneOf (w : Nat) (v : VWord) (i : Nat) : BitVec w := v.extractLsb' (w * i) w

/-- Every lane of width w of a register, by its number. -/
abbrev lanesAre (w : Nat) (v : VWord) (f : Nat → BitVec w) : Prop := ∀ i, i < 1024 / w → laneOf w v i = f i

/-- A lane as a number, signed or natural (R119). -/
def asInt (sg : Bool) {w : Nat} (x : BitVec w) : Int := if sg then x.toInt else (x.toNat : Int)

/-- An integer result that wraps, or saturates to the type's range (R119). -/
def intResult (sg sat : Bool) (w : Nat) (r : Int) : BitVec w :=
  let lo : Int := if sg then -(2 ^ (w - 1)) else 0
  let hi : Int := if sg then 2 ^ (w - 1) - 1 else 2 ^ w - 1
  BitVec.ofInt w (if sat then (if r < lo then lo else if hi < r then hi else r) else r)

/-- Is a type code an integer type, and a signed one (Table 3.3)? -/
def intTy (ty : BitVec 4) : Bool := !ty.getLsbD 3
/-- Codes 4 to 7 are the signed integer types. -/
def signedTy (ty : BitVec 4) : Bool := ty.getLsbD 2

/-- The exact value of a floating-point lane (R27). -/
def valOf {w : Nat} (ty : BitVec 4) (x : BitVec w) : Val := decodeFp (fmtOf ty) x.toNat

/-- Two vector sources taken in order (R64): the state after it and the two values. -/
def take2 (s : State) (a b : VSrc) : State × VWord × VWord :=
  let r := takeV s s.cur.1 s.cur.2 a
  let q := takeV r.1 s.cur.1 s.cur.2 b
  (q.1, r.2, q.2)

/-- Three vector sources taken in order. -/
def take3 (s : State) (a b c : VSrc) : State × VWord × VWord × VWord :=
  let r := take2 s a b
  let u := takeV r.1 s.cur.1 s.cur.2 c
  (u.1, r.2.1, r.2.2, u.2)

/-- One vector source taken. -/
def take1 (s : State) (a : VSrc) : State × VWord := takeV s s.cur.1 s.cur.2 a

/-- The strand has issued a vector instruction: its destination is empty and takes `v` after `lat` cycles (R118). -/
def vectorDone (s s' : State) (d : VReg) (v : VWord) (lat : Nat) : State :=
  retired s (laterV s' s.cur.1 s.cur.2 d v lat) 8

/-- The same for a g destination. -/
def scalarDone (s s' : State) (d : BitVec 5) (v : Word) (lat : Nat) : State :=
  retired s (laterG s' s.cur.1 s.cur.2 d v lat) 8

/-- The word of stochastic rounding for a lane (R120): word i of C, or none. -/
def noise (s : State) (c : Option WSrc) (i : Nat) : BitVec 32 :=
  match c with | some x => (wOf s x).extractLsb' (32 * i) 32 | none => 0

/-- The result of `vadd` (0), `vsub` (1) and `vmul` (2) on a lane (Table 6.3): integers wrap or saturate, floating-point
results are the exact value rounded once. -/
def arithLane (k : Nat) (ty : BitVec 4) (sat : Bool) (rm : BitVec 3) (u : BitVec 32) {w : Nat} (x y : BitVec w) : BitVec w :=
  if intTy ty then
    let a := asInt (signedTy ty) x
    let b := asInt (signedTy ty) y
    intResult (signedTy ty) sat w (if k = 0 then a + b else if k = 1 then a - b else a * b)
  else
    BitVec.ofNat w
      (if k = 2 then roundVal (fmtOf ty) rm u (mulVal (valOf ty x) (valOf ty y))
       else exactThenRound (fmtOf ty) rm u [valOf ty x, if k = 1 then negVal (valOf ty y) else valOf ty y])

/-- Is one number smaller than another (R27, R119)? The infinities stand at the ends, finite values are exact binary
fractions, and a NaN compares with nothing. -/
def less : Val → Val → Bool
  | .inf a, .inf b => a && !b
  | .inf a, .fin _ _ _ => a
  | .fin _ _ _, .inf b => !b
  | .fin a m e, .fin b n k =>
    let x : Int := m * 2 ^ (e - min e k).toNat
    let y : Int := n * 2 ^ (k - min e k).toNat
    decide ((if a then -x else x) < (if b then -y else y))
  | _, _ => false

/-- Is the value a zero of this sign? -/
def zeroOf (neg : Bool) : Val → Bool | .fin a m _ => a == neg && m == 0 | _ => false

/-- The order of `vmin` and `vmax` (R119): that of the numbers, with -0 below +0. -/
def lessZ (x y : Val) : Bool := less x y || (zeroOf true x && zeroOf false y)

/-- An integer from a floating-point value (R42): rounded in the mode, saturated to the type's range, 0 from a NaN. -/
def toInteger (rm : BitVec 3) (u : BitVec 32) (sg : Bool) (w : Nat) : Val → BitVec w
  | .nan => 0
  | .inf neg => intResult sg true w (if neg then -(2 ^ 70) else 2 ^ 70)
  | .fin neg m e =>
    let n := m * 2 ^ e.toNat
    let d := 2 ^ (-e).toNat
    let r := n % d
    let away : Bool := match rm.toNat with
      | 0 => decide (d < 2 * r) || (decide (2 * r = d) && n / d % 2 == 1)
      | 1 => false
      | 2 => !neg
      | 3 => neg
      | _ => decide (u.toNat < r * 2 ^ 32 / d)
    let i : Int := if decide (r ≠ 0) && away then n / d + 1 else n / d
    intResult sg true w (if neg then -i else i)

/-- A lane of `vcvt` from type `ty` to type `tgt` of w bits (R41 to R43, R124). -/
def cvtLane (ty tgt : BitVec 4) (rm : BitVec 3) (u : BitVec 32) {v : Nat} (x : BitVec v) (w : Nat) : BitVec w :=
  if intTy ty && intTy tgt then
    if v = w then x.setWidth w else intResult (signedTy tgt) (decide (w < v)) w (asInt (signedTy ty) x)
  else if intTy ty then
    let i := asInt (signedTy ty) x
    BitVec.ofNat w (roundVal (fmtOf tgt) rm u (.fin (decide (i < 0)) i.natAbs 0))
  else if intTy tgt then toInteger rm u (signedTy tgt) w (valOf ty x)
  else BitVec.ofNat w (roundVal (fmtOf tgt) rm u (valOf ty x))

/-- X of QuantMX (R44) for 32 values: Floor(Log2(amax)) - 2, clamped, -127 where all are zero; none where one is not finite. -/
def mxExp (x : Nat → Val) : Option Int :=
  if (List.range 32).any (fun j => match x j with | .fin _ _ _ => false | _ => true) then none
  else
    let ls : List Int := (List.range 32).filterMap (fun j =>
      match x j with | .fin _ m e => if m = 0 then none else some ((Nat.log2 m : Int) + e) | _ => none)
    some (match ls.max? with | none => -127 | some l => max (-127) (min (l - 2) 127))

/-- The scale byte of QuantMX. -/
def mxScale (x : Nat → Val) : BitVec 8 := match mxExp x with | none => 0xFF | some n => BitVec.ofInt 8 (n + 127)

/-- Element j of QuantMX: the exact quotient rounded once to E2M1, which saturates. -/
def mxElem (rm : BitVec 3) (u : BitVec 32) (x : Nat → Val) (j : Nat) : BitVec 4 :=
  match mxExp x, x j with
  | some n, .fin neg m e => BitVec.ofNat 4 (roundVal e2m1 rm u (.fin neg m (e - n)))
  | _, _ => 0

/-- `vadd`, `vsub`, `vmul` with their latencies (Table 6.2). -/
def arithForms : List ((Pred → Bool → VOps → BitVec 3 → Option WSrc → Instr) × Nat × Nat) :=
  [(.vadd, 0, 2), (.vsub, 1, 2), (.vmul, 2, 4)]

end Sys2Proof.Spec

/-- R116 to R121, Tables 6.2 to 6.4: the elementwise forms deliver to D, after their latency, the register whose every lane
is the stated function of the lanes of their sources, sources being w registers or the next pieces of streams: sums,
differences and products, fused products, minima and maxima of integers, comparisons of integers, selection. `.sto` on
another type than `.f32` and `un` on an integer type trap ILLEGAL. -/
def Sys2Proof.Spec.VectorElementwise : Prop :=
  (∀ e ∈ Spec.arithForms, ∀ p sat o rm c (s : State), wellFormed (e.1 p sat o rm c) = true →
    Ready s p .tile ([.v o.a, .v o.b] ++ optW c) [vdst o.d] →
    (rm = 4 ∧ o.ty ≠ 8 → exec (e.1 p sat o rm c) s = .next (trapTaken s 8 .illegal 0)) ∧
    (¬ (rm = 4 ∧ o.ty ≠ 8) → ∃ v,
      exec (e.1 p sat o rm c) s = .next (Spec.vectorDone s (Spec.take2 s o.a o.b).1 o.d v e.2.2) ∧
      Spec.lanesAre (laneBits o.ty) v (fun i => Spec.arithLane e.2.1 o.ty sat rm (Spec.noise s c i)
        (Spec.laneOf _ (Spec.take2 s o.a o.b).2.1 i) (Spec.laneOf _ (Spec.take2 s o.a o.b).2.2 i)))) ∧
  (∀ p k rm o c (s : State), wellFormed (.vfma p k rm o c) = true → rm ≠ 4 →
    Ready s p .tile [.v o.a, .v o.b, .v c] [vdst o.d] → ∃ v,
    exec (.vfma p k rm o c) s = .next (Spec.vectorDone s (Spec.take3 s o.a o.b c).1 o.d v 4) ∧
    Spec.lanesAre (laneBits o.ty) v (fun i =>
      let x := Spec.valOf o.ty (Spec.laneOf (laneBits o.ty) (Spec.take3 s o.a o.b c).2.1 i)
      let y := Spec.valOf o.ty (Spec.laneOf (laneBits o.ty) (Spec.take3 s o.a o.b c).2.2.1 i)
      let z := Spec.valOf o.ty (Spec.laneOf (laneBits o.ty) (Spec.take3 s o.a o.b c).2.2.2 i)
      BitVec.ofNat _ (exactThenRound (fmtOf o.ty) rm 0
        [if k = 1 then negVal (mulVal x y) else mulVal x y, if k = 2 then negVal z else z]))) ∧
  (∀ (big : Bool) p o (s : State), Spec.intTy o.ty = true → Ready s p .tile [.v o.a, .v o.b] [vdst o.d] → ∃ v,
    exec (if big then .vmax p o else .vmin p o) s = .next (Spec.vectorDone s (Spec.take2 s o.a o.b).1 o.d v 2) ∧
    Spec.lanesAre (laneBits o.ty) v (fun i =>
      let x := Spec.laneOf (laneBits o.ty) (Spec.take2 s o.a o.b).2.1 i
      let y := Spec.laneOf (laneBits o.ty) (Spec.take2 s o.a o.b).2.2 i
      if Spec.asInt (Spec.signedTy o.ty) x ≤ Spec.asInt (Spec.signedTy o.ty) y then (if big then y else x)
      else (if big then x else y))) ∧
  (∀ p k o (s : State), wellFormed (.vcmp p k o) = true → Ready s p .tile [.v o.a, .v o.b] [vdst o.d] →
    (k = 6 ∧ Spec.intTy o.ty = true → exec (.vcmp p k o) s = .next (trapTaken s 8 .illegal 0)) ∧
    (k ≠ 6 → Spec.intTy o.ty = true → ∃ v,
      exec (.vcmp p k o) s = .next (Spec.vectorDone s (Spec.take2 s o.a o.b).1 o.d v 2) ∧
      Spec.lanesAre (laneBits o.ty) v (fun i =>
        let x := Spec.asInt (Spec.signedTy o.ty) (Spec.laneOf (laneBits o.ty) (Spec.take2 s o.a o.b).2.1 i)
        let y := Spec.asInt (Spec.signedTy o.ty) (Spec.laneOf (laneBits o.ty) (Spec.take2 s o.a o.b).2.2 i)
        let c : Bool := match k.toNat with
          | 0 => decide (x = y) | 1 => decide (x ≠ y) | 2 => decide (x < y) | 3 => decide (x ≤ y) | 4 => decide (y < x)
          | _ => decide (y ≤ x)
        if c then BitVec.allOnes _ else 0))) ∧
  (∀ p o c (s : State), wellFormed (.vsel p o c) = true → Ready s p .tile [.v o.a, .v o.b, .v c] [vdst o.d] → ∃ v,
    exec (.vsel p o c) s = .next (Spec.vectorDone s (Spec.take3 s o.a o.b c).1 o.d v 2) ∧
    Spec.lanesAre (laneBits o.ty) v (fun i =>
      if Spec.laneOf (laneBits o.ty) (Spec.take3 s o.a o.b c).2.2.2 i ≠ 0 then
        Spec.laneOf _ (Spec.take3 s o.a o.b c).2.1 i
      else Spec.laneOf _ (Spec.take3 s o.a o.b c).2.2.1 i))

/-- R119, R121: on floating-point lanes, `vmin` and `vmax` give the canonical NaN when either operand is a NaN, else the
smaller or the larger number, and count -0 below +0; `vcmp` is false on a NaN but for `ne` and `un`, and else compares the
numbers, the zeros being equal. -/
def Sys2Proof.Spec.VectorFloatOrder : Prop :=
  (∀ (big : Bool) p o (s : State), o.ty = 8 ∨ o.ty = 9 → Ready s p .tile [.v o.a, .v o.b] [vdst o.d] → ∃ v,
    exec (if big then .vmax p o else .vmin p o) s = .next (Spec.vectorDone s (Spec.take2 s o.a o.b).1 o.d v 2) ∧
    ∀ i, i < 1024 / laneBits o.ty →
      let x := Spec.laneOf (laneBits o.ty) (Spec.take2 s o.a o.b).2.1 i
      let y := Spec.laneOf (laneBits o.ty) (Spec.take2 s o.a o.b).2.2 i
      let r := Spec.laneOf (laneBits o.ty) v i
      ((Spec.valOf o.ty x = .nan ∨ Spec.valOf o.ty y = .nan) → r = BitVec.ofNat _ (fmtOf o.ty).nanBits) ∧
      (Spec.valOf o.ty x ≠ .nan → Spec.valOf o.ty y ≠ .nan → r = x ∨ r = y) ∧
      (Spec.lessZ (Spec.valOf o.ty x) (Spec.valOf o.ty y) = true → r = if big then y else x) ∧
      (Spec.lessZ (Spec.valOf o.ty y) (Spec.valOf o.ty x) = true → r = if big then x else y)) ∧
  (∀ p k o (s : State), wellFormed (.vcmp p k o) = true → o.ty = 8 ∨ o.ty = 9 →
    Ready s p .tile [.v o.a, .v o.b] [vdst o.d] → ∃ v,
    exec (.vcmp p k o) s = .next (Spec.vectorDone s (Spec.take2 s o.a o.b).1 o.d v 2) ∧
    ∀ i, i < 1024 / laneBits o.ty →
      let x := Spec.valOf o.ty (Spec.laneOf (laneBits o.ty) (Spec.take2 s o.a o.b).2.1 i)
      let y := Spec.valOf o.ty (Spec.laneOf (laneBits o.ty) (Spec.take2 s o.a o.b).2.2 i)
      let r := Spec.laneOf (laneBits o.ty) v i
      (x = .nan ∨ y = .nan → r = if k = 1 ∨ k = 6 then BitVec.allOnes _ else 0) ∧
      (x ≠ .nan → y ≠ .nan →
        let lt := Spec.less x y
        let gt := Spec.less y x
        let c : Bool := match k.toNat with
          | 0 => !lt && !gt | 1 => lt || gt | 2 => lt | 3 => !gt | 4 => gt | 5 => !lt | _ => false
        r = if c then BitVec.allOnes _ else 0))

/-- R121, R122: the forms that move, mask and shift lanes: `vlogic` on every bit, `vshift` of integer lanes, `vperm`,
`vshuf`, `vbcast`, `vmovg`; a lane index or a rotation beyond the lanes traps ILLEGAL. -/
def Sys2Proof.Spec.VectorMoves : Prop :=
  (∀ p tt d a b (s : State), Ready s p .tile [.v a, .v b] [vdst d] → ∃ v,
    exec (.vlogic p tt d a b) s = .next (Spec.vectorDone s (Spec.take2 s a b).1 d v 2) ∧
    ∀ j, j < 1024 → v.getLsbD j =
      tt.getLsbD (2 * ((Spec.take2 s a b).2.1.getLsbD j).toNat + ((Spec.take2 s a b).2.2.getLsbD j).toNat)) ∧
  (∀ p (k : BitVec 2) ty d a b (s : State), wellFormed (.vshift p k ty d a (.reg b)) = true →
    Ready s p .tile [.v a, .v b] [vdst d] → ∃ v,
    exec (.vshift p k ty d a (.reg b)) s = .next (Spec.vectorDone s (Spec.take2 s a b).1 d v 2) ∧
    Spec.lanesAre (laneBits ty) v (fun i =>
      let x := Spec.laneOf (laneBits ty) (Spec.take2 s a b).2.1 i
      let n := (Spec.laneOf (laneBits ty) (Spec.take2 s a b).2.2 i).toNat % laneBits ty
      match k.toNat with | 0 => x <<< n | 1 => x >>> n | 2 => x.sshiftRight n | _ => x.rotateLeft n)) ∧
  (∀ p (k : BitVec 2) ty d a (m : BitVec 6) (s : State), wellFormed (.vshift p k ty d a (.imm m)) = true →
    Ready s p .tile [.v a] [vdst d] → ∃ v,
    exec (.vshift p k ty d a (.imm m)) s = .next (Spec.vectorDone s (Spec.take1 s a).1 d v 2) ∧
    Spec.lanesAre (laneBits ty) v (fun i =>
      let x := Spec.laneOf (laneBits ty) (Spec.take1 s a).2 i
      let n := m.toNat % laneBits ty
      match k.toNat with | 0 => x <<< n | 1 => x >>> n | 2 => x.sshiftRight n | _ => x.rotateLeft n)) ∧
  (∀ p o (s : State), wellFormed (.vperm p o) = true → Ready s p .tile [.v o.a, .v o.b] [vdst o.d] → ∃ v,
    exec (.vperm p o) s = .next (Spec.vectorDone s (Spec.take2 s o.a o.b).1 o.d v 2) ∧
    Spec.lanesAre (laneBits o.ty) v (fun i => Spec.laneOf (laneBits o.ty) (Spec.take2 s o.a o.b).2.1
      ((Spec.laneOf (laneBits o.ty) (Spec.take2 s o.a o.b).2.2 i).toNat % (1024 / laneBits o.ty)))) ∧
  (∀ p pat ty d a b (s : State), wellFormed (.vshuf p pat ty d a (some b) 0) = true → pat.toNat < 4 →
    Ready s p .tile [.v a, .v b] [vdst d] → ∃ v,
    exec (.vshuf p pat ty d a (some b) 0) s = .next (Spec.vectorDone s (Spec.take2 s a b).1 d v 2) ∧
    let n := 1024 / laneBits ty
    let x := Spec.laneOf (laneBits ty) (Spec.take2 s a b).2.1
    let y := Spec.laneOf (laneBits ty) (Spec.take2 s a b).2.2
    Spec.lanesAre (laneBits ty) v (fun i => match pat.toNat with
      | 0 => if i % 2 = 0 then x (i / 2) else y (i / 2)
      | 1 => if i % 2 = 0 then x (n / 2 + i / 2) else y (n / 2 + i / 2)
      | 2 => if i < n / 2 then x (2 * i) else y (2 * (i - n / 2))
      | _ => if i < n / 2 then x (2 * i + 1) else y (2 * (i - n / 2) + 1))) ∧
  (∀ p pat ty d a (sh : BitVec 7) (s : State), wellFormed (.vshuf p pat ty d a none sh) = true → pat = 4 ∨ pat = 5 →
    Ready s p .tile [.v a] [vdst d] →
    let n := 1024 / laneBits ty
    (pat = 5 → n ≤ sh.toNat → exec (.vshuf p pat ty d a none sh) s = .next (trapTaken s 8 .illegal 0)) ∧
    (pat = 4 ∨ sh.toNat < n → ∃ v,
      exec (.vshuf p pat ty d a none sh) s = .next (Spec.vectorDone s (Spec.take1 s a).1 d v 2) ∧
      Spec.lanesAre (laneBits ty) v (fun i =>
        Spec.laneOf (laneBits ty) (Spec.take1 s a).2 (if pat = 4 then n - 1 - i else (i + sh.toNat) % n)))) ∧
  (∀ p ty d a (s : State), wellFormed (.vbcast p ty d a) = true → Ready s p .tile [.g a] [vdst d] → ∃ v,
    exec (.vbcast p ty d a) s = .next (Spec.vectorDone s s d v 2) ∧
    Spec.lanesAre (laneBits ty) v (fun _ => (gOf s a).setWidth _)) ∧
  (∀ p ty d a (k : BitVec 7) (s : State), wellFormed (.vbcastLane p ty d a k) = true → Ready s p .tile [.v a] [vdst d] →
    (1024 / laneBits ty ≤ k.toNat → exec (.vbcastLane p ty d a k) s = .next (trapTaken s 8 .illegal 0)) ∧
    (k.toNat < 1024 / laneBits ty → ∃ v,
      exec (.vbcastLane p ty d a k) s = .next (Spec.vectorDone s (Spec.take1 s a).1 d v 2) ∧
      Spec.lanesAre (laneBits ty) v (fun _ => Spec.laneOf _ (Spec.take1 s a).2 k.toNat))) ∧
  (∀ p ty d a (k : BitVec 7) (s : State), Ready s p .tile [.v a] [.g d] → 1024 / laneBits ty ≤ k.toNat →
    exec (.vmovgGet p ty d a k) s = .next (trapTaken s 8 .illegal 0)) ∧
  (∀ p ty d a (k : BitVec 7) (s : State), Ready s p .tile [.g a] [.w d] → 1024 / laneBits ty ≤ k.toNat →
    exec (.vmovgPut p ty d a k) s = .next (trapTaken s 8 .illegal 0)) ∧
  (∀ p ty d a (k : BitVec 7) (s : State), wellFormed (.vmovgGet p ty d a k) = true → Ready s p .tile [.v a] [.g d] →
    k.toNat < 1024 / laneBits ty →
    let x := Spec.laneOf (laneBits ty) (Spec.take1 s a).2 k.toNat
    exec (.vmovgGet p ty d a k) s = .next (Spec.scalarDone s (Spec.take1 s a).1 d
      (if Spec.intTy ty && Spec.signedTy ty then x.signExtend 64 else x.setWidth 64) 2)) ∧
  (∀ p ty d a (k : BitVec 7) (s : State), wellFormed (.vmovgPut p ty d a k) = true → Ready s p .tile [.g a] [.w d] →
    k.toNat < 1024 / laneBits ty → ∃ v,
    exec (.vmovgPut p ty d a k) s = .next (Spec.vectorDone s s (.w d) v 2) ∧
    Spec.lanesAre (laneBits ty) v (fun i =>
      if i = k.toNat then (gOf s a).setWidth _ else Spec.laneOf _ ((self s).rw d) i))

/-- R40 to R44, R119, R123 to R126: quotients, roots, powers and logarithms of FP32 lanes; conversions between any two types
of `vcvt`, and to and from `.mxf4` blocks; quantisation; reductions of integer and floating-point lanes to a g register;
random words from the counter, which goes up by 8 unless `.nx`. An illegal pair, part, mode or group of registers traps
ILLEGAL. -/
def Sys2Proof.Spec.VectorFunctions : Prop :=
  (∀ p rm o (s : State), wellFormed (.vdiv p rm o) = true → rm ≠ 4 → Ready s p .tile [.v o.a, .v o.b] [vdst o.d] → ∃ v,
    exec (.vdiv p rm o) s = .next (Spec.vectorDone s (Spec.take2 s o.a o.b).1 o.d v 16) ∧
    Spec.lanesAre 32 v (fun i => BitVec.ofNat 32 (divFp fp32 rm 0
      (Spec.valOf 8 (Spec.laneOf 32 (Spec.take2 s o.a o.b).2.1 i)) (Spec.valOf 8 (Spec.laneOf 32 (Spec.take2 s o.a o.b).2.2 i))))) ∧
  (∀ e ∈ ([(.vsqrt, fun rm x => sqrtFp fp32 rm (decodeFp fp32 x)), (.vrsq, fun rm x => rsqFp fp32 rm (decodeFp fp32 x)),
      (.vexp2, exp2Fp), (.vlog2, log2Fp)] : List ((Pred → BitVec 3 → VReg → VSrc → Instr) × (BitVec 3 → Nat → Nat))),
    ∀ p rm d a (s : State), rm ≠ 4 → Ready s p .tile [.v a] [vdst d] → ∃ v,
    exec (e.1 p rm d a) s = .next (Spec.vectorDone s (Spec.take1 s a).1 d v 16) ∧
    Spec.lanesAre 32 v (fun i => BitVec.ofNat 32 (e.2 rm (Spec.laneOf 32 (Spec.take1 s a).2 i).toNat))) ∧
  (∀ p (ty tgt : BitVec 4) (k rm : BitVec 3) d a c (s : State), ty.toNat ≤ 11 → tgt.toNat ≤ 11 →
    wellFormed (.vcvt p ty tgt k rm d a none c) = true → Ready s p .tile ([.v a] ++ optW c) [vdst d] →
    let ws := laneBits ty
    let wt := laneBits tgt
    let n := 1024 / max ws wt
    let x := (Spec.take1 s a).2
    let i := Instr.vcvt p ty tgt k rm d a none c
    (max ws wt / min ws wt ≤ k.toNat ∨ (rm = 4 ∧ ty ≠ 8) → exec i s = .next (trapTaken s 8 .illegal 0)) ∧
    (k.toNat < max ws wt / min ws wt → ¬ (rm = 4 ∧ ty ≠ 8) → ∃ v,
      exec i s = .next (Spec.vectorDone s (Spec.take1 s a).1 d v 4) ∧
      (ws ≤ wt → ∀ j, j < n → Spec.laneOf wt v j = Spec.cvtLane ty tgt rm (Spec.noise s c j) (Spec.laneOf ws x (k.toNat * n + j)) wt) ∧
      (wt < ws → ∀ j, j < n → Spec.laneOf wt v (k.toNat * n + j) = Spec.cvtLane ty tgt rm (Spec.noise s c j) (Spec.laneOf ws x j) wt) ∧
      (wt < ws → ∀ j r, d = .w r → (j < k.toNat * n ∨ (k.toNat + 1) * n ≤ j) → j < 1024 / wt →
        Spec.laneOf wt v j = Spec.laneOf wt ((self s).rw r) j))) ∧
  (∀ p (ty tgt : BitVec 4) (k rm : BitVec 3) d a b c (s : State), 12 ≤ ty.toNat ∨ 12 ≤ tgt.toNat → ¬ (ty = 8 ∧ tgt = 12) →
    ¬ (ty = 12 ∧ tgt = 8) → Ready s p .tile ([.v a] ++ optV b ++ optW c) [vdst d] →
    exec (.vcvt p ty tgt k rm d a b c) s = .next (trapTaken s 8 .illegal 0)) ∧
  (∀ p (ty tgt : BitVec 4) (k rm : BitVec 3) d a c (s : State), ¬ (ty = 8 ∧ tgt = 12) →
    Ready s p .tile ([.v a] ++ optW c) [vdst d] → exec (.vcvtXs p ty tgt k rm d a c) s = .next (trapTaken s 8 .illegal 0)) ∧
  (∀ p (k rm : BitVec 3) d a c (s : State), Ready s p .tile ([.v a] ++ optW c) [.w d] →
    let x (j : Nat) : Val := Spec.valOf 8 (Spec.laneOf 32 (Spec.take1 s a).2 j)
    (∃ v, exec (.vcvt p 8 12 k rm (.w d) a none c) s = .next (Spec.vectorDone s (Spec.take1 s a).1 (.w d) v 4) ∧
      Spec.lanesAre 4 v (fun j => if 32 * k.toNat ≤ j ∧ j < 32 * k.toNat + 32 then
          Spec.mxElem rm (Spec.noise s c (j - 32 * k.toNat)) x (j - 32 * k.toNat)
        else Spec.laneOf 4 ((self s).rw d) j)) ∧
    (∃ v, exec (.vcvtXs p 8 12 k rm (.w d) a c) s = .next (Spec.vectorDone s (Spec.take1 s a).1 (.w d) v 4) ∧
      Spec.lanesAre 8 v (fun j => if j = k.toNat then Spec.mxScale x else Spec.laneOf 8 ((self s).rw d) j))) ∧
  (∀ p (k rm : BitVec 3) d a b (s : State), Ready s p .tile [.v a, .v b] [vdst d] → rm ≠ 4 → ∃ v,
    exec (.vcvt p 12 8 k rm d a (some b) none) s = .next (Spec.vectorDone s (Spec.take2 s a b).1 d v 4) ∧
    let sc := Spec.laneOf 8 (Spec.take2 s a b).2.2 k.toNat
    Spec.lanesAre 32 v (fun j =>
      match Spec.valOf 12 (Spec.laneOf 4 (Spec.take2 s a b).2.1 (32 * k.toNat + j)) with
      | .fin neg m e =>
        BitVec.ofNat 32 (if sc = 0xFF then fp32.nanBits else roundVal fp32 rm 0 (.fin neg m (e + sc.toNat - 127)))
      | _ => BitVec.ofNat 32 fp32.nanBits)) ∧
  (∀ p d (a : WSrc) (s : State), a.r.toNat % 4 ≠ 0 → Ready s p .tile [.w a] [vdst d] →
    exec (.vqnt p d a) s = .next (trapTaken s 8 .illegal 0)) ∧
  (∀ p d (a : WSrc) (s : State), a.r.toNat % 4 = 0 →
    Ready s p .tile ((List.range 4).map (fun i => .w ⟨a.r + BitVec.ofNat 4 i, a.e⟩)) [vdst d] → ∃ v,
    exec (.vqnt p d a) s = .next (Spec.vectorDone s s d v 8) ∧
    let q := quantE4m3 ((List.range 128).map (fun j => (Spec.laneOf 32 ((self s).rw (a.r + BitVec.ofNat 4 (j / 32))) (j % 32)).toNat))
    Spec.lanesAre 8 v (fun j => BitVec.ofNat 8 (q.2.getD j 0))) ∧
  (∀ p d (a : WSrc) (s : State), a.r.toNat % 4 = 0 →
    Ready s p .tile ((List.range 4).map (fun i => .w ⟨a.r + BitVec.ofNat 4 i, a.e⟩)) [.g d] →
    let q := quantE4m3 ((List.range 128).map (fun j => (Spec.laneOf 32 ((self s).rw (a.r + BitVec.ofNat 4 (j / 32))) (j % 32)).toNat))
    exec (.vqntS p d a) s = .next (Spec.scalarDone s s d (BitVec.ofNat 64 q.1) 8)) ∧
  (∀ p d a b (k : BitVec 2) (s : State), Ready s p .tile [.v a, .g b] [vdst d] → ∃ v,
    exec (.vdq p d a b k) s = .next (Spec.vectorDone s (Spec.take1 s a).1 d v 4) ∧
    Spec.lanesAre 32 v (fun i => BitVec.ofNat 32 (dequant ((gOf s b).toNat % 2 ^ 32)
      (Spec.laneOf 8 (Spec.take1 s a).2 (32 * k.toNat + i)).toNat))) ∧
  (∀ p ty d a (s : State), Spec.intTy ty = true → Ready s p .tile [.v a] [.g d] →
    let n := 1024 / laneBits ty
    let x (i : Nat) : Int := Spec.asInt (Spec.signedTy ty) (Spec.laneOf (laneBits ty) (Spec.take1 s a).2 i)
    exec (.vredSum p ty 0 d a) s =
      .next (Spec.scalarDone s (Spec.take1 s a).1 d (BitVec.ofInt 64 (((List.range n).map x).sum)) 8) ∧
    (∃ m, (∀ i, i < n → x m ≤ x i) ∧ m < n ∧
      exec (.vredMin p ty d a) s = .next (Spec.scalarDone s (Spec.take1 s a).1 d (BitVec.ofInt 64 (x m)) 8)) ∧
    (∃ m, (∀ i, i < n → x i ≤ x m) ∧ m < n ∧
      exec (.vredMax p ty d a) s = .next (Spec.scalarDone s (Spec.take1 s a).1 d (BitVec.ofInt 64 (x m)) 8)) ∧
    (∃ m, (∀ i, i < n → (x i).natAbs ≤ (x m).natAbs) ∧ m < n ∧
      exec (.vredAmax p ty d a) s =
        .next (Spec.scalarDone s (Spec.take1 s a).1 d (BitVec.ofNat 64 (x m).natAbs) 8))) ∧
  (∀ p ty rm d a (s : State), ty = 8 ∨ ty = 9 → Ready s p .tile [.v a] [.g d] →
    let w := laneBits ty
    let n := 1024 / w
    let x (j : Nat) : BitVec w := Spec.laneOf w (Spec.take1 s a).2 j
    let y (j : Nat) : Val := Spec.valOf ty (x j)
    let gives (i : Instr) (r : Nat) : Prop :=
      exec i s = .next (Spec.scalarDone s (Spec.take1 s a).1 d (BitVec.ofNat 64 r) 8)
    (rm = 4 → exec (.vredSum p ty rm d a) s = .next (trapTaken s 8 .illegal 0)) ∧
    (rm ≠ 4 → gives (.vredSum p ty rm d a) (exactThenRound (fmtOf ty) rm 0 ((List.range n).map y))) ∧
    ((∃ j, j < n ∧ y j = .nan) → gives (.vredMin p ty d a) (fmtOf ty).nanBits ∧ gives (.vredMax p ty d a) (fmtOf ty).nanBits ∧
      gives (.vredAmax p ty d a) (fmtOf ty).nanBits) ∧
    ((∀ j, j < n → y j ≠ .nan) →
      (∃ m, m < n ∧ (∀ j, j < n → Spec.lessZ (y j) (y m) = false) ∧ gives (.vredMin p ty d a) (x m).toNat) ∧
      (∃ m, m < n ∧ (∀ j, j < n → Spec.lessZ (y m) (y j) = false) ∧ gives (.vredMax p ty d a) (x m).toNat) ∧
      (∃ m, m < n ∧ (∀ j, j < n → Spec.less (absVal (y m)) (absVal (y j)) = false) ∧
        gives (.vredAmax p ty d a) ((x m).toNat % 2 ^ (w - 1))))) ∧
  (∀ p nx d a b (s : State), b.r.toNat % 2 = 1 ∨ b.r.toNat < 2 → Ready s p .tile [.g a, .g b] [vdst d] →
    exec (.vrng p nx d a b) s = .next (trapTaken s 8 .illegal 0)) ∧
  (∀ p nx d a b (s : State), b.r.toNat % 2 = 0 → 2 ≤ b.r.toNat →
    Ready s p .tile [.g a, .g b, .g ⟨b.r + 1, b.e⟩] [vdst d] → ∃ v s',
    let c : BitVec 128 := (self s).rg (b.r + 1) ++ (self s).rg b.r
    exec (.vrng p nx d a b) s = .next (Spec.vectorDone s s' d v 4) ∧
    Spec.lanesAre 32 v (fun i => (philoxWords 8 c (gOf s a)).getD i 0) ∧
    s'.cur = s.cur ∧ ((self s').rg (b.r + 1) ++ (self s').rg b.r : BitVec 128) = (if nx then c else c + 8) ∧
    (∀ r, r ≠ b.r → r ≠ b.r + 1 → (self s').rg r = (self s).rg r))

/-- R36 to R41, Table 2.1: rounding a value that the format holds gives its bits back, in every mode. -/
def Obligations.RoundingExact : Prop :=
  ∀ ty ∈ ([8, 9, 10, 11] : List (BitVec 4)), ∀ (rm : BitVec 3) (u : BitVec 32) (x : Nat), rm.toNat ≤ 4 →
    x < 2 ^ (fmtOf ty).width → (∃ neg m e, decodeFp (fmtOf ty) x = .fin neg m e) →
    roundVal (fmtOf ty) rm u (decodeFp (fmtOf ty) x) = x

/-! ### The matrix array and the accumulator adder -/

namespace Sys2Proof.Spec

open Sys2Proof Sys2Proof.Machine

/-- A command joins the tile's array queue (R133), after `s'` of the same strand, behind what the strand has outstanding
(R191). -/
def arrQueued (s s' : State) (op : ArrOp) : State :=
  s'.modTile s.cur.1 (fun T =>
    { T with arrQ := T.arrQ ++ [{ op := op, seq := T.arrSeq + 1, strand := s.cur.2, pc := (self s).pc
                                  after := beforeOf (self s) }]
             arrSeq := T.arrSeq + 1 })

/-- A command joins the tile's adder queue (R142). -/
def addQueued (s s' : State) (op : AddOp) : State :=
  s'.modTile s.cur.1 (fun T =>
    { T with addQ := T.addQ ++ [{ op := op, seq := T.addSeq + 1, strand := s.cur.2, pc := (self s).pc }]
             addSeq := T.addSeq + 1 })

/-- The command queued last marks a partial tile PENDING, of its kind (Table 7.2). -/
def ptPending (s' : State) (t : TileId) (n : Nat) (i32 : Bool) : State :=
  s'.modTile t (fun T =>
    { T with pt := T.pt.setIfInBounds n { T.ptOf n with st := .pending, i32 := i32, last := T.arrSeq } })

/-- The trap of a reader of a partial tile (Table 7.2): INFO. -/
abbrev ptRefused (T : Tile) (n : BitVec 2) (i32 : Bool) (info : BitVec 32) : Prop :=
  ((T.ptOf n.toNat).st = .invalid ∧ info = n.setWidth 32) ∨
  ((T.ptOf n.toNat).st ≠ .invalid ∧ (T.ptOf n.toNat).i32 ≠ i32 ∧ info = n.setWidth 32 + 4)

/-- A partial tile that a reader may name (Table 7.2). -/
abbrev ptReadable (T : Tile) (n : BitVec 2) (i32 : Bool) : Prop :=
  (T.ptOf n.toNat).st ≠ .invalid ∧ (T.ptOf n.toNat).i32 = i32

/-- A 64-byte aligned range of the own accumulator partition (R127, R141) that a collective does not claim (R311) where
it is written. -/
structure AccRange (s : State) (x : Word) (len : Nat) (wr : Bool) : Prop where
  aligned : x.toNat % 64 = 0
  own : namesOwn s x
  part : liesIn (here s).v.partw 3 (ofsOf x) len
  unclaimed : wr = true → claimed (here s).v (ofsOf x) len = false

/-- An aligned block of one data partition of the own store (R146, R147, R155, R160). -/
structure Block (s : State) (x : Word) (al len : Nat) (wr : Bool) : Prop where
  aligned : x.toNat % al = 0
  own : namesOwn s x
  part : reachable (here s).v.partw (ofsOf x) len
  unclaimed : wr = true → claimed (here s).v (ofsOf x) len = false
  det : wr = true → s.det s.cur.1 = true → ¬ liesIn (here s).v.partw 5 (ofsOf x) len

/-- May the strand's command over the range go on at once: no adder command of the strand over it is outstanding (R128,
R143), and where it writes versioned bytes the arrival has not been sent (R204)? -/
abbrev freeNow (s : State) (o len : Nat) (ver : Bool) : Prop :=
  ownOverlap (here s) s.cur.2 o len = [] ∧ (ver = true → (here s).v.bstate ≠ 2)

/-- The address traps of a command over the accumulator partition (R127, R141). -/
abbrev accTraps (s : State) (x : Word) (len plen : Nat) (r : Host.Outcome State Fault Refusal) : Prop :=
  (x.toNat % 64 ≠ 0 → r = .next (trapTaken s plen .misalign 0)) ∧
  (x.toNat % 64 = 0 → (¬ namesOwn s x ∨ ¬ liesIn (here s).v.partw 3 (ofsOf x) len) → r = .next (trapTaken s plen .prot 0))

/-- The address of a tile operand (R141). -/
def tileAddr (s : State) (c : GSrc) (off : BitVec 5) : Word := gOf s c + BitVec.ofNat 64 (65536 * off.toNat)

/-- A scale from the low word of a g register; g0 gives 1 (R129, R144, R146). -/
def scaleArg (s : State) (a : GSrc) : Option (BitVec 32) := if a.r = 0 then none else some ((gOf s a).setWidth 32)

/-- The masks of `mmam` (R136). -/
def masks (s : State) (m : MaskSrc) : Word := match m with | .imm w => w | .reg c => gOf s c

/-- The registers that they come from. -/
def maskSrcs (m : MaskSrc) : List Src := match m with | .imm _ => [] | .reg c => [.g c]

/-- Is a type one of the FP8 formats? -/
abbrev fp8 (ty : BitVec 4) : Prop := ty = 10 ∨ ty = 11

/-- What `mma` and `mmam` leave at issue (R133 to R136): ILLEGAL for an FP8 operation on partial tile 1 or 3; else a wait
for room in the queue; else the command queued and its partial tiles PENDING. -/
abbrev mmaIssue (s : State) (len : Nat) (ty : BitVec 4) (x : Bool) (n : BitVec 2) (m : Word)
    (r : Host.Outcome State Fault Refusal) : Prop :=
  (fp8 ty → n.getLsbD 0 = true → r = .next (trapTaken s len .illegal 0)) ∧
  ((fp8 ty → n.getLsbD 0 = false) →
    (4 ≤ (here s).arrQ.length → r = .next (deferred s len .roomArr)) ∧
    ((here s).arrQ.length < 4 →
      (fp8 ty → r = .next (retired s (ptPending (ptPending
        (arrQueued s s (.mma ty x n (m.extractLsb' 0 32) (m.extractLsb' 32 32))) s.cur.1 n.toNat false)
          s.cur.1 (n.toNat + 1) false) len)) ∧
      (¬ fp8 ty → r = .next (retired s (ptPending
        (arrQueued s s (.mma ty x n (m.extractLsb' 0 32) (m.extractLsb' 32 32))) s.cur.1 n.toNat (ty == 7)) len))))

end Sys2Proof.Spec

/-- R132 to R136, R147, R150: `mma`, `mmam`, `mrep`, `ptmov` and `mwait.arr` at issue. A full queue makes the strand wait
with SST.WAIT = 5; a command names its operands as they are at issue and the strand goes on; readers of a partial tile
trap PTSTATE as Table 7.2 says; `ptmov.get` takes the value 4 cycles after it is there. -/
def Sys2Proof.Spec.ArrayForms : Prop :=
  (∀ p ty x n s, Ready s p .tile [] [] →
    Spec.mmaIssue s 8 ty x n (BitVec.allOnes 64) (exec (.mma p ty x n) s)) ∧
  (∀ p ty x n m s, Ready s p .tile (Spec.maskSrcs m) [] →
    Spec.mmaIssue s 16 ty x n (Spec.masks s m) (exec (.mmam p ty x n m) s)) ∧
  (∀ p (fb : Bool) (n : BitVec 8) (w : BitVec 2) s, Ready s p .tile [] [] →
    let i : Instr := if fb then .mrepB p n w else .mrepA p n w
    ((w = 0 ∨ w = 3) → exec i s = .next (trapTaken s 8 .illegal 0)) ∧
    (w = 1 ∨ w = 2 → 4 ≤ (here s).arrQ.length → exec i s = .next (deferred s 8 .roomArr)) ∧
    (w = 1 ∨ w = 2 → (here s).arrQ.length < 4 →
      exec i s = .next (retired s (Spec.arrQueued s s (.mrep fb n.toNat w.toNat)) 8))) ∧
  (∀ p ty n c s, Ready s p .tile [.g c] [] → Spec.Block s (gOf s c) 128 4096 true →
    let o := Spec.ofsOf (gOf s c)
    (∀ info, Spec.ptRefused (here s) n (ty == 5) info → exec (.ptmovSt p ty n c) s = .next (trapTaken s 8 .ptstate info)) ∧
    (Spec.ptReadable (here s) n (ty == 5) → Spec.freeNow s o 4096 (versionedAt (here s).v.partw o) →
      (4 ≤ (here s).arrQ.length → exec (.ptmovSt p ty n c) s = .next (deferred s 8 .roomArr)) ∧
      ((here s).arrQ.length < 4 → exec (.ptmovSt p ty n c) s =
        .next (retired s (Spec.arrQueued s s (.ptst ty n o ((here s).ptOf n.toNat).last)) 8)))) ∧
  (∀ p ty n c s, Ready s p .tile [.g c] [] → Spec.Block s (gOf s c) 128 4096 false →
    let o := Spec.ofsOf (gOf s c)
    Spec.freeNow s o 4096 false →
      (4 ≤ (here s).arrQ.length → exec (.ptmovLd p ty n c) s = .next (deferred s 8 .roomArr)) ∧
      ((here s).arrQ.length < 4 → exec (.ptmovLd p ty n c) s =
        .next (retired s (Spec.ptPending (Spec.arrQueued s s (.ptld ty n o)) s.cur.1 n.toNat (ty == 5)) 8))) ∧
  (∀ p ty n c s, Ready s p .tile [.g c] [] →
    ((gOf s c).toNat % 128 ≠ 0 → exec (.ptmovSt p ty n c) s = .next (trapTaken s 8 .misalign 0) ∧
      exec (.ptmovLd p ty n c) s = .next (trapTaken s 8 .misalign 0)) ∧
    ((gOf s c).toNat % 128 = 0 →
      (¬ Spec.namesOwn s (gOf s c) ∨ ¬ Spec.reachable (here s).v.partw (Spec.ofsOf (gOf s c)) 4096) →
      exec (.ptmovSt p ty n c) s = .next (trapTaken s 8 .prot 0) ∧
      exec (.ptmovLd p ty n c) s = .next (trapTaken s 8 .prot 0))) ∧
  (∀ p ty n r d s, Ready s p .tile [] [.w d] →
    let q := (here s).ptOf n.toNat
    (∀ info, Spec.ptRefused (here s) n (ty == 5) info →
      exec (.ptmovGet p ty n r d) s = .next (trapTaken s 8 .ptstate info)) ∧
    (Spec.ptReadable (here s) n (ty == 5) → q.wrote = q.last → ∃ v : VWord,
      (∀ j, j < 32 → v.extractLsb' (32 * j) 32 =
        if q.val.keep.getLsbD (32 * r.toNat + j) then q.val.vals.getD (32 * r.toNat + j) 0 else 0) ∧
      exec (.ptmovGet p ty n r d) s = .next (retired s (putV s (.w d) v 4) 8)) ∧
    (Spec.ptReadable (here s) n (ty == 5) → q.wrote ≠ q.last →
      exec (.ptmovGet p ty n r d) s = .next (retired s ((modSelf s (fun S => S.markEmpty (.w d))).modTile s.cur.1 (fun T =>
        { T with gets := T.gets ++
          [{ strand := s.cur.2, gen := (self s).gen, d := d, n := n, r := r.toNat, need := q.last }] })) 8))) ∧
  (∀ p s, Ready s p .tile [] [] →
    let left := (here s).arrQ.map (fun c => c.seq) ++ (here s).arrFly.map (fun f => f.cmd.seq)
    (left = [] → exec (.mwaitArr p) s = .next (retired s s 8)) ∧
    (left ≠ [] → exec (.mwaitArr p) s = .next (blocked s s 8 (.mwait left []))))

/-- R140, Table 7.3: `rchk.rd` reads the residue status, `rchk.clr` reads it and clears COUNT and LEFT, `rchk.inj` arms the
injection of the array or of the adder. -/
def Sys2Proof.Spec.ResidueStatus : Prop :=
  ∀ p d s,
    let arst : Word :=
      ((here s).rcount ++ BitVec.ofBool (here s).rpend ++ BitVec.ofBool (here s).rleft ++ BitVec.ofBool (here s).inja ++
        BitVec.ofBool (here s).injd ++ (here s).runit ++ (here s).rpti ++ (here s).rssl : BitVec 64)
    (Ready s p .tile [] [.g d] →
      exec (.rchkRd p d) s = .next (retired s (putG s d arst) 8) ∧
      exec (.rchkClr p d) s =
        .next (retired s ((putG s d arst).modTile s.cur.1 (fun T => { T with rcount := 0, rleft := false })) 8)) ∧
    (Ready s p .tile [] [] →
      exec (.rchkInj p 0) s = .next (retired s (s.modTile s.cur.1 (fun T => { T with inja := true })) 8) ∧
      exec (.rchkInj p 1) s = .next (retired s (s.modTile s.cur.1 (fun T => { T with injd := true })) 8) ∧
      exec (.rchkInj p 2) s = .next (trapTaken s 8 .illegal 0) ∧ exec (.rchkInj p 3) s = .next (trapTaken s 8 .illegal 0))

/-- R127, R129, R141 to R148, R150: `vla`, `saa`, `acc`, `lazero`, `lard` and `drain` check their addresses, wait for room
(`vla` also while four are outstanding), and queue their command with the operands as they are at issue; `vlard` reads the
32 elements at issue, rounds each once and gives them 6 cycles later; `mwait.add` and `mwait.all` wait for what was issued
before. Clauses about memory read are for a store without soft errors and outside DET mode. -/
def Sys2Proof.Spec.AdderForms : Prop :=
  (∀ p a c (sub : BitVec 12) s, Ready s p .tile [.v a, .g c] [] →
    let x := gOf s c + BitVec.ofNat 64 (64 * sub.toNat)
    Spec.accTraps s x 2048 8 (exec (.vla p a c sub) s) ∧
    (Spec.AccRange s x 2048 true → Spec.freeNow s (Spec.ofsOf x) 2048 true →
      (8 ≤ (here s).addQ.length → exec (.vla p a c sub) s = .next (deferred s 8 (.roomAdd false))) ∧
      ((here s).addQ.length < 8 → 4 ≤ ((here s).addQ.filter isVla).length →
        exec (.vla p a c sub) s = .next (deferred s 8 (.roomAdd true))) ∧
      ((here s).addQ.length < 8 → ((here s).addQ.filter isVla).length < 4 →
        let r := Spec.take1 s a
        exec (.vla p a c sub) s = .next (retired s (Spec.addQueued s r.1 (.vla (Spec.ofsOf x) r.2 none)) 8)))) ∧
  (∀ p a b c (sub : BitVec 12) s, Ready s p .tile [.v a, .v b, .g c] [] →
    let x := gOf s c + BitVec.ofNat 64 (64 * sub.toNat)
    Spec.accTraps s x 2048 8 (exec (.vlaP p a b c sub) s) ∧
    (Spec.AccRange s x 2048 true → Spec.freeNow s (Spec.ofsOf x) 2048 true →
      (here s).addQ.length < 8 → ((here s).addQ.filter isVla).length < 4 →
        let r := Spec.take2 s a b
        exec (.vlaP p a b c sub) s =
          .next (retired s (Spec.addQueued s r.1 (.vla (Spec.ofsOf x) r.2.1 (some r.2.2))) 8))) ∧
  (∀ p rm d a c (sub : BitVec 12) s, Ready s p .tile [.g a, .g c] [vdst d] →
    let x := gOf s c + BitVec.ofNat 64 (64 * sub.toNat)
    (rm = 4 → exec (.vlard p rm d a c sub) s = .next (trapTaken s 8 .illegal 0)) ∧
    (rm ≠ 4 → Spec.accTraps s x 2048 8 (exec (.vlard p rm d a c sub) s)) ∧
    (rm ≠ 4 → Spec.AccRange s x 2048 false → Spec.freeNow s (Spec.ofsOf x) 2048 false → (here s).errs = [] →
      s.det s.cur.1 = false → ∃ (v : VWord) (e : Fin 32 → BitVec 512),
        (∀ i : Fin 32, Spec.holds (here s) (Spec.ofsOf x + 64 * i.val) 64 (e i).toNat) ∧
        (∀ i : Fin 32, (v.extractLsb' (32 * i.val) 32).toNat = readLa (e i) (sigmaVal (Spec.scaleArg s a)) rm) ∧
        exec (.vlard p rm d a c sub) s = .next (retired s (putV s d v 6) 8))) ∧
  (∀ p ty n off (a : Scale) b c s, Ready s p .tile (scaleSrcs a ++ [.g b, .g c]) [] →
    let x := Spec.tileAddr s c off
    let i := Instr.saa p ty n off a b c
    Spec.accTraps s x 65536 8 (exec i s) ∧
    (Spec.AccRange s x 65536 true →
      (∀ info, Spec.ptRefused (here s) n (ty == 5) info → exec i s = .next (trapTaken s 8 .ptstate info)) ∧
      (Spec.ptReadable (here s) n (ty == 5) →
        ((here s).v.bstate = 2 → exec i s = .next (deferred s 8 .release)) ∧
        ((here s).v.bstate ≠ 2 → 8 ≤ (here s).addQ.length → exec i s = .next (deferred s 8 (.roomAdd false))) ∧
        ((here s).v.bstate ≠ 2 → (here s).addQ.length < 8 →
          let cmd (g : Option VWord) : AddOp :=
            .saa n (ty == 5) (Spec.ofsOf x) g (Spec.scaleArg s b) ((here s).ptOf n.toNat).last
          match a with
          | .one => exec i s = .next (retired s (Spec.addQueued s s (cmd none)) 8)
          | .reg v => exec i s = .next (retired s (Spec.addQueued s (Spec.take1 s v).1 (cmd (some (Spec.take1 s v).2))) 8))))) ∧
  (∀ p ty n off b c s, Ready s p .tile [.g b, .g c] [] →
    let x := Spec.tileAddr s c off
    let i := Instr.acc p ty n off b c
    Spec.accTraps s x 65536 8 (exec i s) ∧
    (Spec.AccRange s x 65536 true →
      (∀ info, Spec.ptRefused (here s) n (ty == 5) info → exec i s = .next (trapTaken s 8 .ptstate info)) ∧
      (Spec.ptReadable (here s) n (ty == 5) → (here s).v.bstate ≠ 2 → (here s).addQ.length < 8 →
        exec i s = .next (retired s (Spec.addQueued s s
          (.acc n (ty == 5) (Spec.ofsOf x) ((gOf s b).extractLsb' 0 8).toInt ((here s).ptOf n.toNat).last)) 8)))) ∧
  (∀ p off c s, Ready s p .tile [.g c] [] →
    let x := Spec.tileAddr s c off
    Spec.accTraps s x 65536 8 (exec (.lazero p off c) s) ∧
    (Spec.AccRange s x 65536 true → (here s).v.bstate ≠ 2 → (here s).addQ.length < 8 →
      exec (.lazero p off c) s = .next (retired s (Spec.addQueued s s (.lazero (Spec.ofsOf x))) 8))) ∧
  (∀ p z rm off a b c s, Ready s p .tile [.g a, .g b, .g c] [] →
    let x := Spec.tileAddr s c off
    let d := Spec.ofsOf (gOf s a)
    let o := Spec.ofsOf x
    let i := Instr.lard p z rm off a b c
    (rm = 4 → exec i s = .next (trapTaken s 8 .illegal 0)) ∧
    (rm ≠ 4 → Spec.Block s (gOf s a) 128 4096 true → Spec.accTraps s x 65536 8 (exec i s)) ∧
    (rm ≠ 4 → Spec.Block s (gOf s a) 128 4096 true → Spec.AccRange s x 65536 z →
      (d < o + 65536 ∧ o < d + 4096 → exec i s = .next (trapTaken s 8 .prot 1)) ∧
      (¬ (d < o + 65536 ∧ o < d + 4096) → Spec.freeNow s d 4096 (z || versionedAt (here s).v.partw d) →
        Spec.freeNow s o 65536 false → (here s).addQ.length < 8 →
        exec i s = .next (retired s (Spec.addQueued s s (.lard d o (Spec.scaleArg s b) rm z)) 8)))) ∧
  (∀ p z ct a b (imm : BitVec 36) s, Ready s p .tile [.g a, .g b] [] →
    let dst := gOf s b + imm.signExtend 64
    let o := Spec.ofsOf (gOf s a)
    let i := Instr.drain p z ct a b imm
    Spec.accTraps s (gOf s a) 65536 12 (exec i s) ∧
    (Spec.AccRange s (gOf s a) 65536 z →
      (dst.toNat % 64 ≠ 0 → exec i s = .next (trapTaken s 12 .misalign 0)) ∧
      (dst.toNat % 64 = 0 → dst.toNat / 2 ^ 21 % 2 ^ 23 ≠ 0 → exec i s = .next (trapTaken s 12 .prot 0)) ∧
      (dst.toNat % 64 = 0 → dst.toNat / 2 ^ 21 % 2 ^ 23 = 0 → (here s).v.bstate ≠ 2 →
        exec i s = .next (retired s (s.modTile s.cur.1 (fun T =>
          { T with addSeq := T.addSeq + 1
                   drains := T.drains ++ [{ ea := o, dst := dst, ct := ct, z := z, seq := T.addSeq + 1, strand := s.cur.2,
                                            pc := (self s).pc }] })) 12)))) ∧
  (∀ p s, Ready s p .tile [] [] →
    let arr := (here s).arrQ.map (fun c => c.seq) ++ (here s).arrFly.map (fun f => f.cmd.seq)
    let add := (here s).addQ.map (fun c => c.seq) ++
      ((here s).drains.filter (fun d => decide (d.elem < 1024))).map (fun d => d.seq)
    (add = [] → exec (.mwaitAdd p) s = .next (retired s s 8)) ∧
    (add ≠ [] → exec (.mwaitAdd p) s = .next (blocked s s 8 (.mwait [] add))) ∧
    (arr = [] → add = [] → exec (.mwaitAll p) s = .next (retired s s 8)) ∧
    (arr ≠ [] ∨ add ≠ [] → exec (.mwaitAll p) s = .next (blocked s s 8 (.mwait arr add))))

/-- R135, R136, R39: each element that its masks keep is the exact sum of the products of its group, rounded once to FP32
(an exact integer for INT8), and has its keep bit; a masked element is +0 with keep bit 0 whatever its inputs hold. -/
def Obligations.GroupSums : Prop :=
  ∀ (ty : BitVec 4) (x : Bool) (n : Nat) (ua ub : Unit_) (rows cols : BitVec 32),
    let per := if ty = 9 then 128 else if ty = 12 then 512 else if ty = 10 ∨ ty = 11 then 128 else 256
    let tb := if x then (if ty = 10 then 11 else 10) else ty
    (∀ q ∈ mmaTiles ty x n ua ub rows cols, q.1 = n ∨ (q.1 = n + 1 ∧ (ty = 10 ∨ ty = 11))) ∧
    (∀ g, g < (if ty = 10 ∨ ty = 11 then 2 else 1) → ∃ v, (n + g, v) ∈ mmaTiles ty x n ua ub rows cols ∧
      ∀ i j, i < 32 → j < 32 →
        let terms := (List.range per).map (fun k => mulVal (unitVal ty ua i (g * per + k)) (unitVal tb ub j (g * per + k)))
        v.keep.getLsbD (32 * i + j) = (rows.getLsbD i && cols.getLsbD j) ∧
        v.vals.getD (32 * i + j) 0 =
          if rows.getLsbD i && cols.getLsbD j then
            (if ty = 7 then BitVec.ofInt 32 ((terms.map (scaledInt 0)).sum)
             else BitVec.ofNat 32 (exactThenRound fp32 0 0 terms))
          else 0)

/-- R47 to R49, R108: AddLA truncates the addend alone toward zero to a multiple of 2^-256 and adds integers modulo 2^384;
a NaN, an infinity or an addend of magnitude 2^127 or more sets its flags and leaves the limbs; the flags stay set; limb 7 is
written zero. So the limbs and flags do not depend on the order of additions. An element with NaN, or both infinities,
reads as the canonical NaN. -/
def Obligations.LongAccumulator : Prop :=
  (∀ (e : BitVec 512) (neg : Bool) (m : Nat) (k : Nat), m / 2 ^ k < 2 ^ 383 →
    let r := addLa e (.fin neg m (-256 - (k : Int)))
    r.extractLsb' 0 384 = e.extractLsb' 0 384 + BitVec.ofInt 384 (if neg then -((m / 2 ^ k : Nat) : Int) else (m / 2 ^ k : Nat)) ∧
    r.extractLsb' 384 4 = e.extractLsb' 384 4 ∧ r.extractLsb' 388 124 = 0) ∧
  (∀ (e : BitVec 512) (neg : Bool) (m : Nat) (k : Nat), m * 2 ^ k < 2 ^ 383 →
    let r := addLa e (.fin neg m ((k : Int) - 256))
    r.extractLsb' 0 384 = e.extractLsb' 0 384 + BitVec.ofInt 384 (if neg then -((m * 2 ^ k : Nat) : Int) else (m * 2 ^ k : Nat)) ∧
    r.extractLsb' 384 4 = e.extractLsb' 384 4 ∧ r.extractLsb' 388 124 = 0) ∧
  (∀ (e : BitVec 512) (neg : Bool) (m : Nat) (k : Nat), 2 ^ 383 ≤ m * 2 ^ k →
    let r := addLa e (.fin neg m ((k : Int) - 256))
    r.extractLsb' 0 384 = e.extractLsb' 0 384 ∧
    r.extractLsb' 384 4 = e.extractLsb' 384 4 ||| (if neg then 10 else 9)) ∧
  (∀ (e : BitVec 512) (neg : Bool) (m : Nat) (k : Nat), 2 ^ 383 ≤ m / 2 ^ k →
    let r := addLa e (.fin neg m (-256 - (k : Int)))
    r.extractLsb' 0 384 = e.extractLsb' 0 384 ∧
    r.extractLsb' 384 4 = e.extractLsb' 384 4 ||| (if neg then 10 else 9)) ∧
  (∀ e : BitVec 512,
    (addLa e .nan).extractLsb' 0 388 = (e ||| BitVec.ofNat 512 (4 * 2 ^ 384)).extractLsb' 0 388 ∧
    (addLa e (.inf false)).extractLsb' 0 388 = (e ||| BitVec.ofNat 512 (2 ^ 384)).extractLsb' 0 388 ∧
    (addLa e (.inf true)).extractLsb' 0 388 = (e ||| BitVec.ofNat 512 (2 * 2 ^ 384)).extractLsb' 0 388) ∧
  (∀ (e : BitVec 512) (a b : Val), addLa (addLa e a) b = addLa (addLa e b) a) ∧
  (∀ (e : BitVec 512) (sg : Val) rm, e.getLsbD 386 = true ∨ (e.getLsbD 384 = true ∧ e.getLsbD 385 = true) →
    readLa e sg rm = 0x7FC00000)

/-! ### The sampler -/

namespace Sys2Proof.Spec

open Sys2Proof Sys2Proof.Machine

/-- The working copy of a range of the own store (R193). -/
def working (s : State) (o len : Nat) : List Byte := (here s).mem.bytes (place s o) len

/-- Reads of the working copy give its bytes: outside DET mode, in a store without soft errors (R207, R354). -/
abbrev plainReads (s : State) : Prop := (here s).errs = [] ∧ s.det s.cur.1 = false

/-- The address of a table (R160, R162): in a scratch or accumulator partition of the own store. -/
structure TableRange (s : State) (x : Word) (len : Nat) : Prop where
  aligned : x.toNat % 64 = 0
  own : namesOwn s x
  part : liesIn (here s).v.partw 2 (ofsOf x) len ∨ liesIn (here s).v.partw 3 (ofsOf x) len

/-- The traps of an address in the own store (R155, R160, R162, R167). -/
abbrev storeTraps (s : State) (x : Word) (len plen : Nat) (part : Prop) (r : Host.Outcome State Fault Refusal) : Prop :=
  (x.toNat % 64 ≠ 0 → r = .next (trapTaken s plen .misalign 0)) ∧
  (x.toNat % 64 = 0 → (¬ namesOwn s x ∨ ¬ part) → 0 < len → r = .next (trapTaken s plen .prot 0))

/-- A counter of two g registers (R162): even, from 2 to 30. -/
def pairOf (s : State) (b : BitVec 5) : BitVec 128 := (self s).rg (b + 1) ++ (self s).rg b

/-- The counter pair written (R126, R162). -/
def putPair (s s' : State) (b : BitVec 5) (v : BitVec 128) : State :=
  s'.modStrand s.cur.1 s.cur.2 (fun S => (S.wg b (v.setWidth 64)).wg (b + 1) (v.extractLsb' 64 64))

/-- Sampler commands issued before by any strand of the tile (R167). -/
def samplerWork (s : State) : List Nat :=
  (((here s).arrQ ++ (here s).arrFly.map (fun f => f.cmd)).filter sampCmd).map (fun c => c.seq)

/-- Has the strand's wait for them been served, or was there none (R167)? -/
abbrev samplerDone (s : State) : Prop := (self s).passed = true ∨ samplerWork s = []

end Sys2Proof.Spec

/-- R155: `nrm.cur` sets both tap cursors, whose values must be below 4,096 and multiples of 8 (SAMPLE, INFO 2); `nrm.st` and
`nrm.ld` move words s to s + m - 1 of both norm files to or from the own store, with 1 to 4,096 words inside the files
(SAMPLE, INFO 3), and hold the strand ceil(m/8) cycles; all wait with SST.WAIT = 3 for tapped fills in flight. -/
def Sys2Proof.Spec.NormForms : Prop :=
  (∀ p a b s, Ready s p .tile [.g a, .g b] [] →
    let x := (gOf s a).toNat
    let y := (gOf s b).toNat
    ((4096 ≤ x ∨ x % 8 ≠ 0 ∨ 4096 ≤ y ∨ y % 8 ≠ 0) → exec (.nrmCur p a b) s = .next (trapTaken s 8 .sample 2)) ∧
    (x < 4096 → x % 8 = 0 → y < 4096 → y % 8 = 0 →
      (tapFlight (here s) = true → exec (.nrmCur p a b) s = .next (deferred s 8 .tapped)) ∧
      (tapFlight (here s) = false → exec (.nrmCur p a b) s = .next (retired s (s.modTile s.cur.1 (fun T =>
        { T with samp := { T.samp with cura := BitVec.ofNat 13 x, curb := BitVec.ofNat 13 y } })) 8)))) ∧
  (∀ p a b c s, Ready s p .tile [.g a, .g b, .g c] [] →
    let x := (gOf s a).toNat
    let m := (gOf s b).toNat
    let o := Spec.ofsOf (gOf s c)
    (m = 0 ∨ 4096 < m ∨ 4096 < x + m → exec (.nrmSt p a b c) s = .next (trapTaken s 8 .sample 3) ∧
      exec (.nrmLd p a b c) s = .next (trapTaken s 8 .sample 3)) ∧
    (0 < m → x + m ≤ 4096 →
      Spec.storeTraps s (gOf s c) (8 * m) 8 (Spec.reachable (here s).v.partw o (8 * m)) (exec (.nrmSt p a b c) s) ∧
      Spec.storeTraps s (gOf s c) (8 * m) 8 (Spec.reachable (here s).v.partw o (8 * m)) (exec (.nrmLd p a b c) s)) ∧
    (0 < m → x + m ≤ 4096 → tapFlight (here s) = true →
      (Spec.Block s (gOf s c) 64 (8 * m) true → exec (.nrmSt p a b c) s = .next (deferred s 8 .tapped)) ∧
      (Spec.Block s (gOf s c) 64 (8 * m) false → exec (.nrmLd p a b c) s = .next (deferred s 8 .tapped))) ∧
    (0 < m → x + m ≤ 4096 → tapFlight (here s) = false → (here s).errs = [] → Spec.Block s (gOf s c) 64 (8 * m) true →
      Spec.freeNow s o (8 * m) (versionedAt (here s).v.partw o) → ∀ s',
      putLocal s s.cur.1 s.cur.2 (s.cur.1, o) .plain
        (words32 ((List.range m).map (fun k => normGet (here s).samp.na (x + k)) ++
          (List.range m).map (fun k => normGet (here s).samp.nb (x + k)))) = .ok s' →
      exec (.nrmSt p a b c) s = .next (blocked s s' 8 (.until (s'.cycle + (m + 7) / 8)))) ∧
    (0 < m → x + m ≤ 4096 → tapFlight (here s) = false → Spec.Block s (gOf s c) 64 (8 * m) false →
      Spec.freeNow s o (8 * m) false → Spec.plainReads s → ∃ s',
      exec (.nrmLd p a b c) s = .next (blocked s s' 8 (.until (s.cycle + (m + 7) / 8))) ∧
      (∀ k, k < m →
        normGet (here s').samp.na (x + k) = wordAt (Spec.working s o (8 * m)) k ∧
        normGet (here s').samp.nb (x + k) = wordAt (Spec.working s o (8 * m)) (m + k)) ∧
      (∀ k, (k < x ∨ x + m ≤ k) →
        normGet (here s').samp.na k = normGet (here s).samp.na k ∧
        normGet (here s').samp.nb k = normGet (here s).samp.nb k) ∧
      s'.cur = s.cur ∧ (∀ t, (s'.tile t).mem = (s.tile t).mem ∧ (s'.tile t).strands = (s.tile t).strands)))

/-- R160, R162, R163, R166: `atb` checks its range (SAMPLE, INFO 1) and its table, waits for tapped fills and hands the build
to the sampler; `smp` and `smpl` check theirs, queue their command with the key and the counter as they are, mark their
partial tile PENDING and advance the counter by 4 or by 4·NMAX; a record outside its limits traps SAMPLE with INFO 4;
`sdraw` advances it by 4, marks D empty and draws at once or behind the builds issued before. -/
def Sys2Proof.Spec.SamplerCommands : Prop :=
  (∀ p ct a b c s, Ready s p .tile [.g a, .g b, .g c] [] →
    let s0 := (gOf s a).toNat
    let l := (gOf s b).toNat
    let o := Spec.ofsOf (gOf s c)
    let i := Instr.atb p ct a b c
    (l = 0 ∨ 4096 < l ∨ 4096 < s0 + l → exec i s = .next (trapTaken s 12 .sample 1)) ∧
    (0 < l → s0 + l ≤ 4096 →
      Spec.storeTraps s (gOf s c) (64 + 16 * l) 12 (Spec.liesIn (here s).v.partw 2 o (64 + 16 * l) ∨
        Spec.liesIn (here s).v.partw 3 o (64 + 16 * l)) (exec i s)) ∧
    (0 < l → s0 + l ≤ 4096 → Spec.TableRange s (gOf s c) (64 + 16 * l) → claimed (here s).v o (64 + 16 * l) = false →
      (tapFlight (here s) = true → exec i s = .next (deferred s 12 .tapped)) ∧
      (tapFlight (here s) = false → (here s).v.bstate ≠ 2 → exec i s = .next (retired s (s.modTile s.cur.1 (fun T =>
        { T with arrSeq := T.arrSeq + 1
                 samp := { T.samp with atbs := T.samp.atbs ++
                   [{ tab := o, s0 := s0, l := l, ct := ct, strand := s.cur.2, seq := T.arrSeq + 1 }] } })) 12)))) ∧
  (∀ p ty x n a b c s, Ready s p .tile ([.g a] ++ pairSrcs ⟨b, false⟩ ++ [.g c]) [] →
    let i := Instr.smp p ty x n a b c
    let o := Spec.ofsOf (gOf s c)
    (b.toNat % 2 = 1 ∨ b.toNat < 2 → exec i s = .next (trapTaken s 8 .illegal 0)) ∧
    (b.toNat % 2 = 0 → 2 ≤ b.toNat →
      Spec.storeTraps s (gOf s c) 64 8 (Spec.liesIn (here s).v.partw 2 o 64 ∨ Spec.liesIn (here s).v.partw 3 o 64) (exec i s) ∧
      (Spec.TableRange s (gOf s c) 64 →
        (4 ≤ (here s).arrQ.length → exec i s = .next (deferred s 8 .roomArr)) ∧
        ((here s).arrQ.length < 4 → exec i s = .next (retired s (Spec.putPair s
          (Spec.ptPending (Spec.arrQueued s s (.smp ty x n (gOf s a) (Spec.pairOf s b) o)) s.cur.1 n.toNat false)
            b (Spec.pairOf s b + 4)) 8))))) ∧
  (∀ p ty x n ct a b c s, Ready s p .tile ([.g a] ++ pairSrcs ⟨b, false⟩ ++ [.g c]) [] →
    let i := Instr.smpl p ty x n ct a b c
    let o := Spec.ofsOf (gOf s c)
    let bs := Spec.working s o 64
    (b.toNat % 2 = 1 ∨ b.toNat < 2 → exec i s = .next (trapTaken s 12 .illegal 0)) ∧
    (b.toNat % 2 = 0 → 2 ≤ b.toNat → Spec.Block s (gOf s c) 64 64 false → Spec.plainReads s →
      (smplRec bs = none → exec i s = .next (trapTaken s 12 .sample 4)) ∧
      (∀ r, smplRec bs = some r → Spec.TableRange s r.tab 64 → Spec.AccRange s r.lat 65536 true →
        Spec.freeNow s o 64 true →
        (4 ≤ (here s).arrQ.length → exec i s = .next (deferred s 12 .roomArr)) ∧
        ((here s).arrQ.length < 4 → exec i s = .next (retired s (Spec.putPair s
          (Spec.ptPending (Spec.arrQueued s s (.smpl ty x n (gOf s a) (Spec.pairOf s b) ct
            { r with tab := BitVec.ofNat 64 (Spec.ofsOf r.tab), lat := BitVec.ofNat 64 (Spec.ofsOf r.lat) }))
            s.cur.1 n.toNat false) b (Spec.pairOf s b + BitVec.ofNat 128 (4 * r.nmax))) 12))))) ∧
  (∀ p nx d a b c s, Ready s p .tile ([.g a] ++ pairSrcs ⟨b, false⟩ ++ [.g c]) [.w d] →
    let i := Instr.sdraw p nx d a b c
    let o := Spec.ofsOf (gOf s c)
    let q : SdrawReq := { strand := s.cur.2, gen := (self s).gen, d := d, key := gOf s a, ctr := Spec.pairOf s b, tab := o,
                          after := (here s).arrSeq }
    let s1 := modSelf (if nx then s else Spec.putPair s s b (Spec.pairOf s b + 4)) (fun S => S.markEmpty (.w d))
    (b.toNat % 2 = 1 ∨ b.toNat < 2 → exec i s = .next (trapTaken s 8 .illegal 0)) ∧
    (b.toNat % 2 = 0 → 2 ≤ b.toNat → Spec.TableRange s (gOf s c) 64 →
      ((∃ t ∈ (here s).samp.atbs, t.seq ≤ (here s).arrSeq) → exec i s = .next (retired s (s1.modTile s.cur.1 (fun T =>
        { T with samp := { T.samp with draws := T.samp.draws ++ [q] } })) 8)) ∧
      ((∀ t ∈ (here s).samp.atbs, (here s).arrSeq < t.seq) →
        (∀ s2 ds, draws s1 s.cur.1 s.cur.2.val o q.key q.ctr = .ok (s2, some ds) → ds.length = 8 → ∃ v : VWord,
          (∀ k : Fin 8, (v.extractLsb' (32 * k.val) 32).toNat = (ds.getD k.val (0, 0)).1 % 2 ^ 32 ∧
            v.extractLsb' (32 * (k.val + 8)) 32 = (ds.getD k.val (0, 0)).2) ∧ v.extractLsb' 512 512 = 0 ∧
          exec i s = .next (retired s (s2.post 8 (.resultDelivery s.cur.1 s.cur.2 q.gen (.w d) v)) 8)) ∧
        (∀ s2, draws s1 s.cur.1 s.cur.2.val o q.key q.ctr = .ok (s2, none) →
          exec i s = .next (retired s ((s2.modTile s.cur.1 (fun T => { T with samp := { T.samp with badt := true } })).post 8
            (.resultDelivery s.cur.1 s.cur.2 q.gen (.w d) (BitVec.allOnes 1024))) 8)))))

/-- R164, R167, R168, Table 8.4: `svar.up` and `sclr` stand in the array queue; `svar.rd` and `svar.inv` give SMST and 1/n,
`svar.st` and `svar.ld` move n, STOP, mean and M2 to and from a record of 320 bytes, each once the sampler commands issued
before have completed, for which the strand waits with SST.WAIT = 5; `sclr.all` also waits for tapped fills. -/
def Sys2Proof.Spec.SamplerState : Prop :=
  (∀ p n (r : BitVec 5) s, Ready s p .tile [] [] →
    (∀ info, Spec.ptRefused (here s) n false info → exec (.svarUp p n r) s = .next (trapTaken s 8 .ptstate info)) ∧
    (Spec.ptReadable (here s) n false →
      (4 ≤ (here s).arrQ.length → exec (.svarUp p n r) s = .next (deferred s 8 .roomArr)) ∧
      ((here s).arrQ.length < 4 → exec (.svarUp p n r) s =
        .next (retired s (Spec.arrQueued s s (.svarUp n r.toNat ((here s).ptOf n.toNat).last)) 8)))) ∧
  (∀ p d s, Ready s p .tile [] [.g d] →
    let m := (here s).samp
    let smst : Word := (m.n ++ m.curb.setWidth 12 ++ m.cura.setWidth 12 ++ (0 : BitVec 16) ++ BitVec.ofBool m.stop ++ (0 : BitVec 2) ++
      BitVec.ofBool m.novf ++ BitVec.ofBool m.tapx ++ BitVec.ofBool m.spec ++ BitVec.ofBool m.badt ++ (0 : BitVec 1) : BitVec 64)
    (¬ Spec.samplerDone s → exec (.svarRd p d) s = .next (blocked s s 8 (.samp (Spec.samplerWork s))) ∧
      exec (.svarInv p d) s = .next (blocked s s 8 (.samp (Spec.samplerWork s)))) ∧
    (Spec.samplerDone s → (here s).errs = [] →
      exec (.svarRd p d) s = .next (retired s (putG s d smst) 8) ∧
      exec (.svarInv p d) s = .next (retired s (putG s d
        (if m.n = 0 then 0x7F800000 else BitVec.ofNat 64 (divFp fp32 0 0 (.fin false 1 0) (.fin false m.n.toNat 0) % 2 ^ 32))) 8))) ∧
  (∀ p c s, Ready s p .tile [.g c] [] →
    let m := (here s).samp
    let o := Spec.ofsOf (gOf s c)
    Spec.storeTraps s (gOf s c) 320 8 (Spec.reachable (here s).v.partw o 320) (exec (.svarSt p c) s) ∧
    Spec.storeTraps s (gOf s c) 320 8 (Spec.reachable (here s).v.partw o 320) (exec (.svarLd p c) s) ∧
    (Spec.Block s (gOf s c) 64 320 true → Spec.samplerDone s → (here s).errs = [] →
      Spec.freeNow s o 320 (versionedAt (here s).v.partw o) → ∀ s',
      putLocal s s.cur.1 s.cur.2 (s.cur.1, o) .plain
        (bytesOf 4 m.n.toNat ++ bytesOf 60 (if m.stop then 1 else 0) ++ words32 m.mean.toList ++ words32 m.m2.toList) = .ok s' →
      exec (.svarSt p c) s = .next (retired s s' 8)) ∧
    (Spec.Block s (gOf s c) 64 320 false → Spec.samplerDone s → Spec.freeNow s o 320 false → Spec.plainReads s →
      let bs := Spec.working s o 320
      exec (.svarLd p c) s = .next (retired s (s.modTile s.cur.1 (fun T => { T with samp := { T.samp with
        n := BitVec.ofNat 16 (natOf (bs.take 2)), stop := (bs.getD 4 0).getLsbD 0,
        mean := Vector.ofFn (fun j => wordAt bs (16 + j.val)), m2 := Vector.ofFn (fun j => wordAt bs (48 + j.val)) } })) 8))) ∧
  (∀ p s, Ready s p .tile [] [] →
    (4 ≤ (here s).arrQ.length → exec (.sclrVar p) s = .next (deferred s 8 .roomArr) ∧
      exec (.sclrErr p) s = .next (deferred s 8 .roomArr)) ∧
    ((here s).arrQ.length < 4 →
      exec (.sclrVar p) s = .next (retired s (Spec.arrQueued s s (.sclr 0)) 8) ∧
      exec (.sclrErr p) s = .next (retired s (Spec.arrQueued s s (.sclr 1)) 8) ∧
      (tapFlight (here s) = true → exec (.sclrAll p) s = .next (deferred s 8 .tapped)) ∧
      (tapFlight (here s) = false → exec (.sclrAll p) s = .next (retired s (Spec.arrQueued s s (.sclr 2)) 8))))

/-! ### Streams, copy engines, the sluice crossbar -/

namespace Sys2Proof.Spec

open Sys2Proof Sys2Proof.Machine

/-- A range of local space that an engine may use (R97, R181): data partitions of the own store, or the scratch partition
of a sibling of an unfolded group, outside DET mode. -/
abbrev engineRange (s : State) (x : Word) (n : Nat) (u : TileId) (o : Nat) : Prop :=
  o = ofsOf x ∧
  ((namesOwn s x ∧ u = s.cur.1 ∧ reachable (here s).v.partw o n) ∨
   (¬ namesOwn s x ∧ 2 ^ 24 ≤ x.toNat ∧ x.toNat < 2 ^ 25 ∧ u = tileAt (clusterOf s.cur.1) (x.toNat / 2 ^ 21 % 8) ∧
     siblingOk s s.cur.1 u = true ∧ liesIn (s.tile u).v.partw 2 o n ∧ s.det s.cur.1 = false))

/-- A length that a channel takes (R181). -/
abbrev copyLen (d n : Nat) : Prop := 16 ≤ n ∧ n ≤ 2 ^ 31 ∧ n % 16 = 0 ∧ (d = 3 → n % 256 = 0)

/-- Operands of a command that R181 lets pass: spaces `d` and `sp`, addresses and length. -/
structure CopyOk (s : State) (d sp : Nat) (dst src : Word) (n : Nat) : Prop where
  fifo : d = 3 → dst.toNat ≤ 1
  len : copyLen d n
  dstAligned : d ≠ 3 → dst.toNat % 16 = 0
  srcAligned : sp ≠ 3 → src.toNat % 16 = 0
  dstRange : d = 0 → ∃ u o, engineRange s dst n u o
  srcRange : sp = 0 → ∃ u o, engineRange s src n u o
  apart : d = 0 → sp = 0 → ∀ u o v q, engineRange s dst n u o → engineRange s src n v q → u = v → o + n ≤ q ∨ q + n ≤ o
  det : d = 0 → s.det s.cur.1 = true → foreAt (here s).v.partw (ofsOf dst) = false

/-- Is the destination one that waits for the release once the arrival has been sent (R204)? -/
abbrev heldBack (s : State) (d : Nat) (dst : Word) : Prop :=
  (here s).v.bstate = 2 ∧ d ≠ 3 ∧ ¬ (d = 0 ∧ namesOwn s dst ∧ foreAt (here s).v.partw (ofsOf dst) = true)

/-- A command joins the tile's channel (R180) with what is outstanding of the strand (R182). -/
def channelled (s : State) (c : CopyCmd) : State :=
  s.modTile s.cur.1 (fun T => { T with chan := { T.chan with
    seq := T.chan.seq + 1
    cmds := T.chan.cmds ++ [{ c with seq := T.chan.seq + 1, strand := s.cur.2, pc := (self s).pc, pushed := s.cycle,
                                     after := beforeOf (self s) }] } })

/-- What a push comes to (R180, R204). -/
abbrev pushes (s : State) (len : Nat) (c : CopyCmd) (r : Host.Outcome State Fault Refusal) : Prop :=
  (heldBack s c.dsp.toNat c.dst → r = .next (deferred s len .release)) ∧
  (¬ heldBack s c.dsp.toNat c.dst → 16 ≤ (here s).chan.cmds.length → r = .next (deferred s len .roomChan)) ∧
  (¬ heldBack s c.dsp.toNat c.dst → (here s).chan.cmds.length < 16 → r = .next (retired s (channelled s c) len))

/-- Entry `e` of the range of gather patterns that the monitor gave the context (R189). -/
abbrev patternAt (s : State) (e : BitVec 4) (i : Nat) : Prop :=
  let x := s.ctx (here s).ctx
  e.toNat < x.sgtN ∧ i = x.sgtLo + e.toNat ∧ i < 16

end Sys2Proof.Spec

/-- R172 to R174, Table 9.1: `sbind` reads its 64-byte record from the own store (PROT, MISALIGN), refuses one that breaks
Table 9.1 or asks for a combination of check 3 (STREAM, INFO 3), a start beyond the last piece (STREAM, INFO 4) and a range
that no data partition holds (PROT), and else binds from the start index on; a binding that starts at its end is exhausted
at once; a FIFO with a live binding makes the strand wait with SST.WAIT = 3. The clauses about a record are for a store
without soft errors and outside DET mode. -/
def Sys2Proof.Spec.StreamBindings : Prop :=
  (∀ p (out cnt : Bool) ct (d : BitVec 3) a b c (start : Word) s, Ready s p .tile [.g a, .g b, .g c] [] →
    let i : Instr := if out then .sbindOut p cnt ct d a b c start else .sbindIn p cnt ct d a b c start
    let o := Spec.ofsOf (gOf s a)
    let r := BitVec.ofNat 512 (natOf (Spec.working s o 64))
    let ofs := gOf s b
    ((¬ Spec.namesOwn s (gOf s a) ∨ ¬ Spec.reachable (here s).v.partw o 64) → exec i s = .next (trapTaken s 16 .prot 0)) ∧
    (Spec.namesOwn s (gOf s a) → Spec.reachable (here s).v.partw o 64 →
      (o % 64 ≠ 0 → exec i s = .next (trapTaken s 16 .misalign 0)) ∧
      (o % 64 = 0 → Spec.plainReads s →
        (recShape r ofs = false ∨ recType r = 12 ∨ recSlab r = true ∨ recTap r = true →
          exec i s = .next (trapTaken s 16 .stream 3)) ∧
        (recShape r ofs = true → recType r ≠ 12 → recSlab r = false → recTap r = false →
          (c.r ≠ 0 → exec i s = .next (trapTaken s 16 .illegal 0)) ∧
          (c.r = 0 → recPieces r < start.toNat → exec i s = .next (trapTaken s 16 .stream 4)) ∧
          (c.r = 0 → start.toNat ≤ recPieces r → ∀ rs, recBox s s.cur.1 r ofs (gOf s c) true out = .ok rs →
            (∀ x ∈ (o, 64) :: rs, ownOverlap (here s) s.cur.2 x.1 x.2 = []) →
            ∃ s', exec i s = .next (retired s s' 16) ∧
              ((self s').q[d.toNat] = { valid := true, rcd := r, out := out, cnte := cnt, ct := ct
                                        exh := decide (start.toNat = recPieces r), recOfs := BitVec.ofNat 21 o
                                        next := start.toNat, ofs := ofs, pc := (self s).pc, ahead := start.toNat
                                        after := beforeOf (self s) }) ∧
              (∀ k : Fin 8, k.val ≠ d.toNat → (self s').q[k] = (self s).q[k]) ∧
              (self s').g = (self s).g ∧ (self s').w = (self s).w ∧ s'.cur = s.cur ∧ (here s').mem = (here s).mem ∧
              (∀ k : Fin 16, (here s').v.c[k] = (here s).v.c[k] +
                (if cnt = true ∧ start.toNat = recPieces r ∧ k.val = ct.toNat then 1 else 0))))))) ∧
  (∀ p (fb sink cnt : Bool) ct a b c (start : Word) s, Ready s p .tile [.g a, .g b, .g c] [] →
    let i : Instr := if fb then .sbindFb p sink cnt ct a b c start else .sbindFa p sink cnt ct a b c start
    let o := Spec.ofsOf (gOf s a)
    let r := BitVec.ofNat 512 (natOf (Spec.working s o 64))
    let ofs := gOf s b
    Spec.namesOwn s (gOf s a) → Spec.reachable (here s).v.partw o 64 → o % 64 = 0 → Spec.plainReads s →
      (recShape r ofs = false ∨ (recSlab r = true ∧ recTap r = true) ∨
        ((recSlab r = true ∨ recTap r = true) ∧ recType r ≠ 10 ∧ recType r ≠ 11) ∨ (sink = true ∧ recTap r = false) ∨
        recPieces r % 32 ≠ 0 ∨ (recSlab r = true ∧ recN r 0 ≠ 32) → exec i s = .next (trapTaken s 16 .stream 3)) ∧
      (recShape r ofs = true → recCombo r false sink = true →
        (c.r ≠ 0 → recType r ≠ 12 → exec i s = .next (trapTaken s 16 .illegal 0)) ∧
        ((c.r = 0 ∨ recType r = 12) →
          (recPieces r < start.toNat ∨ start.toNat % 32 ≠ 0 → exec i s = .next (trapTaken s 16 .stream 4)) ∧
          (start.toNat ≤ recPieces r → start.toNat % 32 = 0 → ∀ rs, recBox s s.cur.1 r ofs (gOf s c) false false = .ok rs →
            (∀ x ∈ (o, 64) :: rs, ownOverlap (here s) s.cur.2 x.1 x.2 = []) →
            (((here s).fifo fb).bind.live = true → exec i s = .next (deferred s 16 (.fifoBound fb))) ∧
            (((here s).fifo fb).bind.live = false → start.toNat < recPieces r → ∃ s', exec i s = .next (retired s s' 16) ∧
              ((here s').fifo fb).bind =
                { live := true, rcd := r, strand := s.cur.2, pc := (self s).pc, ofs := ofs, sbase := gOf s c, cnte := cnt
                  ct := ct, start := start.toNat, next := start.toNat, sink := sink, tap := recTap r, slab := recSlab r
                  ty := recType r, after := beforeOf (self s) } ∧
              ((here s').fifo fb).fillers = ((here s).fifo fb).fillers ++ [.binding] ∧
              (here s').fifo (!fb) = (here s).fifo (!fb) ∧ (self s').g = (self s).g ∧ s'.cur = s.cur ∧
              (here s').mem = (here s).mem)))))

/-- R177: `sunbind` ends a q binding, whose pieces written are still performed; `.fa` and `.fb` stop the fill, discard an
incomplete unit and keep complete ones; the positions are NEXT, or the start index plus 32 for each unit of the binding that
has left the FIFO; all ones where nothing is bound. -/
def Sys2Proof.Spec.Unbinding : Prop :=
  (∀ p (d : BitVec 3) s, Ready s p .tile [] [] → ∃ s', exec (.sunbind p d) s = .next (retired s s' 8) ∧
    ((self s').q[d.toNat] = {}) ∧ (∀ k : Fin 8, k.val ≠ d.toNat → (self s').q[k] = (self s).q[k]) ∧
    (∃ more : List OutPiece, (self s').rest = (self s).rest ++ more ∧
      more.map (fun x => x.data) = (self s).q[d.toNat].pend) ∧
    (self s').g = (self s).g ∧ s'.cur = s.cur ∧ (here s').v = (here s).v ∧ (here s').mem = (here s).mem) ∧
  (∀ p (fb : Bool) s, Ready s p .tile [] [] → ∃ s',
    exec (if fb then .sunbindFb p else .sunbindFa p) s = .next (retired s s' 8) ∧
    ((here s').fifo fb).bind.live = false ∧ ((here s').fifo fb).part = [] ∧
    ((here s').fifo fb).units = ((here s).fifo fb).units ∧ ((here s').fifo fb).held = ((here s).fifo fb).held ∧
    (here s').fifo (!fb) = (here s).fifo (!fb) ∧ (here s').v = (here s).v ∧ (here s').strands = (here s).strands) ∧
  (∀ p d a s, Ready s p .tile [] [.g d] →
    exec (.sunbindPos p d a) s = .next (retired s (putG s d
      (if (self s).q[a.toNat].valid then BitVec.ofNat 64 (self s).q[a.toNat].next else BitVec.allOnes 64)) 8)) ∧
  (∀ p (fb : Bool) d s, Ready s p .tile [] [.g d] →
    let b := ((here s).fifo fb).bind
    exec (if fb then .sunbindPosb p d else .sunbindPosa p d) s = .next (retired s (putG s d
      (if b.live then BitVec.ofNat 64 (b.start + 32 * b.left) else BitVec.allOnes 64)) 8))

/-- R180 to R182, R185, R204: the precise checks of `cpy` and `cpym` in the order of R181, the wait for room with
SST.WAIT = 5, and the command that joins the channel with its operands as they are at issue. -/
def Sys2Proof.Spec.CopyForms : Prop :=
  (∀ p (fn fl ct : BitVec 4) a b c crc gate s, Ready s p .tile [.g a, .g b, .g c] [] →
    let d := (fn.extractLsb' 2 2).toNat
    let sp := (fn.extractLsb' 0 2).toNat
    let n := (gOf s c).toNat
    let i := Instr.cpy p fn fl ct a b c crc gate
    ((fl.getLsbD 0 = true ∨ fl.getLsbD 2 = true) → fl.getLsbD 1 = false → exec i s = .next (trapTaken s 12 .illegal 0)) ∧
    ((fl.getLsbD 1 = true ∨ (fl.getLsbD 0 = false ∧ fl.getLsbD 2 = false)) →
      (d = 3 → 1 < (gOf s a).toNat → exec i s = .next (trapTaken s 12 .copy 3)) ∧
      ((d = 3 → (gOf s a).toNat ≤ 1) → ¬ Spec.copyLen d n → exec i s = .next (trapTaken s 12 .copy 1)) ∧
      ((d = 3 → (gOf s a).toNat ≤ 1) → Spec.copyLen d n →
        (d ≠ 3 ∧ (gOf s a).toNat % 16 ≠ 0) ∨ (sp ≠ 3 ∧ (gOf s b).toNat % 16 ≠ 0) →
        exec i s = .next (trapTaken s 12 .misalign 0)) ∧
      (Spec.CopyOk s d sp (gOf s a) (gOf s b) n → Spec.pushes s 12
        { seq := 0, strand := 0, pc := 0, dsp := fn.extractLsb' 2 2, ssp := fn.extractLsb' 0 2, dst := gOf s a
          src := gOf s b, len := n, ct := ct, fl := fl, crc := crc, gate := gate } (exec i s)))) ∧
  (∀ p (fn fl ct : BitVec 4) a b c ty x k gate s, Ready s p .tile [.g a, .g b, .g c] [] →
    let sp := (fn.extractLsb' 0 2).toNat
    let n := (gOf s c).toNat
    let i := Instr.cpym p fn fl ct a b c ty x k gate
    let legal := (ty = 7 ∨ ty = 9 ∨ ty = 10 ∨ ty = 11 ∨ ty = 12) ∧ (Spec.fp8 ty → k.getLsbD 0 = false) ∧ (x = true → Spec.fp8 ty)
    ((fn.extractLsb' 2 2 ≠ 3 ∨ fl.getLsbD 2 = true ∨ (fl.getLsbD 0 = true ∧ fl.getLsbD 1 = false) ∨ ¬ legal) →
      exec i s = .next (trapTaken s 12 .illegal 0)) ∧
    (fn.extractLsb' 2 2 = 3 → fl.getLsbD 2 = false → (fl.getLsbD 0 = false ∨ fl.getLsbD 1 = true) → legal →
      Spec.CopyOk s 3 sp (gOf s a) (gOf s b) n → Spec.pushes s 12
        { seq := 0, strand := 0, pc := 0, dsp := 3, ssp := fn.extractLsb' 0 2, dst := gOf s a, src := gOf s b, len := n
          ct := ct, fl := fl, crc := 0, gate := gate, follow := some (ty, x, k) } (exec i s)))

/-- R186, Tables 9.2, 9.3: `eng.st`, `eng.crc` and `eng.flt` read the channel's status, running CRC and fault record, whose
VALID and FAULT bits `eng.flt` clears; `eng.q` waits for every command pushed before it. -/
def Sys2Proof.Spec.ChannelStatus : Prop :=
  (∀ p d s, Ready s p .tile [] [.g d] →
    let q := (here s).chan
    (∃ v : Word, exec (.engSt p d) s = .next (retired s (putG s d v) 12) ∧
      v.extractLsb' 32 8 = q.govf ∧ (v.extractLsb' 16 8 = BitVec.ofNat 8 q.cmds.length) ∧ v.getLsbD 11 = q.park ∧
      v.getLsbD 1 = q.fault ∧ (v.getLsbD 0 = true ↔ q.cmds ≠ []) ∧
      (v.getLsbD 12 = true ↔ ∃ c, q.cmds.head? = some c ∧ c.fl.getLsbD 3 = true ∧ c.started = false) ∧
      (∀ c, q.cmds.head? = some c → c.fl.getLsbD 3 = true → c.started = false → v.extractLsb' 13 3 = c.gate) ∧
      v.extractLsb' 40 24 = 0 ∧ v.extractLsb' 24 8 = 0 ∧ v.extractLsb' 2 9 = 0) ∧
    exec (.engCrc p d) s = .next (retired s (putG s d (q.crc.setWidth 64)) 12) ∧
    ∃ s', exec (.engFlt p d) s = .next (retired s s' 12) ∧ (∀ k, (self s').rg k = (self (putG s d q.efr)).rg k) ∧
      (here s').chan.fault = false ∧ (here s').chan.efr.getLsbD 63 = false ∧
      (∀ j, j < 63 → (here s').chan.efr.getLsbD j = q.efr.getLsbD j) ∧ (here s').chan.cmds = q.cmds ∧
      (here s').mem = (here s).mem) ∧
  (∀ p s, Ready s p .tile [] [] →
    ((here s).chan.cmds = [] → exec (.engQ p) s = .next (retired s s 12)) ∧
    ((here s).chan.cmds ≠ [] →
      exec (.engQ p) s = .next (blocked s s 12 (.engq ((here s).chan.cmds.map (fun c => c.seq))))))

/-- R179, R187, R188: `cnt` sets, adds to and reads a counter, the increments of the cycle applied after a set; `sxw.set`
takes a term without its reserved bits, unless it is enabled and its condition or threshold is empty or its gate does not
exist (ILLEGAL); `sxw.clr` writes 0 and `sxw.rd` reads it; the term that stood before still counts in this cycle. -/
def Obligations.CountersAndTerms : Prop :=
  (∀ p (k : BitVec 4) (m : BitVec 8) a s, Ready s p .any [.g a] [] →
    exec (.cntSet p k m a) s = .next (retired s (modHere s (fun v =>
      { v with c := v.c.set k.toNat ((gOf s a + m.setWidth 64).setWidth 32 + v.cinc[k.toNat]) })) 8) ∧
    exec (.cntAdd p k m a) s = .next (retired s (modHere s (fun v =>
      { v with c := v.c.set k.toNat (v.c[k.toNat] + (gOf s a + m.setWidth 64).setWidth 32) })) 8)) ∧
  (∀ p (k : BitVec 4) d s, Ready s p .any [] [.g d] →
    exec (.cntRd p k d) s = .next (retired s (putG s d (((here s).v.c[k.toNat]).setWidth 64)) 8)) ∧
  (∀ p (k : BitVec 3) a s, Ready s p .control [.g a] [] →
    let w := gOf s a
    let bad := w.getLsbD 63 = true ∧ (w.extractLsb' 0 18 = 0 ∨ w.extractLsb' 24 16 = 0 ∨
      (w.getLsbD 62 = false ∧ 8 ≤ (w.extractLsb' 58 4).toNat))
    (bad → exec (.sxwSet p k a) s = .next (trapTaken s 12 .illegal 0)) ∧
    (¬ bad → ∃ s', exec (.sxwSet p k a) s = .next (retired s s' 12) ∧
      (∀ j, j < 64 → ((here s').v.terms[k.toNat]).getLsbD j =
        (w.getLsbD j && !((18 ≤ j && j ≤ 23) || (40 ≤ j && j ≤ 57)))) ∧
      (∀ j : Fin 8, j.val ≠ k.toNat → (here s').v.terms[j] = (here s).v.terms[j]) ∧
      (∀ j : Fin 8, termNow (here s') j = termNow (here s) j) ∧ (here s').strands = (here s).strands ∧
      (here s').v.c = (here s).v.c ∧ (here s').mem = (here s).mem)) ∧
  (∀ p (k : BitVec 3) s, Ready s p .control [] [] → ∃ s', exec (.sxwClr p k) s = .next (retired s s' 12) ∧
    (here s').v.terms[k.toNat] = 0 ∧ (∀ j : Fin 8, j.val ≠ k.toNat → (here s').v.terms[j] = (here s).v.terms[j]) ∧
    (∀ j : Fin 8, termNow (here s') j = termNow (here s) j) ∧ (here s').strands = (here s).strands) ∧
  (∀ p (k : BitVec 3) d s, Ready s p .tile [] [.g d] →
    exec (.sxwRd p k d) s = .next (retired s (putG s d (here s).v.terms[k.toNat]) 12))

/-- R189, R190, Tables 9.5, 9.6: `sgt.set` writes one entry of the context's range into every stack; `sgt.rd` reads it;
`sgt.flt` reads a stack's fault register and clears its VALID bit; `sgt.go` checks its length and destination and pushes the
gather as a command of the channel; a number outside the range traps PROT. -/
def Sys2Proof.Spec.GatherForms : Prop :=
  (∀ p (e : BitVec 4) (desc : Word) s, Ready s p .tile [] [] →
    ((∀ i, ¬ Spec.patternAt s e i) → exec (.sgtSet p e desc) s = .next (trapTaken s 16 .prot 0)) ∧
    (∀ i, Spec.patternAt s e i → ∃ s', exec (.sgtSet p e desc) s = .next (retired s s' 16) ∧
      (∀ k : Fin 8, s'.stk[k] = { s.stk[k] with table := s.stk[k].table.setIfInBounds i desc }) ∧
      s' = { s with stk := s'.stk })) ∧
  (∀ p (e : BitVec 4) d s, Ready s p .tile [] [.g d] →
    ((∀ i, ¬ Spec.patternAt s e i) → exec (.sgtRd p e d) s = .next (trapTaken s 16 .prot 0)) ∧
    (∀ i, Spec.patternAt s e i →
      exec (.sgtRd p e d) s = .next (retired s (putG s d ((s.stk[0].table[i]?).getD 0)) 16))) ∧
  (∀ p (k : BitVec 3) d s, Ready s p .tile [] [.g d] → ∃ s', exec (.sgtFlt p k d) s = .next (retired s s' 16) ∧
    s' = { putG s d s.stk[k.toNat].sgf with stk := s'.stk } ∧
    s'.stk[k.toNat].sgf.getLsbD 63 = false ∧
    (∀ j, j < 63 → s'.stk[k.toNat].sgf.getLsbD j = s.stk[k.toNat].sgf.getLsbD j) ∧
    (s'.stk[k.toNat].table = s.stk[k.toNat].table) ∧ (∀ j : Fin 8, j.val ≠ k.toNat → s'.stk[j] = s.stk[j])) ∧
  (∀ p (e : BitVec 4) (dst : BitVec 2) ct a b c s, Ready s p .tile [.g a, .g b, .g c] [] →
    let i := Instr.sgtGo p e dst ct a b c
    (dst = 3 ∨ (dst ≠ 0 ∧ b.r ≠ 0) → exec i s = .next (trapTaken s 16 .illegal 0)) ∧
    (dst ≠ 3 → (dst = 0 ∨ b.r = 0) →
      ((∀ j, ¬ Spec.patternAt s e j) → exec i s = .next (trapTaken s 16 .prot 0)) ∧
      (∀ j, Spec.patternAt s e j →
        let d := (s.stk[0].table[j]?).getD 0
        let n := (gOf s c).toNat
        let len := n * ((d.extractLsb' 45 12).toNat + 1) * 2 ^ (d.extractLsb' 57 2).toNat
        let sp := if dst = 0 then 0 else 3
        (n = 0 ∨ 65536 < n ∨ ¬ Spec.copyLen sp len → exec i s = .next (trapTaken s 16 .copy 1)) ∧
        (1 ≤ n → n ≤ 65536 → Spec.copyLen sp len →
          (dst = 0 → (gOf s b).toNat % 16 = 0 ∧ (∃ u o, Spec.engineRange s (gOf s b) len u o) ∧
            (s.det s.cur.1 = true → foreAt (here s).v.partw (Spec.ofsOf (gOf s b)) = false)) →
          Spec.pushes s 16
            { seq := 0, strand := 0, pc := 0, dsp := if dst = 0 then 0 else 3, ssp := 2
              dst := if dst = 0 then gOf s b else BitVec.ofNat 64 (dst.toNat - 1), src := gOf s a, len := len, ct := ct
              fl := 0, crc := 0, gate := 0, gather := some (e.toNat, j) } (exec i s)))))

/-! ### Steps of the array, the adder, the drain engine and the sampler -/

namespace Sys2Proof.Spec

open Sys2Proof Sys2Proof.Machine

/-- The state in which the hardware step `e` is to be taken. -/
def on (s : State) (e : Ev) : State := { s with ev := some e }

/-- A range of the own store whose lines are all logged, with no other tile's writes on them, in a sound store outside DET
mode: a write to it changes its bytes and nothing that another agent may observe differently. -/
structure Settled (s : State) (t : TileId) (o len : Nat) : Prop where
  tile : t ≠ monitorTile
  lines : o % 64 = 0
  part : liesIn (s.tile t).v.partw 2 o len ∨ liesIn (s.tile t).v.partw 3 o len
  logged : ∀ l, touches o len l → logged (s.tile t) l = true
  quiet : ∀ g ∈ (s.tile t).galley, (g.kind = .plain ∨ g.kind = .add) → touches o len (g.ofs / 64) →
    g.sidx = (s.tile t).v.idx
  sound : (s.tile t).errs = []
  det : s.det t = false

/-- The head of the array queue can start: the array is free and no source of it is without a value (R133). -/
abbrev arrayFree (s : State) (t : TileId) : Prop := (s.tile t).arrFree ≤ s.cycle ∧ (s.tile t).stuck = false

/-- The partial tile that a command reads is the one of the last writer issued before it (R133, R134). -/
abbrev valueThere (T : Tile) (n : BitVec 2) (need : Nat) : Prop := (T.ptOf n.toNat).wrote = need

/-- Cycles of an adder command whose carries stay in the limbs that its addends cover (R127, R142, R145, R146). -/
def adderTime (o : AddOp) : Nat := match o with | .lazero _ => 16 | .vla _ _ _ => 2 | _ => 32

end Sys2Proof.Spec

/-- R130 to R134: a FIFO's 32nd row completes a unit behind those that stand; the command at the head starts with one unit
of each FIFO, holds the array for 64 cycles and writes no earlier than 72 after its start; `mrep` holds the next w units for
w·(n + 1) uses in cyclic order; when an operation writes, its partial tile holds the result, and is READY unless a later
command names it, once every reader issued before has read it; a residue mismatch counts and leaves its trace (R138). -/
def Sys2Proof.Spec.ArraySteps : Prop :=
  (∀ t (fb : Bool) s, let q := (s.tile t).fifo fb
    q.part.length = 32 → (q.fillers.head? = some .binding → q.bind.tap = false ∧ q.bind.sink = false ∧
      (q.bind.live = true → q.bind.next < recPieces q.bind.rcd)) →
    let own := q.fillers.head? == some .binding
    ∃ s', exec .fifoUnitComplete (Spec.on s (.fifoUnitComplete t fb)) = .next s' ∧
      (s'.tile t).fifo fb = { q with part := [], partSc := []
                                     units := q.units ++ [{ rows := q.part, scales := q.partSc, ty := if own then q.bind.ty else 0
                                                            bound := own, tap := false, sink := false }] } ∧
      (s'.tile t).fifo (!fb) = (s.tile t).fifo (!fb) ∧ (s'.tile t).mem = (s.tile t).mem) ∧
  (∀ t s c rest ty x n rows cols (u v : Unit_) us vs, (s.tile t).arrQ = c :: rest → c.op = .mma ty x n rows cols →
    Spec.arrayFree s t → beforeMet s t c.strand c.after = true → (s.tile t).errs = [] → (s.tile t).fa.held = [] → (s.tile t).fb.held = [] → (s.tile t).fa.units = u :: us →
    (s.tile t).fb.units = v :: vs → (s.tile t).inja = false →
    ∃ s', exec .arrayOpStart (Spec.on s (.arrayOpStart t)) = .next s' ∧ (s'.tile t).arrQ = rest ∧
      (s'.tile t).fa.units = us ∧ (s'.tile t).fb.units = vs ∧ (s'.tile t).arrFree = s.cycle + 64 ∧
      (s'.tile t).arrFly = (s.tile t).arrFly ++
        [{ cmd := c, outs := mmaTiles ty x n.toNat u v rows cols, bad := false, badPt := 0, due := s.cycle + 72 }] ∧
      (s'.tile t).mem = (s.tile t).mem ∧ (s'.tile t).v = (s.tile t).v ∧ (s'.tile t).strands = (s.tile t).strands) ∧
  (∀ t s c rest (fb : Bool) n w, (s.tile t).arrQ = c :: rest → c.op = .mrep fb n w → Spec.arrayFree s t →
    beforeMet s t c.strand c.after = true → n ≠ 0 →
    ((s.tile t).fifo fb).held = [] → w ≤ ((s.tile t).fifo fb).units.length →
    ∃ s', exec .arrayOpStart (Spec.on s (.arrayOpStart t)) = .next s' ∧ (s'.tile t).arrQ = rest ∧
      ((s'.tile t).fifo fb).held = ((s.tile t).fifo fb).units.take w ∧
      ((s'.tile t).fifo fb).units = ((s.tile t).fifo fb).units.drop w ∧
      ((s'.tile t).fifo fb).uses = w * (n + 1) ∧ ((s'.tile t).fifo fb).pos = 0 ∧
      (s'.tile t).fifo (!fb) = (s.tile t).fifo (!fb)) ∧
  (∀ (q : Fifo) h hs, q.held = h :: hs → ∃ u q', q.take = some (u, q') ∧
    u = ((h :: hs)[q.pos % (hs.length + 1)]?).getD h ∧ q'.units = q.units ∧
    (1 < q.uses → q'.held = q.held ∧ q'.uses = q.uses - 1 ∧ q'.pos = q.pos + 1) ∧ (q.uses ≤ 1 → q'.held = [])) ∧
  (∀ t s f rest (n : Nat) v, (s.tile t).arrFly = f :: rest → f.due ≤ s.cycle → (∀ ty k a d, f.cmd.op ≠ .ptst ty k a d) →
    f.outs = [(n, v)] → n < 4 → readersDone (s.tile t) n f.cmd.seq = true → f.bad = false →
    ∃ s', exec .partialTileWritten (Spec.on s (.partialTileWritten t)) = .next s' ∧ (s'.tile t).arrFly = rest ∧
      (s'.tile t).ptOf n = { (s.tile t).ptOf n with
        val := v, wrote := f.cmd.seq, st := if ((s.tile t).ptOf n).last = f.cmd.seq then .ready else ((s.tile t).ptOf n).st } ∧
      (∀ k, k ≠ n → (s'.tile t).ptOf k = (s.tile t).ptOf k) ∧ (s'.tile t).mem = (s.tile t).mem) ∧
  (∀ t (s : State) unit pti, unit < 4 → pti < 4 → let s' := mismatch s t unit pti
    (s'.tile t).rpend = true ∧
    ((s'.tile t).rcount = if (s.tile t).rcount = 0xFFFF then 0xFFFF else (s.tile t).rcount + 1) ∧
    (s'.tile t).runit = BitVec.ofNat 2 unit ∧ (unit = 0 → (s'.tile t).rpti = BitVec.ofNat 2 pti))

/-- R133, R142, R143, R148: an adder command starts in issue order once the partial tile it reads is there and no earlier
drain has its range to read, and takes 32, 16 or 2 cycles and, in each of the 64 lanes, one more for each limb that a carry
reaches beyond its addend; a lane begins when it is free and the command's operands are there; when it is performed it leaves
the queue; a drain starts once no earlier command or drain overlaps its source, and raises its counter by 1 when its last
element has been read. -/
def Sys2Proof.Spec.AdderSteps : Prop :=
  (∀ t s c rest, (s.tile t).addQ = c :: rest → c.running = false → drainBlocks (s.tile t) c.seq (addRanges c.op) = false →
    (∀ n i ea g h need, c.op = .saa n i ea g h need → Spec.valueThere (s.tile t) n need) →
    (∀ n i ea h need, c.op = .acc n i ea h need → Spec.valueThere (s.tile t) n need) →
    ∃ c', (let a := addsOf { c with running := true, pts := c'.pts }
       let done (l : Nat) : Nat := max ((s.tile t).lanes.getD l 0) (c.ready.getD s.cycle) +
         (Spec.adderTime c.op + laneCarry (s.tile t) a.1 a.2 l)
       let used : Nat := match c.op with | .vla _ _ _ => 32 | _ => 64
       let due := ((List.range used).map done).foldl max 0
       c' = { c with running := true, pts := c'.pts, due := due } ∧
       exec .adderCmdStart (Spec.on s (.adderCmdStart t)) =
        .next (((Spec.on s (.adderCmdStart t)).modTile t (fun T => { T with
          addQ := c' :: rest
          lanes := (List.range 64).map (fun l => if l < used then done l else T.lanes.getD l 0) })).post (due - s.cycle)
            (.adderCmdPerformed t)) ∧
       ((∀ l, (s.tile t).lanes.getD l 0 ≤ s.cycle) → c.ready = none → (∀ l, laneCarry (s.tile t) a.1 a.2 l = 0) →
         due = s.cycle + Spec.adderTime c.op)) ∧
      (∀ n i ea g h need, c.op = .saa n i ea g h need → c'.pts = some ((s.tile t).ptOf n.toNat).val) ∧
      (∀ n i ea h need, c.op = .acc n i ea h need → c'.pts = some ((s.tile t).ptOf n.toNat).val)) ∧
  (∀ t s c rest, (s.tile t).addQ = c :: rest → c.running = true → c.due ≤ s.cycle → (s.tile t).errs = [] →
    ∃ s', exec .adderCmdPerformed (Spec.on s (.adderCmdPerformed t)) = .next s' ∧ (s'.tile t).addQ = rest) ∧
  (∀ t s pre (d : Drain) post, (s.tile t).drains = pre ++ d :: post → (∀ x ∈ pre, x.running = true) → d.running = false →
    (∀ x ∈ pre ++ post, x.seq ≠ d.seq) →
    (∀ c ∈ (s.tile t).addQ, c.seq < d.seq → ∀ r ∈ addRanges c.op, r.1 + r.2 ≤ d.ea ∨ d.ea + 65536 ≤ r.1) →
    (∀ x ∈ pre ++ post, x.seq < d.seq → x.elem < 1024 → x.strand ≠ d.strand ∧
      (x.ea + 65536 ≤ d.ea ∨ d.ea + 65536 ≤ x.ea)) →
    ∃ s', exec .drainStart (Spec.on s (.drainStart t)) = .next s' ∧
      (s'.tile t).drains = pre ++ { d with running := true } :: post ∧ (s'.tile t).mem = (s.tile t).mem) ∧
  (∀ t s pre (d : Drain) post, (s.tile t).drains = pre ++ d :: post → (∀ x ∈ pre, x.elem ≠ 1024) → d.elem = 1024 →
    (∀ x ∈ pre ++ post, x.seq ≠ d.seq) →
    ∃ s', exec .drainSourceReadDone (Spec.on s (.drainSourceReadDone t)) = .next s' ∧
      (s'.tile t).drains = pre ++ { d with elem := 1025 } :: post ∧
      (s'.tile t).v.c[d.ct.toNat] = (s.tile t).v.c[d.ct.toNat] + 1 ∧
      (∀ k : Fin 16, k.val ≠ d.ct.toNat → (s'.tile t).v.c[k] = (s.tile t).v.c[k]))

/-- R48, R49, R127, R144 to R146: over ranges whose lines are logged, `vla` adds lane i of A, or the exact product of lanes i
of A and B, into element i; `saa` adds the exact product of each kept element of its partial tile, its row's scale and the
block's scale into the element's accumulator, `acc` the element times 2^h; `lazero` clears all 1,024 elements; `lard` writes
each element, scaled and rounded once, to its place of the block, and clears it with `.z`. Every other byte of the store
stays, and so does the standing version of every byte (R193). -/
def Sys2Proof.Spec.AdderEffects : Prop :=
  (∀ t s c rest n i32 ea sig tau h need (v : PtVal) (isSaa : Bool), (s.tile t).addQ = c :: rest →
    c.op = (if isSaa then .saa n i32 ea sig tau need else .acc n i32 ea h need) → c.pts = some v → c.running = true →
    c.due ≤ s.cycle → Spec.Settled s t ea 65536 →
    let elem (e : Nat) : Val :=
      let b := v.vals.getD e 0
      if i32 then .fin (decide (b.toInt < 0)) b.toInt.natAbs 0 else decodeFp fp32 b.toNat
    let scale (x : Option (BitVec 32)) : Val := match x with | some b => decodeFp fp32 b.toNat | none => .fin false 1 0
    let addend (e : Nat) : Val :=
      if isSaa then mulVal (mulVal (elem e) (scale (sig.map (fun g => g.extractLsb' (32 * (e / 32)) 32)))) (scale tau)
      else match elem e with | .fin b m k => .fin b m (k + h) | x => x
    ∃ s', exec .adderCmdPerformed (Spec.on s (.adderCmdPerformed t)) = .next s' ∧ (s'.tile t).addQ = rest ∧
      (∀ e, e < 1024 → ∃ old : BitVec 512, Spec.holds (s.tile t) (ea + 64 * e) 64 old.toNat ∧
        Spec.holds (s'.tile t) (ea + 64 * e) 64 (if v.keep.getLsbD e then addLa old (addend e) else old).toNat) ∧
      (∀ x, ¬ (ea ≤ x ∧ x < ea + 65536) → (s'.tile t).mem.read x = (s.tile t).mem.read x) ∧
      (∀ x, standingByte (s'.tile t) x = standingByte (s.tile t) x)) ∧
  (∀ t s c rest ead ea sig rm z, (s.tile t).addQ = c :: rest → c.op = .lard ead ea sig rm z → c.running = true →
    c.due ≤ s.cycle → Spec.Settled s t ead 4096 → Spec.Settled s t ea 65536 → ead + 4096 ≤ ea ∨ ea + 65536 ≤ ead →
    ∃ s', exec .adderCmdPerformed (Spec.on s (.adderCmdPerformed t)) = .next s' ∧ (s'.tile t).addQ = rest ∧
      (∀ e, e < 1024 → ∃ x : BitVec 512, Spec.holds (s.tile t) (ea + 64 * e) 64 x.toNat ∧
        Spec.holds (s'.tile t) (ead + 4 * e) 4
          (readLa x (match sig with | some b => decodeFp fp32 b.toNat | none => .fin false 1 0) rm)) ∧
      (∀ x, ea ≤ x → x < ea + 65536 → (s'.tile t).mem.read x = if z then 0 else (s.tile t).mem.read x) ∧
      (∀ x, ¬ (ead ≤ x ∧ x < ead + 4096) → ¬ (ea ≤ x ∧ x < ea + 65536) →
        (s'.tile t).mem.read x = (s.tile t).mem.read x) ∧
      (∀ x, standingByte (s'.tile t) x = standingByte (s.tile t) x)) ∧
  (∀ t s c rest ea (a : VWord) b, (s.tile t).addQ = c :: rest → c.op = .vla ea a b → c.running = true → c.due ≤ s.cycle →
    (s.tile t).injd = false → Spec.Settled s t ea 2048 →
    ∃ s', exec .adderCmdPerformed (Spec.on s (.adderCmdPerformed t)) = .next s' ∧ (s'.tile t).addQ = rest ∧
      (∀ i, i < 32 → ∃ old : BitVec 512, Spec.holds (s.tile t) (ea + 64 * i) 64 old.toNat ∧
        Spec.holds (s'.tile t) (ea + 64 * i) 64 (addLa old
          (match b with | some b => mulVal (laneF32 a i) (laneF32 b i) | none => laneF32 a i)).toNat) ∧
      (∀ x, ¬ (ea ≤ x ∧ x < ea + 2048) → (s'.tile t).mem.read x = (s.tile t).mem.read x) ∧
      (∀ x, standingByte (s'.tile t) x = standingByte (s.tile t) x)) ∧
  (∀ t s c rest ea, (s.tile t).addQ = c :: rest → c.op = .lazero ea → c.running = true → c.due ≤ s.cycle →
    Spec.Settled s t ea 65536 →
    ∃ s', exec .adderCmdPerformed (Spec.on s (.adderCmdPerformed t)) = .next s' ∧ (s'.tile t).addQ = rest ∧
      (∀ x, (s'.tile t).mem.read x = if ea ≤ x ∧ x < ea + 65536 then 0 else (s.tile t).mem.read x))

/-- R156, R160 to R162, R164 to R166: a build takes the norm file as it is at its start, and 4·L + 32 cycles later its table
stands in the store and its counter rises; a sampled command at the head draws, hands its slabs to the bindings and keeps
their weights, or completes with NaN and BADT when its table is invalid; a batch is decided no earlier than 80 cycles after
its start, by one Welford step and the stop rule; the command ends with its partial tile READY and its counter raised. -/
def Sys2Proof.Spec.SamplerSteps : Prop :=
  (∀ t s (a : Atb) rest, (s.tile t).samp.atbs = a :: rest → a.built = none → (s.tile t).errs = [] →
    ∃ s' bs bad, buildTable (s.tile t).samp a.s0 a.l = (bs, bad) ∧
      exec .atbBuildStart (Spec.on s (.atbBuildStart t)) = .next (s'.post (4 * a.l + 32) (.atbDone t)) ∧
      s' = (Spec.on s (.atbBuildStart t)).modTile t (fun T => { T with samp := { T.samp with
        spec := T.samp.spec || bad, atbs := { a with built := some bs, due := s.cycle + (4 * a.l + 32) } :: rest } })) ∧
  (∀ t s (a : Atb) rest bs, (s.tile t).samp.atbs = a :: rest → a.built = some bs → a.due ≤ s.cycle →
    (s.tile t).samp.draws = [] →
    Spec.Settled s t a.tab bs.length → 0 < bs.length →
    ∃ s', exec .atbDone (Spec.on s (.atbDone t)) = .next s' ∧ (s'.tile t).samp.atbs = rest ∧
      (s'.tile t).mem = (s.tile t).mem.store a.tab bs ∧
      (s'.tile t).v.c[a.ct.toNat] = (s.tile t).v.c[a.ct.toNat] + 1) ∧
  (∀ t s c rest ty x n key ctr tab, (s.tile t).arrQ = c :: rest → c.op = .smp ty x n key ctr tab →
    (s.tile t).drawn = none → Spec.arrayFree s t → beforeMet s t c.strand c.after = true → (∀ a ∈ (s.tile t).samp.atbs, c.seq < a.seq) →
    let s0 := Spec.on s (.smpAtHead t)
    (∀ s1 ds, draws s0 t c.strand.val tab key ctr = .ok (s1, some ds) →
      ∃ s', exec .smpAtHead s0 = .next s' ∧ (s'.tile t).drawn = some (ds.map (fun d => d.2)) ∧
        (s'.tile t).arrQ = (s1.tile t).arrQ) ∧
    (∀ s1, draws s0 t c.strand.val tab key ctr = .ok (s1, none) →
      ∃ s', exec .smpAtHead s0 = .next s' ∧ (s'.tile t).samp.badt = true ∧ (s'.tile t).arrQ = ((s1.tile t).arrQ).drop 1 ∧
        (s'.tile t).arrFly = (s1.tile t).arrFly ++ [{ cmd := c, bad := false, badPt := 0, due := s1.cycle
                                                      outs := [(n.toNat, ⟨List.replicate 1024 0x7FC00000, BitVec.allOnes 1024⟩)] }])) ∧
  (∀ t s c rest ty x n key ctr ct r run, (s.tile t).arrQ = c :: rest → c.op = .smpl ty x n key ctr ct r →
    (s.tile t).samp.run = some run → run.busy = true → run.start + 80 ≤ s.cycle → (s.tile t).errs = [] →
    let row := (run.last.vals.drop (32 * r.prow)).take 32
    let m := welford (s.tile t).samp row
    let stops := !run.ended && decide (r.nmin ≤ m.n.toNat) && stopRule m r.tau r.phi
    ∃ s' run', exec .smplBatchDecision (Spec.on s (.smplBatchDecision t)) = .next s' ∧ (s'.tile t).samp.run = some run' ∧
      run'.batch = run.batch + 1 ∧
      (run.undo = none ∨ run'.ended = true → run'.busy = false ∧ run'.last = run.last) ∧
      (run'.ended = true ↔ run.ended = true ∨ stops = true ∨ r.nmax ≤ run.batch + 1 ∨ r.nmax ≤ m.n.toNat) ∧
      (s'.tile t).samp.n = m.n ∧ (s'.tile t).samp.mean = m.mean ∧ (s'.tile t).samp.m2 = m.m2 ∧
      (s'.tile t).samp.stop = ((s.tile t).samp.stop || stops)) ∧
  (∀ t s c rest ty x n key ctr ct r run, (s.tile t).arrQ = c :: rest → c.op = .smpl ty x n key ctr ct r →
    (s.tile t).samp.run = some run → run.busy = false → run.ended = true → readersDone (s.tile t) n.toNat c.seq = true →
    (s.tile t).arrFly = [] →
    ∃ s', exec .smplDone (Spec.on s (.smplDone t)) = .next s' ∧ (s'.tile t).arrQ = rest ∧ (s'.tile t).samp.run = none ∧
      ((s'.tile t).ptOf n.toNat).val = run.last ∧ ((s'.tile t).ptOf n.toNat).wrote = c.seq ∧
      (((s.tile t).ptOf n.toNat).last = c.seq → ((s'.tile t).ptOf n.toNat).st = .ready) ∧
      (s'.tile t).v.c[ct.toNat] = (s.tile t).v.c[ct.toNat] + 1) ∧
  (∀ (m : Sampler) xs, m.n ≠ 65535 → let m' := welford m xs
    m'.n = m.n + 1 ∧ (∀ j : Fin 32,
      let rne (ts : List Val) : BitVec 32 := BitVec.ofNat 32 (exactThenRound fp32 0 0 ts)
      let v (b : BitVec 32) : Val := decodeFp fp32 b.toNat
      let x := xs.getD j.val 0
      let d1 := rne [v x, negVal (v m.mean[j])]
      let mean := rne [v m.mean[j], v (BitVec.ofNat 32 (divFp fp32 0 0 (v d1) (.fin false (m.n.toNat + 1) 0)))]
      let d2 := rne [v x, negVal (v mean)]
      m'.mean[j] = mean ∧ m'.m2[j] = rne [mulVal (v d1) (v d2), v m.m2[j]])) ∧
  (∀ (m : Sampler) xs, m.n = 65535 → welford m xs = { m with novf := true })

/-! ### Steps of streams, channels and terms -/

namespace Sys2Proof.Spec

open Sys2Proof Sys2Proof.Machine

/-- EFR of a fault (Table 9.3). -/
def faultRecord (kind : Nat) (ct : BitVec 4) (info : Nat) : Word :=
  BitVec.ofNat 64 (2 ^ 63 + kind * 2 ^ 60 + ct.toNat * 2 ^ 56 + info % 2 ^ 51)

/-- A strand that can still be told of a refusal (R349): its tile runs, it lives, and no refusal waits or was entered. -/
abbrev tellable (s : State) (t : TileId) (n : StrandNo) : Prop :=
  (s.tile t).running = true ∧ liveSt (s.strand t n).st = true ∧ (s.strand t n).deferred = none ∧
  (s.strand t n).refusedOnce = false

/-- The head of a channel, numbered apart from the commands behind it (R180). -/
abbrev headCmd (T : Tile) (c : CopyCmd) (rest : List CopyCmd) : Prop := T.chan.cmds = c :: rest ∧ ∀ x ∈ rest, x.seq ≠ c.seq

end Sys2Proof.Spec

/-- R172, R174, R175, R177: pieces lie where R172 puts them; a piece fetched for an `.in` binding is the working copy at its
address; a refused one stops the binding, leaves EFR and tells the binding strand; a piece written through an `.out` binding
is stored at its address, and the last one exhausts the binding. -/
def Sys2Proof.Spec.StreamSteps : Prop :=
  (∀ (r : BitVec 512) (ofs : Word) (i0 i1 i2 i3 : Nat), i0 < recN r 0 → i1 < recN r 1 → i2 < recN r 2 → i3 < recN r 3 →
    pieceAddr r ofs (i0 + recN r 0 * (i1 + recN r 1 * (i2 + recN r 2 * i3))) =
      BitVec.ofInt 64 ((r.toNat % 2 ^ 64 : Nat) + (ofs.toNat : Nat) + i0 * recS r 0 + i1 * recS r 1 + i2 * recS r 2 +
        i3 * recS r 3)) ∧
  (∀ t n k s, let q := (s.strand t n).q[k]
    let a := (pieceAddr q.rcd q.ofs q.ahead).toNat % 2 ^ 21
    q.valid = true → q.out = false → q.stopped = false → q.have_.length < 4 → q.ahead < recPieces q.rcd →
    beforeMet s t n q.after = true → recHbm q.rcd = false → (s.tile t).errs = [] → s.det t = false → Spec.reachable (s.tile t).v.partw a 128 →
    ∃ s' v, exec .streamPieceFetched (Spec.on s (.streamPieceFetched t (.q n k) true)) = .next s' ∧
      Spec.holds (s.tile t) (poolAddr (s.tile t).v.partw (s.tile t).slot a) 128 (BitVec.toNat (w := 1024) v) ∧
      (s'.strand t n).q[k] = { q with busy := false, ahead := q.ahead + 1, have_ := q.have_ ++ [v] } ∧
      (∀ j, j ≠ k → (s'.strand t n).q[j] = (s.strand t n).q[j]) ∧ (s'.tile t).mem = (s.tile t).mem ∧
      (s'.tile t).v = (s.tile t).v) ∧
  (∀ t n k s, let q := (s.strand t n).q[k]
    (s.tile t).chan.fault = false → Spec.tellable s t n →
    ∃ s', exec .streamPieceFetched (Spec.on s (.streamPieceFetched t (.q n k) false)) = .next s' ∧
      (s'.strand t n).q[k] = { q with busy := false, stopped := true } ∧
      (s'.tile t).chan.efr = Spec.faultRecord 1 (if q.cnte then q.ct else 0) q.parkAt.toNat ∧
      (s'.tile t).chan.fault = true ∧
      (s'.strand t n).deferred = some { code := .prot, info := 0, pc := q.pc, engine := true } ∧
      (s'.tile t).v.c = (s.tile t).v.c) ∧
  (∀ t n k s v r, let q := (s.strand t n).q[k]
    let a := (pieceAddr q.rcd q.ofs (q.next - q.pend.length)).toNat % 2 ^ 21
    (s.strand t n).rest.find? (fun o => o.k == k) = none → q.valid = true → q.out = true → q.exh = false → q.lost = false →
    (s.strand t n).outPark.getLsbD k.val = false → q.pend = v :: r →
    recHbm q.rcd = false → Spec.Settled s t a 128 → claimed (s.tile t).v a 128 = false →
    let last := r = [] ∧ recPieces q.rcd ≤ q.next
    ∃ s', exec .streamOutPiecePerformed (Spec.on s (.streamOutPiecePerformed t n k)) = .next s' ∧
      (s'.tile t).mem = (s.tile t).mem.store a (bytesOf 128 v.toNat) ∧ ((s'.strand t n).q[k]).pend = r ∧
      (((s'.strand t n).q[k]).exh = true ↔ last) ∧
      (last → q.cnte = true → (s'.tile t).v.c[q.ct.toNat] = (s.tile t).v.c[q.ct.toNat] + 1) ∧
      (¬ last ∨ q.cnte = false → (s'.tile t).v.c = (s.tile t).v.c))

/-- R180 to R185, R187, R189: a channel's head starts no earlier than 4 cycles after its push (what it then takes is the
model's choice, log entry 9), once what its strand had
outstanding is performed and, if held, its gate has a pulse, which it takes; a fill writes its pattern; a command all of
whose writes are performed leaves the channel and raises its counter; a refused one leaves EFR and tells its strand; the
follow-on of `cpym` enters the array queue and only then the counter rises; a term that fires takes its threshold from
each of its counters and pulses its gate or raises its counter. -/
def Sys2Proof.Spec.ChannelSteps : Prop :=
  (∀ t s c rest, Spec.headCmd (s.tile t) c rest → c.started = false → c.pushed + 4 ≤ s.cycle →
    beforeMet s t c.strand c.after = true → (c.fl.getLsbD 3 = true → (s.tile t).chan.gates[c.gate.toNat] ≠ 0) →
    ∃ s', exec .copyCmdStart (Spec.on s (.copyCmdStart t)) = .next s' ∧
      (s'.tile t).chan.cmds = { c with started := true, due := s.cycle + (64 + (c.len + 255) / 256) } :: rest ∧
      ((s'.tile t).chan.gates = if c.fl.getLsbD 3 then
        (s.tile t).chan.gates.set c.gate.toNat ((s.tile t).chan.gates[c.gate.toNat] - 1) else (s.tile t).chan.gates) ∧
      (s'.tile t).chan.crc = (if c.fl.getLsbD 0 then 0xFFFFFFFF else (s.tile t).chan.crc) ∧
      (∀ fb, ((s'.tile t).fifo fb).fillers = ((s.tile t).fifo fb).fillers ++
        (if c.dsp = 3 ∧ (fb = true ↔ c.dst = 1) then [.cmd c.seq] else [])) ∧ (s'.tile t).mem = (s.tile t).mem) ∧
  (∀ t s c rest, Spec.headCmd (s.tile t) c rest → c.started = true → c.due ≤ s.cycle → (s.tile t).chan.park = false →
    c.stuck = false → c.lost = false → c.len ≤ c.done → c.wait = [] → c.follow = none → c.gather = none → c.fl.getLsbD 2 = false →
    ∃ s', exec .copyCmdPerformed (Spec.on s (.copyCmdPerformed t)) = .next s' ∧ (s'.tile t).chan.cmds = rest ∧
      (s'.tile t).v.c[c.ct.toNat] = (s.tile t).v.c[c.ct.toNat] + 1 ∧
      (∀ k : Fin 16, k.val ≠ c.ct.toNat → (s'.tile t).v.c[k] = (s.tile t).v.c[k]) ∧ (s'.tile t).mem = (s.tile t).mem) ∧
  (∀ t s c rest, Spec.headCmd (s.tile t) c rest → c.started = true → c.due ≤ s.cycle → (s.tile t).chan.park = false →
    c.stuck = false → c.lost = false → c.done = 0 → 0 < c.len → c.wait = [] → c.follow = none → c.gather = none → c.fl.extractLsb' 0 3 = 0 →
    c.dsp = 0 → c.ssp = 3 → c.dst.toNat < 2 ^ 21 → c.dst.toNat % 4096 + c.len ≤ 4096 → c.len % 16 = 0 →
    Spec.Settled s t c.dst.toNat c.len →
    (∀ i, i < 8 → ∀ x ∈ (s.tile (tileAt (clusterOf t) i)).v.coll, x.st ≠ 2 ∧ x.st ≠ 3) →
    (∀ x ∈ (s.tile t).v.coll, x.st ≠ 2 ∧ x.st ≠ 3) →
    ∃ s', exec .copyCmdPerformed (Spec.on s (.copyCmdPerformed t)) = .next s' ∧ (s'.tile t).chan.cmds = rest ∧
      (∀ x, (s'.tile t).mem.read x =
        if c.dst.toNat ≤ x ∧ x < c.dst.toNat + c.len then c.src.extractLsb' (8 * ((x - c.dst.toNat) % 4)) 8
        else (s.tile t).mem.read x) ∧
      (s'.tile t).v.c[c.ct.toNat] = (s.tile t).v.c[c.ct.toNat] + 1) ∧
  (∀ t s c rest (cause : Cause) addr, Spec.headCmd (s.tile t) c rest → c.started = true → (s.tile t).chan.fault = false →
    Spec.tellable s t c.strand →
    ∃ s', exec .copyAccessRefused (Spec.on s (.copyAccessRefused t cause addr)) = .next s' ∧ (s'.tile t).chan.cmds = rest ∧
      (s'.tile t).chan.efr = Spec.faultRecord (if cause = .detban then 4 else 1) c.ct addr.toNat ∧
      (s'.strand t c.strand).deferred = some { code := cause, info := 0, pc := c.pc, engine := true } ∧
      (s'.tile t).v.c = (s.tile t).v.c) ∧
  (∀ t s c rest kind e i, Spec.headCmd (s.tile t) c rest → c.gather = some (e, i) → (s.tile t).chan.fault = false →
    Spec.tellable s t c.strand →
    ∃ s' k, exec .gatherRefused (Spec.on s (.gatherRefused t kind)) = .next s' ∧ (s'.tile t).chan.cmds = rest ∧
      (s'.tile t).chan.efr = Spec.faultRecord 3 c.ct c.src.toNat ∧
      (s'.strand t c.strand).deferred = some { code := .gather, info := 0, pc := c.pc, engine := true } ∧
      k = stackOf s (s.tile t).ctx c.src ∧ (∀ h : k < 8, s'.stk[k].sgf =
        BitVec.ofNat 64 (2 ^ 63 + kind.toNat * 2 ^ 60 + e % 16 * 2 ^ 56 + c.src.toNat % 2 ^ 51)) ∧
      (∀ j : Fin 8, j.val ≠ k → s'.stk[j] = s.stk[j])) ∧
  (∀ t s c rest ty x n, Spec.headCmd (s.tile t) c rest → c.follow = some (ty, x, n) → c.started = true → c.len ≤ c.done →
    (s.tile t).arrQ.length < 4 → c.fl.getLsbD 2 = false → c.lost = false →
    ∃ s', exec .cpymFollowon (Spec.on s (.cpymFollowon t)) = .next s' ∧ (s'.tile t).chan.cmds = rest ∧
      (s'.tile t).arrQ = (s.tile t).arrQ ++ [{ op := .mma ty x n (BitVec.allOnes 32) (BitVec.allOnes 32)
                                               seq := (s.tile t).arrSeq + 1, strand := c.strand, pc := c.pc }] ∧
      ((s'.tile t).ptOf n.toNat).st = .pending ∧ ((s'.tile t).ptOf n.toNat).last = (s.tile t).arrSeq + 1 ∧
      (s'.tile t).v.c[c.ct.toNat] = (s.tile t).v.c[c.ct.toNat] + 1) ∧
  (∀ t (k : Fin 8) s, let w := termNow (s.tile t) k
    let thr := (w.extractLsb' 24 16).toNat
    (s.tile t).running = true → w.getLsbD 63 = true →
    (∀ i : Fin 16, w.getLsbD i.val = true → thr ≤ ((s.tile t).v.c[i]).toNat) →
    (w.getLsbD 16 = true → (s.tile t).arrQ = []) → (w.getLsbD 17 = true → (s.tile t).addQ = []) →
    ∃ s', exec .sluiceTermFire (Spec.on s (.sluiceTermFire t k)) = .next s' ∧
      (∀ i : Fin 16, (s'.tile t).v.c[i] =
        (s.tile t).v.c[i] - (if w.getLsbD i.val then BitVec.ofNat 32 thr else 0)) ∧
      (w.getLsbD 62 = true → (s'.tile t).raises = (s.tile t).raises ++ [w.extractLsb' 58 4] ∧
        (s'.tile t).chan = (s.tile t).chan) ∧
      (w.getLsbD 62 = false → ∀ g : Fin 8, g.val = (w.extractLsb' 58 4).toNat →
        ((s.tile t).chan.gates[g] ≠ 255 → (s'.tile t).chan.gates[g] = (s.tile t).chan.gates[g] + 1) ∧
        ((s.tile t).chan.gates[g] = 255 → (s'.tile t).chan.gates[g] = 255 ∧
          (s'.tile t).chan.govf.getLsbD g.val = true) ∧
        (∀ j : Fin 8, j ≠ g → (s'.tile t).chan.gates[j] = (s.tile t).chan.gates[j])))

/-! ### The barrier -/

namespace Sys2Proof.Spec

open Sys2Proof Sys2Proof.Machine

/-- The identity of a reduction (Table 15.3). -/
def identity (opc : BitVec 4) : Word :=
  if opc = 2 ∨ opc = 7 then BitVec.allOnes 64
  else if opc = 5 then 0x7FFFFFFFFFFFFFFF
  else if opc = 6 then 0x8000000000000000
  else if opc = 9 then 0x7F800000
  else if opc = 10 then 0xFF800000
  else 0

/-- The arrival of a tile becomes pending (R283). -/
def arriving (s : State) (b : BitVec 2) (opnd : Word) : State :=
  modHere s (fun v => { v with bstate := 1, bbid := b, opnd := opnd, wild := false })

/-- The operation of barrier b, from the tile's copy of BCFG. -/
def opcOf (s : State) (b : BitVec 2) : BitVec 4 := ((here s).v.bcfg[b.toNat]).extractLsb' 60 4

/-- A group decides abort with a cause after `d` cycles. -/
abbrev decidesAbort (s s' : State) (gid : Nat) (g : Group) (cause : BitVec 8) (d : Nat) : Prop :=
  ∃ g', s'.group gid = some g' ∧ g'.dp = .abort ∧ g'.cause = cause ∧ g'.ss = g.ss ∧ g'.att = g.att ∧ g'.res = g.res ∧
    g'.decideAt = s.cycle + d

/-- A group decides commit (R273, R277, R286). -/
abbrev decidesCommit (s s' : State) (gid : Nat) (g : Group) (m : BarMsg) : Prop :=
  ∃ g', s'.group gid = some g' ∧ g'.dp = .commit ∧ g'.count = m.count ∧ g'.cause = 0 ∧ g'.ss = g.ss ∧ g'.att = g.att ∧
    g'.decideAt = s.cycle + 2 ∧ g'.bcfg = selectBcfg g.bcfgW g.bcfg ∧
    (m.wild = true → g'.res = g.res ∧ g'.bid = none) ∧
    (m.wild = false → g'.bid = some m.bid ∧ g'.res = g.res.set m.bid.toNat (barCombine m.opc (identity m.opc) m.opnd))

end Sys2Proof.Spec

/-- R282 to R287: the arrival forms trap REARRIVE unless the arrival is open, and else make it pending with their operand
(the identity of the barrier's operation for `bar` and `bara.n`), `bar` and `barv` waiting with SST.WAIT = 6; `waitb`
only waits; `vabort` votes abort with its code once, and waits for the release after the arrival was sent; `bcfg`
checks its operand and sends its write to the decision point; `bred` reads RES, BCFG and BST; `glchk` asks the
decision point. The model's reading: log entry 54. -/
def Obligations.BarrierForms : Prop :=
  (∀ p b d a s,
    (Ready s p .control [] [] → (here s).v.bstate ≠ 0 →
      exec (.bar p b) s = .next (trapTaken s 8 .rearrive 0) ∧ exec (.baraN p b) s = .next (trapTaken s 8 .rearrive 0)) ∧
    (Ready s p .control [] [] → (here s).v.bstate = 0 →
      exec (.bar p b) s = .next (blocked s (Spec.arriving s b (Spec.identity (Spec.opcOf s b))) 8 (.bar b none)) ∧
      exec (.baraN p b) s = .next (retired s (Spec.arriving s b (Spec.identity (Spec.opcOf s b))) 8)) ∧
    (Ready s p .control [.g a] [.g d] →
      ((here s).v.bstate ≠ 0 → exec (.barv p b d a) s = .next (trapTaken s 8 .rearrive 0)) ∧
      ((here s).v.bstate = 0 →
        exec (.barv p b d a) s = .next (blocked s (Spec.arriving s b (gOf s a)) 8 (.bar b (some d))))) ∧
    (Ready s p .control [.g a] [] →
      ((here s).v.bstate ≠ 0 → exec (.bara p b a) s = .next (trapTaken s 8 .rearrive 0)) ∧
      ((here s).v.bstate = 0 → exec (.bara p b a) s = .next (retired s (Spec.arriving s b (gOf s a)) 8))) ∧
    (Ready s p .tile [] [.g d] → exec (.waitb p b d) s = .next (blocked s s 8 (.waitb b d)))) ∧
  (∀ p (u : BitVec 7) s, Ready s p .tile [] [] →
    ((here s).v.bstate = 2 → exec (.vabort p u) s = .next (deferred s 8 .release)) ∧
    ((here s).v.bstate ≠ 2 → ((here s).running = false ∨ (here s).v.voted = true) →
      exec (.vabort p u) s = .next (retired s s 8)) ∧
    ((here s).v.bstate ≠ 2 → (here s).running = true → (here s).v.voted = false → ∃ r : TrapRec,
      exec (.vabort p u) s = .next (retired s (modHere s (fun v => { v with votes := v.votes ++ [r] })) 8) ∧
      r.code.toNat = 128 + u.toNat ∧ r.defer = false ∧ r.strand.toNat = s.cur.2.val ∧ r.ss = (here s).v.ss)) ∧
  (∀ p b a (op : BitVec 4) s, Ready s p .control [.g a] [] →
    ((11 ≤ op.toNat ∨ (gOf s a).extractLsb' 48 16 ≠ 0) → exec (.bcfg p b a op) s = .next (trapTaken s 12 .illegal 0)) ∧
    (op.toNat < 11 → (gOf s a).extractLsb' 48 16 = 0 → ∀ g, s.groupOf s.cur.1 = some g → (here s).shadow = false →
      ∃ (s1 : State) (w : BcfgWrite),
        exec (.bcfg p b a op) s = .next (retired s (s1.post (tileDelay s1 g s.cur.1) (.bcfgControlArrival g.id w)) 12) ∧
        w.bid = b ∧ w.ord = (here s).v.ord ∧ w.tile = s.cur.1 ∧ w.ss = (here s).v.ss ∧ w.att = (here s).v.att.toNat ∧
        w.val.extractLsb' 60 4 = op ∧ w.val.extractLsb' 0 60 = (gOf s a).extractLsb' 0 60 ∧
        (self s1).ops = (self s).ops ++ [{ id := w.op, target := monitorTile, load := false }] ∧
        (here s1).v = (here s).v ∧ (here s1).mem = (here s).mem ∧ s1.cycle = s.cycle)) ∧
  (∀ p (b : BitVec 2) d s, Ready s p .tile [] [.g d] →
    exec (.bred p b d) s = .next (retired s (putG s d (here s).v.res[b.toNat]) 8) ∧
    exec (.bredCfg p b d) s = .next (retired s (putG s d (here s).v.bcfg[b.toNat]) 8) ∧
    (∃ v : Word, exec (.bredSt p d) s = .next (retired s (putG s d v) 8) ∧ v.extractLsb' 61 3 = (here s).v.bstate.setWidth 3 ∧
      v.extractLsb' 59 2 = (here s).v.bbid ∧ v.getLsbD 58 = (here s).v.park ∧ v.getLsbD 57 = (here s).v.voted ∧
      v.extractLsb' 48 8 = (here s).v.ownc ∧ v.extractLsb' 40 8 = (here s).v.lcause ∧
      v.extractLsb' 36 4 = (here s).v.latt ∧ v.getLsbD 56 = false ∧ v.extractLsb' 0 36 = 0) ∧
    (∀ g, s.groupOf s.cur.1 = some g → exec (.glchk p d) s = .next (retired s
      ((modSelf s (fun S => S.markEmpty (.g d))).post (tileDelay s g s.cur.1)
        (.glchkReply g.id s.cur.1 s.cur.2 (self s).gen d)) 8)))

/-- R21, R267, R269, R336: a barrier message between a die and the I/O chiplet crosses one link in 96 cycles, once the link
carries traffic and every packet sent there on its data channel before has been acknowledged; it waits in the link for the
data flits that stand in the buffer, and with its sender where no link can carry it. -/
def Sys2Proof.Spec.Crossings : Prop :=
  ∀ (s : State) (die : Nat) (up : Bool) (group : Option Nat) (d : Nat) (e : Ev),
    let src := 16384 + (if up then die else 4)
    let dst := 16384 + (if up then 4 else die)
    let chiplet := if up then die else 4
    let x := s.cross die up group d e
    (flowLink s src dst (ioLinks die) = none → x.agenda = s.agenda ∧ ∃ h, x.held = s.held ++ [h] ∧ h.ev = e ∧ h.vc = 1) ∧
    (∀ l, flowLink s src dst (ioLinks die) = some l →
      let D := (s.link l).dir (!up)
      let data := D.buf.filter (fun f => f.2.vc == 0)
      let hold := max s.cycle (max (linkFrom s l) (dataUntil s l chiplet))
      (∀ f ∈ s.flows, f.link = l → f.from_ = chiplet → f.vc = 0 → f.till ≤ dataUntil s l chiplet) ∧
      (data = [] → x.agenda = (s.post (hold - s.cycle + 96 + d) e).agenda) ∧
      (data ≠ [] → x.agenda = s.agenda ∧ x.held = s.held ∧ (l < 64 → ∃ w, ((x.link l).dir (!up)).barWait = D.barWait ++ [w] ∧
        w.ev = e ∧ w.delay = d ∧ w.seqs = data.map (fun f => f.1))))

/-- R265, R270 to R277, Table 15.4: a tile whose conditions hold sends one ARRIVE of its superstep and attempt, with its
operand, after its ABORT too; one whose strand 0 has halted with no arrival is wild, with the identity of an operation; the
two copies of a DMR pair send at once if their signatures agree, and else both vote; a node waits for what lies behind it,
then forwards toward the anchor, from the anchor of one of several dies to the I/O chiplet, and an ABORT at once; combining sums COUNT and combines operands; the decision point gathers until V have
arrived and then commits with the reduction, decides abort on a wrong superstep (MISMATCH), on an ABORT of the attempt, on
its timeout, and discards messages of another attempt; PARK messages follow the tile's state. The model's choices: the 2
cycles before a mismatch is decided (log entry 53), the barrier that a wildcard names (log entry 32), the attempt that a
PARK names (log entry 77). -/
def Obligations.BarrierSteps : Prop :=
  Spec.Crossings ∧
  (∀ t s g, s.groupOf t = some g → arrivalReady s t = true → moreTurns s t = false → (s.tile t).twin = none →
    (s.tile t).slots = [] → (s.tile t).shadow = false → let v := (s.tile t).v
    let wild := v.bstate == 0
    let opc := (v.bcfg[v.bbid.toNat]).extractLsb' 60 4
    exec .arriveSend (Spec.on s (.arriveSend t)) = .next (((Spec.on s (.arriveSend t)).modV t (fun v =>
      { v with bstate := 2, wild := wild })).post 0 (.barrierNodeArrive g.id (.pos (dieOf t) (rowOf t) (colOf t))
        { ss := v.ss, att := v.att.toNat, bid := v.bbid, wild := wild, cause := 0
          opc := opc, count := 1, opnd := if wild then Spec.identity opc else v.opnd }))) ∧
  (∀ t s g, s.groupOf t = some g → arrivalReady s t = true → moreTurns s t = false → (s.tile t).twin = none → ∃ s',
    exec .arriveSend (Spec.on s (.arriveSend t)) = .next s' ∧ (s'.tile t).v.bstate = 2 ∧ (s'.tile t).mem = (s.tile t).mem) ∧
  (∀ t u s g, s.groupOf t = some g → t ≠ u → arrivalReady s t = true → moreTurns s t = false → (s.tile t).twin = some u →
    (s.tile u).v.bstate ≠ 2 → arrivalReady s u = true → moreTurns s u = false →
    (signature (s.tile t) = signature (s.tile u) → ∃ s', exec .arriveSend (Spec.on s (.arriveSend t)) = .next s' ∧
      (s'.tile t).v.bstate = 2 ∧ (s'.tile u).v.bstate = 2) ∧
    (signature (s.tile t) ≠ signature (s.tile u) → g.dmrNow.contains t = false → (s.tile t).v.voted = false → (s.tile t).v.votes = [] →
      (s.tile t).running = true → ∃ s' r, exec .arriveSend (Spec.on s (.arriveSend t)) = .next s' ∧
        (s'.tile t).v.votes = [r] ∧ r.code = 0x03 ∧ (s'.tile t).v.bstate = (s.tile t).v.bstate)) ∧
  (∀ a b : BarMsg,
    (a.wild = false → b.wild = false → (a.bid ≠ b.bid ∨ a.opc ≠ b.opc) → combineMsg a b = .mismatch) ∧
    (a.wild = false → b.wild = false → a.bid = b.bid → a.opc = b.opc → ∃ c, combineMsg a b = .arrive c ∧
      c.count = a.count + b.count ∧ c.opnd = barCombine a.opc a.opnd b.opnd ∧ c.bid = a.bid ∧ c.opc = a.opc ∧ c.wild = false) ∧
    (a.wild = true ∨ b.wild = true → ∃ c, combineMsg a b = .arrive c ∧ c.count = a.count + b.count ∧
      c.wild = (a.wild && b.wild) ∧ (b.wild = false → c.bid = b.bid ∧ c.opc = b.opc ∧ c.opnd = b.opnd) ∧
      (a.wild = false → c.bid = a.bid ∧ c.opc = a.opc ∧ c.opnd = a.opnd))) ∧
  (∀ s gid g m, s.group gid = some g → m.ss = g.ss → m.att = g.att → m.cause ≠ 0 →
    exec .barrierNodeArrive (Spec.on s (.barrierNodeArrive gid .io m)) =
      .next ((Spec.on s (.barrierNodeArrive gid .io m)).post 0 (.abortAtDecision gid m)) ∧
    (∀ die row col, let s0 := Spec.on s (.barrierNodeArrive gid (.pos die row col) m)
      exec .barrierNodeArrive s0 = .next (if multiDie g then s0.cross die true (some gid) 0 (.barrierNodeArrive gid .io m)
        else s0.post 0 (.abortAtDecision gid m)))) ∧
  (∀ s gid g m, s.group gid = some g → m.ss = g.ss → m.att = g.att → m.cause = 0 →
    exec .barrierNodeArrive (Spec.on s (.barrierNodeArrive gid .io m)) =
      .next ((Spec.on s (.barrierNodeArrive gid .io m)).post 0 (.arriveAtDecision gid m)) ∧
    (∀ die row col, anchorOf g die = (row, col) → multiDie g = false →
      exec .barrierNodeArrive (Spec.on s (.barrierNodeArrive gid (.pos die row col) m)) =
        .next ((Spec.on s (.barrierNodeArrive gid (.pos die row col) m)).post 0 (.arriveAtDecision gid m))) ∧
    (∀ die row col, g.nodes = [] → anchorOf g die ≠ (row, col) ∨ multiDie g = true →
      ∃ s', exec .barrierNodeArrive (Spec.on s (.barrierNodeArrive gid (.pos die row col) m)) = .next s' ∧
        (m.count < nodeExpects g die row col → ∃ g', s'.group gid = some g' ∧ g'.nodes = [⟨.pos die row col, m⟩]) ∧
        (nodeExpects g die row col ≤ m.count →
          ((anchorOf g die).2 < col →
            (s.cycle + 1, .barrierNodeArrive gid (.pos die row (col - 1)) m) ∈ s'.agenda) ∧
          (col ≤ (anchorOf g die).2 → (anchorOf g die).1 < row →
            (s.cycle + 1, .barrierNodeArrive gid (.pos die (row - 1) col) m) ∈ s'.agenda) ∧
          (col ≤ (anchorOf g die).2 → row ≤ (anchorOf g die).1 →
            let x := s.cross die true (some gid) 0 (.barrierNodeArrive gid .io m)
            s'.agenda = x.agenda ∧ s'.held = x.held ∧ s'.links = x.links)))) ∧
  (∀ s gid g m, s.group gid = some g →
    let s0 := Spec.on s (.arriveAtDecision gid m)
    ((g.dp ≠ .open_ ∧ g.dp ≠ .gathering) ∨ m.att ≠ g.att → exec .arriveAtDecision s0 = .next s0) ∧
    (g.dp = .open_ ∨ g.dp = .gathering → m.att = g.att → m.ss ≠ g.ss → ∃ s', exec .arriveAtDecision s0 = .next s' ∧
      Spec.decidesAbort s s' gid g 0x07 2) ∧
    (g.dp = .open_ → m.att = g.att → m.ss = g.ss →
      (g.v ≤ m.count → ∃ s', exec .arriveAtDecision s0 = .next s' ∧ Spec.decidesCommit s s' gid g m) ∧
      (m.count < g.v → ∃ s' g', exec .arriveAtDecision s0 = .next s' ∧ s'.group gid = some g' ∧ g'.dp = .gathering ∧
        g'.count = m.count ∧ g'.opnd = m.opnd ∧ g'.timer = 0 ∧ g'.ss = g.ss ∧ g'.att = g.att ∧ g'.res = g.res ∧
        (m.wild = true → g'.bid = none) ∧
        (m.wild = false → g'.bid = some m.bid ∧ g'.opc = m.opc ∧ g'.tmo = (g.bcfg[m.bid.toNat]).toNat % 2 ^ 48))) ∧
    (∀ b, g.dp = .gathering → g.bid = some b → m.att = g.att → m.ss = g.ss → m.wild = false →
      ((b ≠ m.bid ∨ g.opc ≠ m.opc) → ∃ s', exec .arriveAtDecision s0 = .next s' ∧ Spec.decidesAbort s s' gid g 0x07 2) ∧
      (b = m.bid → g.opc = m.opc → g.v ≤ g.count + m.count → ∃ s', exec .arriveAtDecision s0 = .next s' ∧
        Spec.decidesCommit s s' gid g { m with count := g.count + m.count, opnd := barCombine g.opc g.opnd m.opnd }))) ∧
  (∀ s gid g m, s.group gid = some g →
    let s0 := Spec.on s (.abortAtDecision gid m)
    (m.ss ≠ g.ss ∨ m.att ≠ g.att → exec .abortAtDecision s0 = .next s0) ∧
    (m.ss = g.ss → m.att = g.att → g.st = .running → g.todo = [] → g.dp = .open_ ∨ g.dp = .gathering → ∃ s', exec .abortAtDecision s0 = .next s' ∧
      Spec.decidesAbort s s' gid g m.cause 2)) ∧
  (∀ s gid g, s.group gid = some g → g.dp = .gathering → g.bid ≠ none → g.tmo ≠ 0 → g.tmo ≤ g.timer → ∃ s',
    exec .barrierTimeout (Spec.on s (.barrierTimeout gid)) = .next s' ∧ Spec.decidesAbort s s' gid g 0x06 0) ∧
  (∀ s t, parkWanted s t = true → (s.tile t).v.park = false → ∃ s',
    exec .parkAssert (Spec.on s (.parkAssert t)) = .next s' ∧ (s'.tile t).v.park = true ∧
    (∀ g, s.groupOf t = some g → (s.tile t).shadow = false →
      ∃ g', s'.group g.id = some g' ∧ g'.parkMsgs = g.parkMsgs ++
        [{ due := s.cycle + tileDelay s g t, tile := t, ss := (s.tile t).v.ss, att := (s.tile t).v.att.toNat, on := true }])) ∧
  (∀ s t, parkWanted s t = false → (s.tile t).v.park = true → ∃ s',
    exec .parkWithdraw (Spec.on s (.parkWithdraw t)) = .next s' ∧ (s'.tile t).v.park = false ∧
    (∀ g, s.groupOf t = some g → (s.tile t).shadow = false →
      ∃ g', s'.group g.id = some g' ∧ g'.parkMsgs = g.parkMsgs ++
        [{ due := s.cycle + tileDelay s g t, tile := t, ss := (s.tile t).v.ss, att := (s.tile t).v.att.toNat, on := false }])) ∧
  (∀ s gid g w, s.group gid = some g → ∃ (s' : State) (o : Origin), exec .bcfgControlArrival (Spec.on s (.bcfgControlArrival gid w)) =
      .next (s'.post (backDelay s' g w.tile) (.ackArrival o .accept 0)) ∧ o.tile = w.tile ∧ o.op = w.op ∧ o.strand = 0 ∧
    ∃ g', s'.group gid = some g' ∧ g'.bcfgW = if w.ss = g.ss ∧ w.att = g.att then g.bcfgW ++ [w] else g.bcfgW) ∧
  (∀ s gid g t n gen d, s.group gid = some g → ∃ v : VWord,
    exec .glchkReply (Spec.on s (.glchkReply gid t n gen d)) =
      .next ((Spec.on s (.glchkReply gid t n gen d)).post (backDelay (Spec.on s (.glchkReply gid t n gen d)) g t) (.resultDelivery t n gen (.g d) v)) ∧
    v.extractLsb' 62 2 = (match g.dp with | .open_ => 0 | .gathering => 1 | .commit => 2 | .abort => 3) ∧
    (v.getLsbD 61 = true ↔ g.parks ≠ []) ∧ (v.extractLsb' 40 21 = BitVec.ofNat 21 g.count) ∧
    (v.extractLsb' 0 40 = BitVec.ofNat 40 (if g.timer < 2 ^ 40 then g.timer else 2 ^ 40 - 1)))

/-! ### Releases and the group -/

namespace Sys2Proof.Spec

open Sys2Proof Sys2Proof.Machine

/-- A release leaves the decision point for the tiles of a group: it comes after the way back through the tree (R267, R268).
For a group on several dies it takes at least the 96 cycles of a link besides, or waits in the link for data or at the I/O
chiplet for a link (R269, R336). -/
def released (s s' : State) (g : Group) (f : TileId → Ev) : Prop :=
  ∀ t ∈ g.tiles,
    let way := absDiff (rowOf t) (anchorOf g (dieOf t)).1 + absDiff (colOf t) (anchorOf g (dieOf t)).2
    (multiDie g = false → (s.cycle + way, f t) ∈ s'.agenda) ∧
    (multiDie g = true → (∃ n, 96 + way ≤ n ∧ (s.cycle + n, f t) ∈ s'.agenda) ∨
      (∃ h ∈ s'.held, h.ev = f t ∧ h.delay = way ∧ h.group = some g.id) ∨
      (∃ l, ∃ w ∈ ((s'.link l).dir true).barWait, w.ev = f t ∧ w.delay = way ∧ w.group = some g.id))

/-- A host of an unfolded group whose next release is `r` and which is not the last to run it; its store is sound, it
has no slots but the resident one, no lock bit is set, no collective request of its is pending. -/
structure RunsRelease (s : State) (gid : Nat) (g : Group) (t : TileId) (r : Release) : Prop where
  group : s.group gid = some g
  running : g.st = .running
  first : g.nextRelease t = some r
  others : ∃ u, u ≠ t ∧ (u, r) ∈ g.todo
  unfolded : g.v ≤ g.hosts.length
  tile : t ≠ monitorTile
  slots : (s.tile t).slots = []
  sound : (s.tile t).errs = []
  locks : (s.tile t).locks = []
  held : (s.tile t).v.held = []
  colls : ∀ c ∈ (s.tile t).v.coll, c.st = 0

end Sys2Proof.Spec

/-- R205, R206, R273, R274, R278, R279: a commit release waits while a die of the group is overdrawn, an abort release never
does; the decision point then opens the next superstep, or the next attempt, and sends the release to every tile. At a tile a
commit makes the working copy the standing version, completes waits, sets RES and opens the next superstep, unless the group
ends or is reshaped with it; an abort puts every logged line back and opens the next attempt with LCAUSE and LATT. -/
def Sys2Proof.Spec.Releases : Prop :=
  (∀ s gid g, s.group gid = some g → g.st = .running → g.decideAt ≤ s.cycle → g.dp = .commit →
    let s0 := Spec.on s (.decisionRelease gid)
    ((∃ d ∈ groupDies g, (s.die d).eres < 0 ∨ ((s.die d).tlim.toNat : Int) ≤ (s.die d).tmax.toInt) →
      exec .decisionRelease s0 = .next (s0.post 1 (.decisionRelease gid))) ∧
    ((∀ d ∈ groupDies g, 0 ≤ (s.die d).eres ∧ (s.die d).tmax.toInt < ((s.die d).tlim.toNat : Int)) →
      ∃ s' g' r, exec .decisionRelease s0 = .next s' ∧ s'.group gid = some g' ∧ g'.dp = .open_ ∧ g'.ss = g.ss + 1 ∧
        g'.att = 0 ∧ g'.count = 0 ∧ g'.bid = none ∧ g'.todo = g.todo ++ g.tiles.map (fun t => (t, r)) ∧
        g'.res = g.res ∧ g'.bcfg = g.bcfg ∧ r.cause = 0 ∧ r.ss = g.ss ∧ r.att = g.att ∧ r.bcfg = g.bcfg.toList ∧
        Spec.released s s' g (fun t => .releaseCommitAtTile g.id t r))) ∧
  (∀ s gid g, s.group gid = some g → g.st = .running → g.decideAt ≤ s.cycle → g.dp = .abort →
    ∃ s' g' r, exec .decisionRelease (Spec.on s (.decisionRelease gid)) = .next s' ∧ s'.group gid = some g' ∧ g'.dp = .open_ ∧
      g'.ss = g.ss ∧ g'.att = g.att + 1 ∧ g'.count = 0 ∧ g'.todo = g.todo ++ g.tiles.map (fun t => (t, r)) ∧
      g'.res = g.res ∧ r.cause = g.cause ∧ r.ss = g.ss ∧ r.att = g.att ∧
      Spec.released s s' g (fun t => .releaseAbortAtTile g.id t r)) ∧
  (∀ s gid g t r, Spec.RunsRelease s gid g t r → (∀ x ∈ (s.tile t).galley, x.kind = .undo) →
    ∃ s', exec .releaseCommitAtTile (Spec.on s (.releaseCommitAtTile gid t r)) = .next s' ∧
      (s'.tile t).galley = [] ∧ (r.ends = false → r.reshapes = false → (s'.tile t).v.ss = r.ss + 1 ∧ (s'.tile t).v.att = 0) ∧
      (r.ends = true ∨ r.reshapes = true → (s'.tile t).v.ss = (s.tile t).v.ss ∧ (s'.tile t).v.att = (s.tile t).v.att) ∧
      (s'.tile t).v.bstate = 0 ∧
      (s'.tile t).v.voted = false ∧ (s'.tile t).v.c = (s.tile t).v.c ∧
      ((s'.tile t).v.res = if r.wild then (s.tile t).v.res else (s.tile t).v.res.set r.bid.toNat r.result) ∧
      (∀ a, ¬ Spec.liesIn (s.tile t).v.partw 1 a 1 → (s'.tile t).mem.read a = (s.tile t).mem.read a) ∧
      (∀ n b, (s.strand t n).st = .waiting → (s.strand t n).wait = .bar b none →
        (s'.strand t n).st = .ready ∧ (s'.strand t n).pc = successor (s.strand t n).pc (s.strand t n).wlen) ∧
      (∀ g', s'.group gid = some g' → g'.todo = g.todo.erase (t, r))) ∧
  (∀ s gid g t r, Spec.RunsRelease s gid g t r → (∀ x ∈ (s.tile t).galley, x.kind = .undo ∧ x.ofs % 64 = 0) →
    ((s.tile t).galley.map (fun x => x.ofs)).Nodup →
    ∃ s', exec .releaseAbortAtTile (Spec.on s (.releaseAbortAtTile gid t r)) = .next s' ∧ (s'.tile t).galley = [] ∧
      (∀ a, (s'.tile t).mem.read a = standingByte (s.tile t) a) ∧ (s'.tile t).v.att = BitVec.ofNat 4 (r.att + 1) ∧
      (s'.tile t).v.ss = (s.tile t).v.ss ∧ (s'.tile t).v.lcause = r.cause ∧ (s'.tile t).v.latt = BitVec.ofNat 4 r.att ∧
      (s'.tile t).v.bstate = 0 ∧ (s'.tile t).v.voted = false ∧ (s'.tile t).v.c = (s.tile t).v.c ∧
      (s'.tile t).addQ = [] ∧ (s'.tile t).arrQ = [] ∧ (s'.tile t).chan.cmds = [])

/-- R97, R247, R255, R256, R258, R260, R261: a placed group starts once its clusters are usable; a cluster's start gate opens
when strand 0 of every tile of the group in it has left STARTED; a request to give up tiles replaces the one before
(one that comes at or after a commit's decision also what that decision leaves unmet), a
request to move that cannot be met is refused; a reshape ends with the new hosts and the group RUNNING; under folding a turn
ends with the next slot. -/
def Sys2Proof.Spec.GroupSteps : Prop :=
  (∀ s gid g k, s.group gid = some g → g.st = .placed → allUsable s g = true → g.kept = [] →
    (s.ctx g.ctx).kernel g.kimg = some k → (∀ t ∈ g.tiles, badPart k t = false) → g.v ≤ g.hosts.length →
    ∃ s' g', exec .groupStart (Spec.on s (.groupStart gid)) = .next s' ∧ s'.group gid = some g' ∧ g'.st = .running ∧
      g'.hosts = g.hosts ∧ g'.shadows = g.shadows ∧ g'.v = g.v ∧ g'.ss = g.ss ∧ g'.att = g.att) ∧
  (∀ s gid g (c : ClusterId), s.group gid = some g → g.st = .running → g.v ≤ g.hosts.length → (s.cluster c).gate = false →
    (∀ t ∈ g.tiles, clusterOf t = c → (s.strand t 0).st ≠ .started) →
    ∃ s', exec .clusterStartGateOpen (Spec.on s (.clusterStartGateOpen gid c)) = .next s' ∧ (s'.cluster c).gate = true ∧
      (∀ p n, p < 8 → (s.strand (tileAt c p) n).st = .waiting → (s.strand (tileAt c p) n).wait = .gate c →
        (s'.strand (tileAt c p) n).st = .ready) ∧ (∀ t, (s'.tile t).mem = (s.tile t).mem ∧ (s'.tile t).v = (s.tile t).v)) ∧
  (∀ s gid n, exec .giveUpRequest (Spec.on s (.giveUpRequest gid n)) =
    .next ((Spec.on s (.giveUpRequest gid n)).modGroup gid (fun g =>
      if g.st = .running ∨ g.st = .reshaping then
        { g with give := n, plan := { g.plan with asked := g.dp == .commit && decide (g.decideAt ≤ s.cycle) } }
      else g))) ∧
  (∀ s gid g ords tiles, s.group gid = some g →
    let s0 := Spec.on s (.moveRequest gid ords tiles)
    ((g.st ≠ .running ∧ g.st ≠ .reshaping) ∨ ords.length ≠ tiles.length ∨ (∃ o ∈ ords, g.v ≤ o) ∨ ¬ tiles.Nodup →
      exec .moveRequest s0 = .next (s0.report (.refusedRequest g.ctx))) ∧
    (∀ o t, ords = [o] → tiles = [t] → (g.st = .running ∨ g.st = .reshaping) → o < g.v →
      moveOk s0 g (o % g.hosts.length) t = true →
      ∃ s' g', exec .moveRequest s0 = .next s' ∧ s'.group gid = some g' ∧ g'.hosts = g.hosts ∧
        g'.moves = g.moves.filter (fun m => m.1 % g.hosts.length != o % g.hosts.length) ++ [(o, t)] ∧
        (s'.cluster (clusterOf t)).placed ≠ none)) ∧
  (∀ s gid g, s.group gid = some g → g.st = .reshaping → g.plan.saving = false → allUsable s g.reshaped = true →
    let s0 := Spec.on s (.reshapeDone gid)
    (∀ ords, imageBlocked s0 g.ctx (imagePlaces s0 g ords) = none) → (∀ t ∈ g.tiles, (s.tile t).errs = []) →
    ∃ s' g', exec .reshapeDone s0 = .next s' ∧ s'.group gid = some g' ∧ g'.st = .running ∧
      g'.hosts = g.newHosts ∧ g'.newHosts = [] ∧ g'.v = g.v ∧ g'.ss = g.ss) ∧
  (∀ s t g, s.groupOf t = some g → arrivalReady s t = true → moreTurns s t = true → (s.tile t).v.votes = [] →
    (s.tile t).errs = [] →
    buffersWait (Spec.on s (.foldTurnChange t)) g t = none →
    ∃ s', exec .foldTurnChange (Spec.on s (.foldTurnChange t)) = .next s' ∧ (s'.tile t).slot = (s.tile t).slot + 1 ∧
      (s'.tile t).arrQ = [] ∧ (∀ x ∈ (s'.tile t).galley, x.kind ≠ .undo))

/-! ### Queues, work objects, the dispatcher -/

namespace Sys2Proof.Spec

open Sys2Proof Sys2Proof.Machine

/-- The state after the strand has asked the dispatcher, the monitor or the page unit: g[D] is empty, the reply is under way
within 256 cycles, and, where the barrier arrival waits for it, noted as such. -/
def asked (s : State) (d : BitVec 5) (q : DispQuery) (holds : Bool) : State :=
  ((modSelf s (fun S => S.markEmpty (.g d))).modTile s.cur.1 (fun T =>
    { T with acks := if holds then T.acks ++ [(s.cur.2, (self s).gen)] else T.acks })).post 128
    (.dispatcherReply s.cur.1 s.cur.2 (self s).gen d q)

/-- The object that an identifier names: levels above a field ignore it (R240). -/
def objOf (lv : BitVec 2) (a b : Word) : ObjId :=
  { level := lv, job := a.extractLsb' 32 32, phase := if lv = 3 then 0 else a.extractLsb' 16 16
    graph := if lv.toNat < 2 then a.extractLsb' 0 16 else 0, node := if lv = 0 then b.extractLsb' 0 12 else 0 }

/-- A node number that no node has. -/
abbrev nodeWild (lv : BitVec 2) (b : Word) : Prop := lv = 0 ∧ 4096 ≤ b.toNat

/-- The tile is no member of a DMR pair (R250). -/
abbrev single (s : State) : Prop := (here s).twin = none ∧ (here s).shadow = false

end Sys2Proof.Spec

/-- R230, R240 to R242, R191: `enq` reads its message from the working copy and is answered BAD for a q above 3, CLOSED, BAD,
FULL or ACCEPT; with ACCEPT a reservation is held in queue 4·d + q, and in the tile until the commit. Misaligned it traps
MISALIGN; outside the own store PROT. `ccnt` asks for the record or QST; `cancel` is held and answered 0, or all ones for an
object never opened. -/
def Sys2Proof.Spec.DispatcherForms : Prop :=
  (∀ p q d a (m : BitVec 512) s, Ready s p .tile [.g a] [.g d] → let x := gOf s a
    Spec.OwnAccess s x 64 → x.toNat < 2 ^ 21 → s.det s.cur.1 = false → Spec.single s →
    Spec.holds (here s) (Spec.place s x.toNat) 64 m.toNat →
    let c := (here s).ctx
    let k := 4 * ownDevice s s.cur.1 + q.toNat
    let Q := (s.ctx c).queue k
    let answers (st : Nat) := exec (.enq p q d a) s = .next (retired s (Spec.asked s d (.value (BitVec.ofNat 64 st)) true) 8)
    (3 < q.toNat → answers 3) ∧
    (q.toNat ≤ 3 → Q.open_ = false → answers 2) ∧
    (q.toNat ≤ 3 → Q.open_ = true → msgBad (s.ctx c) m = true → answers 3) ∧
    (q.toNat ≤ 3 → Q.open_ = true → msgBad (s.ctx c) m = false → 256 ≤ Q.msgs.length + Q.rsv → answers 1) ∧
    (q.toNat ≤ 3 → Q.open_ = true → msgBad (s.ctx c) m = false → Q.msgs.length + Q.rsv < 256 →
      exec (.enq p q d a) s = .next (retired s
        (Spec.asked (modHere (s.modCtx c (fun x => x.modQueue k (fun y => { y with rsv := y.rsv + 1 })))
          (fun v => { v with held := v.held ++ [.enq k m] })) d (.value 0) true) 8))) ∧
  (∀ p q d a s, Ready s p .tile [.g a] [.g d] → let x := gOf s a
    (x.toNat % 64 ≠ 0 → exec (.enq p q d a) s = .next (trapTaken s 8 .misalign 0)) ∧
    (x.toNat % 64 = 0 → (2 ^ 21 ≤ x.toNat ∨ ¬ Spec.reachable (here s).v.partw x.toNat 64) →
      exec (.enq p q d a) s = .next (trapTaken s 8 .prot 0))) ∧
  (∀ p lv d a b s, Ready s p .tile [.g a, .g b] [.g d] → let o := Spec.objOf lv (gOf s a) (gOf s b)
    let c := (here s).ctx
    (Spec.nodeWild lv (gOf s b) →
      exec (.ccnt p lv d a b) s = .next (retired s (Spec.asked s d (.value (BitVec.allOnes 64)) true) 8)) ∧
    (¬ Spec.nodeWild lv (gOf s b) →
      exec (.ccnt p lv d a b) s = .next (retired s (Spec.asked s d (.record c o) true) 8)) ∧
    (Spec.single s → (Spec.nodeWild lv (gOf s b) ∨ findObj (s.ctx c) o = none) →
      exec (.cancel p lv d a b) s = .next (retired s (Spec.asked s d (.value (BitVec.allOnes 64)) true) 8)) ∧
    (Spec.single s → ¬ Spec.nodeWild lv (gOf s b) → findObj (s.ctx c) o ≠ none →
      exec (.cancel p lv d a b) s = .next (retired s
        (Spec.asked (modHere s (fun v => { v with held := v.held ++ [.cancel o] })) d (.value 0) true) 8))) ∧
  (∀ p q d s, Ready s p .tile [] [.g d] →
    (3 < q.toNat → exec (.ccntQ p q d) s = .next (retired s (Spec.asked s d (.value (BitVec.allOnes 64)) true) 8)) ∧
    (q.toNat ≤ 3 → exec (.ccntQ p q d) s =
      .next (retired s (Spec.asked s d (.qst (here s).ctx (4 * ownDevice s s.cur.1 + q.toNat)) true) 8)))

/-- R262 to R264, Tables 14.2 and 14.3: the forms that read the group map give GSHAPE, the ordinal of an index, the index of an
ordinal, the host and slot of an ordinal, and GOFF, or all ones outside the group; `offer` keeps the largest count and traps
ILLEGAL from 2^20. -/
def Sys2Proof.Spec.GroupMapForms : Prop :=
  (∀ p d s g, Ready s p .tile [] [.g d] → s.groupOf s.cur.1 = some g → let P := g.hosts.length
    exec (.vtidShape p d) s = .next (retired s (putG s d (BitVec.ofNat 64
      (P * 2 ^ 44 + (g.v + P - 1) / P * 2 ^ 40 + (here s).slot * 2 ^ 36 + g.base * 2 ^ 20 + (here s).v.ord))) 8) ∧
    exec (.offerRd p d) s = .next (retired s (putG s d (BitVec.ofNat 64
      (P * 2 ^ 44 + g.give % 2 ^ 20 * 2 ^ 24 + offerOf s g * 2 ^ 4))) 8)) ∧
  (∀ p d a s g, Ready s p .tile [.g a] [.g d] → s.groupOf s.cur.1 = some g → let x := (gOf s a).toNat
    let P := g.hosts.length
    let first := g.base * 1024
    exec (.vtidOrd p d a) s = .next (retired s (putG s d (
      if first ≤ x ∧ x < first + g.v ∧ x < 2 ^ 20 then BitVec.ofNat 64 (x - first) else BitVec.allOnes 64)) 8) ∧
    exec (.vtidIdx p d a) s = .next (retired s (putG s d (
      if x < g.v then BitVec.ofNat 64 (first + x) else BitVec.allOnes 64)) 8) ∧
    exec (.vtidHost p d a) s = .next (retired s (putG s d (
      if x < g.v then BitVec.ofNat 64 ((s.chip.toNat * 2 ^ 12 + (g.hosts.getD (x % P) 0) % 2 ^ 12) * 2 ^ 44 + x / P * 2 ^ 4)
      else BitVec.allOnes 64)) 8)) ∧
  (∀ p a s, Ready s p .control [.g a] [] → let x := gOf s a
    (2 ^ 20 ≤ x.toNat → exec (.offer p a) s = .next (trapTaken s 8 .illegal 0)) ∧
    (x.toNat < 2 ^ 20 → exec (.offer p a) s = .next (retired s (modHere s (fun v =>
      { v with offer := if v.offer.toNat < x.toNat then x.extractLsb' 0 20 else v.offer })) 8)))

/-- R230, R231, R233 to R235, R240: a message offered is answered CLOSED, BAD, FULL or ACCEPT and only then appended; intake takes
the head of the next queue in round-robin order; a pending node takes its outcome, and keeps it; a cancel marks the running
groups of the object; a reply leaves with the record current when it leaves, and the arrival no longer waits for it. -/
def Sys2Proof.Spec.QueueSteps : Prop :=
  (∀ s ctx q (m : BitVec 512), ctx < 32 → q < 16 → let Q := (s.ctx ctx).queue q
    let st := if Q.open_ = false then 2 else if msgBad (s.ctx ctx) m = true then 3 else
      if 256 ≤ Q.msgs.length + Q.rsv then 1 else 0
    ∃ s', exec .launchMessageOffer (Spec.on s (.launchMessageOffer ctx q m)) = .next s' ∧
      s'.reports = s.reports ++ [.offer ctx q st] ∧
      ((s'.ctx ctx).queue q).msgs = (if st = 0 then Q.msgs ++ [m] else Q.msgs) ∧
      (∀ c k, (c ≠ ctx ∨ k ≠ q) → (s'.ctx c).queue k = (s.ctx c).queue k)) ∧
  (∀ s, nextQueue s = none → exec .poolIntake (Spec.on s .poolIntake) = .next (Spec.on s .poolIntake)) ∧
  (∀ s k m r, nextQueue s = some k → ((s.ctx (k / 16)).queue (k % 16)).msgs = m :: r →
    ∃ s', exec .poolIntake (Spec.on s .poolIntake) = .next s' ∧ ((s'.ctx (k / 16)).queue (k % 16)).msgs = r ∧
      s'.disp.rr = (k + 1) % 512 ∧ (m.toNat % 256 = 1 → s'.disp.order = s.disp.order + 1) ∧
      (m.toNat % 256 = 5 → (s.cycle, .cancelAtDispatcher (k / 16) (msgObj m)) ∈ s'.agenda)) ∧
  (∀ s ctx o st r, ctx < 32 → findObj (s.ctx ctx) o = some r → o.level = 0 → st ≠ .pending →
    ∃ s' r', exec .nodeCompletion (Spec.on s (.nodeCompletion ctx o st)) = .next s' ∧ findObj (s'.ctx ctx) o = some r' ∧
      r'.st = (if r.st = .pending then st else r.st) ∧
      (r.st = .pending → r.rep = true → ∃ w, .completion ctx o w ∈ s'.reports)) ∧
  (∀ s ctx o r, ctx < 32 → findObj (s.ctx ctx) o = some r → r.st = .pending →
    ∃ s', exec .cancelAtDispatcher (Spec.on s (.cancelAtDispatcher ctx o)) = .next s' ∧
      ((∀ g ∈ s.groups, g.ctx = ctx → objHolds o g.node = true → g.st ≠ .placed) → s'.groups = s.groups.map (fun g =>
        if (g.ctx = ctx ∧ objHolds o g.node = true) ∧ (g.st = .running ∨ g.st = .reshaping) then { g with cancel := true }
        else g)) ∧
      (∀ gid g, s.group gid = some g → g.ctx = ctx → objHolds o g.node = true → g.st = .placed →
        ∃ g', s'.group gid = some g' ∧ g'.st = .ended) ∧
      (∀ n ∈ s.disp.pool, n.ctx = ctx → objHolds o n.node = true →
        (s.cycle, .nodeCompletion ctx n.node .cancelled) ∈ s'.agenda) ∧
      (∀ n ∈ s'.disp.pool, ¬ (n.ctx = ctx ∧ objHolds o n.node = true)) ∧
      (o.level = 0 → ∃ r', findObj (s'.ctx ctx) o = some r' ∧ r'.st = .pending)) ∧
  (∀ s t n gen d c o, ∃ s', exec .dispatcherReply (Spec.on s (.dispatcherReply t n gen d (.record c o))) = .next s' ∧
    (s.cycle, .resultDelivery t n gen (.g d) ((objRecord (s.ctx c) o).setWidth 1024)) ∈ s'.agenda ∧
    (s'.tile t).acks = (s.tile t).acks.erase (n, gen) ∧ s'.ctxs = s.ctxs) ∧
  (∀ s t n gen d v, (n, gen) ∈ (s.tile t).acks →
    ∃ s', exec .dispatcherReply (Spec.on s (.dispatcherReply t n gen d (.value v))) = .next s' ∧
      (s.cycle, .resultDelivery t n gen (.g d) (v.setWidth 1024)) ∈ s'.agenda ∧
      (s'.tile t).acks = (s.tile t).acks.erase (n, gen))

/-- R236: one admission step of a device takes the first of its ready nodes in pool order that fits, and what it passes over
counts one more bypass; a node at BYP = 64 that does not fit lets nothing behind it pass. -/
def Sys2Proof.Spec.Admission : Prop :=
  ∀ s c (n m : PoolNode) k j, 0 < c → c < 32 → (s.ctx c).st = .live → (s.ctx c).mode = 0 →
    (∀ x, x < 32 → x ≠ c → (s.ctx x).st ≠ .live) → s.disp.pool = [n, m] → n.ctx = c → m.ctx = c → n.dev = 0 → m.dev = 0 →
    n.order < m.order → n.prio ≤ m.prio → m.prio < 4 → nodeReady s n = true → nodeReady s m = true →
    (s.ctx c).kernel n.kimg = some k → (s.ctx c).kernel m.kimg = some j → k.st = .loaded → j.st = .loaded →
    (∀ q, fits (Spec.on s .admissionStep) n k = some q →
      ∃ s' g, exec .admissionStep (Spec.on s .admissionStep) = .next s' ∧ s'.groups = s.groups ++ [g] ∧ s'.disp.pool = [m] ∧
        g.st = .placed ∧ g.v = n.v ∧ g.base = q.1 ∧ g.hosts = q.2.1 ∧ g.shadows = q.2.2 ∧ g.kimg = n.kimg ∧ g.node = n.node) ∧
    (fits (Spec.on s .admissionStep) n k = none → n.byp = 64 →
      ∃ s', exec .admissionStep (Spec.on s .admissionStep) = .next s' ∧ s'.groups = s.groups ∧ s'.disp.pool = [n, m]) ∧
    (∀ q, fits (Spec.on s .admissionStep) n k = none → n.byp ≠ 64 → fits (Spec.on s .admissionStep) m j = some q →
      ∃ s' g, exec .admissionStep (Spec.on s .admissionStep) = .next s' ∧ s'.groups = s.groups ++ [g] ∧
        s'.disp.pool = [{ n with byp := n.byp + 1 }] ∧ g.node = m.node ∧ g.hosts = q.2.1)

/-- R78, R238, R239, R362: a wake takes 8 µs from GATED and clears the pools, 2 µs from RETAINED and keeps them, and then the
cluster is usable and its group, if it was the last, starts; an idle cluster is retained after RETD µs and gated GATD
µs later; a test clears the pools, takes 3 ms, and leaves its records, and an admission step of its cycle comes first; the cluster is AWAKE after it. -/
def Sys2Proof.Spec.ClusterSteps : Prop :=
  (∀ s (c : ClusterId), let k := s.cluster c
    (k.power = .gated → ∃ s', exec .clusterWake (Spec.on s (.clusterWake c)) = .next s' ∧
      s'.cluster c = { k with power := .awake, usableAt := some (s.cycle + 12800) } ∧
      (s.cycle + 12800, .clusterUsable c) ∈ s'.agenda ∧ (∀ p, p < 8 → (s'.tile (tileAt c p)).mem = [])) ∧
    (k.power = .retained → ∃ s', exec .clusterWake (Spec.on s (.clusterWake c)) = .next s' ∧
      s'.cluster c = { k with power := .awake, usableAt := some (s.cycle + 3200) } ∧
      (s.cycle + 3200, .clusterUsable c) ∈ s'.agenda ∧ s'.tiles = s.tiles) ∧
    (k.usableAt = some s.cycle → ∃ s', exec .clusterUsable (Spec.on s (.clusterUsable c)) = .next s' ∧
      s'.cluster c = { k with usableAt := none } ∧
      (∀ g, clusterGroup s c = some g → g.st = .placed → allUsable s' g = true → (s.cycle, .groupStart g.id) ∈ s'.agenda)) ∧
    (k.power = .awake → k.usableAt = none → clusterFree s c = true → s.disp.retd ≠ 0 → s.disp.retd.toNat ≤ idleOf s c →
      ∃ s', exec .clusterRetain (Spec.on s (.clusterRetain c)) = .next s' ∧ s'.cluster c = { k with power := .retained, retAt := s.cycle } ∧
        s'.tiles = s.tiles) ∧
    ((k.power = .retained ∧ s.disp.gatd.toNat ≤ (s.cycle - k.retAt) / 1600 ∨
        k.power = .awake ∧ k.usableAt = none ∧ s.disp.retd = 0 ∧ s.disp.gatd.toNat ≤ idleOf s c) →
      clusterFree s c = true → s.disp.gatd ≠ 0 →
      ∃ s', exec .clusterGate (Spec.on s (.clusterGate c)) = .next s' ∧ s'.cluster c = { k with power := .gated } ∧
        (∀ p, p < 8 → (s'.tile (tileAt c p)).mem = [])) ∧
    (testDue s c = true → k.power = .awake → k.usableAt = none →
      (∀ e ∈ s.agenda, e.2 = .admissionStep → s.cycle < e.1) →
      ∃ s', exec .testStart (Spec.on s (.testStart c)) = .next s' ∧ s'.cluster c = { k with power := .test, tpend := false } ∧
        (s.cycle + 4800000, .testDone c) ∈ s'.agenda ∧ (∀ p, p < 8 → (s'.tile (tileAt c p)).mem = [])) ∧
    (k.power = .test → ∃ s' f, exec .testDone (Spec.on s (.testDone c)) = .next s' ∧ (s'.cluster c).power = .awake ∧
      (s'.cluster c).tfail = f ∧ (f = true ↔ ∃ u, ∃ h : u < 9, ((s'.cluster c).records[u]).getLsbD 62 = true) ∧
      (∀ u, (h : u < 9) → ((s'.cluster c).records[u]).getLsbD 63 = true)))

/-! ### System, context, energy and test forms -/

/-- R225 to R228, R348: `trap` enters the handler with SWTRAP and n; `tret` goes back to TRAPPC and traps ILLEGAL outside a
handler; `sys` asks the runtime, which answers later, or the monitor, whose other services answer all ones; `kill` stops the
strand at once and `kill.ctx` sweeps a context; `dbg.rd` reads DBGR and clears VALID, `dbg.mark` reports under TRACE,
`dbg.brk` traps BRK under DEBUG. -/
def Sys2Proof.Spec.SystemForms : Prop :=
  (∀ p (n : BitVec 24) s, Ready s p .any [] [] →
    exec (.trap p n) s = .next (trapTaken s 8 .swtrap (n.setWidth 32))) ∧
  (∀ p s, Ready s p .any [] [] →
    ((self s).inHandler = false → exec (.tret p) s = .next (trapTaken s 8 .illegal 0)) ∧
    ((self s).inHandler = true → exec (.tret p) s = .next (wentTo s
      (modSelf s (fun S => { S with inHandler := false, suppress := S.watching, watching := false }))
      ((self s).trappc.setWidth 21)))) ∧
  (∀ p (k : BitVec 16) d a s, Ready s p .any [.g a] [.g d] → Spec.single s → let x := gOf s a
    let asks := (modSelf s (fun S => S.markEmpty (.g d))).modTile s.cur.1 (fun T =>
      { T with acks := T.acks ++ [(s.cur.2, (self s).gen)] })
    (0x8000 ≤ k.toNat → exec (.sys p k d a) s = .next (retired s
      (asks.post 128 (.sysReply s.cur.1 s.cur.2 (self s).gen d k x (BitVec.allOnes 64) (beforeOf (self s)))) 8)) ∧
    (k.toNat < 0x8000 → ∃ t due v, exec (.sys p k d a) s = .next (retired s t 8) ∧ t.tiles = asks.tiles ∧ s.cycle < due ∧
      (due, .sysReply s.cur.1 s.cur.2 (self s).gen d k x v (beforeOf (self s))) ∈ t.agenda ∧
      t.reports = s.reports ++ [.service (here s).ctx s.cur.1 s.cur.2 k x])) ∧
  (∀ p c s, Ready s p .any [] [] →
    ∃ s', exec (.kill p c) s = .next s' ∧ (self s').st = .free ∧ (self s').gen = (self s).gen + 1 ∧
      ((here s).ctx ≠ 0 → (s.cycle, .monitorRequest (.kill (here s).ctx c)) ∈ s'.agenda) ∧
      (∀ u, u ≠ s.cur.1 → s'.tile u = s.tile u)) ∧
  (∀ p a c s, Ready s p .monitor [.g a] [] → let k := (gOf s a).toNat % 32
    ((s.ctx k).st = .free → exec (.killCtx p a c) s = .next (retired s s 8)) ∧
    ((s.ctx k).st ≠ .free → (s.ctx k).st ≠ .sweeping → k ≠ 0 → ∃ t, exec (.killCtx p a c) s = .next (retired s t 8) ∧
      (t.ctx k).st = .sweeping ∧ (t.ctx k).seg = [] ∧ .killed k c ∈ t.reports)) ∧
  (∀ p d s, Ready s p .any [] [.g d] → let x := (here s).v.dbgr
    exec (.dbgRd p d) s = .next (retired s (modHere (putG s d x) (fun v => { v with dbgr := x &&& 0x7FFFFFFFFFFFFFFF })) 12)) ∧
  (∀ p a (v : BitVec 36) s, Ready s p .any [.g a] [] → let c := (here s).ctx
    exec (.dbgMark p a v) s =
      .next (retired s (if (s.ctx c).trace then s.report (.mark c v (gOf s a)) else s) 12)) ∧
  (∀ p (v : BitVec 36) s, Ready s p .any [] [] →
    ((s.ctx (here s).ctx).debug = true →
      exec (.dbgBrk p v) s = .next (trapTaken s 12 .brk (BitVec.ofNat 32 (v.toNat % 2 ^ 24)))) ∧
    ((s.ctx (here s).ctx).debug = false → exec (.dbgBrk p v) s = .next (retired s s 12)))

/-- R218 to R221, R224, Tables 11.4, 11.5: `ctxs.rd` reads CTXST or CTXSAB, of the own context from a tile; `ctxs.new`
takes a free number for a context in BUILDING, or answers all ones; `.seg` writes an entry, at the next release of a
running group that uses it; `.go` opens the queues of a context in BUILDING, `.save` closes those of a LIVE one and
makes its groups save, `.rest` brings a SAVED one without groups back; in another state they answer all ones and
change nothing. That `.new` takes the lowest free number and
no save area at or above 2^51 is the model's choice (log entries 29 and 90). -/
def Obligations.ContextForms : Prop :=
  (∀ p w d (a : GSrc) s, Ready s p (if a.r = 0 then .any else .monitor) [.g a] [.g d] →
    let c := if s.cur.1 = monitorTile then (gOf s a).toNat else (here s).ctx
    let x := s.ctx c
    let st : Nat := match x.st with
      | .free => 0 | .building => 1 | .live => 2 | .saving => 3 | .saved => 4 | .sweeping => 5
    let ldev := if s.cur.1 = monitorTile then 0 else ownDevice s s.cur.1
    c < 32 → ldev < 4 →
    exec (.ctxsRd p w d a) s = .next (retired s (putG s d (if w then x.sab else
      BitVec.ofNat 64 ((if x.trace then 2 ^ 58 else 0) + (if x.debug then 2 ^ 57 else 0) + st * 2 ^ 54 +
        x.mode.toNat * 2 ^ 52 + ldev * 2 ^ 50 + (if x.st = .free then 0 else c) * 2 ^ 45))) 12)) ∧
  (∀ p d a b s, Ready s p .monitor [.g a, .g b] [.g d] → let x := gOf s a
    let z := x.toNat / 2 ^ 12 % 2 ^ 16
    let legal := x.toNat % 4 < 3 ∧ x.toNat / 2 ^ 4 % 2 ^ 8 = 0 ∧ x.toNat / 2 ^ 28 = 0 ∧ 9 ≤ z ∧ z ≤ 0x201 ∧
      (gOf s b).toNat % 2 ^ 27 = 0 ∧ (gOf s b).toNat < 2 ^ 51
    ((¬ legal ∨ s.mon.dead = true ∨ (∀ c, 0 < c → c < 32 → (s.ctx c).st ≠ .free)) →
      exec (.ctxsNew p d a b) s = .next (retired s (putG s d (BitVec.allOnes 64)) 12)) ∧
    (∀ c, legal → s.mon.dead = false → 0 < c → c < 32 → (s.ctx c).st = .free →
      (∀ k, 0 < k → k < c → (s.ctx k).st ≠ .free) →
      ∃ t, exec (.ctxsNew p d a b) s = .next (retired s (putG t d (BitVec.ofNat 64 c)) 12) ∧
        (t.ctx c).st = .building ∧ (t.ctx c).mode = x.extractLsb' 0 2 ∧ (t.ctx c).debug = x.getLsbD 2 ∧
        (t.ctx c).trace = x.getLsbD 3 ∧ (t.ctx c).z = z ∧ (t.ctx c).sab = gOf s b ∧ (t.ctx c).seg = [] ∧
        (∀ k (h : k < 4), ((t.ctx c).enbl[k]) = (t.die k).enabled) ∧
        (∀ k, k ≠ c → t.ctx k = s.ctx k) ∧ t.tiles = s.tiles)) ∧
  (∀ p a b s, Ready s p .monitor [.g a, .g b] [] → let c := (gOf s a).toNat / 2 ^ 20 % 32
    let i := (gOf s a).toNat % 2 ^ 20
    let e := gOf s b &&& 0xF0000FFFFF3FFFFF
    let uses (g : Group) := g.ctx = c ∧ (g.st = .running ∨ g.st = .reshaping) ∧ g.base * 1024 ≤ i ∧ i < g.base * 1024 + g.v
    ((s.ctx c).st ≠ .building → (s.ctx c).st ≠ .live → exec (.ctxsSeg p a b) s = .next (retired s s 12)) ∧
    ((s.ctx c).st = .building ∨ (s.ctx c).st = .live → (∀ g ∈ s.groups, ¬ uses g) →
      exec (.ctxsSeg p a b) s = .next (retired s (s.modCtx c (fun x => { x with seg := assocSet i e x.seg })) 12)) ∧
    ((s.ctx c).st = .building ∨ (s.ctx c).st = .live → ∀ g, s.groups.find? (fun g => decide (uses g)) = some g →
      exec (.ctxsSeg p a b) s =
        .next (retired s (s.modCtx c (fun x => { x with segPend := x.segPend ++ [(i, e, g.id)] })) 12))) ∧
  (∀ p d a s, Ready s p .monitor [.g a] [.g d] → let c := (gOf s a).toNat % 32
    let x := s.ctx c
    let refused (i : Instr) := exec i s = .next (retired s (putG s d (BitVec.allOnes 64)) 12)
    let opens (y : Ctx) := ∀ q, (y.queue q).open_ = decide (q < 4 * devicesOf x.mode) ∧ (y.queue q).msgs = (x.queue q).msgs
    (x.st ≠ .building → refused (.ctxsGo p d a)) ∧ (x.st ≠ .live → refused (.ctxsSave p d a)) ∧
    (x.st ≠ .saved → refused (.ctxsRest p d a)) ∧
    (x.st = .building → ∃ y, exec (.ctxsGo p d a) s = .next (retired s (putG (s.modCtx c (fun _ => y)) d 0) 12) ∧
      y.st = .live ∧ opens y ∧ y.seg = x.seg ∧ y.kernels = x.kernels) ∧
    (x.st = .live → c ≠ 0 → ∃ t, exec (.ctxsSave p d a) s = .next (retired s (putG t d 0) 12) ∧ (t.ctx c).st = .saving ∧
      (∀ q, ((t.ctx c).queue q).open_ = false ∧ ((t.ctx c).queue q).msgs = (x.queue q).msgs) ∧
      t.groups = s.groups.map (fun g =>
        if g.ctx = c ∧ g.st ≠ .ended then { g with saving := true, give := g.hosts.length } else g) ∧
      t.tiles = s.tiles) ∧
    (x.st = .saved → x.savedGroups = [] →
      ∃ y, exec (.ctxsRest p d a) s = .next (retired s (putG ((s.modCtx c (fun _ => y)).post 0 .poolIntake) d 0) 12) ∧
        y.st = .live ∧ opens y))

/-- R238, R243, R252, R359, R361, R363, Tables 12.4 and 20.1: CLST, the kernel record and the unit record are asked for;
EPWR's reservoir, ETHM and a sensor are read at once, all ones for a die above 3; `ecnt.set` sets PLIM or TLIM from the next
tick on, `idle.set` DPOL, from the next admission step on, and `tst.req` TPEND, answering 0 with TEN, 1 without, all ones for a cluster above 511. -/
def Sys2Proof.Spec.EnergyForms : Prop :=
  (∀ p d a s, Ready s p .any [.g a] [.g d] → let k := (gOf s a).toNat
    exec (.idleRd p d a) s = .next (retired s (Spec.asked s d (.clst (here s).ctx (gOf s a)) false) 8) ∧
    (∀ w, exec (.ecntK p w d a) s = .next (retired s (Spec.asked s d (.kernel (here s).ctx (gOf s a) w) false) 8)) ∧
    (∀ u, exec (.tstRd p u d a) s = .next (retired s (Spec.asked s d (.test (here s).ctx (gOf s a) u) false) 12)) ∧
    (3 < k → ∀ j, exec (.ecntRes p d a) s = .next (retired s (putG s d (BitVec.allOnes 64)) 8) ∧
      exec (.ecntThm p d a) s = .next (retired s (putG s d (BitVec.allOnes 64)) 8) ∧
      exec (.ecntTs p j d a) s = .next (retired s (putG s d (BitVec.allOnes 64)) 8)) ∧
    (k ≤ 3 → let D := s.die k
      exec (.ecntRes p d a) s = .next (retired s (putG s d (BitVec.ofInt 64 D.eres)) 8) ∧
      exec (.ecntThm p d a) s = .next (retired s (putG s d (BitVec.ofNat 64 (D.tlim.toNat * 2 ^ 48 + D.tmax.toNat * 2 ^ 32 +
        D.head.toNat * 2 ^ 16))) 8) ∧
      (∀ j : BitVec 4, exec (.ecntTs p j d a) s = .next (retired s (putG s d ((D.ets[j.toNat]).setWidth 64)) 8)))) ∧
  (∀ p r a b s, Ready s p .monitor [.g a, .g b] [] → let k := (gOf s a).toNat
    (3 < k → exec (.ecntSet p r a b) s = .next (retired s s 8)) ∧
    (k ≤ 3 → exec (.ecntSet p r a b) s = .next (retired s (s.modDie k (fun D =>
      if r then { D with tlimW := some ((gOf s b).extractLsb' 48 16) }
      else { D with plimW := some ((gOf s b).extractLsb' 0 16) })) 8))) ∧
  (∀ p a s, Ready s p .monitor [.g a] [] → let w := gOf s a
    exec (.idleSet p a) s = .next (retired s { s with disp := { s.disp with dpolW := some w } } 8)) ∧
  (∀ s w, s.disp.dpolW = some w → (∀ c, c < 32 → (s.ctx c).st ≠ .live) → let s0 := Spec.on s .admissionStep
    exec .admissionStep s0 = .next { s0 with disp := { s.disp with
      ten := w.getLsbD 63, gatd := w.extractLsb' 32 16, retd := w.extractLsb' 0 16, dpolW := none } }) ∧
  (∀ p d a s, Ready s p .monitor [.g a] [.g d] → let c := (gOf s a).toNat
    (511 < c → exec (.tstReq p d a) s = .next (retired s (putG s d (BitVec.allOnes 64)) 12)) ∧
    (c ≤ 511 → exec (.tstReq p d a) s = .next (retired s (putG (s.modCluster c (fun k => { k with tpend := true })) d
      (if s.disp.ten then 0 else 1)) 12)))

/-! ### Boot, contexts, the sweep, kernels -/

/-- R216, R217, R20: cold reset leaves the machine of reset; the boot ROM starts the monitor only on an image that verifies,
reports and discards another, and records M1; the monitor takes the chip number and measures the runtime's image, which needs
no signature, into M2; an attestation is answered once the monitor runs. -/
def Sys2Proof.Spec.BootSteps : Prop :=
  (∀ s, exec .coldReset (Spec.on s .coldReset) = .next { State.reset with free := s.free, reports := s.reports }) ∧
  (∀ s img x y r q, let s0 := Spec.on s (.monitorImageReceive img x y r q)
    let good := img.length ≤ 262144 ∧ sha384 (beBytes 48 x.toNat ++ beBytes 48 y.toNat) = Config.fusedKeyHash ∧
      ecdsaVerify (sha384 img) x y r q = true
    (s.mon.boot ≠ .waiting → exec .monitorImageReceive s0 = .next s0) ∧
    (s.mon.boot = .waiting → ¬ good → exec .monitorImageReceive s0 = .next (s0.report .imageRefused)) ∧
    (s.mon.boot = .waiting → good → ∃ s', exec .monitorImageReceive s0 = .next s' ∧ s'.mon.boot = .monitor ∧
      s'.mon.m1 = sha384 img ∧ s'.mon.m2 = s.mon.m2 ∧ (s'.strand monitorTile 0).st = .ready ∧
      (s'.strand monitorTile 0).pc = 0 ∧ (∀ i (h : i < img.length), (s'.tile monitorTile).mem.read i = img[i]) ∧
      (∀ t, t ≠ monitorTile → s'.tile t = s.tile t))) ∧
  (∀ s c, exec .chipNumberAssign (Spec.on s (.chipNumberAssign c)) =
    .next { Spec.on s (.chipNumberAssign c) with chip := if s.mon.boot = .monitor then c else s.chip }) ∧
  (∀ s img, s.mon.boot = .monitor → ∃ s', exec .runtimeImageLoad (Spec.on s (.runtimeImageLoad img)) = .next s' ∧
    s'.mon = { s.mon with boot := .runtime, m2 := sha384 img }) ∧
  (∀ s img, s.mon.boot ≠ .monitor →
    exec .runtimeImageLoad (Spec.on s (.runtimeImageLoad img)) = .next (Spec.on s (.runtimeImageLoad img))) ∧
  (∀ s ctx n, let s0 := Spec.on s (.attestationRequest ctx n)
    (s.mon.boot = .waiting → exec .attestationRequest s0 = .next s0) ∧
    (s.mon.boot ≠ .waiting → ∃ b, exec .attestationRequest s0 = .next (s0.report (.attestation ctx b)) ∧ b.length = 512 ∧
      b.take 48 = beBytes 48 n.toNat ∧ b.getD 48 0 = s.chip ∧ b.getD 49 0 = BitVec.ofNat 8 ctx ∧
      (b.drop 56).take 48 = beBytes 48 s.mon.m1.toNat ∧ (b.drop 104).take 48 = beBytes 48 s.mon.m2.toNat))

/-- R212, R218, R221 to R223, R227: the monitor acts on requests once it runs; a save ends when every virtual tile's image has
been written; a sweep's token frees the tile and clears it, whatever it was doing; after SWT the clean bits decide, once more
or package-fatally; the purge frees the context. -/
def Sys2Proof.Spec.SweepSteps : Prop :=
  (∀ s m, s.mon.boot = .waiting → exec .monitorRequest (Spec.on s (.monitorRequest m)) = .next (Spec.on s (.monitorRequest m))) ∧
  (∀ s c x, s.mon.boot ≠ .waiting → 0 < c → c < 32 → (s.ctx c).st ≠ .free → (s.ctx c).st ≠ .sweeping →
    ∃ s', exec .monitorRequest (Spec.on s (.monitorRequest (.kill c x))) = .next s' ∧ (s'.ctx c).st = .sweeping ∧
      (s'.ctx c).seg = [] ∧ (∀ q, ((s'.ctx c).queue q).msgs = [] ∧ ((s'.ctx c).queue q).open_ = false) ∧
      (∀ k ∈ (s'.ctx c).kernels, k.st = .retired) ∧ (∀ n ∈ s'.disp.pool, n.ctx ≠ c) ∧
      s'.reports = s.reports ++ [.killed c x] ∧ (s.cycle + 16448, .sweepSwtExpiry c) ∈ s'.agenda ∧
      (∀ e ∈ s.tiles, e.2.running = true → e.2.ctx = c →
        ∃ due, due ≤ s.cycle + 64 ∧ (due, .sweepTokenAtTile c e.1) ∈ s'.agenda)) ∧
  (∀ s c, savesDone s c = true → imageBlocked (Spec.on s (.saveComplete c)) c [((s.ctx c).sab, 4096)] = none → c < 32 →
    ∃ s', exec .saveComplete (Spec.on s (.saveComplete c)) = .next s' ∧ (s'.ctx c).st = .saved ∧ s'.tiles = s.tiles) ∧
  (∀ s c t, (s.ctx c).st = .sweeping → (s.tile t).running = true → (s.tile t).ctx = c →
    ∃ s', exec .sweepTokenAtTile (Spec.on s (.sweepTokenAtTile c t)) = .next s' ∧ (s'.tile t).running = false ∧
      (s'.tile t).mem = [] ∧ (s'.tile t).errs = [] ∧ (s'.tile t).galley = [] ∧ (s'.tile t).outq = [] ∧
      (s'.tile t).chan.cmds = [] ∧ (s'.tile t).fa = {} ∧ (s'.tile t).fb = {} ∧ (s'.tile t).samp =
        { tapx := (s.tile t).samp.tapx, spec := (s.tile t).samp.spec, badt := (s.tile t).samp.badt, novf := (s.tile t).samp.novf } ∧
      (s'.tile t).arrQ = [] ∧ (s'.tile t).addQ = [] ∧ (s'.tile t).busyUntil = s.cycle + 4096 ∧
      (∀ n, (s'.strand t n).st = .free ∧ (s'.strand t n).g = Vector.replicate 32 0) ∧
      (∀ e ∈ s'.agenda, packetOf c e.2 = false) ∧ (∀ u, u ≠ t → s'.tile u = s.tile u)) ∧
  (∀ s c, (s.ctx c).st = .sweeping → ∃ s' b, exec .sweepSwtExpiry (Spec.on s (.sweepSwtExpiry c)) = .next s' ∧
    (s.cycle + 64, .sweepCleanResult c b) ∈ s'.agenda ∧ s'.tiles = s.tiles ∧
    (b = true → ∀ t ∈ (s.ctx c).sweepTiles, (s.tile t).busyUntil ≤ s.cycle)) ∧
  (∀ s c, (s.ctx c).st = .sweeping → c < 32 →
    (∃ s', exec .sweepCleanResult (Spec.on s (.sweepCleanResult c true)) = .next s' ∧
      (s.cycle + 64, .purgeConfirmed c) ∈ s'.agenda ∧ s'.mon = s.mon) ∧
    ((s.ctx c).sweepRound = 1 → ∃ s', exec .sweepCleanResult (Spec.on s (.sweepCleanResult c false)) = .next s' ∧
      (s'.ctx c).sweepRound = 2 ∧ (s.cycle + 16448, .sweepSwtExpiry c) ∈ s'.agenda ∧ s'.mon = s.mon) ∧
    ((s.ctx c).sweepRound = 2 → ∃ s', exec .sweepCleanResult (Spec.on s (.sweepCleanResult c false)) = .next s' ∧
      s'.mon.dead = true ∧ .packageFatal ∈ s'.reports)) ∧
  (∀ s c, (s.ctx c).st = .sweeping → (s.ctx c).sweepRound = 3 → c < 32 →
    ∃ s', exec .purgeConfirmed (Spec.on s (.purgeConfirmed c)) = .next s' ∧ s'.ctx c = {} ∧
      (∀ e ∈ s'.tier, e.1 / 2 ^ 43 ≠ c) ∧ s'.tiles = s.tiles)

/-- R217, R244 to R248: a kernel is refused with the first check that it fails, and else measured, recorded and LOADED; a
FAILED kernel without groups is reset to LOADED, a LOADED or FAILED one without groups is retired; in another state the
request is refused. -/
def Sys2Proof.Spec.KernelSteps : Prop :=
  (∀ s c (k : Word), let s0 := Spec.on s (.kernelLoadRequest c k)
    let x := s.ctx c
    let room := x.kernels.all (fun j => j.st == .retired || j.kimg != k) = true ∧
      (x.kernels.filter (fun j => j.st != .retired)).length < 1024
    (((x.st ≠ .building ∧ x.st ≠ .live) ∨ k.toNat % 4096 ≠ 0) →
      exec .kernelLoadRequest s0 = .next (s0.report (.refusedRequest c))) ∧
    (x.st = .building ∨ x.st = .live → k.toNat % 4096 = 0 → room → imageReadable s0 c k 256 = true →
      imageBehind s0 c k (256 + 16 * (headerOf s0 c k).nsec + (headerOf s0 c k).ilen) = false →
      (∀ n, loadCheck s0 c k (headerOf s0 c k) = some n →
        exec .kernelLoadRequest s0 = .next (s0.report (.loadRefused c k n))) ∧
      (loadCheck s0 c k (headerOf s0 c k) = none → c < 32 → ∃ s' j, exec .kernelLoadRequest s0 = .next s' ∧
        (s'.ctx c).kernel k = some j ∧ j.st = .loaded ∧ j.groups = 0 ∧ j.partw = (headerOf s0 c k).partw &&& BitVec.ofNat 64 (2 ^ 60 - 1) ∧
        j.entries = (headerOf s0 c k).entries ∧ j.att ≠ 0 ∧
        (s'.ctx c).meas = sha384 (beBytes 48 x.meas.toNat ++
          beBytes 48 (sha384 (readHbm s0 c k (headerOf s0 c k).ilen)).toNat) ∧ s'.tiles = s.tiles))) ∧
  (∀ s c k j, c < 32 → (s.ctx c).kernel k = some j →
    (j.st = .failed → j.groups = 0 → ∃ s', exec .kernelResetRequest (Spec.on s (.kernelResetRequest c k)) = .next s' ∧
      (s'.ctx c).kernel k = some { j with st := .loaded }) ∧
    ((j.st ≠ .failed ∨ j.groups ≠ 0) → exec .kernelResetRequest (Spec.on s (.kernelResetRequest c k)) =
      .next ((Spec.on s (.kernelResetRequest c k)).report (.refusedRequest c))) ∧
    ((j.st = .loaded ∨ j.st = .failed) → j.groups = 0 →
      ∃ s', exec .kernelRetireRequest (Spec.on s (.kernelRetireRequest c k)) = .next s' ∧
        (s'.ctx c).kernel k = some { j with st := .retired }) ∧
    (((j.st ≠ .loaded ∧ j.st ≠ .failed) ∨ j.groups ≠ 0) →
      exec .kernelRetireRequest (Spec.on s (.kernelRetireRequest c k)) =
        .next ((Spec.on s (.kernelRetireRequest c k)).report (.refusedRequest c)))) ∧
  (∀ s c k, (s.ctx c).kernel k = none →
    exec .kernelResetRequest (Spec.on s (.kernelResetRequest c k)) =
      .next ((Spec.on s (.kernelResetRequest c k)).report (.refusedRequest c)) ∧
    exec .kernelRetireRequest (Spec.on s (.kernelRetireRequest c k)) =
      .next ((Spec.on s (.kernelRetireRequest c k)).report (.refusedRequest c)))

/-! ### Replies, the watchdog, the reservoir, records, soft errors -/

/-- R55, R87, R96, R226, R348, R359, R361: a failed fetch traps at the PC; the runtime's or the monitor's answer fills its
register; the watchdog takes ORPHAN at the strand that has waited longest only when no live strand can go on; at the end of
every µs a die's reservoir rises by its limit and falls by its draw, within ±10 ms of limit, and its limits as written take
effect. -/
def Sys2Proof.Spec.SystemSteps : Prop :=
  (∀ s c, ∃ s', exec .fetchFault (Spec.on s (.fetchFault c)) = .next s' ∧
    s' = takeTrap (took (Spec.on s (.fetchFault c)) s.cur.1 s.cur.2) s.cur.1 s.cur.2 c 0 (self s).pc (self s).pc) ∧
  (∀ s t n gen d (k : BitVec 16) x v b, (n, gen) ∈ (s.tile t).acks →
    let s0 := Spec.on s (.sysReply t n gen d k x v b)
    beforeMet s0 t n b = false → exec .sysReply s0 = .next (s0.post 1 (.sysReply t n gen d k x v b))) ∧
  (∀ s t n gen d (k : BitVec 16) x v b, (n, gen) ∈ (s.tile t).acks → shadowOf s t = none →
    beforeMet (Spec.on s (.sysReply t n gen d k x v b)) t n b = true →
    (k.toNat < 0x8000 → ∃ s', exec .sysReply (Spec.on s (.sysReply t n gen d k x v b)) = .next s' ∧
      (s.cycle, .resultDelivery t n gen (.g d) (v.setWidth 1024)) ∈ s'.agenda ∧
      (s'.tile t).acks = (s.tile t).acks.erase (n, gen)) ∧
    (0x8000 < k.toNat → ∃ s', exec .sysReply (Spec.on s (.sysReply t n gen d k x v b)) = .next s' ∧
      (s.cycle, .resultDelivery t n gen (.g d) ((BitVec.allOnes 64).setWidth 1024)) ∈ s'.agenda ∧
      (s'.tile t).acks = (s.tile t).acks.erase (n, gen))) ∧
  (∀ s t, (s.tile t).running = true →
    let live := (List.finRange 11).filter (fun n => liveSt (s.strand t n).st)
    let s0 := Spec.on s (.idleWatchdogExpiry t)
    ((∃ n ∈ live, canProceed s0 t n = true) → exec .idleWatchdogExpiry s0 = .next s0) ∧
    (∀ n, (∀ m ∈ live, canProceed s0 t m = false) → n ∈ live → (∀ m ∈ live, (s.strand t n).since ≤ (s.strand t m).since) →
      (∀ m ∈ live, m < n → (s.strand t n).since < (s.strand t m).since) → (s.strand t n).deferred = none →
      exec .idleWatchdogExpiry s0 =
        .next (takeTrap s0 t n .orphan 0 (s.strand t n).pc (successor (s.strand t n).pc (s.strand t n).wlen)))) ∧
  (∀ s, ∃ s', exec .reservoirTick (Spec.on s .reservoirTick) = .next s' ∧ s'.tiles = s.tiles ∧
    ∀ d, d < 4 → ∃ draw : Nat, let D := s.die d
      let E := s'.die d
      let L : Int := if E.plim = 0 then 1 else E.plim.toNat
      E.plim = D.plimW.getD D.plim ∧ E.tlim = D.tlimW.getD D.tlim ∧ E.plimW = none ∧ E.tlimW = none ∧
      D.drawn / 1000 ≤ draw ∧ E.drawn = 0 ∧ E.head = BitVec.ofNat 16 ((E.tlim.toNat : Int) - E.tmax.toInt).toNat ∧
      E.eres = max (-(L * 10000000)) (min (L * 10000000) (D.eres + L * 1000 - draw)) ∧
      (∀ k (h : k < 16), (E.ets[k]).toInt ≤ E.tmax.toInt) ∧ E.peaks.length ≤ 100 ∧ E.enabled = D.enabled)

namespace Sys2Proof.Spec

open Sys2Proof Sys2Proof.Machine

/-- Table 19.2: the 32 bytes of a trap record as one word, limb 0 lowest. -/
def recordBits (r : TrapRec) : BitVec 256 :=
  (r.info ++ r.colmap) ++ (r.phys ++ r.vidx ++ (0 : BitVec 3) ++ r.pc) ++ (r.ss ++ (0 : BitVec 12) ++ r.strand) ++
    (r.code ++ r.cls ++ BitVec.ofBool r.defer ++ r.ctx ++ r.att ++ (0 : BitVec 43))

end Sys2Proof.Spec

/-- R351 to R354: a record enters a row collector with its column, or joins the entry of equal CTX, CODE, SS and ATT; an entry
goes to the die's trap unit 256 cycles later and leaves it 4,096 later as one delivery of the record's 32 bytes (Table 19.2) and the 128 bytes of the reporters' bitmap; a soft
error stands in its word until a read finds it; the background read corrects the errors that one bit makes. -/
def Sys2Proof.Spec.RecordSteps : Prop :=
  (∀ s (r : TrapRec), let here (e : RowEntry) := e.die = recDie r ∧ e.row = recRow r
    ((∀ e ∈ s.rows, ¬ here e) → ∃ s', exec .trapRecordArrival (Spec.on s (.trapRecordArrival r)) = .next s' ∧
      s'.rows = s.rows ++ [{ die := recDie r, row := recRow r, rcd := { r with colmap := r.colmap ||| (1 <<< recCol r) },
                             at_ := s.cycle }] ∧
      (s.cycle + 256, .rowCollectorForward (recDie r) (recRow r)) ∈ s'.agenda) ∧
    ((∃ e ∈ s.rows, here e ∧ recMeets e.rcd r = true) →
      ∃ s', exec .trapRecordArrival (Spec.on s (.trapRecordArrival r)) = .next s' ∧ s'.rows.length = s.rows.length ∧
        s'.agenda = s.agenda ∧ s'.units = s.units)) ∧
  (∀ s e rest, s.rows = e :: rest → e.at_ + 256 ≤ s.cycle → (∀ u ∈ s.units, u.die ≠ e.die) →
    ∃ s' u, exec .rowCollectorForward (Spec.on s (.rowCollectorForward e.die e.row)) = .next s' ∧ s'.rows = rest ∧
      s'.units = s.units ++ [u] ∧ u.die = e.die ∧ u.rcd = e.rcd ∧ u.at_ = s.cycle ∧
      u.bitmap = (e.rcd.colmap.setWidth 1024) <<< (32 * e.row) ∧ (s.cycle + 4096, .trapUnitDeliver e.die) ∈ s'.agenda) ∧
  (∀ s u rest, s.units = u :: rest → u.at_ + 4096 ≤ s.cycle →
    ∃ s', exec .trapUnitDeliver (Spec.on s (.trapUnitDeliver u.die)) = .next s' ∧ s'.units = rest ∧
      ∃ b, s'.reports = s.reports ++ [.record b] ∧ b.length = 160 ∧ ∀ i, i < 160 → b.getD i 0 =
        if i < 32 then (Spec.recordBits { u.rcd with colmap := 0 }).extractLsb' (8 * i) 8
        else u.bitmap.extractLsb' (8 * (i - 32)) 8) ∧
  (∀ s t, (s.tile t).running = false →
    exec .backgroundScrubRead (Spec.on s (.backgroundScrubRead t)) = .next (Spec.on s (.backgroundScrubRead t))) ∧
  (∀ s t o, (s.tile t).running = true → (s.tile t).errs = [{ place := .pool o, due := false }] → (s.tile t).galley = [] →
    o < poolUsed (s.tile t) →
    ∃ s', exec .backgroundScrubRead (Spec.on s (.backgroundScrubRead t)) = .next s' ∧ (s'.tile t).errs = [] ∧
      (s'.tile t).mem = (s.tile t).mem ∧ (s'.tile t).v.votes = (s.tile t).v.votes)

/-! ### Pages -/

namespace Sys2Proof.Spec

open Sys2Proof Sys2Proof.Machine

/-- The walk of an address ends at a leaf whose home is this chip. -/
abbrev atHome (s : State) (c : Nat) (va : Word) (l : Leaf) : Prop := walk s c va = .ok l ∧ peHome l.1 = s.chip

/-- The transfer of a page begins: STATE of its leaf changes, the frame or slot is taken, the copy ends later. -/
def moving (s : State) (c : Nat) (l : Leaf) (inb : Bool) (f : Xfer) (dev : Nat) (r : List Nat) : State :=
  (setLeaf (s.modCtx c (fun x =>
      if inb then { x with frames := assocSet dev r x.frames, xfers := x.xfers ++ [f] }
      else { x with slots := assocSet dev r x.slots, xfers := x.xfers ++ [f] })) c l (peSetState l.1 (if inb then 3 else 1))).post
    3200 (if inb then .retnCopyDone c f.va else .offlCopyDone c f.va)

end Sys2Proof.Spec

/-- R297, R298, R301 to R305, Tables 16.2 and 16.4: `imp` holds the list it reads and asks for the acknowledgement; `offl`
and `retn` answer LARGE, UNMAPPED, or the status that the page's state gives, and start a transfer where it may, an `offl`
once a running checkpoint has copied the page; `pin`
sets PINU or waits for the page to land; `pin.clr` clears it; `pin.uns` makes a SETTLED page RESIDENT with MIG 0;
`ckpt.go` is held. A request whose page has its home on another chip gets a status that the model leaves free. The
model's choices: log entries 2, 26, 55 and 56, and log entry 9 for the 128 cycles until a reply (R301 gives 256 at most) and
the 3,200 cycles of a page's copy. -/
def Obligations.PageForms : Prop :=
  (∀ p a s, Ready s p .tile [.g a] [] → let x := gOf s a
    (x.toNat % 64 ≠ 0 → exec (.imp p a) s = .next (trapTaken s 8 .misalign 0)) ∧
    (x.toNat % 64 = 0 → (2 ^ 21 ≤ x.toNat ∨ ¬ Spec.reachable (here s).v.partw x.toNat 8) →
      exec (.imp p a) s = .next (trapTaken s 8 .prot 0)) ∧
    (∀ es : List Word, x.toNat % 64 = 0 → x.toNat < 2 ^ 21 → es.length < 256 →
      Spec.reachable (here s).v.partw x.toNat (8 + 8 * es.length) →
      ownOverlap (here s) s.cur.2 x.toNat (8 + 8 * es.length) = [] → (here s).errs = [] → s.det s.cur.1 = false →
      Spec.single s → Spec.holds (here s) (Spec.place s x.toNat) 8 es.length →
      (∀ i (h : i < es.length), Spec.holds (here s) (Spec.place s (x.toNat + 8 + 8 * i)) 8 (es[i]).toNat) →
      exec (.imp p a) s = .next (retired s
        (Spec.asked (modHere s (fun v => { v with held := v.held ++ [.imp es] })) 0 (.value 0) true) 8))) ∧
  (∀ p ct d a (imm : BitVec 36) s, Ready s p .tile [.g a] [.g d] → let va := Spec.ea s a imm
    let c := (here s).ctx
    let X := s.ctx c
    let me := [((here s).v.idx, ct)]
    let off (t : State) (k : Nat) := exec (.offl p ct d a imm) s =
      .next (retired s (Spec.asked t d (.status (BitVec.ofNat 64 k)) false) 12)
    let ret (t : State) (k : Nat) := exec (.retn p ct d a imm) s =
      .next (retired s (Spec.asked t d (.status (BitVec.ofNat 64 k)) false) 12)
    (2 ^ 51 ≤ va.toNat → exec (.offl p ct d a imm) s = .next (trapTaken s 12 .prot 0) ∧
      exec (.retn p ct d a imm) s = .next (trapTaken s 12 .prot 0)) ∧
    (va.toNat < 2 ^ 51 → (∀ l, walk s c va ≠ .ok l) → off s 5 ∧ ret s 5) ∧
    (∀ l, va.toNat < 2 ^ 51 → walk s c va = .ok l → peHome l.1 ≠ s.chip → ∃ t k, k < 8 ∧ t.tiles = s.tiles ∧ off t k) ∧
    (∀ l, va.toNat < 2 ^ 51 → walk s c va = .ok l → peHome l.1 ≠ s.chip → ∃ t k, k < 8 ∧ t.tiles = s.tiles ∧ ret t k) ∧
    (∀ l, va.toNat < 2 ^ 51 → Spec.atHome s c va l → let st := peState l.1
      (l.2.2.2 = true → off s 3 ∧ ret s 3) ∧
      (l.2.2.2 = false → (st = 1 ∨ st = 2 ∨ st = 3) → off s 1) ∧ (l.2.2.2 = false → st = 4 → off s 6) ∧
      (l.2.2.2 = false → st = 0 → ckMissing s X va = true → exec (.offl p ct d a imm) s = .next (retired s
        ((modSelf s (fun S => S.markEmpty (.g d))).modCtx c (fun x => { x with offlWait := x.offlWait ++
          [{ tile := s.cur.1, strand := s.cur.2, gen := (self s).gen, d := d, va := va, cts := me }] })) 12)) ∧
      (l.2.2.2 = false → st = 0 → ckMissing s X va = false → pePinned l.1 = true → off s 2) ∧
      (l.2.2.2 = false → st = 0 → ckMissing s X va = false → pePinned l.1 = false → isImposed X va = true → off s 7) ∧
      (l.2.2.2 = false → st = 0 → ckMissing s X va = false → pePinned l.1 = false → isImposed X va = false →
        let dev := frameDevOf s c (peFrame l.1)
        (assocGet [] dev X.slots = [] → off s 4) ∧
        (∀ k r, assocGet [] dev X.slots = k :: r → off (Spec.moving s c l false
          { va := va, inbound := false, from_ := peFrame l.1, to_ := k, cts := me } dev r) 0)) ∧
      (l.2.2.2 = false → (st = 0 ∨ st = 3 ∨ st = 4) → ret s 1) ∧
      (l.2.2.2 = false → st = 1 → ret (raiseV (cancelOutbound s c va) c (here s).v.idx ct) 0) ∧
      (l.2.2.2 = false → st = 2 → let dev := ownDevice s s.cur.1
        (assocGet [] dev X.frames = [] → ret s 4) ∧
        (∀ f r, assocGet [] dev X.frames = f :: r → ret (Spec.moving s c l true
          { va := va, inbound := true, from_ := peFrame l.1, to_ := f, cts := me } dev r) 0)))) ∧
  (∀ p d a s, Ready s p .tile [.g a] [.g d] → let va := gOf s a
    let c := (here s).ctx
    let reply (i : Instr) (t : State) (k : Nat) := exec i s =
      .next (retired s (Spec.asked t d (.status (BitVec.ofNat 64 k)) false) 8)
    let pinu (l : Leaf) := setLeaf s c l (l.1 ||| ((1 : Word) <<< (60 : Nat)))
    exec (.pstat p d a) s = .next (retired s (Spec.asked s d (.pstat c va) false) 8) ∧
    ((∀ l, walk s c va ≠ .ok l) → reply (.pin p d a) s 5 ∧ reply (.pinClr p d a) s 5 ∧ reply (.pinUns p d a) s 5) ∧
    (∀ l, Spec.atHome s c va l → let st := peState l.1
      reply (.pinClr p d a) (setLeaf s c l (l.1 &&& ~~~((1 : Word) <<< (60 : Nat)))) 0 ∧
      (l.2.2.2 = true → reply (.pinUns p d a) s 3) ∧ (l.2.2.2 = false → st ≠ 4 → reply (.pinUns p d a) s 1) ∧
      (l.2.2.2 = false → st = 4 →
        reply (.pinUns p d a) (setLeaf s c l (peSetState l.1 0 &&& ~~~((7 : Word) <<< (52 : Nat)))) 0) ∧
      ((l.2.2.2 = true ∨ st = 0 ∨ st = 4) → reply (.pin p d a) (pinu l) 0) ∧
      (∀ m, l.2.2.2 = false → st = 1 → walk (cancelOutbound s c va) c va = .ok m →
        reply (.pin p d a) (setLeaf (cancelOutbound s c va) c m (m.1 ||| ((1 : Word) <<< (60 : Nat)))) 0) ∧
      (l.2.2.2 = false → st = 2 → reply (.pin p d a) s 1) ∧
      (l.2.2.2 = false → st = 3 → exec (.pin p d a) s = .next (retired s
        ((modSelf s (fun S => S.markEmpty (.g d))).modCtx c (fun x =>
          { x with pinWait := x.pinWait ++ [(s.cur.1, s.cur.2, (self s).gen, d, va)] })) 8)))) ∧
  (∀ p d s, Ready s p .tile [] [.g d] →
    exec (.pstatDev p d) s = .next (retired s (Spec.asked s d (.pdev (here s).ctx (ownDevice s s.cur.1)) false) 8) ∧
    exec (.ckptRd p d) s = .next (retired s (Spec.asked s d (.ckst (here s).ctx) false) 12) ∧
    (∀ ct, exec (.ckptGo p ct d) s = .next (retired s (modHere (modSelf s (fun S => S.markEmpty (.g d))) (fun v =>
      { v with held := v.held ++ [.ckpt s.cur.2 (self s).gen d ct] })) 12)))

namespace Sys2Proof.Spec

open Sys2Proof Sys2Proof.Machine

/-- After a write to the tables, which takes `s` to `m`, the accesses stay parked for which the walk ends as before, and no
fault of an address that is mapped now is awaited (R294). -/
def triedAgain (s m s' : State) (c : Nat) : Prop :=
  (∀ a, a ∈ (s'.ctx c).parked ↔
    a ∈ (s.ctx c).parked ∧ translate m c a.va 1 a.write = translate s c a.va 1 a.write) ∧
  (∀ f ∈ (s'.ctx c).faults, f ∈ (s.ctx c).faults ∧ (f.reason = 1 → walk m c f.va = .error .unmapped))

end Sys2Proof.Spec

/-- R288, R292 to R294, R299, R300, R304: an access goes on where its page is in HBM, parks with a fault record where it
is offloaded or unmapped, waits for an inbound page, and ends where it is refused; a copy out leaves the page in its
slot and frees the frame to the list it came from, a copy in the other way round and lets what waited go on; a write-back
lands where its page is, or is refused and tells its strand; table and list writes are seen by later walks, and the parked accesses whose walk then ends otherwise go on; the checkpoint
becomes complete when nothing is left to copy. The model's choices: log entries 9, 25, 27 and 56. -/
def Obligations.PageSteps : Prop :=
  (∀ s (a : PageAcc), let s0 := Spec.on s (.pageAccess a)
    (a.who = .chan → (translate s a.ctx a.va 1 a.write = .refused) →
      ∃ s', exec .pageAccess s0 = .next s' ∧ (s.cycle, .copyAccessRefused a.tile .prot a.va) ∈ s'.agenda ∧
        (s'.tile a.tile).chan.park = false) ∧
    (a.who = .chan → (∃ e d f, translate s a.ctx a.va 1 a.write = .ok e d f) →
      ∃ s', exec .pageAccess s0 = .next s' ∧ (s'.tile a.tile).chan.park = false ∧ s'.reports = s.reports) ∧
    (∀ r, a.ctx < 32 → translate s a.ctx a.va 1 a.write = r → (r = .offloaded ∨ r = .unmapped ∨ r = .inbound) →
      ∃ s', exec .pageAccess s0 = .next s' ∧ (s'.ctx a.ctx).parked = (s.ctx a.ctx).parked ++ [a] ∧ s'.tiles = s.tiles ∧
        (r = .inbound → s'.reports = s.reports) ∧
        (r ≠ .inbound →
          s'.reports = s.reports ++ [.fault a.ctx a.va a.write (if r = .unmapped then 1 else 0) a.tile (accSource s a)])) ∧
    (translate s a.ctx a.va 1 a.write = .behind → exec .pageAccess s0 = .next (s0.post 1 (.pageAccess a)))) ∧
  (∀ s c va l f d, c < 32 → walk s c va = .ok l → peState l.1 = 1 → findXfer (s.ctx c) va false = some f → f.cts = [] →
    findAway s c va false = none →
    frameDev (s.ctx c).mode f.from_ = some d →
    ∃ s', exec .offlCopyDone (Spec.on s (.offlCopyDone c va)) = .next s' ∧
      s'.tier = s.tier.store (slotKey c f.to_) (frameBytes s (s.ctx c).mode d.1 d.2 0 32768) ∧
      s'.hbm = (setLeaf s c l (peSetState (peSetFrame l.1 f.to_) 2)).hbm ∧
      (∀ g ∈ (s'.ctx c).xfers, pageOf g.va ≠ pageOf va ∨ g.away = true) ∧ f.from_ ∈ assocGet [] (assocGet d.1 f.from_ (s.ctx c).frameFrom) (s'.ctx c).frames ∧
      s'.tiles = s.tiles) ∧
  (∀ s c va l f d, c < 32 → walk s c va = .ok l → peState l.1 = 3 → findXfer (s.ctx c) va true = some f → f.cts = [] →
    findAway s c va true = none →
    frameDev (s.ctx c).mode f.to_ = some d → (s.ctx c).pinWait = [] →
    ∃ s', exec .retnCopyDone (Spec.on s (.retnCopyDone c va)) = .next s' ∧ s'.tier = s.tier ∧
      s'.hbm = (setLeaf (frameStore s (s.ctx c).mode d.1 d.2 0 (s.tier.bytes (slotKey c f.from_) 32768)) c l
        (peSetState (peSetFrame l.1 f.to_) 0)).hbm ∧
      f.from_ ∈ assocGet [] (assocGet d.1 f.from_ (s.ctx c).slotFrom) (s'.ctx c).slots ∧ (∀ a ∈ (s'.ctx c).parked, pageOf a.va ≠ pageOf va) ∧
      (∀ g ∈ (s'.ctx c).xfers, pageOf g.va ≠ pageOf va ∨ g.away = true)) ∧
  (∀ s (w : WriteBack) l rest, w.ctx < 32 → w.chip = s.chip → (s.ctx w.ctx).drains = w :: rest → walk s w.ctx w.va = .ok l →
    (peState l.1 = 0 → l.1.getLsbD 58 = true → peHome l.1 = s.chip →
      ∃ s', exec .writebackDrain (Spec.on s (.writebackDrain w)) = .next s' ∧
        s'.hbm = (writeHbm s w.ctx w.va (bytesOf w.n w.data.toNat)).hbm ∧ (s'.ctx w.ctx).drains = rest) ∧
    (l.1.getLsbD 58 = false → Spec.tellable s w.tile w.strand →
      ∃ s', exec .writebackDrain (Spec.on s (.writebackDrain w)) = .next s' ∧ s'.hbm = s.hbm ∧ (s'.ctx w.ctx).drains = rest ∧
        (s'.strand w.tile w.strand).deferred = some { code := .prot, info := 0, pc := w.pc, engine := true }) ∧
    (peState l.1 = 2 → l.1.getLsbD 58 = true → peHome l.1 = s.chip → ∃ s' a, exec .writebackDrain (Spec.on s (.writebackDrain w)) = .next s' ∧ s'.hbm = s.hbm ∧
      (s'.ctx w.ctx).parked = (s.ctx w.ctx).parked ++ [a] ∧ a.va = w.va ∧ a.write = true ∧
      (s'.ctx w.ctx).drains = w :: rest)) ∧
  (∀ s c va e d, c < 32 → frameDev (s.ctx c).mode (s.ctx c).tbr.toNat = some d →
    ∃ s', exec .pageTableWrite (Spec.on s (.pageTableWrite c 0 va e)) = .next s' ∧
      let m := frameStore (Spec.on s (.pageTableWrite c 0 va e)) (s.ctx c).mode d.1 d.2 (8 * (va.toNat / 2 ^ 39 % 4096)) (bytesOf 8 e.toNat)
      s'.hbm = m.hbm ∧ Spec.triedAgain (Spec.on s (.pageTableWrite c 0 va e)) m s' c) ∧
  (∀ s c v, c < 32 → let s0 := Spec.on s (.tableBaseWrite c v)
    ∃ s', exec .tableBaseWrite s0 = .next s' ∧ (s'.ctx c).tbr = v ∧ s'.hbm = s.hbm ∧
      Spec.triedAgain s0 (s0.modCtx c (fun x => { x with tbr := v })) s' c) ∧
  (∀ s c dev fs ks, c < 32 → ∃ s', exec .freeListFill (Spec.on s (.freeListFill c dev fs ks)) = .next s' ∧
    assocGet [] dev (s'.ctx c).frames = assocGet [] dev (s.ctx c).frames ++ fs ∧
    assocGet [] dev (s'.ctx c).slots = assocGet [] dev (s.ctx c).slots ++ ks ∧ s'.hbm = s.hbm) ∧
  (∀ s c va, c < 32 → ∃ s', exec .faultRefuse (Spec.on s (.faultRefuse c va)) = .next s' ∧
    (∀ a ∈ (s'.ctx c).parked, pageOf a.va ≠ pageOf va) ∧ (∀ f ∈ (s'.ctx c).faults, pageOf f.va ≠ pageOf va) ∧
    (∀ a ∈ (s.ctx c).parked, pageOf a.va = pageOf va → a.who = .chan →
      (s.cycle, .copyAccessRefused a.tile .prot a.va) ∈ s'.agenda)) ∧
  (∀ s c, c < 32 → let k := (s.ctx c).ckst
    (k.toNat / 2 ^ 62 = 1 → ckNow s (s.ctx c) ≠ 0 →
      exec .checkpointDone (Spec.on s (.checkpointDone c)) = .next (Spec.on s (.checkpointDone c))) ∧
    (k.toNat / 2 ^ 62 = 1 → ckNow s (s.ctx c) = 0 → ∃ s', exec .checkpointDone (Spec.on s (.checkpointDone c)) = .next s' ∧
      (s'.ctx c).ckst = BitVec.ofNat 64 (2 * 2 ^ 62 + k.toNat % 2 ^ 48) ∧ (s'.ctx c).ckCt = none ∧
      (s'.ctx c).ckCopy = (s.ctx c).ckCopy) ∧
    (k.toNat / 2 ^ 62 ≠ 1 → exec .checkpointDone (Spec.on s (.checkpointDone c)) = .next (Spec.on s (.checkpointDone c)))) ∧
  (∀ s t n gen d c va l, walk s c va = .ok l → peHome l.1 = s.chip →
    ∃ s', exec .dispatcherReply (Spec.on s (.dispatcherReply t n gen d (.pstat c va))) = .next s' ∧
      (s.cycle, .resultDelivery t n gen (.g d) ((l.1 &&& 0xFFFFFFFFF0000000).setWidth 1024)) ∈ s'.agenda)

/-! ### Collectives -/

namespace Sys2Proof.Spec

open Sys2Proof Sys2Proof.Machine

/-- V of the issuing tile's group. -/
def groupV (s : State) : Nat := ((s.groupOf s.cur.1).map (fun g => g.v)).getD 0

/-- The only member of a collective of one member, resident at tile `t`, running, without a shadow. -/
structure SoleMember (s : State) (ctx : Nat) (c : Coll) (m : CMem) (t : TileId) : Prop where
  there : findColl (s.ctx ctx) c.inst = some c
  legal : ctx < 32
  mems : c.mems = [m]
  host : ∃ g k, locate s ctx m.idx = some (g, t, k) ∧ (s.tile t).slot = k
  slot : ((s.tile t).v.coll[m.slot.toNat]).st = 2 ∧ ((s.tile t).v.coll[m.slot.toNat]).inst = c.inst
  steady : (s.tile t).turning = false
  single : (s.tile t).twin = none

/-- The only member, in a sound store. -/
structure OneMember (s : State) (ctx : Nat) (c : Coll) (m : CMem) (t : TileId) : Prop extends SoleMember s ctx c m t where
  sound : (s.tile t).errs = []

/-- Its slot in a state. -/
def slotAt (s : State) (t : TileId) (m : CMem) : CollSlot := (s.tile t).v.coll[m.slot.toNat]

/-- Its completion counter was raised. -/
abbrev raisedDone (s s' : State) (t : TileId) (m : CMem) : Prop :=
  (s'.tile t).v.c[(m.crb.cdone.setWidth 4 : BitVec 4).toNat] = (s.tile t).v.c[(m.crb.cdone.setWidth 4 : BitVec 4).toNat] + 1

end Sys2Proof.Spec

/-- R314: the digits of a plane adder: from two streams of prefixes that converge as R313's do, whose sum S lies below 2^48 (in
units of 2^(E-48)), each step adds -1, 0 or 1 times its weight, every prefix lies strictly within its bound of S, and the
last one is S. -/
def Obligations.PlaneAdder : Prop :=
  ∀ l r : List Int, l.length = 49 → r.length = 49 →
    (∀ k, k ≤ 48 → (l.getD 48 0 - l.getD k 0).natAbs < 2 ^ (48 - k)) → (∀ k, k ≤ 48 → (r.getD 48 0 - r.getD k 0).natAbs < 2 ^ (48 - k)) →
    (l.getD 48 0 + r.getD 48 0).natAbs < 2 ^ 48 →
    let y := adderPrefixes l r
    y.length = 49 ∧ y.getD 0 0 = 0 ∧ y.getD 48 0 = l.getD 48 0 + r.getD 48 0 ∧
    (∀ i, i ≤ 48 → (l.getD 48 0 + r.getD 48 0 - y.getD i 0).natAbs < 2 ^ (48 - i)) ∧
    (∀ i, i < 48 → ∃ d : Int, (d = -1 ∨ d = 0 ∨ d = 1) ∧ y.getD (i + 1) 0 = y.getD i 0 + d * 2 ^ (47 - i))

/-- R306, R322 to R326: `coll` traps with the first check that fails, MISALIGN, PROT, COLL 1 to 4, and else copies the
request into its PENDING slot, held behind the vote; `waitp` waits with SST.WAIT = 7 and completes as soon as the
counter has the planes or can have no more; `pcan` sets a lower cutoff at once, in a PENDING request or, at a consumer, in a
launched one, whose node it reaches later; `prd` traps ILLEGAL or COLL and reads
32 elements after k planes, where a reserved digit code makes its element a free value (log entry 2); `cstat` reads CST
and PCNT. The model's reading: log entry 43; its choices: the 128 cycles of an acknowledgement and the 192 of a cutoff (log
entry 9). -/
def Obligations.CollectiveForms : Prop :=
  (∀ p k a s, Ready s p .tile [.g a] [] → let x := gOf s a
    let o := Spec.ofsOf x
    let b := Spec.working s o 128
    let c := crbOf b
    let v := (here s).v
    let traps (i : BitVec 32) := exec (.coll p k a) s = .next (trapTaken s 8 .coll i)
    (x.toNat % 128 ≠ 0 → exec (.coll p k a) s = .next (trapTaken s 8 .misalign 0)) ∧
    (x.toNat % 128 = 0 → (¬ Spec.namesOwn s x ∨ ¬ Spec.reachable v.partw o 128) →
      exec (.coll p k a) s = .next (trapTaken s 8 .prot 0)) ∧
    (Spec.Block s x 128 128 false → Spec.freeNow s o 128 false → Spec.plainReads s → Spec.single s →
      (crbBad b (Spec.groupV s) v.ord = true → traps 1) ∧
      (∀ i, crbBad b (Spec.groupV s) v.ord = false → c.member v.ord = some i → crbRanges v.partw c i = false → traps 2) ∧
      (crbBad b (Spec.groupV s) v.ord = false → c.member v.ord = none → traps 3) ∧
      (∀ i, crbBad b (Spec.groupV s) v.ord = false → c.member v.ord = some i → crbRanges v.partw c i = true →
        (crbTaken v c k.toNat = true → traps 4) ∧
        (crbTaken v c k.toNat = false → exec (.coll p k a) s = .next (retired s
          (Spec.asked (modHere s (fun v =>
            { v with coll := v.coll.set k.toNat { crb := c, st := 1 }, held := v.held ++ [.coll k] })) 0 (.value 0) true) 8))))) ∧
  (∀ p k j pf a b s, Ready s p .tile [.g a, .g b] [] → let x := gOf s a + j.setWidth 64
    (48 < k.toNat → exec (.waitp p k j pf a b) s = .next (trapTaken s 12 .illegal 0)) ∧
    (k.toNat ≤ 48 → 64 ≤ x.toNat → exec (.waitp p k j pf a b) s = .next (trapTaken s 12 .coll 7)) ∧
    (k.toNat ≤ 48 → x.toNat < 64 → exec (.waitp p k j pf a b) s =
      .next (blocked s s 12 (.precision x.toNat k.toNat pf s.cycle (gOf s b).toNat)))) ∧
  (∀ (s : State) (t : TileId) (n : StrandNo) x k pf start tmo,
    (s.strand t n).st = .waiting → (s.strand t n).wait = .precision x k pf start tmo → x < 64 →
    let c := (s.tile t).v.pc x
    let s' := tickStrand s t n
    let completes (b : Bool) := (s'.strand t n).st = .ready ∧ (s'.strand t n).notBefore = s.cycle + 1 ∧
      (s'.strand t n).pc = successor (s.strand t n).pc (s.strand t n).wlen ∧ (pf ≠ 0 → (s'.strand t n).rp pf = b)
    (k ≤ c.toNat % 64 → completes false) ∧ (c.toNat % 64 < k → c.toNat / 2 ^ 13 ≠ 1 → completes true)) ∧
  (∀ p k (c : BitVec 6) s, Ready s p .tile [] [] → let o := (here s).v.coll[k.toNat]
    let mine := (o.st = 1 ∨ o.st = 2 ∨ o.st = 3) ∧ (o.st ≠ 1 → o.crb.consumer (here s).v.ord = true) ∧
      (o.cut = 0 ∨ c.toNat < o.cut.toNat)
    ((c = 0 ∨ 48 < c.toNat) → exec (.pcan p k c) s = .next (trapTaken s 8 .illegal 0)) ∧
    (c ≠ 0 → c.toNat ≤ 48 → ¬ mine → exec (.pcan p k c) s = .next (retired s s 8)) ∧
    (c ≠ 0 → c.toNat ≤ 48 → mine → o.st = 1 → exec (.pcan p k c) s = .next (retired s
      (modHere s (fun v => { v with coll := v.coll.set k.toNat { o with cut := c } })) 8)) ∧
    (c ≠ 0 → c.toNat ≤ 48 → mine → o.st ≠ 1 → ∃ t, exec (.pcan p k c) s = .next (retired s t 8) ∧
      ((t.tile s.cur.1).v.coll[k.toNat]).cut = c ∧
      (∀ C i, findColl (s.ctx (here s).ctx) o.inst = some C → C.mems.findIdx? (fun m => m.idx == (here s).v.idx) = some i →
        (here s).shadow = false → (s.cycle + 192, .collNodeInput (here s).ctx o.inst 0 (.cutoff i c)) ∈ t.agenda) ∧
      (∀ g, g < o.crb.nseg → o.crb.pcb.toNat + g < 64 → let x := (here s).v.pc (o.crb.pcb.toNat + g)
        (t.tile s.cur.1).v.pc (o.crb.pcb.toNat + g) =
          (if x.toNat / 2 ^ 13 ≠ 1 then x
           else if o.crb.pmode ≠ 1 then BitVec.ofNat 16 (3 * 2 ^ 13 + c.toNat * 64)
           else BitVec.ofNat 16 ((if c.toNat ≤ x.toNat % 64 then 3 else 1) * 2 ^ 13 + c.toNat * 64 + x.toNat % 64))))) ∧
  (∀ p k n d a s, Ready s p .tile [.g a] [.w d] → let e := (gOf s a).toNat
    let o := (here s).v.coll[k.toNat]
    let pl := ((here s).v.pc (o.crb.pcb.toNat + e / 4096)).toNat % 64
    let traps (c : Cause) (i : BitVec 32) := exec (.prdF32 p k n d a) s = .next (trapTaken s 8 c i)
    let at_ := o.crb.dst.toNat + 3200 * (e / 256)
    let len := 128 + 64 * n.toNat
    ((n = 0 ∨ 48 < n.toNat) → traps .illegal 0) ∧
    (n ≠ 0 → n.toNat ≤ 48 → (e % 32 ≠ 0 ∨ o.crb.count.toNat ≤ e) → traps .coll 5) ∧
    (n ≠ 0 → n.toNat ≤ 48 → e % 32 = 0 → e < o.crb.count.toNat →
      (o.crb.pmode ≠ 1 → traps .coll 6) ∧ (o.crb.pmode = 1 → pl < n.toNat → traps .coll 5) ∧
      (o.crb.pmode = 1 → n.toNat ≤ pl → Spec.plainReads s → Spec.reachable (here s).v.partw at_ len →
        let b := Spec.working s at_ len
        let stated (i : Nat) : Prop := o.crb.count.toNat ≤ e + i ∨ (prdVal b (e % 256 + i) n.toNat).isSome = true
        let lane (i : Nat) : Nat := if o.crb.count.toNat ≤ e + i then 0 else
          match (prdVal b (e % 256 + i) n.toNat).getD .nan with | .fin _ 0 _ => 0 | v => roundVal fp32 0 0 v
        ((∀ i, i < 32 → stated i) → exec (.prdF32 p k n d a) s = .next (retired s (putV s (.w d)
          (BitVec.ofNat 1024 (natOf ((List.range 32).flatMap (fun i => bytesOf 4 (lane i))))) 4) 8)) ∧
        (∃ t r, exec (.prdF32 p k n d a) s = .next (retired s (putV t (.w d) r 4) 8) ∧
          (∀ i, i < 32 → stated i → r.toNat / 2 ^ (32 * i) % 2 ^ 32 = lane i) ∧ t.tiles = s.tiles)))) ∧
  (∀ p k n a c s, Ready s p .tile [.g a, .g c] [] → let x := gOf s c
    let e := (gOf s a).toNat
    Spec.accTraps s x 2048 8 (exec (.prdLa p k n a c) s) ∧
    (Spec.AccRange s x 2048 true → (n = 0 ∨ 48 < n.toNat) → exec (.prdLa p k n a c) s = .next (trapTaken s 8 .illegal 0)) ∧
    (Spec.AccRange s x 2048 true → Spec.freeNow s (Spec.ofsOf x) 2048 true → n ≠ 0 → n.toNat ≤ 48 → e % 32 = 0 →
      let o := (here s).v.coll[k.toNat]
      let at_ := o.crb.dst.toNat + 3200 * (e / 256)
      let len := 128 + 64 * n.toNat
      e < o.crb.count.toNat → o.crb.pmode = 1 → n.toNat ≤ ((here s).v.pc (o.crb.pcb.toNat + e / 4096)).toNat % 64 →
      Spec.plainReads s → Spec.reachable (here s).v.partw at_ len → (self s).suppress = true →
      (∀ l, Spec.touches (Spec.ofsOf x) 2048 l → logged (here s) l = true) →
      (∀ g ∈ (here s).galley, (g.kind = .plain ∨ g.kind = .add) → g.sidx = (here s).v.idx) →
      let val (i : Nat) : Option Val := if o.crb.count.toNat ≤ e + i then some (.fin false 0 0)
        else prdVal (Spec.working s at_ len) (e % 256 + i) n.toNat
      ∃ (t : State) (f : Nat → Nat), exec (.prdLa p k n a c) s = .next (retired s t 8) ∧
        (t.tile s.cur.1).mem = (here s).mem.store (Spec.ofsOf x)
          ((List.range 32).flatMap (fun i => bytesOf 64 (match val i with
            | some v => (addLa 0 v).toNat | none => f i))) ∧
        (t.tile s.cur.1).strands = (here s).strands)) ∧
  (∀ p k d s, Ready s p .tile [] [.g d] → let o := (here s).v.coll[k.toNat]
    exec (.cstat p k d) s = .next (retired s (putG s d (BitVec.ofNat 64 (o.st.toNat * 2 ^ 61 + o.err.toNat * 2 ^ 56 +
      o.late.toNat * 2 ^ 40 + (if o.dlnp then 2 ^ 39 else 0) + (if o.srcRead then 2 ^ 38 else 0) + o.cut.toNat * 2 ^ 32 +
      o.crb.collid.toNat))) 8)) ∧
  (∀ p d a s, Ready s p .tile [.g a] [.g d] → let x := (gOf s a).toNat
    exec (.cstatPc p d a) s = .next (retired s (putG s d
      (if x < 64 then ((here s).v.pc x).setWidth 64 else BitVec.allOnes 64)) 8))

/-- R307, R308, R310 to R312, R315 to R318: for a collective of one member: requests that disagree fail it with ERR 1,
counters LOST and CDONE raised; else its digest is logged and its source is read, whose values then reach the chip's
node, as soon as the store gives them; a cutoff is recorded; the deadline closes a node that has an input; FP32 values land and complete their counter;
a plane adder emits its next digit once both inputs have delivered the planes that it needs; a slot whose counters are
all frozen, or whose contribution was accepted, is done. The 64 and 32 cycles (log entry 9) and the order of the
failures (log entry 28) are the model's choices. -/
def Obligations.CollectiveSteps : Prop :=
  (∀ s ctx c m t, Spec.OneMember s ctx c m t → c.all = false → allIn c = true →
    let s0 := Spec.on s (.collAllLaunched ctx c.inst)
    (crbsAgree c = false → ∃ s', exec .collAllLaunched s0 = .next s' ∧ (Spec.slotAt s' t m).st = 6 ∧
      (Spec.slotAt s' t m).err = 1 ∧ Spec.raisedDone s s' t m ∧ (s'.tile t).mem = (s.tile t).mem) ∧
    (crbsAgree c = true → c.refused = false → c.crb.alg = 1 → ∃ s' d, exec .collAllLaunched s0 = .next s' ∧
      (s'.ctx ctx).collLog = (s.ctx ctx).collLog ++ [(c.crb.collid, 1, d)] ∧
      s'.reports = s.reports ++ [.collDigest ctx c.crb.collid 1 d] ∧
      (m.crb.contributes m.index = true → (s.cycle + 64, .collSourceRead ctx c.inst 0 0) ∈ s'.agenda))) ∧
  (∀ s ctx c m t g k b, Spec.OneMember s ctx c m t → c.all = true → m.read = 0 → m.vals = [] → m.crb.nseg = 1 →
    locate s ctx m.idx = some (g, t, k) → (s.tile t).busyUntil ≤ s.cycle → m.crb.pmode ≠ 1 →
    remoteBytes (Spec.on s (.collSourceRead ctx c.inst 0 0)) ctx g t k m.idx m.crb.src.toNat (m.crb.count.toNat * m.crb.esz) =
      (Spec.on s (.collSourceRead ctx c.inst 0 0), true, b) →
    ∃ s', exec .collSourceRead (Spec.on s (.collSourceRead ctx c.inst 0 0)) = .next s' ∧
      (s.cycle + 64, .collNodeInput ctx c.inst 0 (.vals 0 (srcElems m.crb b))) ∈ s'.agenda ∧
      (Spec.slotAt s' t m).srcRead = true ∧ (s'.tile t).mem = (s.tile t).mem) ∧
  (∀ s ctx c m t g k b s1, Spec.SoleMember s ctx c m t → c.all = true → m.read = 0 → m.crb.nseg = 1 →
    locate s ctx m.idx = some (g, t, k) → (s.tile t).busyUntil ≤ s.cycle →
    remoteBytes (Spec.on s (.collSourceRead ctx c.inst 0 0)) ctx g t k m.idx m.crb.src.toNat (m.crb.count.toNat * m.crb.esz) =
      (s1, false, b) →
    exec .collSourceRead (Spec.on s (.collSourceRead ctx c.inst 0 0)) = .next (s1.post 64 (.collSourceRead ctx c.inst 0 0))) ∧
  (∀ s ctx c m t v, Spec.OneMember s ctx c m t → c.closed = false → c.expos = [] → c.vals = [] → c.crb.pmode ≠ 1 →
    c.contributors = [0] →
    ∃ s', exec .collNodeInput (Spec.on s (.collNodeInput ctx c.inst 0 (.vals 0 v))) = .next s' ∧
      (∃ c', findColl (s'.ctx ctx) c.inst = some c' ∧ c'.closed = true ∧ c'.vals = [(0, v)] ∧
        c'.out = combineVals c [v]) ∧
      (m.crb.consumes m.index = true → ∀ g, g < c.crb.nseg → (s.cycle + 32, .planeLanded ctx c.inst 0 g) ∈ s'.agenda)) ∧
  (∀ s ctx c m t (x : BitVec 6), Spec.OneMember s ctx c m t → c.cuts = [] →
    ∃ s' c', exec .collNodeInput (Spec.on s (.collNodeInput ctx c.inst 0 (.cutoff 0 x))) = .next s' ∧
      findColl (s'.ctx ctx) c.inst = some c' ∧ c'.cuts = [(0, x.toNat)]) ∧
  (∀ s ctx c m t, Spec.OneMember s ctx c m t → let s0 := Spec.on s (.collDeadlineExpiry ctx c.inst 0)
    ((c.closed = true ∨ (c.expos = [] ∧ c.vals = [])) → exec .collDeadlineExpiry s0 = .next s0) ∧
    (c.closed = false → (c.expos ≠ [] ∨ c.vals ≠ []) → ∃ s' c', exec .collDeadlineExpiry s0 = .next s' ∧
      findColl (s'.ctx ctx) c.inst = some c' ∧ c'.closed = true ∧ (Spec.slotAt s' t m).dlnp = true)) ∧
  (∀ s ctx c m t seg, Spec.OneMember s ctx c m t → c.closed = true → c.crb.pmode ≠ 1 → m.crb.pmode ≠ 1 →
    m.crb.pcb.toNat + seg < 64 → let x := (s.tile t).v.pc (m.crb.pcb.toNat + seg)
    x.toNat / 2 ^ 13 = 1 →
    ∃ s', exec .planeLanded (Spec.on s (.planeLanded ctx c.inst 0 seg)) = .next s' ∧
      (s'.tile t).mem = (s.tile t).mem.store (m.crb.dst.toNat + 16384 * seg)
        (((c.out.drop (4096 * seg)).take 4096).flatMap (fun y => bytesOf 4 y.toNat)) ∧
      (s'.tile t).v.pc (m.crb.pcb.toNat + seg) = BitVec.ofNat 16 (2 * 2 ^ 13 + x.toNat / 64 % 64 * 64 + 48) ∧
      (s.cycle + 1, .collConsumerDone ctx c.inst 0) ∈ s'.agenda) ∧
  (∀ s ctx id c k seg n l r, findColl (s.ctx ctx) id = some c → ctx < 32 → c.nodes[k]? = some n → n.kind = .adder l r →
    seg < n.sent.length → let i := n.sent.getD seg 0 + 1
    let s0 := Spec.on s (.adderDigitEmit ctx id k seg)
    (i ≤ nodeLimit c n → min (i + 2) 48 ≤ nodeSent c l seg → min (i + 2) 48 ≤ nodeSent c r seg →
      ∃ s' c', exec .adderDigitEmit s0 = .next s' ∧ findColl (s'.ctx ctx) id = some c' ∧ nodeSent c' k seg = i ∧
        s'.tiles = s.tiles) ∧
    ((nodeLimit c n < i ∨ nodeSent c l seg < min (i + 2) 48 ∨ nodeSent c r seg < min (i + 2) 48) →
      exec .adderDigitEmit s0 = .next s0)) ∧
  (∀ s ctx c m t, Spec.OneMember s ctx c m t → c.closed = true → m.crb.consumes m.index = true → m.crb.mbma = 0 →
    (∀ g, g < m.crb.nseg → ((s.tile t).v.pc (m.crb.pcb.toNat + g)).toNat / 2 ^ 13 ≠ 1) →
    ∃ s', exec .collConsumerDone (Spec.on s (.collConsumerDone ctx c.inst 0)) = .next s' ∧ Spec.raisedDone s s' t m ∧
      (s'.tile t).mem = (s.tile t).mem ∧
      ((Spec.slotAt s' t m).st = 5 ↔ ∃ g, g < m.crb.nseg ∧ ((s.tile t).v.pc (m.crb.pcb.toNat + g)).toNat / 2 ^ 13 = 3) ∧
      ((Spec.slotAt s' t m).st = 4 ∨ (Spec.slotAt s' t m).st = 5)) ∧
  (∀ s ctx c m t, Spec.OneMember s ctx c m t → c.closed = true → m.crb.consumes m.index = false → m.crb.nseg ≤ m.read →
    ∃ s', exec .contributionAccepted (Spec.on s (.contributionAccepted ctx c.inst 0)) = .next s' ∧
      Spec.raisedDone s s' t m ∧ (Spec.slotAt s' t m).st = 4 ∧ (s'.tile t).mem = (s.tile t).mem)

/-! ### Links -/

namespace Sys2Proof.Spec

open Sys2Proof Sys2Proof.Machine

/-- UP, OVERTOP or DEGRADED. -/
abbrev inUse (k : Link) : Prop := k.st = .up ∨ k.st = .overtop ∨ k.st = .degraded

/-- The retraining window: 0.5 µs within the package, 2 µs at a port (R336). -/
def window (l : Nat) : Nat := if 48 ≤ l then 3200 else 800

/-- A retrain to a step has begun. -/
abbrev retrains (s s' : State) (l : Nat) (step : BitVec 3) : Prop :=
  (s'.link l).st = .stepping ∧ (s'.link l).want = step ∧ (s'.link l).busyUntil = s.cycle + window l ∧
  (∃ b, (s.cycle + window l, .linkRetrainDone l b) ∈ s'.agenda) ∧ (∀ j, j ≠ l → s'.link j = s.link j)

/-- Training at a step has begun. -/
abbrev trains (s s' : State) (l : Nat) (step : BitVec 3) : Prop :=
  (s'.link l).st = .training ∧ (s'.link l).step = step ∧ (s'.link l).busyUntil = s.cycle + window l ∧
  (∃ b, (s.cycle + window l, .linkTrainingDone l b) ∈ s'.agenda) ∧ (∀ j, j ≠ l → s'.link j = s.link j)

/-- The smaller of two steps. -/
def lower (a b : BitVec 3) : BitVec 3 := if a.toNat ≤ b.toNat then a else b

/-- A step at a width: half the lanes carry no overtop (R336). -/
abbrev atWidth (half : Bool) (step : BitVec 3) : BitVec 3 := if half = true ∧ 2 < step.toNat then 2 else step

/-- What a training or a retrain at a step comes to, whose lanes are those of `K`: the lanes decide the width, the width and
the step the state. A retrain that waits begins, and with AUTO = 0 one to the step that is asked for (R337, R339). -/
def trainedAs (s s' : State) (l : Nat) (K : Link) (step : BitVec 3) : Prop :=
  let half := K.applied.halves (isPort l)
  let aim := lower K.target K.gcap
  let k' := s'.link l
  k'.ret = K.ret ∧ k'.spret = K.spret ∧ k'.fails = 0 ∧ k'.half = half ∧ k'.step = atWidth half step ∧ k'.pending = false ∧
  (if K.pending = true ∨ K.auto_ = false ∧ atWidth half step ≠ atWidth half aim then
    k'.st = .stepping ∧ k'.want = aim ∧ k'.busyUntil = s.cycle + window l
   else k'.st = (if half then .degraded else if 2 < k'.step.toNat then .overtop else .up))

end Sys2Proof.Spec

/-- R343, R344, Tables 18.5 to 18.8: `lnkrd` reads a link's register, all ones for a number above 63; `lnkset` refuses a link
above 63 (4) and an illegal LCTL (1), and else writes LCTL, sets GCAP to 6 and retrains to min(TARGET, GCAP) when the step
differs; `.up` trains a link that is DOWN or FAILED, `.down` refuses the last of its path and else waits for what the link holds;
`lnkret` retires a lane, at the next retrain. -/
def Sys2Proof.Spec.LinkForms : Prop :=
  (∀ p r d a s, Ready s p .any [.g a] [.g d] → let l := (gOf s a).toNat
    let k := s.link l
    let st : Nat := match k.st with
      | .down => 0 | .training => 1 | .up => 2 | .overtop => 3 | .stepping => 4 | .degraded => 5 | .failed => 6
    let reads (w : Word) := exec (.lnkrd p r d a) s = .next (retired s (putG s d w) 8)
    (64 ≤ l → reads (BitVec.allOnes 64)) ∧
    (l < 64 → (r = 0 → reads (BitVec.ofNat 64 (st * 2 ^ 61 + k.step.toNat * 2 ^ 58 + k.gcap.toNat * 2 ^ 55 +
        (if k.half then 2 ^ 54 else 0) + k.spuse.toNat * 2 ^ 48 + k.spret.toNat * 2 ^ 44 + k.degc.toNat * 2 ^ 16))) ∧
      (r = 1 → reads k.ret) ∧ (r = 2 → reads k.lcrc) ∧ (r = 3 → reads k.lrep) ∧ (r = 4 → reads (k.flits ++ k.rew)) ∧
      (r = 5 → reads (BitVec.ofNat 64 ((if k.auto_ then 2 ^ 63 else 0) + (if k.oven then 2 ^ 62 else 0) +
        k.target.toNat * 2 ^ 55 + k.floor_.toNat * 2 ^ 52 + k.rmax.toNat * 2 ^ 16))))) ∧
  (∀ p d a b s, Ready s p .monitor [.g a, .g b] [.g d] → let l := (gOf s a).toNat
    let v := gOf s b
    let target := v.extractLsb' 55 3
    let oven := v.getLsbD 62
    let illegal := target.toNat < (v.extractLsb' 52 3).toNat ∨ (2 < target.toNat ∧ (oven = false ∨ 48 ≤ l)) ∨
      (oven = true ∧ 48 ≤ l)
    let refused (n : Word) := exec (.lnkset p d a b) s = .next (retired s (putG s d n) 12)
    (64 ≤ l → refused 4) ∧ (l < 64 → illegal → refused 1) ∧
    (l < 64 → ¬ illegal → (s.link l).backoff.1 ≠ s.cycle → Spec.inUse (s.link l) →
      let aim := Spec.lower target 6
      ∃ t, exec (.lnkset p d a b) s = .next (retired s (putG t d 0) 12) ∧ (t.link l).auto_ = v.getLsbD 63 ∧
        (t.link l).oven = oven ∧ (t.link l).target = target ∧ (t.link l).floor_ = v.extractLsb' 52 3 ∧
        (t.link l).rmax = v.extractLsb' 16 16 ∧ (t.link l).gcap = 6 ∧
        ((s.link l).step = aim → (t.link l).st = (s.link l).st ∧ t.agenda = s.agenda) ∧
        ((s.link l).step ≠ aim → Spec.retrains s t l aim))) ∧
  (∀ p d a s, Ready s p .monitor [.g a] [.g d] → let l := (gOf s a).toNat
    let st := (s.link l).st
    let up (n : Word) := exec (.lnksetUp p d a) s = .next (retired s (putG s d n) 12)
    let down (n : Word) := exec (.lnksetDown p d a) s = .next (retired s (putG s d n) 12)
    let last := ∀ j ∈ pathOf l, j = l ∨ (s.link j).st = .down ∨ (s.link j).st = .failed
    (64 ≤ l → up 4 ∧ down 4) ∧ (l < 64 → st ≠ .down → st ≠ .failed → up 2) ∧ (l < 64 → st = .down → down 2) ∧
    (l < 64 → st ≠ .down → last → down 3) ∧
    (l < 64 → (st = .down ∨ st = .failed) → ∃ t, exec (.lnksetUp p d a) s = .next (retired s (putG t d 0) 12) ∧
      Spec.trains s t l (Spec.lower (s.link l).target (s.link l).gcap)) ∧
    let holds (D : LinkDir) := D.buf ≠ [] ∨ D.wait ≠ [] ∨ D.barWait ≠ []
    let busy := holds (s.link l).d0 ∨ holds (s.link l).d1 ∨ ∃ f ∈ s.flows, f.link = l ∧ s.cycle < f.till
    (l < 64 → st ≠ .down → ¬ last → ¬ busy →
      ∃ t, exec (.lnksetDown p d a) s = .next (retired s (putG t d 0) 12) ∧ (t.link l).st = .down) ∧
    (l < 64 → st ≠ .down → ¬ last → busy →
      ∃ t, exec (.lnksetDown p d a) s = .next (retired s (putG t d 0) 12) ∧ (t.link l).st = st ∧ (t.link l).closing = true)) ∧
  (∀ p (n : BitVec 7) d a s, Ready s p .monitor [.g a] [.g d] → let l := (gOf s a).toNat
    let k := s.link l
    let out (x : Word) := exec (.lnkret p n d a) s = .next (retired s (putG s d x) 8)
    (64 ≤ l → out 4) ∧ (48 ≤ l → l < 64 → 3 < n.toNat → out 1) ∧
    (l < 48 → n.toNat < 64 → k.ret.getLsbD n.toNat = true → out 2) ∧
    (l < 48 → n.toNat < 64 → k.ret.getLsbD n.toNat = false → Spec.inUse k →
      ∃ t, exec (.lnkret p n d a) s = .next (retired s (putG t d 0) 8) ∧ Spec.retrains s t l k.step ∧
        (t.link l).ret = k.ret ||| (1 <<< n.toNat) ∧ (t.link l).spret = k.spret) ∧
    (l < 48 → n.toNat < 64 → k.ret.getLsbD n.toNat = false → (k.st = .stepping ∨ k.st = .training) →
      ∃ t, exec (.lnkret p n d a) s = .next (retired s (putG t d 0) 8) ∧ (t.link l).st = k.st ∧ (t.link l).pending = true ∧
        (t.link l).ret = k.ret ||| (1 <<< n.toNat) ∧ (t.link l).applied.ret.getLsbD n.toNat = false))

/-- R329 to R341, Table 18.3: training and a retrain end with the lanes they found, which fix width, step and state, or fail:
once more one step lower, FAILED at the fourth failure, when the deltas on it are answered as refused; 256 bytes carry a
flit's header, payload and CRC; a new flit takes the next number, a place in the replay buffer and a credit, or waits with its
sender while the link, the buffer, the credit or earlier data does not let it go; a good flit with the expected number is
delivered once and acknowledged with its credit, a
bad one counts in LCRC and draws one NAK; RTO without progress rewinds; traffic steps an operational link down to FLOOR or up
to its aim; a route table replaces the one before, and what senders held goes out by it. -/
def Sys2Proof.Spec.LinkSteps : Prop :=
  (∀ s l ok, l < 64 → let k := s.link l
    let s0 := Spec.on s (.linkTrainingDone l ok)
    (k.st ≠ .training → exec .linkTrainingDone s0 = .next s0) ∧
    (k.st = .training → k.busyUntil ≤ s.cycle → k.closing = false →
      ∃ s' x, exec .linkTrainingDone s0 = .next s' ∧ let K := k.retire (isPort l) x
        let good := ok = true ∧ K.applied.lanesLeft (isPort l) = true
        (good → Spec.trainedAs s s' l K k.step) ∧
        (¬ good → k.fails < 3 →
          Spec.trains s s' l (if k.step = 0 then 0 else k.step - 1) ∧ (s'.link l).fails = k.fails + 1) ∧
        (¬ good → k.fails = 3 →
          (s'.link l).st = .failed ∧ (s'.link l).d0.buf = [] ∧ (s'.link l).d1.buf = [] ∧
          (∀ f p, f ∈ s.flows → f.link = l → f.vc = 0 → s.cycle < f.across → f.ev = .deltaArrival p →
            (s.cycle, .ackArrival p.src .refused 0) ∈ s'.agenda)))) ∧
  (∀ s l ok, l < 64 → let k := s.link l
    let s0 := Spec.on s (.linkRetrainDone l ok)
    (k.st ≠ .stepping → exec .linkRetrainDone s0 = .next s0) ∧
    (k.st = .stepping → k.busyUntil ≤ s.cycle → k.closing = false →
      ∃ s' x, exec .linkRetrainDone s0 = .next s' ∧ let K := k.retire (isPort l) x
        let good := ok = true ∧ K.applied.lanesLeft (isPort l) = true
        (good → Spec.trainedAs s s' l K k.want) ∧
        (¬ good →
          Spec.trains s s' l (if k.want = 0 then 0 else k.want - 1) ∧ (s'.link l).fails = 1))) ∧
  (∀ f : Flit, f.payload.length ≤ 236 → (flitBytes f).length = 256 ∧ flitOf (flitBytes f) = f) ∧
  (∀ s l dir bs, l < 64 → Spec.inUse (s.link l) → let f := flitOf bs
    f.seqd = true → f.ackv = false →
    let D := (s.link l).dir dir
    let s0 := Spec.on s (.flitReceive l dir bs)
    let new := f.seq = D.seq + BitVec.ofNat 12 D.wait.length
    let goes := D.wait = [] ∧ D.buf.length < 1024 ∧ 0 < D.credit[f.vc.toNat] ∧ (f.vc = 1 → ∀ x ∈ D.buf, x.2.vc ≠ 0)
    (f.good = true → f.seq = D.eseq → (new → goes) → ∃ s', exec .flitReceive s0 = .next s' ∧
      ((s'.link l).dir dir).delivered = D.delivered ++ [(f.vc, f.payload)] ∧ ((s'.link l).dir dir).eseq = D.eseq + 1 ∧
      ((s'.link l).dir dir).nakOut = false ∧
      ∃ g, (s.cycle + (if 48 ≤ l then 400 else 96), .flitReceive l (!dir) (flitBytes g)) ∈ s'.agenda ∧ g.ackv = true ∧
        g.ack = D.eseq ∧ g.nak = false ∧ g.seqd = false ∧ g.cvc = f.vc ∧ g.crd = 1 ∧ g.payload = []) ∧
    (f.good = true → new → goes → ∃ s', exec .flitReceive s0 = .next s' ∧
      ((s'.link l).dir dir).seq = D.seq + 1 ∧ ((s'.link l).dir dir).buf = D.buf ++ [(D.seq, f)] ∧
      ((s'.link l).dir dir).credit = D.credit.set f.vc.toNat (D.credit[f.vc.toNat] - 1)) ∧
    (f.good = true → f.seq ≠ D.eseq → (D.eseq - f.seq).toNat < 2048 → ∃ s', exec .flitReceive s0 = .next s' ∧
      ((s'.link l).dir dir).delivered = D.delivered ∧ ((s'.link l).dir dir).eseq = D.eseq) ∧
    (f.good = false → ¬ new → ∃ s', exec .flitReceive s0 = .next s' ∧ ((s'.link l).dir dir).delivered = D.delivered ∧
      ((s'.link l).dir dir).eseq = D.eseq ∧ ((s'.link l).dir dir).nakOut = true ∧ (s'.link l).lcrc = (s.link l).lcrc + 1)) ∧
  (∀ s l dir bs, l < 64 → let f := flitOf bs
    let D := (s.link l).dir dir
    let s0 := Spec.on s (.flitReceive l dir bs)
    let new := f.seqd = true ∧ f.seq = D.seq + BitVec.ofNat 12 D.wait.length
    (new → f.good = true → (¬ Spec.inUse (s.link l) ∨ 1024 ≤ D.buf.length ∨ D.credit[f.vc.toNat] = 0 ∨
        (f.vc = 1 ∧ ∃ x ∈ D.buf, x.2.vc = 0) ∨ ∃ x ∈ D.wait, x.vc = f.vc) →
      exec .flitReceive s0 = .next (s0.modLink l (fun k => k.setDir dir { D with wait := D.wait ++ [f] }))) ∧
    (¬ new → ((s.link l).st = .stepping ∨ (s.link l).st = .training) →
      exec .flitReceive s0 = .next (s0.post (Spec.window l) (.flitReceive l dir bs))) ∧
    (¬ new → ((s.link l).st = .down ∨ (s.link l).st = .failed) → exec .flitReceive s0 = .next s0)) ∧
  (∀ s l dir, l < 64 → let D := (s.link l).dir dir
    let s0 := Spec.on s (.replayTimeout l dir)
    (D.buf = [] → exec .replayTimeout s0 = .next s0) ∧
    (D.buf ≠ [] → D.progress + (if 48 ≤ l then 12800 else 3200) ≤ s.cycle → Spec.inUse (s.link l) →
      ∃ s', exec .replayTimeout s0 = .next s' ∧ (s'.link l).lrep = (s.link l).lrep + 1 ∧ ((s'.link l).dir dir).buf = D.buf ∧
        ((s'.link l).dir dir).delivered = D.delivered)) ∧
  (∀ s l, l < 64 → let k := s.link l
    (k.auto_ = true → Spec.inUse k → k.floor_.toNat < k.step.toNat →
      ∃ s', exec .autoStepDown (Spec.on s (.autoStepDown l)) = .next s' ∧ Spec.retrains s s' l (k.step - 1)) ∧
    ((k.auto_ = false ∨ k.step.toNat ≤ k.floor_.toNat) →
      exec .autoStepDown (Spec.on s (.autoStepDown l)) = .next (Spec.on s (.autoStepDown l))) ∧
    (k.auto_ = true → Spec.inUse k → k.half = false → k.step.toNat < (Spec.lower k.target k.gcap).toNat →
      ∃ s', exec .autoStepUp (Spec.on s (.autoStepUp l)) = .next s' ∧ Spec.retrains s s' l (k.step + 1)) ∧
    ((k.auto_ = false ∨ (Spec.lower k.target k.gcap).toNat ≤ k.step.toNat) →
      exec .autoStepUp (Spec.on s (.autoStepUp l)) = .next (Spec.on s (.autoStepUp l)))) ∧
  (∀ s r, let s0 := { Spec.on s (.routeTableChange r) with routes := r }
    exec .routeTableChange (Spec.on s (.routeTableChange r)) = .next s0.sendHeld ∧
    s0.sendHeld = s.held.foldl (fun s h =>
      if h.vc = 1 then s.cross h.die (h.src != 16388) h.group h.delay h.ev else s.sendFlow h.src h.die h.dst h.group h.delay h.ev)
      { s0 with held := [] })

/-! ### What instructions leave unchanged -/

namespace Sys2Proof.Spec

open Sys2Proof Sys2Proof.Machine

/-- A tile without its strands, the issue slot, the replies awaited, the causes it has to vote and the counters. -/
def bare (T : Tile) : Tile :=
  { T with
    strands := Vector.replicate 11 {}, holder := 0, idle := 0, didIssue := false, acks := []
    v := { T.v with votes := [], c := Vector.replicate 16 0, cinc := Vector.replicate 16 0 } }

/-- What an instruction that writes no more than the named g, w and p registers, and no stream but those of the named q
registers, leaves: the machine but for its tile, every byte of memory and its log, every special register, engine and
accumulator of the tile, the other strands; of its own, every other register; the counters, unless a stream ends; the trap
registers, unless it trapped. -/
structure Keeps (s s' : State) (gs : List (BitVec 5)) (ws : List (BitVec 4)) (ps : List (BitVec 3)) (qs : List (BitVec 3)) :
    Prop where
  machine : { s' with tiles := s.tiles, agenda := s.agenda, issued := s.issued } = s
  others : ∀ t, t ≠ s.cur.1 → s'.tile t = s.tile t
  memory : ∀ t a, (s'.tile t).mem.read a = (s.tile t).mem.read a
  tile : bare (here s') = bare (here s)
  counters : qs = [] → (here s').v.c = (here s).v.c
  strands : ∀ n, n ≠ s.cur.2 → s'.strand s.cur.1 n = s.strand s.cur.1 n
  g : ∀ r, r ∉ gs → (self s').rg r = (self s).rg r ∧ (self s').isEmpty (.g r) = (self s).isEmpty (.g r)
  w : ∀ r, r ∉ ws → (self s').rw r = (self s).rw r ∧ (self s').isEmpty (.w r) = (self s).isEmpty (.w r)
  p : ∀ r, r ∉ ps → (self s').rp r = (self s).rp r
  q : ∀ k, k ∉ qs → (self s').q[k.toNat] = (self s).q[k.toNat]
  trap : ((self s').tcause = (self s).tcause ∧ (self s').trappc = (self s).trappc) ∨ (self s').inHandler = true ∨
    (self s').st = .trapped

/-- The g and p registers that a scalar form may write: the forms whose effect is on registers alone. -/
def scalarDst : Instr → Option (List (BitVec 5) × List (BitVec 3))
  | .nop _ => some ([], [])
  | .add _ o => some ([o.d], [])
  | .sub _ o => some ([o.d], [])
  | .mul _ o => some ([o.d], [])
  | .mulh _ o => some ([o.d], [])
  | .div _ o => some ([o.d], [])
  | .rem _ o => some ([o.d], [])
  | .and _ o => some ([o.d], [])
  | .or _ o => some ([o.d], [])
  | .xor _ o => some ([o.d], [])
  | .andn _ o => some ([o.d], [])
  | .shl _ o => some ([o.d], [])
  | .shr _ o => some ([o.d], [])
  | .sra _ o => some ([o.d], [])
  | .rot _ o => some ([o.d], [])
  | .min _ o => some ([o.d], [])
  | .max _ o => some ([o.d], [])
  | .cmp _ _ d _ _ _ => some ([], [d])
  | .plog _ _ d _ _ => some ([], [d])
  | .sel _ d _ _ _ _ => some ([d], [])
  | .bitcClz _ d _ => some ([d], [])
  | .bitcCtz _ d _ => some ([d], [])
  | .bitcPopc _ d _ => some ([d], [])
  | .ext _ _ d _ _ _ => some ([d], [])
  | .ins _ d _ _ _ => some ([d], [])
  | .li _ d _ => some ([d], [])
  | .lea _ _ d _ _ _ => some ([d], [])
  | .gtaIdx _ d _ _ => some ([d], [])
  | .gtaRel _ d _ _ _ => some ([d], [])
  | .addc _ _ d _ _ pc => some ([d], [pc])
  | .mfs _ d _ => some ([d], [])
  | .br _ _ => some ([], [])
  | .jmp _ _ _ => some ([], [])
  | .call _ d _ => some ([d], [])
  | .callR _ d _ => some ([d], [])
  | .ret _ _ => some ([], [])
  | .loop _ d _ => some ([d], [])
  | .yield _ => some ([], [])
  | .waitc _ _ _ _ _ _ _ => some ([], [])
  | .waitp _ _ _ _ _ _ => some ([], [])
  | .waitb _ _ _ => some ([], [])
  | .trap _ _ => some ([], [])
  | .tret _ => some ([], [])
  | .wptRd _ _ d => some ([d], [])
  | .cntRd _ _ d => some ([d], [])
  | .sxwRd _ _ d => some ([d], [])
  | .sgtRd _ _ d => some ([d], [])
  | .engSt _ d => some ([d], [])
  | .engCrc _ d => some ([d], [])
  | .sunbindPos _ d _ => some ([d], [])
  | .rchkRd _ d => some ([d], [])
  | .vtidShape _ d => some ([d], [])
  | .vtidOrd _ d _ => some ([d], [])
  | .vtidIdx _ d _ => some ([d], [])
  | .vtidHost _ d _ => some ([d], [])
  | .offerRd _ d => some ([d], [])
  | .bred _ _ d => some ([d], [])
  | .bredCfg _ _ d => some ([d], [])
  | .bredSt _ d => some ([d], [])
  | .glchk _ d => some ([d], [])
  | .cstat _ _ d => some ([d], [])
  | .cstatPc _ d _ => some ([d], [])
  | .ccnt _ _ d _ _ => some ([d], [])
  | .ccntQ _ _ d => some ([d], [])
  | .pstat _ d _ => some ([d], [])
  | .pstatDev _ d => some ([d], [])
  | .ckptRd _ d => some ([d], [])
  | .idleRd _ d _ => some ([d], [])
  | .lnkrd _ _ d _ => some ([d], [])
  | .ctxsRd _ _ d _ => some ([d], [])
  | .ecntK _ _ d _ => some ([d], [])
  | .ecntRes _ d _ => some ([d], [])
  | .ecntThm _ d _ => some ([d], [])
  | .ecntTs _ _ d _ => some ([d], [])
  | .tstRd _ _ d _ => some ([d], [])
  | _ => none

/-- The w register of a vector position. -/
def wOfReg (r : VReg) : List (BitVec 4) := match r with | .w x => [x] | .q _ => []

/-- The q registers of vector positions. -/
def qOfRegs (rs : List VReg) : List (BitVec 3) :=
  rs.flatMap (fun r => match r with | .w _ => [] | .q x => [x])

/-- The registers that a vector form may write, and the q registers that it names. -/
def vectorDst : Instr → Option (List (BitVec 5) × List (BitVec 4) × List (BitVec 3))
  | .vadd _ _ o _ _ => some ([], wOfReg o.d, qOfRegs [o.d, o.a.r, o.b.r])
  | .vsub _ _ o _ _ => some ([], wOfReg o.d, qOfRegs [o.d, o.a.r, o.b.r])
  | .vmul _ _ o _ _ => some ([], wOfReg o.d, qOfRegs [o.d, o.a.r, o.b.r])
  | .vmin _ o => some ([], wOfReg o.d, qOfRegs [o.d, o.a.r, o.b.r])
  | .vmax _ o => some ([], wOfReg o.d, qOfRegs [o.d, o.a.r, o.b.r])
  | .vdiv _ _ o => some ([], wOfReg o.d, qOfRegs [o.d, o.a.r, o.b.r])
  | .vfma _ _ _ o c => some ([], wOfReg o.d, qOfRegs [o.d, o.a.r, o.b.r, c.r])
  | .vsqrt _ _ d a => some ([], wOfReg d, qOfRegs [d, a.r])
  | .vrsq _ _ d a => some ([], wOfReg d, qOfRegs [d, a.r])
  | .vexp2 _ _ d a => some ([], wOfReg d, qOfRegs [d, a.r])
  | .vlog2 _ _ d a => some ([], wOfReg d, qOfRegs [d, a.r])
  | .vsel _ o c => some ([], wOfReg o.d, qOfRegs [o.d, o.a.r, o.b.r, c.r])
  | .vperm _ o => some ([], wOfReg o.d, qOfRegs [o.d, o.a.r, o.b.r])
  | .vlogic _ _ d a b => some ([], wOfReg d, qOfRegs [d, a.r, b.r])
  | .vbcast _ _ d _ => some ([], wOfReg d, qOfRegs [d])
  | .vbcastLane _ _ d a _ => some ([], wOfReg d, qOfRegs [d, a.r])
  | .vmovgGet _ _ d a _ => some ([d], [], qOfRegs [a.r])
  | .vmovgPut _ _ d _ _ => some ([], [d], [])
  | .vredSum _ _ _ d a => some ([d], [], qOfRegs [a.r])
  | .vredMin _ _ d a => some ([d], [], qOfRegs [a.r])
  | .vredMax _ _ d a => some ([d], [], qOfRegs [a.r])
  | .vredAmax _ _ d a => some ([d], [], qOfRegs [a.r])
  | .vqntS _ d _ => some ([d], [], [])
  | .vqnt _ d _ => some ([], wOfReg d, qOfRegs [d])
  | .vdq _ d a _ _ => some ([], wOfReg d, qOfRegs [d, a.r])
  | .vcmp _ _ o => some ([], wOfReg o.d, qOfRegs [o.d, o.a.r, o.b.r])
  | .vshift _ _ _ d a (.reg b) => some ([], wOfReg d, qOfRegs [d, a.r, b.r])
  | .vshift _ _ _ d a (.imm _) => some ([], wOfReg d, qOfRegs [d, a.r])
  | .vshuf _ _ _ d a (some b) _ => some ([], wOfReg d, qOfRegs [d, a.r, b.r])
  | .vshuf _ _ _ d a none _ => some ([], wOfReg d, qOfRegs [d, a.r])
  | .vcvt _ _ _ _ _ d a (some b) _ => some ([], wOfReg d, qOfRegs [d, a.r, b.r])
  | .vcvt _ _ _ _ _ d a none _ => some ([], wOfReg d, qOfRegs [d, a.r])
  | .vcvtXs _ _ _ _ _ d a _ => some ([], wOfReg d, qOfRegs [d, a.r])
  | .vrng _ nx d _ b => some (if nx then [] else [b.r, b.r + 1], wOfReg d, qOfRegs [d])
  | _ => none

/-- The forms that give a command to the array, the adder, the sampler or the copy engine of the tile, with the g registers
that they may write. -/
def commandDst : Instr → Option (List (BitVec 5))
  | .mma _ _ _ _ => some []
  | .mmam _ _ _ _ _ => some []
  | .saa _ _ _ _ _ _ _ => some []
  | .acc _ _ _ _ _ _ => some []
  | .lard _ _ _ _ _ _ _ => some []
  | .lazero _ _ _ => some []
  | .drain _ _ _ _ _ _ => some []
  | .ptmovSt _ _ _ _ => some []
  | .ptmovLd _ _ _ _ => some []
  | .mrepA _ _ _ => some []
  | .mrepB _ _ _ => some []
  | .atb _ _ _ _ _ => some []
  | .smp _ _ _ _ _ b _ => some [b, b + 1]
  | .smpl _ _ _ _ _ _ b _ => some [b, b + 1]
  | .cpy _ _ _ _ _ _ _ _ _ => some []
  | .cpym _ _ _ _ _ _ _ _ _ _ _ => some []
  | .sgtGo _ _ _ _ _ _ _ => some []
  | .ovlLoc _ _ _ _ _ => some []
  | .ovlHbm _ _ _ _ _ => some []
  | _ => none

/-- The form takes a piece of a stream, whose end may raise a counter (R174). -/
def mayEnd : Instr → Bool
  | .saa _ _ _ _ (.reg ⟨.q _, _⟩) _ _ => true
  | _ => false

end Sys2Proof.Spec

/-- R58, R61, R95, R99 to R104, R240, R262, R304, R326, R344, R363: a scalar form that reads the machine and writes registers
alone changes nothing but its destinations, in every next state: whether it has its effect, waits or traps. -/
def Obligations.ScalarFrames : Prop :=
  ∀ i gs ps s s', Spec.scalarDst i = some (gs, ps) → exec i s = .next s' → Spec.Keeps s s' gs [] ps []

/-- R118, R119, R121 to R126, R129, R174: a vector form changes nothing but its destination, the streams that it names, and
for `vrng` without `.nx` its counter; a stream that it ends may raise its counter. So does `vlard` where what it reads
holds no soft error and is not in DET mode, and in every state it leaves every byte of every memory, every other strand
and tile, and every register of its strand but its destination. -/
def Obligations.VectorFrames : Prop :=
  (∀ i gs ws qs s s', Spec.vectorDst i = some (gs, ws, qs) → exec i s = .next s' → Spec.Keeps s s' gs ws [] qs) ∧
  (∀ p rm d a c sub s s', exec (.vlard p rm d a c sub) s = .next s' →
    (Spec.plainReads s → Spec.Keeps s s' [] (Spec.wOfReg d) [] (Spec.qOfRegs [d])) ∧
    (∀ t a, (s'.tile t).mem.read a = (s.tile t).mem.read a) ∧ s'.hbm = s.hbm ∧ s'.tier = s.tier ∧
    (∀ t, t ≠ s.cur.1 → s'.tile t = s.tile t) ∧ (∀ n, n ≠ s.cur.2 → s'.strand s.cur.1 n = s.strand s.cur.1 n) ∧
    (∀ r, (self s').rg r = (self s).rg r) ∧ (∀ r, r ∉ Spec.wOfReg d → (self s').rw r = (self s).rw r) ∧
    (∀ r, (self s').rp r = (self s).rp r))

/-- R127, R133, R142, R154, R180, R189: a form that gives a command to an engine stores nothing as it issues: every byte of
every memory, every register of every other strand, and of its own every g register but those named, every w and p register,
the special registers and, unless the form takes a piece of a stream, the counters stay as they were. -/
def Obligations.CommandFrames : Prop :=
  ∀ i gs s s', Spec.commandDst i = some gs → exec i s = .next s' →
    (∀ t a, (s'.tile t).mem.read a = (s.tile t).mem.read a) ∧ s'.hbm = s.hbm ∧ s'.tier = s.tier ∧
    (∀ t n, (t, n) ≠ s.cur → s'.strand t n = s.strand t n) ∧
    (∀ r, r ∉ gs → (self s').rg r = (self s).rg r) ∧ (∀ r, (self s').rw r = (self s).rw r) ∧
    (∀ r, (self s').rp r = (self s).rp r) ∧ (Spec.mayEnd i = false → (here s').v.c = (here s).v.c) ∧ (here s').v.tvec = (here s).v.tvec ∧
    (here s').v.ovb = (here s).v.ovb ∧ (here s').v.idlw = (here s).v.idlw ∧ (here s').v.terms = (here s).v.terms

/-! ### An invariant of every step -/

/-- R19, R81, R215, R292: every step of the package keeps every memory (the stores of the tiles, HBM, the safe tier) in
its canonical form, so that equal memories are equal data. That reset has it is part of ResetState. The canonical form is
the model's own (State is plain data). See log entry 33. -/
def Obligations.MemoryCanonical : Prop :=
  ∀ s s', Spec.Canonical s → step s = .next s' → Spec.Canonical s'

/-! ### Statements of several parts: each part is the definition of that name above -/

/-- R99, R61, R95: the forms that complete in the issue cycle write the result of Table 5.4, at every width code, with a
register or an immediate as second operand, to g[D] (g0 keeps zero), and go on to the successor. R99, R34, Table 5.3:
products, quotients and remainders are delivered to g[D] after their latency, and never trap. -/
def Obligations.ScalarArithmetic : Prop := Spec.ScalarResults ∧ Spec.ScalarLateResults

/-- R101, R63: `cmp` and `plog` write a predicate, a write to p0 has no effect, and predicates other than the destination
keep their value; `sel` chooses by p[S] XOR neg, p0 reading true. R100: `addc` adds the operands, read as natural
numbers of the width, and a carry-in that is 0 for p0; the sum is extended as in R99, its carry goes to the carry
predicate and is dropped for p0. R101, R102: counts, bit fields, immediates, scaled addresses and context tile
addresses. A bit range of `ext` and `ins` that is not legal traps ILLEGAL. -/
def Obligations.PredicateAndBitForms : Prop := Spec.PredicateForms ∧ Spec.AddWithCarry ∧ Spec.BitAndAddressForms

/-- R90 to R92, Tables 3.7, 4.4, 4.5: `mfs` reads the special registers, reserved bits as zero (R8); a number that is not
assigned traps ILLEGAL. R55, R92, Table 4.5: `mts` writes the writable bits; OVB, TVEC and IDLW by strand 0 only, else
PRIV, be g[A] full or empty (check 8 comes before check 9); OVB, TVEC and TRAPPC take only code addresses, else PROT;
a write to a read-only register has no effect. The model's readings: log entries 35 and 38. -/
def Obligations.SpecialRegisters : Prop := Spec.SpecialRegisterReads ∧ Spec.SpecialRegisterWrites

/-- R97, R99, R105, R193: outside DET mode, `ld` and `ldw` from the own store bind the bytes of the working copy, the
lowest first and extended by the width code, after 3 cycles; through the sibling window, those of the sibling's, after
6. R207, R208: in DET mode a strand reads its own writes and lines that nobody has written in this superstep from the
working copy, and lines that only other strands have written from the standing version. Writes of the tile to a line
are its stores on a local path and the deltas it has sent to itself; a line that holds only another strand's deltas
stands in the working copy as it did. -/
def Obligations.LocalReads : Prop := Spec.LocalLoads ∧ Spec.DetLoads

/-- R105, R107, R193, R194, R201: `st`, `stw` and the local `st4` write their bytes, or their half of a byte, into the
working copy or the foreshore of the own store at once, log each line's first write so that the standing version
stays, and change nothing else. R97, R105, R203: a store through the sibling window writes the sibling's working copy,
whose standing version stays, and no other tile. -/
def Obligations.LocalWrites : Prop := Spec.LocalStores ∧ Spec.WindowStores

/-- R21, R106, R329, R336: what a packet from tile `a` to tile `b` brings comes, within a die, one cycle a hop after the
`d` cycles of its interfaces; between dies it crosses one link of each path of its way, 96 cycles each, and where no
link of a path can carry it, it stays with its sender. R106, R107, R108, R110, R85: `stg`, the global `st4`, `addd`
and the storing `lb` send one packet, which reaches the receiving interface of the target as `Spec.Sends` says, 8
cycles and its hops after issue, as a foreshore write or a delta; the strand goes on. R109: a message carries its
data, or none, and the receiver's counter to the target, 8 cycles and its hops away; it does not wait for a release.
R106, R110, R85: `ldg` and the loading `lb` mark their destination empty and send a load, which reaches the target 8 +
hops cycles after issue, when the segment entry lets it pass; when it does not, the strand waits on the load until
PROT returns. That a refused load waits for PROT at the load is the model's reading (log entry 11); the mesh without
contention (log entry 9) and the assignment of flows to links (log entry 94) are its choices. -/
def Obligations.RemoteForms : Prop := Spec.Sends ∧ Spec.RemoteStores ∧ Spec.Messages ∧ Spec.RemoteLoads

/-- R112: a `fence` goes on at once when no access of the strand into its scope, no adder command of the strand and no
drain delta of its into the scope is still to be performed; else the strand waits for all of them, and for no other.
R113, Table 5.7: `wpt` sets a watchpoint with its record cleared, clears it, and reads its record; an empty range or
one beyond CAP traps PROT. A strand's own store that touches a watched byte with FL[0] = 1 traps WATCH. The model's
readings: log entries 45, 49 and 70. -/
def Obligations.FenceAndWatchpoints : Prop := Spec.Fence ∧ Spec.Watchpoints

/-- R114, R115, R82, Table 5.1: `start` leaves a helper STARTED at its target with its argument in g1, every other
register zero and full, two cycles before it may issue; a number that is no helper's traps ILLEGAL, a helper that does
not exist or still runs PROT. `hstop` halts a live or trapped helper, drops its waits and its loads; a FREE or HALTED
one stays. R89: `ovl` takes a legal range of the code partition that no other load meets, with fewer than two
outstanding, and the strand goes on; the step OVL_DONE of a load from the own store writes the bytes of the working
copy into the code partition and raises the counter, and the range is free. A base that is not a multiple of 32 traps
ILLEGAL, a range beyond XB or a length that is not a multiple of 32 traps PROT. The model's choices: 256 bytes a cycle
for an overlay (log entry 9), that its source is read at the completion and that a started helper is in no handler
(log entry 92); what a restarted helper keeps is its reading (log entry 72). -/
def Obligations.HelpersAndOverlays : Prop := Spec.Helpers ∧ Spec.Overlays

/-- R116 to R121, Tables 6.2 to 6.4: the elementwise forms deliver to D, after their latency, the register whose every
lane is the stated function of the lanes of their sources, sources being w registers or the next pieces of streams:
sums, differences and products, fused products, minima and maxima of integers, comparisons of integers, selection.
`.sto` on another type than `.f32` and `un` on an integer type trap ILLEGAL. R119, R121: on floating-point lanes,
`vmin` and `vmax` give the canonical NaN when either operand is a NaN, else the smaller or the larger number, and count
-0 below +0; `vcmp` is false on a NaN but for `ne` and `un`, and else compares the numbers, the zeros being equal. That -0 counts as non-zero in a selection is the model's reading (log
entry 79). -/
def Obligations.VectorArithmetic : Prop := Spec.VectorElementwise ∧ Spec.VectorFloatOrder

/-- R121, R122: the forms that move, mask and shift lanes: `vlogic` on every bit, `vshift` of integer lanes, `vperm`,
`vshuf`, `vbcast`, `vmovg`; a lane index or a rotation beyond the lanes traps ILLEGAL. R40 to R44, R119, R123 to R126:
quotients, roots, powers and logarithms of FP32 lanes; conversions between any two types of `vcvt`, and to and from
`.mxf4` blocks; quantisation; reductions of integer and floating-point lanes to a g register; random words from the
counter, which goes up by 8 unless `.nx`. An illegal pair, part, mode or group of registers traps ILLEGAL. The model's readings: log entries 12, 80 and 81. -/
def Obligations.VectorOther : Prop := Spec.VectorMoves ∧ Spec.VectorFunctions

/-- R140, Table 7.3: `rchk.rd` reads the residue status, `rchk.clr` reads it and clears COUNT and LEFT, `rchk.inj` arms
the injection of the array or of the adder. R186, Tables 9.2, 9.3: `eng.st`, `eng.crc` and `eng.flt` read the
channel's status, running CRC and fault record, whose VALID and FAULT bits `eng.flt` clears; `eng.q` waits for every
command pushed before it. R164, R167, R168, Table 8.4: `svar.up` and `sclr` stand in the array queue; `svar.rd` and
`svar.inv` give SMST and 1/n, `svar.st` and `svar.ld` move n, STOP, mean and M2 to and from a record of 320 bytes,
each once the sampler commands issued before have completed, for which the strand waits with SST.WAIT = 5; `sclr.all`
also waits for tapped fills. The model's readings: log entries 52 and 73. -/
def Obligations.StatusReads : Prop := Spec.ResidueStatus ∧ Spec.ChannelStatus ∧ Spec.SamplerState

/-- R132 to R136, R147, R150: `mma`, `mmam`, `mrep`, `ptmov` and `mwait.arr` at issue. A full queue makes the strand wait
with SST.WAIT = 5; a command names its operands as they are at issue and the strand goes on; readers of a partial tile
trap PTSTATE as Table 7.2 says; `ptmov.get` takes the value 4 cycles after it is there. R127, R129, R141 to R148,
R150: `vla`, `saa`, `acc`, `lazero`, `lard` and `drain` check their addresses, wait for room (`vla` also while four
are outstanding), and queue their command with the operands as they are at issue; `vlard` reads the 32 elements at
issue, rounds each once and gives them 6 cycles later; `mwait.add` and `mwait.all` wait for what was issued before.
Clauses about memory read are for a store without soft errors and outside DET mode. -/
def Obligations.ArrayAndAdderForms : Prop := Spec.ArrayForms ∧ Spec.AdderForms

/-- R155: `nrm.cur` sets both tap cursors, whose values must be below 4,096 and multiples of 8 (SAMPLE, INFO 2); `nrm.st`
and `nrm.ld` move words s to s + m - 1 of both norm files to or from the own store, with 1 to 4,096 words inside the
files (SAMPLE, INFO 3), and hold the strand ceil(m/8) cycles; all wait with SST.WAIT = 3 for tapped fills in flight.
R160, R162, R163, R166: `atb` checks its range (SAMPLE, INFO 1) and its table, waits for tapped fills and hands the
build to the sampler; `smp` and `smpl` check theirs, queue their command with the key and the counter as they are,
mark their partial tile PENDING and advance the counter by 4 or by 4·NMAX; a record outside its limits traps SAMPLE
with INFO 4; `sdraw` advances it by 4, marks D empty and draws at once or behind the builds issued before. What counts
as a tapped fill in flight is the model's reading (log entry 19), and so is that EB covers both words of the counter
(log entry 81). -/
def Obligations.SamplerForms : Prop := Spec.NormForms ∧ Spec.SamplerCommands

/-- R172 to R174, Table 9.1: `sbind` reads its 64-byte record from the own store (PROT, MISALIGN), refuses one that breaks
Table 9.1 or asks for a combination of check 3 (STREAM, INFO 3), a start beyond the last piece (STREAM, INFO 4) and a
range that no data partition holds (PROT), and else binds from the start index on; a binding that starts at its end is
exhausted at once; a FIFO with a live binding makes the strand wait with SST.WAIT = 3. The clauses about a record are
for a store without soft errors and outside DET mode. R177: `sunbind` ends a q binding, whose pieces written are still
performed; `.fa` and `.fb` stop the fill, discard an incomplete unit and keep complete ones; the positions are NEXT,
or the start index plus 32 for each unit of the binding that has left the FIFO; all ones where nothing is bound. The
model's readings: log entries 37 and 48. -/
def Obligations.StreamForms : Prop := Spec.StreamBindings ∧ Spec.Unbinding

/-- R180 to R182, R185, R204: the precise checks of `cpy` and `cpym` in the order of R181, the wait for room with SST.WAIT
= 5, and the command that joins the channel with its operands as they are at issue. R189, R190, Tables 9.5, 9.6:
`sgt.set` writes one entry of the context's range into every stack; `sgt.rd` reads it; `sgt.flt` reads a stack's fault
register and clears its VALID bit; `sgt.go` checks its length and destination and pushes the gather as a command of
the channel; a number outside the range traps PROT. The model's readings: log entries 50, 51 and 75. -/
def Obligations.ChannelForms : Prop := Spec.CopyForms ∧ Spec.GatherForms

/-- R130 to R134: a FIFO's 32nd row completes a unit behind those that stand; the command at the head starts with one unit
of each FIFO, holds the array for 64 cycles and writes no earlier than 72 after its start; `mrep` holds the next w
units for w·(n + 1) uses in cyclic order; when an operation writes, its partial tile holds the result, and is READY
unless a later command names it, once every reader issued before has read it; a residue mismatch counts and leaves its
trace (R138). R133, R142, R143, R148: an adder command starts in issue order once the partial tile it reads is there
and no earlier drain has its range to read, and takes 32, 16 or 2 cycles and, in each of the 64 lanes, one more for
each limb that a carry reaches beyond its addend; a lane begins when it is free and the command's operands are there;
when it is performed it leaves the queue; a drain starts once no earlier command or drain overlaps its source, and
raises its counter by 1 when its last element has been read. R48, R49, R127, R144 to R146: over ranges whose lines are
logged, `vla` adds lane i of A, or the exact product of lanes i of A and B, into element i; `saa` adds the exact
product of each kept element of its partial tile, its row's scale and the block's scale into the element's
accumulator, `acc` the element times 2^h; `lazero` clears all 1,024 elements; `lard` writes each element, scaled and
rounded once, to its place of the block, and clears it with `.z`. Every other byte of the store stays, and so does the
standing version of every byte (R193). That an operation takes the earliest time that the rules allow is the model's
choice (log entry 9), and what uses up an injection its reading (log entry 52); when `vlard` reads its bytes is log
entry 92's. -/
def Obligations.ArrayAndAdderSteps : Prop := Spec.ArraySteps ∧ Spec.AdderSteps ∧ Spec.AdderEffects

/-- R156, R160 to R162, R164 to R166: a build takes the norm file as it is at its start, and 4·L + 32 cycles later its
table stands in the store and its counter rises; a sampled command at the head draws, hands its slabs to the bindings
and keeps their weights, or completes with NaN and BADT when its table is invalid; a batch is decided no earlier than
80 cycles after its start, by one Welford step and the stop rule; the command ends with its partial tile READY and its
counter raised. R172, R174, R175, R177: pieces lie where R172 puts them; a piece fetched for an `.in` binding is the
working copy at its address; a refused one stops the binding, leaves EFR and tells the binding strand; a piece written
through an `.out` binding is stored at its address, and the last one exhausts the binding. R180 to R185, R187, R189: a
channel's head starts no earlier than 4 cycles after its push (what it then takes is the model's choice, log entry 9),
once what its strand had outstanding is performed and, if held, its gate has a pulse, which it takes; a fill writes
its pattern; a command all of whose writes are performed leaves the channel and raises its counter; a refused one
leaves EFR and tells its strand; the follow-on of `cpym` enters the array queue and only then the counter rises; a
term that fires takes its threshold from each of its counters and pulses its gate or raises its counter. The model's
choices: the 64 cycles of a command's lead and 256 bytes a cycle (log entry 9), and the ends of log entries 48 to 50
and 75. -/
def Obligations.EngineSteps : Prop := Spec.SamplerSteps ∧ Spec.StreamSteps ∧ Spec.ChannelSteps

/-- R230, R240 to R242, R191: `enq` reads its message from the working copy and is answered BAD for a q above 3, CLOSED,
BAD, FULL or ACCEPT; with ACCEPT a reservation is held in queue 4·d + q, and in the tile until the commit. Misaligned
it traps MISALIGN; outside the own store PROT. `ccnt` asks for the record or QST; `cancel` is held and answered 0, or
all ones for an object never opened. R262 to R264, Tables 14.2 and 14.3: the forms that read the group map give
GSHAPE, the ordinal of an index, the index of an ordinal, the host and slot of an ordinal, and GOFF, or all ones
outside the group; `offer` keeps the largest count and traps ILLEGAL from 2^20. That a reply takes 128 of the 256
cycles allowed is the model's choice (log entry 9). -/
def Obligations.DispatcherAndMapForms : Prop := Spec.DispatcherForms ∧ Spec.GroupMapForms

/-- R230, R231, R233 to R235, R240: a message offered is answered CLOSED, BAD, FULL or ACCEPT and only then appended;
intake takes the head of the next queue in round-robin order; a pending node takes its outcome, and keeps it; a cancel
marks the running groups of the object; a reply leaves with the record current when it leaves, and the arrival no
longer waits for it. R236: one admission step of a device takes the first of its ready nodes in pool order that fits,
and what it passes over counts one more bypass; a node at BYP = 64 that does not fit lets nothing behind it pass. The
model's readings: log entries 23, 60 and 91. -/
def Obligations.DispatcherSteps : Prop := Spec.QueueSteps ∧ Spec.Admission

/-- R78, R238, R239, R362: a wake takes 8 µs from GATED and clears the pools, 2 µs from RETAINED and keeps them, and then
the cluster is usable and its group, if it was the last, starts; an idle cluster is retained after RETD µs and gated
GATD µs later; a test clears the pools, takes 3 ms, and leaves its records, and an admission step of its cycle comes
first; the cluster is AWAKE after it. R217, R244 to R248: a kernel is refused with the first check that it fails, and
else measured, recorded and LOADED; a FAILED kernel without groups is reset to LOADED, a LOADED or FAILED one without
groups is retired; in another state the request is refused. The numbers of the checks are the model's reading (log
entry 63). -/
def Obligations.KernelAndClusterSteps : Prop := Spec.ClusterSteps ∧ Spec.KernelSteps

/-- R216, R217, R20: cold reset leaves the machine of reset; the boot ROM starts the monitor only on an image that
verifies, reports and discards another, and records M1; the monitor takes the chip number and measures the runtime's
image, which needs no signature, into M2; an attestation is answered once the monitor runs. R212, R218, R221 to R223,
R227: the monitor acts on requests once it runs; a save ends when every virtual tile's image has been written; a
sweep's token frees the tile and clears it, whatever it was doing; after SWT the clean bits decide, once more or
package-fatally; the purge frees the context. The model's choices: times within the bounds (log entry 9), address 0 of
the monitor's image (log entry 15), log entry 61. -/
def Obligations.BootAndSweepSteps : Prop := Spec.BootSteps ∧ Spec.SweepSteps

/-- R55, R87, R96, R226, R348, R359, R361: a failed fetch traps at the PC; the runtime's or the monitor's answer fills its
register; the watchdog takes ORPHAN at the strand that has waited longest only when no live strand can go on; at the
end of every µs a die's reservoir rises by its limit and falls by its draw, within ±10 ms of limit, and its limits as
written take effect. R351 to R354: a record enters a row collector with its column, or joins the entry of equal CTX,
CODE, SS and ATT; an entry goes to the die's trap unit 256 cycles later and leaves it 4,096 later as one delivery of
the record's 32 bytes (Table 19.2) and the 128 bytes of the reporters' bitmap; a soft error stands in its word until a
read finds it; the background read corrects the errors that one bit makes. What is drawn and sensed is free (log entry
2). -/
def Obligations.MonitorSteps : Prop := Spec.SystemSteps ∧ Spec.RecordSteps

/-- R225 to R228, R348: `trap` enters the handler with SWTRAP and n; `tret` goes back to TRAPPC and traps ILLEGAL outside
a handler; `sys` asks the runtime, which answers later, or the monitor, whose other services answer all ones; `kill`
stops the strand at once and `kill.ctx` sweeps a context; `dbg.rd` reads DBGR and clears VALID, `dbg.mark` reports
under TRACE, `dbg.brk` traps BRK under DEBUG. R238, R243, R252, R359, R361, R363, Tables 12.4 and 20.1: CLST, the
kernel record and the unit record are asked for; EPWR's reservoir, ETHM and a sensor are read at once, all ones for a
die above 3; `ecnt.set` sets PLIM or TLIM from the next tick on, `idle.set` DPOL, from the next admission step on, and
`tst.req` TPEND, answering 0 with TEN, 1 without, all ones for a cluster above 511. The model's choices: reply times
(log entry 9), the runtime's answer (log entry 2), TPEND without TEN (log entry 62), PLIM and TLIM at the tick (log
entry 57), HEAD (log entry 82). -/
def Obligations.MonitorForms : Prop := Spec.SystemForms ∧ Spec.EnergyForms

/-- R205, R206, R273, R274, R278, R279: a commit release waits while a die of the group is overdrawn, an abort release
never does; the decision point then opens the next superstep, or the next attempt, and sends the release to every
tile. At a tile a commit makes the working copy the standing version, completes waits, sets RES and opens the next
superstep, unless the group ends or is reshaped with it; an abort puts every logged line back and opens the next
attempt with LCAUSE and LATT. R97, R247, R255, R256, R258, R260, R261: a placed group starts once its clusters are
usable; a cluster's start gate opens when strand 0 of every tile of the group in it has left STARTED; a request to
give up tiles replaces the one before (one that comes at or after a commit's decision also what that decision leaves
unmet), a request to move that cannot be met is refused; a reshape ends with the new hosts and the group RUNNING;
under folding a turn ends with the next slot. The times within the rules are the model's (log entry 9), and so are
what a segment entry holds at the start of a group (log entry 21) and the links of a release (log entry 94). -/
def Obligations.ReleaseAndGroupSteps : Prop := Spec.Releases ∧ Spec.GroupSteps

/-- R343, R344, Tables 18.5 to 18.8: `lnkrd` reads a link's register, all ones for a number above 63; `lnkset` refuses a
link above 63 (4) and an illegal LCTL (1), and else writes LCTL, sets GCAP to 6 and retrains to min(TARGET, GCAP) when
the step differs; `.up` trains a link that is DOWN or FAILED, `.down` refuses the last of its path and else waits for
what the link holds; `lnkret` retires a lane, at the next retrain. R329 to R341, Table 18.3: training and a retrain
end with the lanes they found, which fix width, step and state, or fail: once more one step lower, FAILED at the
fourth failure, when the deltas on it are answered as refused; 256 bytes carry a flit's header, payload and CRC; a new
flit takes the next number, a place in the replay buffer and a credit, or waits with its sender while the link, the
buffer, the credit or earlier data does not let it go; a good flit with the expected number is delivered once and
acknowledged with its credit, a bad one counts in LCRC and draws one NAK; RTO without progress rewinds; traffic steps
an operational link down to FLOOR or up to its aim; a route table replaces the one before, and what senders held goes
out by it. The model's choices: nominal delays (log entry 9), the credit that returns with the acknowledgement (log
entry 94), and the readings of log entries 31, 68 and 69. -/
def Obligations.Links : Prop := Spec.LinkForms ∧ Spec.LinkSteps
end

