-- ==== Sys2Proof/Laws/Decode.lean ====
section
/-! SUPPORT. Packing and reading the fields of instructions: what a field gives back of what was put into it. -/

namespace Sys2Proof.Laws

open Sys2Proof

/-- A vector register from its field. -/
theorem decV_encV (v : VReg) : decV (encV v) = v := by
  cases v with
  | w r => revert r; decide
  | q r => revert r; decide

/-- A w register from its field. -/
theorem encW_4 (r : BitVec 4) : (encW r).setWidth 4 = r := by revert r; decide

/-- FN of a register operand (R61). -/
theorem fn_reg (w : BitVec 3) : (0#1 ++ w).setWidth 3 = w ∧ (0#1 ++ w).getLsbD 3 = false := by revert w; decide

/-- FN of an immediate operand (R61). -/
theorem fn_imm (w : BitVec 3) : (1#1 ++ w).setWidth 3 = w ∧ (1#1 ++ w).getLsbD 3 = true := by revert w; decide

/-- The operands of the forms of R61 from their fields. -/
theorem parseAlu_fields (op : BitVec 8) (pr : BitVec 3) (pn ec : Bool) (c : BitVec 6) (rm : BitVec 3) (ty ct fl : BitVec 4)
    (sub : BitVec 12) (o : AluOps) :
    parseAlu { op := op, pr := pr, pn := pn, d := o.d.setWidth 6, a := o.a.r.setWidth 6, ea := o.a.e, fn := aluFn o,
               b := aluBr o, eb := aluEb o, imm := aluImm o, c := c, ec := ec, rm := rm,
               ty := ty, ct := ct, fl := fl, sub := sub } = o := by
  obtain ⟨wd, d, ⟨a, e⟩, b⟩ := o
  cases b with
  | reg b => simp only [parseAlu, aluFn, aluBr, aluEb, aluImm, fn_reg wd]; simp
  | imm i => simp only [parseAlu, aluFn, aluBr, aluEb, aluImm, fn_imm wd]; simp

/-- The low bits of a widened value. -/
theorem low_bits {n w : Nat} (x : BitVec n) (h : n ≤ w) : (x.setWidth w).extractLsb' 0 n = x := by
  apply BitVec.eq_of_getLsbD_eq
  intro i hi
  simp [hi, show i < w by omega]

/-- The bits of a shifted value. -/
theorem high_bits {m w : Nat} (k : Nat) (y : BitVec m) (h : k + m ≤ w) : (y.setWidth w <<< k).extractLsb' k m = y := by
  apply BitVec.eq_of_getLsbD_eq
  intro i hi
  simp [hi, show k + i < w by omega]

/-- The lower of two values side by side. -/
theorem or_low {n m w : Nat} (k : Nat) (x : BitVec n) (y : BitVec m) (h : n ≤ w) (hk : n ≤ k) :
    (x.setWidth w ||| y.setWidth w <<< k).extractLsb' 0 n = x := by
  apply BitVec.eq_of_getLsbD_eq
  intro i hi
  simp [hi, show i < w by omega, show i < k by omega]

/-- The higher of two values side by side. -/
theorem or_high {n m w : Nat} (k : Nat) (x : BitVec n) (y : BitVec m) (h : k + m ≤ w) (hk : n ≤ k) :
    (x.setWidth w ||| y.setWidth w <<< k).extractLsb' k m = y := by
  apply BitVec.eq_of_getLsbD_eq
  intro i hi
  simp [hi, show k + i < w by omega, BitVec.getLsbD_of_ge x (k + i) (by omega)]

/-- A flag from its bit. -/
theorem bits_one (b : Bool) : (bit4 b)[0] = b ∧ (bit12 b)[0] = b ∧ (bit64 b)[0] = b := by cases b <;> decide

/-- A q register from its field. -/
theorem encQ_3 (r : BitVec 3) : (encQ r).setWidth 3 = r := by revert r; decide

/-- The destination of `ldg` from its fields. -/
theorem parseMemD_fields (m : MemDst) :
    (if memDstFn m = 8#4 then MemDst.v ((memDstD m).setWidth 4)
      else MemDst.g ((memDstFn m).setWidth 3) ((memDstD m).setWidth 5)) = m := by
  cases m with
  | g w d => have h : w.setWidth 4 ≠ 8#4 := by revert w; decide
             simp [memDstFn, memDstD, h]
  | v d => simp [memDstFn, memDstD, encW_4]

/-- The data of `stg` and `msg` from their fields. -/
theorem parseMemS_fields (m : MemSrc) :
    (if memSrcFn m = 8#4 then MemSrc.v ⟨(memSrcB m).setWidth 4, memSrcE m⟩
      else MemSrc.g ((memSrcFn m).setWidth 3) ⟨(memSrcB m).setWidth 5, memSrcE m⟩) = m := by
  cases m with
  | g w b => have h : w.setWidth 4 ≠ 8#4 := by revert w; decide
             simp [memSrcFn, memSrcB, memSrcE, h]
  | v b => simp [memSrcFn, memSrcB, memSrcE, encW_4]

/-- A w source that may be absent. -/
theorem optW_fields (c : Option WSrc) (b : Prop) [Decidable b] (h : c.isSome = decide b) :
    (if b then some ⟨(optWC c).setWidth 4, optWE c⟩ else none) = c := by
  cases c with
  | none => simp_all
  | some v => simp_all [optWC, optWE, encW_4]

/-- A vector source that may be absent. -/
theorem optV_fields (c : Option VSrc) (b : Prop) [Decidable b] (h : c.isSome = decide b) :
    (if b then some ⟨decV (optVB c), optVE c⟩ else none) = c := by
  cases c with
  | none => simp_all
  | some v => simp_all [optVB, optVE, decV_encV]

end Sys2Proof.Laws
end

