-- ==== Sys2Proof/Laws/Exec.lean ====
section
/-! SUPPORT. The meaning of each instruction and of each hardware step, so that no proof unfolds the dispatch. -/

namespace Sys2Proof.Laws

open Sys2Proof Sys2Proof.Machine


@[simp] theorem exec_nop p s : exec (.nop p) s = execNop p s := rfl
@[simp] theorem exec_add p o s : exec (.add p o) s = execAdd p o s := rfl
@[simp] theorem exec_sub p o s : exec (.sub p o) s = execSub p o s := rfl
@[simp] theorem exec_mul p o s : exec (.mul p o) s = execMul p o s := rfl
@[simp] theorem exec_mulh p o s : exec (.mulh p o) s = execMulh p o s := rfl
@[simp] theorem exec_div p o s : exec (.div p o) s = execDiv p o s := rfl
@[simp] theorem exec_rem p o s : exec (.rem p o) s = execRem p o s := rfl
@[simp] theorem exec_and p o s : exec (.and p o) s = execAnd p o s := rfl
@[simp] theorem exec_or p o s : exec (.or p o) s = execOr p o s := rfl
@[simp] theorem exec_xor p o s : exec (.xor p o) s = execXor p o s := rfl
@[simp] theorem exec_andn p o s : exec (.andn p o) s = execAndn p o s := rfl
@[simp] theorem exec_shl p o s : exec (.shl p o) s = execShl p o s := rfl
@[simp] theorem exec_shr p o s : exec (.shr p o) s = execShr p o s := rfl
@[simp] theorem exec_sra p o s : exec (.sra p o) s = execSra p o s := rfl
@[simp] theorem exec_rot p o s : exec (.rot p o) s = execRot p o s := rfl
@[simp] theorem exec_cmp p cond d a b imm s : exec (.cmp p cond d a b imm) s = execCmp p cond d a b imm s := rfl
@[simp] theorem exec_sel p d a b k0 neg s : exec (.sel p d a b k0 neg) s = execSel p d a b k0 neg s := rfl
@[simp] theorem exec_min p o s : exec (.min p o) s = execMin p o s := rfl
@[simp] theorem exec_max p o s : exec (.max p o) s = execMax p o s := rfl
@[simp] theorem exec_bitcClz p d a s : exec (.bitcClz p d a) s = execBitcClz p d a s := rfl
@[simp] theorem exec_bitcCtz p d a s : exec (.bitcCtz p d a) s = execBitcCtz p d a s := rfl
@[simp] theorem exec_bitcPopc p d a s : exec (.bitcPopc p d a) s = execBitcPopc p d a s := rfl
@[simp] theorem exec_ext p sx d a pos len s : exec (.ext p sx d a pos len) s = execExt p sx d a pos len s := rfl
@[simp] theorem exec_ins p d a pos len s : exec (.ins p d a pos len) s = execIns p d a pos len s := rfl
@[simp] theorem exec_li p d v s : exec (.li p d v) s = execLi p d v s := rfl
@[simp] theorem exec_lea p sc d a b imm s : exec (.lea p sc d a b imm) s = execLea p sc d a b imm s := rfl
@[simp] theorem exec_gtaIdx p d a b s : exec (.gtaIdx p d a b) s = execGtaIdx p d a b s := rfl
@[simp] theorem exec_gtaRel p d b drow dcol s : exec (.gtaRel p d b drow dcol) s = execGtaRel p d b drow dcol s := rfl
@[simp] theorem exec_plog p tt d a b s : exec (.plog p tt d a b) s = execPlog p tt d a b s := rfl
@[simp] theorem exec_mfs p d n s : exec (.mfs p d n) s = execMfs p d n s := rfl
@[simp] theorem exec_mts p a n s : exec (.mts p a n) s = execMts p a n s := rfl
@[simp] theorem exec_addc p wd d a b pc s : exec (.addc p wd d a b pc) s = execAddc p wd d a b pc s := rfl
@[simp] theorem exec_br p imm s : exec (.br p imm) s = execBr p imm s := rfl
@[simp] theorem exec_jmp p a imm s : exec (.jmp p a imm) s = execJmp p a imm s := rfl
@[simp] theorem exec_call p d imm s : exec (.call p d imm) s = execCall p d imm s := rfl
@[simp] theorem exec_callR p d a s : exec (.callR p d a) s = execCallR p d a s := rfl
@[simp] theorem exec_ret p a s : exec (.ret p a) s = execRet p a s := rfl
@[simp] theorem exec_loop p d imm s : exec (.loop p d imm) s = execLoop p d imm s := rfl
@[simp] theorem exec_halt p s : exec (.halt p) s = execHalt p s := rfl
@[simp] theorem exec_yield p s : exec (.yield p) s = execYield p s := rfl
@[simp] theorem exec_waitc p sub a b ct pf imm s : exec (.waitc p sub a b ct pf imm) s = execWaitc p sub a b ct pf imm s := rfl
@[simp] theorem exec_ovlLoc p a b ct base s : exec (.ovlLoc p a b ct base) s = execOvlLoc p a b ct base s := rfl
@[simp] theorem exec_ovlHbm p a b ct base s : exec (.ovlHbm p a b ct base) s = execOvlHbm p a b ct base s := rfl
@[simp] theorem exec_ld p wd d a imm s : exec (.ld p wd d a imm) s = execLd p wd d a imm s := rfl
@[simp] theorem exec_st p wd a b imm s : exec (.st p wd a b imm) s = execSt p wd a b imm s := rfl
@[simp] theorem exec_ldg p d a imm s : exec (.ldg p d a imm) s = execLdg p d a imm s := rfl
@[simp] theorem exec_stg p a b imm s : exec (.stg p a b imm) s = execStg p a b imm s := rfl
@[simp] theorem exec_st4 p a b imm s : exec (.st4 p a b imm) s = execSt4 p a b imm s := rfl
@[simp] theorem exec_st4G p a b imm s : exec (.st4G p a b imm) s = execSt4G p a b imm s := rfl
@[simp] theorem exec_ldl p wd d a imm s : exec (.ldl p wd d a imm) s = execLdl p wd d a imm s := rfl
@[simp] theorem exec_stu p wd a b imm s : exec (.stu p wd a b imm) s = execStu p wd a b imm s := rfl
@[simp] theorem exec_addd p a b imm s : exec (.addd p a b imm) s = execAddd p a b imm s := rfl
@[simp] theorem exec_ldw p d a imm s : exec (.ldw p d a imm) s = execLdw p d a imm s := rfl
@[simp] theorem exec_stw p a b imm s : exec (.stw p a b imm) s = execStw p a b imm s := rfl
@[simp] theorem exec_fence p sc s : exec (.fence p sc) s = execFence p sc s := rfl
@[simp] theorem exec_lbLoad p wd d a imm s : exec (.lbLoad p wd d a imm) s = execLbLoad p wd d a imm s := rfl
@[simp] theorem exec_lbStore p wd a b imm s : exec (.lbStore p wd a b imm) s = execLbStore p wd a b imm s := rfl
@[simp] theorem exec_msg p ct a b imm s : exec (.msg p ct a b imm) s = execMsg p ct a b imm s := rfl
@[simp] theorem exec_msgZ p ct a imm s : exec (.msgZ p ct a imm) s = execMsgZ p ct a imm s := rfl
@[simp] theorem exec_wptSet p n a b fl s : exec (.wptSet p n a b fl) s = execWptSet p n a b fl s := rfl
@[simp] theorem exec_wptClr p n s : exec (.wptClr p n) s = execWptClr p n s := rfl
@[simp] theorem exec_wptRd p n d s : exec (.wptRd p n d) s = execWptRd p n d s := rfl
@[simp] theorem exec_vadd p sat o rm c s : exec (.vadd p sat o rm c) s = execVadd p sat o rm c s := rfl
@[simp] theorem exec_vsub p sat o rm c s : exec (.vsub p sat o rm c) s = execVsub p sat o rm c s := rfl
@[simp] theorem exec_vmul p sat o rm c s : exec (.vmul p sat o rm c) s = execVmul p sat o rm c s := rfl
@[simp] theorem exec_vfma p k rm o c s : exec (.vfma p k rm o c) s = execVfma p k rm o c s := rfl
@[simp] theorem exec_vmin p o s : exec (.vmin p o) s = execVmin p o s := rfl
@[simp] theorem exec_vmax p o s : exec (.vmax p o) s = execVmax p o s := rfl
@[simp] theorem exec_vdiv p rm o s : exec (.vdiv p rm o) s = execVdiv p rm o s := rfl
@[simp] theorem exec_vsqrt p rm d a s : exec (.vsqrt p rm d a) s = execVsqrt p rm d a s := rfl
@[simp] theorem exec_vrsq p rm d a s : exec (.vrsq p rm d a) s = execVrsq p rm d a s := rfl
@[simp] theorem exec_vexp2 p rm d a s : exec (.vexp2 p rm d a) s = execVexp2 p rm d a s := rfl
@[simp] theorem exec_vlog2 p rm d a s : exec (.vlog2 p rm d a) s = execVlog2 p rm d a s := rfl
@[simp] theorem exec_vcmp p k o s : exec (.vcmp p k o) s = execVcmp p k o s := rfl
@[simp] theorem exec_vsel p o c s : exec (.vsel p o c) s = execVsel p o c s := rfl
@[simp] theorem exec_vcvt p ty tgt k rm d a b c s : exec (.vcvt p ty tgt k rm d a b c) s = execVcvt p ty tgt k rm d a b c s := rfl
@[simp] theorem exec_vcvtXs p ty tgt k rm d a c s : exec (.vcvtXs p ty tgt k rm d a c) s = execVcvtXs p ty tgt k rm d a c s := rfl
@[simp] theorem exec_vqnt p d a s : exec (.vqnt p d a) s = execVqnt p d a s := rfl
@[simp] theorem exec_vqntS p d a s : exec (.vqntS p d a) s = execVqntS p d a s := rfl
@[simp] theorem exec_vdq p d a b k s : exec (.vdq p d a b k) s = execVdq p d a b k s := rfl
@[simp] theorem exec_vredSum p ty rm d a s : exec (.vredSum p ty rm d a) s = execVredSum p ty rm d a s := rfl
@[simp] theorem exec_vredMin p ty d a s : exec (.vredMin p ty d a) s = execVredMin p ty d a s := rfl
@[simp] theorem exec_vredMax p ty d a s : exec (.vredMax p ty d a) s = execVredMax p ty d a s := rfl
@[simp] theorem exec_vredAmax p ty d a s : exec (.vredAmax p ty d a) s = execVredAmax p ty d a s := rfl
@[simp] theorem exec_vperm p o s : exec (.vperm p o) s = execVperm p o s := rfl
@[simp] theorem exec_vshuf p pat ty d a b k0 s : exec (.vshuf p pat ty d a b k0) s = execVshuf p pat ty d a b k0 s := rfl
@[simp] theorem exec_vbcast p ty d a s : exec (.vbcast p ty d a) s = execVbcast p ty d a s := rfl
@[simp] theorem exec_vbcastLane p ty d a k s : exec (.vbcastLane p ty d a k) s = execVbcastLane p ty d a k s := rfl
@[simp] theorem exec_vlogic p tt d a b s : exec (.vlogic p tt d a b) s = execVlogic p tt d a b s := rfl
@[simp] theorem exec_vshift p k ty d a b s : exec (.vshift p k ty d a b) s = execVshift p k ty d a b s := rfl
@[simp] theorem exec_vmovgGet p ty d a k s : exec (.vmovgGet p ty d a k) s = execVmovgGet p ty d a k s := rfl
@[simp] theorem exec_vmovgPut p ty d a k s : exec (.vmovgPut p ty d a k) s = execVmovgPut p ty d a k s := rfl
@[simp] theorem exec_vrng p nx d a b s : exec (.vrng p nx d a b) s = execVrng p nx d a b s := rfl
@[simp] theorem exec_vla p a c sub s : exec (.vla p a c sub) s = execVla p a c sub s := rfl
@[simp] theorem exec_vlaP p a b c sub s : exec (.vlaP p a b c sub) s = execVlaP p a b c sub s := rfl
@[simp] theorem exec_vlard p rm d a c sub s : exec (.vlard p rm d a c sub) s = execVlard p rm d a c sub s := rfl
@[simp] theorem exec_mma p ty x n s : exec (.mma p ty x n) s = execMma p ty x n s := rfl
@[simp] theorem exec_mmam p ty x n m s : exec (.mmam p ty x n m) s = execMmam p ty x n m s := rfl
@[simp] theorem exec_saa p ty n off a b c s : exec (.saa p ty n off a b c) s = execSaa p ty n off a b c s := rfl
@[simp] theorem exec_acc p ty n off b c s : exec (.acc p ty n off b c) s = execAcc p ty n off b c s := rfl
@[simp] theorem exec_lard p z rm off a b c s : exec (.lard p z rm off a b c) s = execLard p z rm off a b c s := rfl
@[simp] theorem exec_lazero p off c s : exec (.lazero p off c) s = execLazero p off c s := rfl
@[simp] theorem exec_drain p z ct a b imm s : exec (.drain p z ct a b imm) s = execDrain p z ct a b imm s := rfl
@[simp] theorem exec_ptmovSt p ty n c s : exec (.ptmovSt p ty n c) s = execPtmovSt p ty n c s := rfl
@[simp] theorem exec_ptmovLd p ty n c s : exec (.ptmovLd p ty n c) s = execPtmovLd p ty n c s := rfl
@[simp] theorem exec_ptmovGet p ty n r d s : exec (.ptmovGet p ty n r d) s = execPtmovGet p ty n r d s := rfl
@[simp] theorem exec_mrepA p n w s : exec (.mrepA p n w) s = execMrepA p n w s := rfl
@[simp] theorem exec_mrepB p n w s : exec (.mrepB p n w) s = execMrepB p n w s := rfl
@[simp] theorem exec_rchkRd p d s : exec (.rchkRd p d) s = execRchkRd p d s := rfl
@[simp] theorem exec_rchkClr p d s : exec (.rchkClr p d) s = execRchkClr p d s := rfl
@[simp] theorem exec_rchkInj p u s : exec (.rchkInj p u) s = execRchkInj p u s := rfl
@[simp] theorem exec_mwaitArr p s : exec (.mwaitArr p) s = execMwaitArr p s := rfl
@[simp] theorem exec_mwaitAdd p s : exec (.mwaitAdd p) s = execMwaitAdd p s := rfl
@[simp] theorem exec_mwaitAll p s : exec (.mwaitAll p) s = execMwaitAll p s := rfl
@[simp] theorem exec_nrmCur p a b s : exec (.nrmCur p a b) s = execNrmCur p a b s := rfl
@[simp] theorem exec_nrmSt p a b c s : exec (.nrmSt p a b c) s = execNrmSt p a b c s := rfl
@[simp] theorem exec_nrmLd p a b c s : exec (.nrmLd p a b c) s = execNrmLd p a b c s := rfl
@[simp] theorem exec_atb p ct a b c s : exec (.atb p ct a b c) s = execAtb p ct a b c s := rfl
@[simp] theorem exec_smp p ty x n a b c s : exec (.smp p ty x n a b c) s = execSmp p ty x n a b c s := rfl
@[simp] theorem exec_smpl p ty x n ct a b c s : exec (.smpl p ty x n ct a b c) s = execSmpl p ty x n ct a b c s := rfl
@[simp] theorem exec_svarUp p n r s : exec (.svarUp p n r) s = execSvarUp p n r s := rfl
@[simp] theorem exec_svarRd p d s : exec (.svarRd p d) s = execSvarRd p d s := rfl
@[simp] theorem exec_svarInv p d s : exec (.svarInv p d) s = execSvarInv p d s := rfl
@[simp] theorem exec_svarSt p c s : exec (.svarSt p c) s = execSvarSt p c s := rfl
@[simp] theorem exec_svarLd p c s : exec (.svarLd p c) s = execSvarLd p c s := rfl
@[simp] theorem exec_sclrVar p s : exec (.sclrVar p) s = execSclrVar p s := rfl
@[simp] theorem exec_sclrErr p s : exec (.sclrErr p) s = execSclrErr p s := rfl
@[simp] theorem exec_sclrAll p s : exec (.sclrAll p) s = execSclrAll p s := rfl
@[simp] theorem exec_sdraw p nx d a b c s : exec (.sdraw p nx d a b c) s = execSdraw p nx d a b c s := rfl
@[simp] theorem exec_sbindIn p cnt ct d a b c start s : exec (.sbindIn p cnt ct d a b c start) s = execSbindIn p cnt ct d a b c start s := rfl
@[simp] theorem exec_sbindOut p cnt ct d a b c start s : exec (.sbindOut p cnt ct d a b c start) s = execSbindOut p cnt ct d a b c start s := rfl
@[simp] theorem exec_sbindFa p sink cnt ct a b c start s : exec (.sbindFa p sink cnt ct a b c start) s = execSbindFa p sink cnt ct a b c start s := rfl
@[simp] theorem exec_sbindFb p sink cnt ct a b c start s : exec (.sbindFb p sink cnt ct a b c start) s = execSbindFb p sink cnt ct a b c start s := rfl
@[simp] theorem exec_sunbind p d s : exec (.sunbind p d) s = execSunbind p d s := rfl
@[simp] theorem exec_sunbindFa p s : exec (.sunbindFa p) s = execSunbindFa p s := rfl
@[simp] theorem exec_sunbindFb p s : exec (.sunbindFb p) s = execSunbindFb p s := rfl
@[simp] theorem exec_sunbindPos p d a s : exec (.sunbindPos p d a) s = execSunbindPos p d a s := rfl
@[simp] theorem exec_sunbindPosa p d s : exec (.sunbindPosa p d) s = execSunbindPosa p d s := rfl
@[simp] theorem exec_sunbindPosb p d s : exec (.sunbindPosb p d) s = execSunbindPosb p d s := rfl
@[simp] theorem exec_cpy p fn fl ct a b c crc gate s : exec (.cpy p fn fl ct a b c crc gate) s = execCpy p fn fl ct a b c crc gate s := rfl
@[simp] theorem exec_cpym p fn fl ct a b c ty x n gate s : exec (.cpym p fn fl ct a b c ty x n gate) s = execCpym p fn fl ct a b c ty x n gate s := rfl
@[simp] theorem exec_sxwSet p k a s : exec (.sxwSet p k a) s = execSxwSet p k a s := rfl
@[simp] theorem exec_sxwClr p k s : exec (.sxwClr p k) s = execSxwClr p k s := rfl
@[simp] theorem exec_sxwRd p k d s : exec (.sxwRd p k d) s = execSxwRd p k d s := rfl
@[simp] theorem exec_cntSet p n m a s : exec (.cntSet p n m a) s = execCntSet p n m a s := rfl
@[simp] theorem exec_cntAdd p n m a s : exec (.cntAdd p n m a) s = execCntAdd p n m a s := rfl
@[simp] theorem exec_cntRd p n d s : exec (.cntRd p n d) s = execCntRd p n d s := rfl
@[simp] theorem exec_sgtSet p e desc s : exec (.sgtSet p e desc) s = execSgtSet p e desc s := rfl
@[simp] theorem exec_sgtGo p e dst ct a b c s : exec (.sgtGo p e dst ct a b c) s = execSgtGo p e dst ct a b c s := rfl
@[simp] theorem exec_sgtRd p e d s : exec (.sgtRd p e d) s = execSgtRd p e d s := rfl
@[simp] theorem exec_sgtFlt p k0 d s : exec (.sgtFlt p k0 d) s = execSgtFlt p k0 d s := rfl
@[simp] theorem exec_engSt p d s : exec (.engSt p d) s = execEngSt p d s := rfl
@[simp] theorem exec_engFlt p d s : exec (.engFlt p d) s = execEngFlt p d s := rfl
@[simp] theorem exec_engCrc p d s : exec (.engCrc p d) s = execEngCrc p d s := rfl
@[simp] theorem exec_engQ p s : exec (.engQ p) s = execEngQ p s := rfl
@[simp] theorem exec_bar p n s : exec (.bar p n) s = execBar p n s := rfl
@[simp] theorem exec_barv p n d a s : exec (.barv p n d a) s = execBarv p n d a s := rfl
@[simp] theorem exec_bara p n a s : exec (.bara p n a) s = execBara p n a s := rfl
@[simp] theorem exec_baraN p n s : exec (.baraN p n) s = execBaraN p n s := rfl
@[simp] theorem exec_waitb p n d s : exec (.waitb p n d) s = execWaitb p n d s := rfl
@[simp] theorem exec_vabort p u s : exec (.vabort p u) s = execVabort p u s := rfl
@[simp] theorem exec_bcfg p n a op s : exec (.bcfg p n a op) s = execBcfg p n a op s := rfl
@[simp] theorem exec_bred p n d s : exec (.bred p n d) s = execBred p n d s := rfl
@[simp] theorem exec_bredCfg p n d s : exec (.bredCfg p n d) s = execBredCfg p n d s := rfl
@[simp] theorem exec_bredSt p d s : exec (.bredSt p d) s = execBredSt p d s := rfl
@[simp] theorem exec_glchk p d s : exec (.glchk p d) s = execGlchk p d s := rfl
@[simp] theorem exec_coll p k0 a s : exec (.coll p k0 a) s = execColl p k0 a s := rfl
@[simp] theorem exec_waitp p k j pf a b s : exec (.waitp p k j pf a b) s = execWaitp p k j pf a b s := rfl
@[simp] theorem exec_pcan p k0 c s : exec (.pcan p k0 c) s = execPcan p k0 c s := rfl
@[simp] theorem exec_prdF32 p k0 k d a s : exec (.prdF32 p k0 k d a) s = execPrdF32 p k0 k d a s := rfl
@[simp] theorem exec_prdLa p k0 k a c s : exec (.prdLa p k0 k a c) s = execPrdLa p k0 k a c s := rfl
@[simp] theorem exec_cstat p k0 d s : exec (.cstat p k0 d) s = execCstat p k0 d s := rfl
@[simp] theorem exec_cstatPc p d a s : exec (.cstatPc p d a) s = execCstatPc p d a s := rfl
@[simp] theorem exec_start p n a imm s : exec (.start p n a imm) s = execStart p n a imm s := rfl
@[simp] theorem exec_hstop p n s : exec (.hstop p n) s = execHstop p n s := rfl
@[simp] theorem exec_hstopAll p s : exec (.hstopAll p) s = execHstopAll p s := rfl
@[simp] theorem exec_enq p q d a s : exec (.enq p q d a) s = execEnq p q d a s := rfl
@[simp] theorem exec_ccnt p lv d a b s : exec (.ccnt p lv d a b) s = execCcnt p lv d a b s := rfl
@[simp] theorem exec_ccntQ p q d s : exec (.ccntQ p q d) s = execCcntQ p q d s := rfl
@[simp] theorem exec_cancel p lv d a b s : exec (.cancel p lv d a b) s = execCancel p lv d a b s := rfl
@[simp] theorem exec_vtidShape p d s : exec (.vtidShape p d) s = execVtidShape p d s := rfl
@[simp] theorem exec_vtidOrd p d a s : exec (.vtidOrd p d a) s = execVtidOrd p d a s := rfl
@[simp] theorem exec_vtidIdx p d a s : exec (.vtidIdx p d a) s = execVtidIdx p d a s := rfl
@[simp] theorem exec_vtidHost p d a s : exec (.vtidHost p d a) s = execVtidHost p d a s := rfl
@[simp] theorem exec_offer p a s : exec (.offer p a) s = execOffer p a s := rfl
@[simp] theorem exec_offerRd p d s : exec (.offerRd p d) s = execOfferRd p d s := rfl
@[simp] theorem exec_imp p a s : exec (.imp p a) s = execImp p a s := rfl
@[simp] theorem exec_offl p ct d a imm s : exec (.offl p ct d a imm) s = execOffl p ct d a imm s := rfl
@[simp] theorem exec_retn p ct d a imm s : exec (.retn p ct d a imm) s = execRetn p ct d a imm s := rfl
@[simp] theorem exec_pstat p d a s : exec (.pstat p d a) s = execPstat p d a s := rfl
@[simp] theorem exec_pstatDev p d s : exec (.pstatDev p d) s = execPstatDev p d s := rfl
@[simp] theorem exec_pin p d a s : exec (.pin p d a) s = execPin p d a s := rfl
@[simp] theorem exec_pinClr p d a s : exec (.pinClr p d a) s = execPinClr p d a s := rfl
@[simp] theorem exec_pinUns p d a s : exec (.pinUns p d a) s = execPinUns p d a s := rfl
@[simp] theorem exec_ckptGo p ct d s : exec (.ckptGo p ct d) s = execCkptGo p ct d s := rfl
@[simp] theorem exec_ckptRd p d s : exec (.ckptRd p d) s = execCkptRd p d s := rfl
@[simp] theorem exec_lnkrd p r d a s : exec (.lnkrd p r d a) s = execLnkrd p r d a s := rfl
@[simp] theorem exec_lnkset p d a b s : exec (.lnkset p d a b) s = execLnkset p d a b s := rfl
@[simp] theorem exec_lnksetUp p d a s : exec (.lnksetUp p d a) s = execLnksetUp p d a s := rfl
@[simp] theorem exec_lnksetDown p d a s : exec (.lnksetDown p d a) s = execLnksetDown p d a s := rfl
@[simp] theorem exec_lnkret p n d a s : exec (.lnkret p n d a) s = execLnkret p n d a s := rfl
@[simp] theorem exec_trap p n s : exec (.trap p n) s = execTrap p n s := rfl
@[simp] theorem exec_tret p s : exec (.tret p) s = execTret p s := rfl
@[simp] theorem exec_sys p k0 d a s : exec (.sys p k0 d a) s = execSys p k0 d a s := rfl
@[simp] theorem exec_ctxsRd p w d a s : exec (.ctxsRd p w d a) s = execCtxsRd p w d a s := rfl
@[simp] theorem exec_ctxsNew p d a b s : exec (.ctxsNew p d a b) s = execCtxsNew p d a b s := rfl
@[simp] theorem exec_ctxsSeg p a b s : exec (.ctxsSeg p a b) s = execCtxsSeg p a b s := rfl
@[simp] theorem exec_ctxsGo p d a s : exec (.ctxsGo p d a) s = execCtxsGo p d a s := rfl
@[simp] theorem exec_ctxsSave p d a s : exec (.ctxsSave p d a) s = execCtxsSave p d a s := rfl
@[simp] theorem exec_ctxsRest p d a s : exec (.ctxsRest p d a) s = execCtxsRest p d a s := rfl
@[simp] theorem exec_kill p c s : exec (.kill p c) s = execKill p c s := rfl
@[simp] theorem exec_killCtx p a c s : exec (.killCtx p a c) s = execKillCtx p a c s := rfl
@[simp] theorem exec_idleRd p d a s : exec (.idleRd p d a) s = execIdleRd p d a s := rfl
@[simp] theorem exec_idleSet p a s : exec (.idleSet p a) s = execIdleSet p a s := rfl
@[simp] theorem exec_tstReq p d a s : exec (.tstReq p d a) s = execTstReq p d a s := rfl
@[simp] theorem exec_tstRd p u d a s : exec (.tstRd p u d a) s = execTstRd p u d a s := rfl
@[simp] theorem exec_ecntK p w d a s : exec (.ecntK p w d a) s = execEcntK p w d a s := rfl
@[simp] theorem exec_ecntRes p d a s : exec (.ecntRes p d a) s = execEcntRes p d a s := rfl
@[simp] theorem exec_ecntThm p d a s : exec (.ecntThm p d a) s = execEcntThm p d a s := rfl
@[simp] theorem exec_ecntTs p k0 d a s : exec (.ecntTs p k0 d a) s = execEcntTs p k0 d a s := rfl
@[simp] theorem exec_ecntSet p r a b s : exec (.ecntSet p r a b) s = execEcntSet p r a b s := rfl
@[simp] theorem exec_dbgRd p d s : exec (.dbgRd p d) s = execDbgRd p d s := rfl
@[simp] theorem exec_dbgMark p a v s : exec (.dbgMark p a v) s = execDbgMark p a v s := rfl
@[simp] theorem exec_dbgBrk p v s : exec (.dbgBrk p v) s = execDbgBrk p v s := rfl
@[simp] theorem exec_deferredTrap s : exec .deferredTrap s = execDeferredTrap s := rfl
@[simp] theorem exec_resultDelivery s : exec .resultDelivery s = execResultDelivery s := rfl
@[simp] theorem exec_remoteLoadArrival s : exec .remoteLoadArrival s = execRemoteLoadArrival s := rfl
@[simp] theorem exec_remoteLoadReturn s : exec .remoteLoadReturn s = execRemoteLoadReturn s := rfl
@[simp] theorem exec_deltaArrival s : exec .deltaArrival s = execDeltaArrival s := rfl
@[simp] theorem exec_foreshoreWriteArrival s : exec .foreshoreWriteArrival s = execForeshoreWriteArrival s := rfl
@[simp] theorem exec_msgArrival s : exec .msgArrival s = execMsgArrival s := rfl
@[simp] theorem exec_ackArrival s : exec .ackArrival s = execAckArrival s := rfl
@[simp] theorem exec_lockGrant s : exec .lockGrant s = execLockGrant s := rfl
@[simp] theorem exec_ovlDone s : exec .ovlDone s = execOvlDone s := rfl
@[simp] theorem exec_idleWatchdogExpiry s : exec .idleWatchdogExpiry s = execIdleWatchdogExpiry s := rfl
@[simp] theorem exec_waitcTimeout s : exec .waitcTimeout s = execWaitcTimeout s := rfl
@[simp] theorem exec_waitpTimeout s : exec .waitpTimeout s = execWaitpTimeout s := rfl
@[simp] theorem exec_fifoUnitComplete s : exec .fifoUnitComplete s = execFifoUnitComplete s := rfl
@[simp] theorem exec_arrayOpStart s : exec .arrayOpStart s = execArrayOpStart s := rfl
@[simp] theorem exec_partialTileWritten s : exec .partialTileWritten s = execPartialTileWritten s := rfl
@[simp] theorem exec_adderCmdStart s : exec .adderCmdStart s = execAdderCmdStart s := rfl
@[simp] theorem exec_adderCmdPerformed s : exec .adderCmdPerformed s = execAdderCmdPerformed s := rfl
@[simp] theorem exec_drainStart s : exec .drainStart s = execDrainStart s := rfl
@[simp] theorem exec_drainSourceReadDone s : exec .drainSourceReadDone s = execDrainSourceReadDone s := rfl
@[simp] theorem exec_atbBuildStart s : exec .atbBuildStart s = execAtbBuildStart s := rfl
@[simp] theorem exec_atbDone s : exec .atbDone s = execAtbDone s := rfl
@[simp] theorem exec_smpAtHead s : exec .smpAtHead s = execSmpAtHead s := rfl
@[simp] theorem exec_smplBatchDecision s : exec .smplBatchDecision s = execSmplBatchDecision s := rfl
@[simp] theorem exec_smplDone s : exec .smplDone s = execSmplDone s := rfl
@[simp] theorem exec_streamPieceFetched s : exec .streamPieceFetched s = execStreamPieceFetched s := rfl
@[simp] theorem exec_streamOutPiecePerformed s : exec .streamOutPiecePerformed s = execStreamOutPiecePerformed s := rfl
@[simp] theorem exec_copyCmdStart s : exec .copyCmdStart s = execCopyCmdStart s := rfl
@[simp] theorem exec_copyCmdPerformed s : exec .copyCmdPerformed s = execCopyCmdPerformed s := rfl
@[simp] theorem exec_copyAccessRefused s : exec .copyAccessRefused s = execCopyAccessRefused s := rfl
@[simp] theorem exec_cpymFollowon s : exec .cpymFollowon s = execCpymFollowon s := rfl
@[simp] theorem exec_gatherRefused s : exec .gatherRefused s = execGatherRefused s := rfl
@[simp] theorem exec_sluiceTermFire s : exec .sluiceTermFire s = execSluiceTermFire s := rfl
@[simp] theorem exec_arriveSend s : exec .arriveSend s = execArriveSend s := rfl
@[simp] theorem exec_barrierNodeArrive s : exec .barrierNodeArrive s = execBarrierNodeArrive s := rfl
@[simp] theorem exec_arriveAtDecision s : exec .arriveAtDecision s = execArriveAtDecision s := rfl
@[simp] theorem exec_abortAtDecision s : exec .abortAtDecision s = execAbortAtDecision s := rfl
@[simp] theorem exec_barrierTimeout s : exec .barrierTimeout s = execBarrierTimeout s := rfl
@[simp] theorem exec_decisionRelease s : exec .decisionRelease s = execDecisionRelease s := rfl
@[simp] theorem exec_parkAssert s : exec .parkAssert s = execParkAssert s := rfl
@[simp] theorem exec_parkWithdraw s : exec .parkWithdraw s = execParkWithdraw s := rfl
@[simp] theorem exec_bcfgControlArrival s : exec .bcfgControlArrival s = execBcfgControlArrival s := rfl
@[simp] theorem exec_glchkReply s : exec .glchkReply s = execGlchkReply s := rfl
@[simp] theorem exec_releaseCommitAtTile s : exec .releaseCommitAtTile s = execReleaseCommitAtTile s := rfl
@[simp] theorem exec_releaseAbortAtTile s : exec .releaseAbortAtTile s = execReleaseAbortAtTile s := rfl
@[simp] theorem exec_groupStart s : exec .groupStart s = execGroupStart s := rfl
@[simp] theorem exec_clusterStartGateOpen s : exec .clusterStartGateOpen s = execClusterStartGateOpen s := rfl
@[simp] theorem exec_giveUpRequest s : exec .giveUpRequest s = execGiveUpRequest s := rfl
@[simp] theorem exec_moveRequest s : exec .moveRequest s = execMoveRequest s := rfl
@[simp] theorem exec_reshapeDone s : exec .reshapeDone s = execReshapeDone s := rfl
@[simp] theorem exec_foldTurnChange s : exec .foldTurnChange s = execFoldTurnChange s := rfl
@[simp] theorem exec_launchMessageOffer s : exec .launchMessageOffer s = execLaunchMessageOffer s := rfl
@[simp] theorem exec_poolIntake s : exec .poolIntake s = execPoolIntake s := rfl
@[simp] theorem exec_admissionStep s : exec .admissionStep s = execAdmissionStep s := rfl
@[simp] theorem exec_nodeCompletion s : exec .nodeCompletion s = execNodeCompletion s := rfl
@[simp] theorem exec_cancelAtDispatcher s : exec .cancelAtDispatcher s = execCancelAtDispatcher s := rfl
@[simp] theorem exec_dispatcherReply s : exec .dispatcherReply s = execDispatcherReply s := rfl
@[simp] theorem exec_clusterWake s : exec .clusterWake s = execClusterWake s := rfl
@[simp] theorem exec_clusterUsable s : exec .clusterUsable s = execClusterUsable s := rfl
@[simp] theorem exec_clusterRetain s : exec .clusterRetain s = execClusterRetain s := rfl
@[simp] theorem exec_clusterGate s : exec .clusterGate s = execClusterGate s := rfl
@[simp] theorem exec_testStart s : exec .testStart s = execTestStart s := rfl
@[simp] theorem exec_testDone s : exec .testDone s = execTestDone s := rfl
@[simp] theorem exec_coldReset s : exec .coldReset s = execColdReset s := rfl
@[simp] theorem exec_monitorImageReceive s : exec .monitorImageReceive s = execMonitorImageReceive s := rfl
@[simp] theorem exec_monitorRequest s : exec .monitorRequest s = execMonitorRequest s := rfl
@[simp] theorem exec_attestationRequest s : exec .attestationRequest s = execAttestationRequest s := rfl
@[simp] theorem exec_kernelLoadRequest s : exec .kernelLoadRequest s = execKernelLoadRequest s := rfl
@[simp] theorem exec_kernelResetRequest s : exec .kernelResetRequest s = execKernelResetRequest s := rfl
@[simp] theorem exec_kernelRetireRequest s : exec .kernelRetireRequest s = execKernelRetireRequest s := rfl
@[simp] theorem exec_sysReply s : exec .sysReply s = execSysReply s := rfl
@[simp] theorem exec_saveComplete s : exec .saveComplete s = execSaveComplete s := rfl
@[simp] theorem exec_sweepTokenAtTile s : exec .sweepTokenAtTile s = execSweepTokenAtTile s := rfl
@[simp] theorem exec_sweepSwtExpiry s : exec .sweepSwtExpiry s = execSweepSwtExpiry s := rfl
@[simp] theorem exec_sweepCleanResult s : exec .sweepCleanResult s = execSweepCleanResult s := rfl
@[simp] theorem exec_purgeConfirmed s : exec .purgeConfirmed s = execPurgeConfirmed s := rfl
@[simp] theorem exec_pageAccess s : exec .pageAccess s = execPageAccess s := rfl
@[simp] theorem exec_offlCopyDone s : exec .offlCopyDone s = execOfflCopyDone s := rfl
@[simp] theorem exec_retnCopyDone s : exec .retnCopyDone s = execRetnCopyDone s := rfl
@[simp] theorem exec_writebackDrain s : exec .writebackDrain s = execWritebackDrain s := rfl
@[simp] theorem exec_pageTableWrite s : exec .pageTableWrite s = execPageTableWrite s := rfl
@[simp] theorem exec_faultRefuse s : exec .faultRefuse s = execFaultRefuse s := rfl
@[simp] theorem exec_checkpointDone s : exec .checkpointDone s = execCheckpointDone s := rfl
@[simp] theorem exec_collAllLaunched s : exec .collAllLaunched s = execCollAllLaunched s := rfl
@[simp] theorem exec_collSourceRead s : exec .collSourceRead s = execCollSourceRead s := rfl
@[simp] theorem exec_adderDigitEmit s : exec .adderDigitEmit s = execAdderDigitEmit s := rfl
@[simp] theorem exec_planeLanded s : exec .planeLanded s = execPlaneLanded s := rfl
@[simp] theorem exec_collDeadlineExpiry s : exec .collDeadlineExpiry s = execCollDeadlineExpiry s := rfl
@[simp] theorem exec_contributionAccepted s : exec .contributionAccepted s = execContributionAccepted s := rfl
@[simp] theorem exec_collConsumerDone s : exec .collConsumerDone s = execCollConsumerDone s := rfl
@[simp] theorem exec_flitReceive s : exec .flitReceive s = execFlitReceive s := rfl
@[simp] theorem exec_replayTimeout s : exec .replayTimeout s = execReplayTimeout s := rfl
@[simp] theorem exec_linkTrainingDone s : exec .linkTrainingDone s = execLinkTrainingDone s := rfl
@[simp] theorem exec_linkRetrainDone s : exec .linkRetrainDone s = execLinkRetrainDone s := rfl
@[simp] theorem exec_autoStepDown s : exec .autoStepDown s = execAutoStepDown s := rfl
@[simp] theorem exec_autoStepUp s : exec .autoStepUp s = execAutoStepUp s := rfl
@[simp] theorem exec_reservoirTick s : exec .reservoirTick s = execReservoirTick s := rfl
@[simp] theorem exec_backgroundScrubRead s : exec .backgroundScrubRead s = execBackgroundScrubRead s := rfl
@[simp] theorem exec_trapRecordArrival s : exec .trapRecordArrival s = execTrapRecordArrival s := rfl
@[simp] theorem exec_rowCollectorForward s : exec .rowCollectorForward s = execRowCollectorForward s := rfl
@[simp] theorem exec_trapUnitDeliver s : exec .trapUnitDeliver s = execTrapUnitDeliver s := rfl
@[simp] theorem exec_fetchFault s : exec .fetchFault s = execFetchFault s := rfl
@[simp] theorem exec_softError s : exec .softError s = execSoftError s := rfl
@[simp] theorem exec_freeListFill s : exec .freeListFill s = execFreeListFill s := rfl
@[simp] theorem exec_tableBaseWrite s : exec .tableBaseWrite s = execTableBaseWrite s := rfl
@[simp] theorem exec_chipNumberAssign s : exec .chipNumberAssign s = execChipNumberAssign s := rfl
@[simp] theorem exec_runtimeImageLoad s : exec .runtimeImageLoad s = execRuntimeImageLoad s := rfl
@[simp] theorem exec_collNodeInput s : exec .collNodeInput s = execCollNodeInput s := rfl
@[simp] theorem exec_routeTableChange s : exec .routeTableChange s = execRouteTableChange s := rfl

end Sys2Proof.Laws
end

