-- ==== Sys2Proof/Laws/Issue.lean ====
section
/-! SUPPORT. What the issue of an instruction can do: all of it, once. -/

namespace Sys2Proof.Laws

open Sys2Proof Sys2Proof.Machine

/-- A body that completes. -/
@[simp] theorem finishAct_done (s s' : State) (len : Nat) :
    finishAct s s.cur.1 s.cur.2 len (.done s') = retired s s' len := rfl

/-- A body that goes on elsewhere. -/
@[simp] theorem finishAct_goto (s s' : State) (len : Nat) (pc : BitVec 21) :
    finishAct s s.cur.1 s.cur.2 len (.goto pc s') = wentTo s s' pc := rfl

/-- A body that traps. -/
@[simp] theorem finishAct_trap (s : State) (len : Nat) (c : Cause) (i : BitVec 32) :
    finishAct s s.cur.1 s.cur.2 len (.trap c i) = trapTaken s len c i := rfl

/-- A body that waits to be examined again. -/
@[simp] theorem finishAct_wait (s : State) (len : Nat) (w : Wait) :
    finishAct s s.cur.1 s.cur.2 len (.wait w) = deferred s len w := rfl

/-- A body that waits for an event. -/
@[simp] theorem finishAct_block (s s' : State) (len : Nat) (w : Wait) :
    finishAct s s.cur.1 s.cur.2 len (.block w s') = blocked s s' len w := rfl

/-- When an instruction goes on to its own effect, no check stops it. -/
theorem checkIssue_ready {s : State} {p : Pred} {who : Who} {srcs : List Src} {dsts : List Dst}
    (h : Ready s p who srcs dsts) : checkIssue s s.cur.1 s.cur.2 p who srcs dsts = none := by
  obtain ⟨h1, h2, h3, h4, h5, h6, h7⟩ := h
  simp only [self, here, State.strand] at h1 h3 h4 h5 h6 h7
  have a1 : (srcs.any fun x => x.e && srcEmpty (s.tile s.cur.1).strands[s.cur.2.val] srcs x) = false := by
    rw [List.any_eq_false]; intro x hx; simp [h3 x hx]
  have a2 : (srcs.any (srcEmpty (s.tile s.cur.1).strands[s.cur.2.val] srcs)) = false := by
    rw [List.any_eq_false]; intro x hx; simp [h3 x hx]
  have a3 : (dsts.any (s.tile s.cur.1).strands[s.cur.2.val].isEmpty) = false := by
    rw [List.any_eq_false]; intro x hx; simp [h5 x hx]
  have a4 : ¬((who = .monitor ∧ s.cur.1 ≠ monitorTile) ∨ ((who = .control ∨ who = .zero) ∧ s.cur.2.val ≠ 0)) := by
    cases who <;> simp_all [mayRun]
  simp only [checkIssue, h1, a1, a2, a3, a4, h4, h6, h7, Bool.not_true, if_false, Bool.false_eq_true]

/-- What an instruction that goes on to its own effect comes to. -/
theorem issue_ready {s : State} {p : Pred} {who : Who} {srcs : List Src} {dsts : List Dst} {len : Nat}
    {body : State → TileId → StrandNo → Act} (h : Ready s p who srcs dsts) :
    issue p len who srcs dsts body s = .next (finishAct s s.cur.1 s.cur.2 len (body s s.cur.1 s.cur.2)) := by
  have hm : ¬((who = .tile ∨ who = .control) ∧ s.cur.1 = monitorTile) := by
    have := h.mode
    cases who <;> simp_all [mayRun]
  simp only [issue, checkIssue_ready h, hm, if_false]

/-- An instruction answers a next state, or is a form outside the monitor's repertoire on the monitor core. -/
theorem issue_cases {s : State} {p : Pred} {who : Who} {srcs : List Src} {dsts : List Dst} {len : Nat}
    {body : State → TileId → StrandNo → Act} {r : Host.Outcome State Fault Refusal}
    (h : issue p len who srcs dsts body s = r) :
    (∃ a, checkIssue s s.cur.1 s.cur.2 p who srcs dsts = some a ∧ r = .next (finishAct s s.cur.1 s.cur.2 len a)) ∨
    (checkIssue s s.cur.1 s.cur.2 p who srcs dsts = none ∧ s.cur.1 = monitorTile ∧ (who = .tile ∨ who = .control) ∧
      r = .refused .outsideMonitorRepertoire) ∨
    (checkIssue s s.cur.1 s.cur.2 p who srcs dsts = none ∧
      r = .next (finishAct s s.cur.1 s.cur.2 len (body s s.cur.1 s.cur.2))) := by
  unfold issue at h
  cases hc : checkIssue s s.cur.1 s.cur.2 p who srcs dsts with
  | some a => exact .inl ⟨a, rfl, by simpa [hc] using h.symm⟩
  | none =>
    simp only [hc] at h
    split at h
    · exact .inr (.inl ⟨rfl, by tauto, by tauto, h.symm⟩)
    · exact .inr (.inr ⟨rfl, h.symm⟩)

/-- A check answers only: go on, the predicate is false, a trap, or a wait. -/
theorem checkIssue_cases {s : State} {t : TileId} {n : StrandNo} {p : Pred} {who : Who} {srcs : List Src} {dsts : List Dst}
    {a : Act} (h : checkIssue s t n p who srcs dsts = some a) :
    (a = .done s ∧ predTrue (s.strand t n) p = false) ∨ (∃ c i, a = .trap c i) ∨ (∃ w, a = .wait w) := by
  unfold checkIssue at h
  simp only [] at h
  split at h
  · left; simp_all [State.strand]
  · repeat (first | split at h | (simp_all; done) | (right; simp at h; subst h; simp))

/-- With a false predicate an instruction only goes on (R63). -/
theorem issue_false {s : State} {p : Pred} {who : Who} {srcs : List Src} {dsts : List Dst} {len : Nat}
    {body : State → TileId → StrandNo → Act} (h : predTrue (self s) p = false) :
    issue p len who srcs dsts body s = .next (retired s s len) := by
  simp only [self, State.strand] at h
  simp [issue, checkIssue, h]

end Sys2Proof.Laws
end

