-- ==== Sys2Proof/Laws/Link.lean ====
section
/-! SUPPORT. Little-endian bytes and numbers, and the CRC of a flit (R330): the bytes of a flit say whether it is good. -/

namespace Sys2Proof.Laws

open Sys2Proof Sys2Proof.Machine

@[simp] theorem length_bytesOf (n x : Nat) : (bytesOf n x).length = n := by simp [bytesOf]

theorem bytesOf_succ (n x : Nat) : bytesOf (n + 1) x = BitVec.ofNat 8 x :: bytesOf n (x / 256) := by
  simp only [bytesOf, List.range_succ_eq_map, List.map_cons, List.map_map, pow_zero, Nat.div_one, List.cons.injEq, true_and]
  exact List.map_congr_left fun i _ => by simp [Nat.pow_succ', Nat.div_div_eq_div_mul]

/-- The number that the bytes of a number give. -/
theorem natOf_bytesOf (n x : Nat) : natOf (bytesOf n x) = x % 256 ^ n := by
  induction n generalizing x with
  | zero => simp [bytesOf, natOf, Nat.mod_one]
  | succ n ih =>
    have h : natOf (bytesOf (n + 1) x) = (BitVec.ofNat 8 x).toNat + 256 * natOf (bytesOf n (x / 256)) := by
      rw [bytesOf_succ]; rfl
    rw [h, ih, BitVec.toNat_ofNat, show 256 ^ (n + 1) = 2 ^ 8 * 256 ^ n from pow_succ' _ _, Nat.mod_mul]
    norm_num

theorem length_flitBody (f : Flit) : (flitBody f).length = 252 := by
  simp only [flitBody, List.length_append, length_bytesOf, List.length_take, List.length_replicate]
  omega

theorem length_flitBytes (f : Flit) : (flitBytes f).length = 256 := by simp [flitBytes, length_flitBody]

/-- A receiver finds the CRC good or bad as it was sent (R330). -/
theorem flitOf_flitBytes_good (f : Flit) : (flitOf (flitBytes f)).good = f.good := by
  have h : (flitBody f).length = 252 := length_flitBody f
  simp only [flitOf, flitBytes, List.take_left' h, List.drop_left' h]
  rw [List.take_of_length_le (by simp), natOf_bytesOf, Nat.mod_eq_of_lt (by exact BitVec.isLt _), BitVec.ofNat_toNat, BitVec.setWidth_eq]
  cases f.good
  · have : ∀ c : BitVec 32, ¬ c = ~~~c := fun c h => by
      have := congrArg (fun c => c.getLsbD 0) h; simp at this
    simp [this]
  · simp

end Sys2Proof.Laws
end

