-- ==== Sys2Proof/Laws/Memory.lean ====
section
/-! SUPPORT. Memory: what a read gives after a write, and that every operation keeps the canonical form. -/

namespace Sys2Proof.Laws

open Sys2Proof Sys2Proof.Machine

/-! ### Values under keys -/

@[simp] theorem assocGet_assocSet_self {α : Type} (d v : α) (k : Nat) (l : List (Nat × α)) :
    assocGet d k (assocSet k v l) = v := by
  induction l with
  | nil => simp [assocSet, assocGet]
  | cons e r ih =>
    simp only [assocSet]
    split
    · simp [assocGet]
    · split
      · simp [assocGet]
      · simp_all [assocGet]

theorem assocGet_assocSet_of_ne {α : Type} (d v : α) {k j : Nat} (h : j ≠ k) (l : List (Nat × α)) :
    assocGet d j (assocSet k v l) = assocGet d j l := by
  induction l with
  | nil => simp [assocSet, assocGet, h.symm]
  | cons e r ih =>
    simp only [assocSet]
    split
    · simp_all [assocGet, h.symm]
    · split
      · simp [assocGet, h.symm]
      · simp [assocGet, ih]

theorem assocGet_assocSet {α : Type} (d v : α) (k j : Nat) (l : List (Nat × α)) :
    assocGet d j (assocSet k v l) = if j = k then v else assocGet d j l := by
  split
  · subst j; exact assocGet_assocSet_self ..
  · exact assocGet_assocSet_of_ne _ _ ‹_› _

@[simp] theorem assocSet_assocSet {α : Type} (u v : α) (k : Nat) (l : List (Nat × α)) :
    assocSet k v (assocSet k u l) = assocSet k v l := by
  induction l with
  | nil => simp [assocSet]
  | cons e r ih =>
    simp only [assocSet]
    split
    · simp [assocSet]
    · split
      · simp [assocSet]
      · simp_all [assocSet]

/-! ### The canonical form, as a proposition -/

/-- The canonical form: keys strictly rising, no zero byte. -/
theorem wf_iff (m : Mem) :
    m.wf = true ↔ (m.map (fun e => e.1)).Pairwise (· < ·) ∧ ∀ e ∈ m, e.2 ≠ 0 := by
  have h : ∀ l : List Nat, Mem.rising l = true ↔ l.Pairwise (· < ·) := by
    intro l
    induction l with
    | nil => simp [Mem.rising]
    | cons a r ih =>
      cases r with
      | nil => simp [Mem.rising]
      | cons b r =>
        simp only [Mem.rising, Bool.and_eq_true, decide_eq_true_eq, ih]
        constructor
        · rintro ⟨hab, hp⟩
          refine List.pairwise_cons.2 ⟨fun x hx => ?_, hp⟩
          rcases List.mem_cons.1 hx with rfl | hx
          · exact hab
          · exact hab.trans (List.rel_of_pairwise_cons hp hx)
        · intro hp
          exact ⟨List.rel_of_pairwise_cons hp (by simp), (List.pairwise_cons.1 hp).2⟩
  simp [Mem.wf, h, List.all_eq_true]

theorem wf_nil : Mem.wf [] = true := rfl

/-- Keys that a filter leaves are still rising. -/
theorem wf_filter {m : Mem} (h : m.wf = true) (p : Host.Cell → Bool) : Mem.wf (m.filter p) = true := by
  rw [wf_iff] at h ⊢
  exact ⟨h.1.sublist (List.filter_sublist.map _), fun e he => h.2 e (List.mem_filter.1 he).1⟩

/-- Setting a byte that is not zero. -/
theorem wf_assocSet {m : Mem} (h : m.wf = true) (a : Nat) {b : Byte} (hb : b ≠ 0) : Mem.wf (assocSet a b m) = true := by
  rw [wf_iff] at h ⊢
  obtain ⟨h1, h2⟩ := h
  have keys : ∀ (l : Mem) x, x ∈ (assocSet a b l).map (fun e => e.1) → x = a ∨ x ∈ l.map (fun e => e.1) := by
    intro l
    induction l with
    | nil => simp [assocSet]
    | cons e r ih =>
      intro x
      simp only [assocSet]
      split
      · simp; grind
      · split
        · simp
        · simp only [List.map_cons, List.mem_cons]
          rintro (rfl | hx)
          · exact .inr (.inl rfl)
          · rcases ih x hx with rfl | hx
            · exact .inl rfl
            · exact .inr (.inr hx)
  induction m with
  | nil => simpa [assocSet] using hb
  | cons e r ih =>
    simp only [List.map_cons, List.pairwise_cons, List.mem_cons, forall_eq_or_imp] at h1 h2
    have ih := ih h1.2 h2.2
    simp only [assocSet]
    split
    · rename_i he
      refine ⟨?_, ?_⟩
      · simpa [he] using h1
      · simp only [List.mem_cons, forall_eq_or_imp]
        exact ⟨hb, h2.2⟩
    · split
      · rename_i hlt
        refine ⟨?_, ?_⟩
        · simp only [List.map_cons, List.pairwise_cons, List.mem_cons, forall_eq_or_imp]
          exact ⟨⟨hlt, fun x hx => hlt.trans (h1.1 x hx)⟩, h1.1, h1.2⟩
        · simp only [List.mem_cons, forall_eq_or_imp]
          exact ⟨hb, h2.1, h2.2⟩
      · rename_i hne hlt
        refine ⟨?_, ?_⟩
        · simp only [List.map_cons, List.pairwise_cons]
          refine ⟨fun x hx => ?_, ih.1⟩
          rcases keys r x hx with rfl | hx
          · omega
          · exact h1.1 x hx
        · simp only [List.mem_cons, forall_eq_or_imp]
          exact ⟨h2.1, ih.2⟩

/-! ### The operations keep the form -/

theorem wf_write {m : Mem} (h : m.wf = true) (a : Nat) (b : Byte) : (m.write a b).wf = true := by
  unfold Mem.write
  split
  · exact wf_filter h _
  · exact wf_assocSet h a ‹_›

theorem wf_store {m : Mem} (h : m.wf = true) (a : Nat) (bs : List Byte) : (m.store a bs).wf = true := by
  induction bs generalizing m a with
  | nil => exact h
  | cons b r ih => exact ih (wf_write h a b) (a + 1)

theorem wf_clear {m : Mem} (h : m.wf = true) (a n : Nat) : (m.clear a n).wf = true := wf_filter h _

theorem wf_putBytes {m : Mem} (h : m.wf = true) (k : WKind) (ofs : Nat) (data : List Byte) :
    (putBytes m k ofs data).wf = true := by
  unfold putBytes
  split
  · exact wf_write h _ _
  · exact wf_store h _ _

/-- A fold of writes keeps the form. -/
theorem wf_foldl_write {α : Type} (f : Mem → α → Mem) (hf : ∀ m x, m.wf = true → (f m x).wf = true) (l : List α) {m : Mem}
    (h : m.wf = true) : (l.foldl f m).wf = true := by
  induction l generalizing m with
  | nil => exact h
  | cons x r ih => exact ih (hf m x h)

/-! ### Reads -/

@[simp] theorem read_nil (a : Nat) : Mem.read [] a = 0 := rfl

/-- A byte that is not listed reads zero. -/
theorem read_filter_ne (m : Mem) (a x : Nat) :
    Mem.read (m.filter (fun e => decide (e.1 ≠ a))) x = if x = a then 0 else m.read x := by
  induction m with
  | nil => simp [Mem.read, assocGet]
  | cons e r ih =>
    by_cases he : e.1 = a
    · rw [List.filter_cons_of_neg (by simpa using he), ih]
      split
      · rfl
      · rename_i hx
        simp [Mem.read, assocGet, show e.1 ≠ x by omega]
    · rw [List.filter_cons_of_pos (by simpa using he)]
      by_cases hx : e.1 = x
      · subst x; simp [Mem.read, assocGet, he]
      · simp only [Mem.read, assocGet, if_neg hx] at ih ⊢
        exact ih

/-- A read after a write of one byte. -/
theorem read_write (m : Mem) (a x : Nat) (b : Byte) : (m.write a b).read x = if x = a then b else m.read x := by
  unfold Mem.write
  split
  · rename_i hb; rw [read_filter_ne, hb]
  · exact assocGet_assocSet 0 b a x m

@[simp] theorem read_write_self (m : Mem) (a : Nat) (b : Byte) : (m.write a b).read a = b := by simp [read_write]

theorem read_write_of_ne (m : Mem) {a x : Nat} (b : Byte) (h : x ≠ a) : (m.write a b).read x = m.read x := by
  simp [read_write, h]

/-- A read after a store of bytes: inside them the byte stored, outside what was there. -/
theorem read_store (m : Mem) (a x : Nat) (bs : List Byte) :
    (m.store a bs).read x = if a ≤ x ∧ x < a + bs.length then bs.getD (x - a) 0 else m.read x := by
  induction bs generalizing m a with
  | nil => simp [Mem.store, show ¬(a ≤ x ∧ x < a) by omega]
  | cons b r ih =>
    rw [Mem.store, ih, read_write]
    by_cases h0 : x = a
    · subst x; simp
    · by_cases h1 : a + 1 ≤ x ∧ x < a + 1 + r.length
      · have : x - a = (x - (a + 1)) + 1 := by omega
        simp [h1, this]
        intro hc; omega
      · rw [if_neg h1, if_neg h0, if_neg]
        simp only [List.length_cons]; omega

theorem read_store_outside (m : Mem) {a x : Nat} (bs : List Byte) (h : x < a ∨ a + bs.length ≤ x) :
    (m.store a bs).read x = m.read x := by
  rw [read_store, if_neg (by omega)]

/-- A read after clearing a range. -/
theorem read_clear (m : Mem) (a n x : Nat) : (m.clear a n).read x = if a ≤ x ∧ x < a + n then 0 else m.read x := by
  induction m with
  | nil => simp [Mem.clear, Mem.read, assocGet]
  | cons e r ih =>
    simp only [Mem.clear, Mem.read] at ih ⊢
    by_cases he : e.1 < a ∨ a + n ≤ e.1
    · rw [List.filter_cons_of_pos (by simpa using he)]
      by_cases hx : e.1 = x
      · subst x; simp [assocGet]; omega
      · simp only [assocGet, if_neg hx]
        exact ih
    · rw [List.filter_cons_of_neg (by simpa using he), ih]
      split
      · rfl
      · rw [assocGet, if_neg (by omega)]

/-- Two memories in canonical form that read alike are equal. -/
theorem ext_of_read {m m' : Mem} (h : m.wf = true) (h' : m'.wf = true) (hr : ∀ a, m.read a = m'.read a) : m = m' := by
  rw [wf_iff] at h h'
  obtain ⟨h1, h2⟩ := h
  obtain ⟨h1', h2'⟩ := h'
  have low : ∀ (l : Mem) a, (∀ e ∈ l, a < e.1) → l.read a = 0 := by
    intro l a hl
    induction l with
    | nil => rfl
    | cons e r ih =>
      have := hl e (by simp)
      simp only [Mem.read, assocGet, if_neg (by omega : ¬ e.1 = a)]
      exact ih (fun x hx => hl x (by simp [hx]))
  induction m generalizing m' with
  | nil =>
    cases m' with
    | nil => rfl
    | cons e r =>
      have := hr e.1
      simp only [Mem.read, assocGet, if_true] at this
      exact absurd this.symm (h2' e (by simp))
  | cons e r ih =>
    cases m' with
    | nil =>
      have := hr e.1
      simp only [Mem.read, assocGet, if_true] at this
      exact absurd this (h2 e (by simp))
    | cons e' r' =>
      simp only [List.map_cons, List.pairwise_cons, List.mem_map, forall_exists_index, and_imp,
        forall_apply_eq_imp_iff₂] at h1 h1'
      have hk : e.1 = e'.1 := by
        by_contra hne
        rcases Nat.lt_or_gt_of_ne hne with hlt | hgt
        · have := hr e.1
          rw [low (e' :: r') e.1 (by
            intro x hx
            rcases List.mem_cons.1 hx with rfl | hx
            · exact hlt
            · exact hlt.trans (h1'.1 x hx))] at this
          simp only [Mem.read, assocGet, if_true] at this
          exact h2 e (by simp) this
        · have := hr e'.1
          rw [low (e :: r) e'.1 (by
            intro x hx
            rcases List.mem_cons.1 hx with rfl | hx
            · exact hgt
            · exact (Nat.lt_trans hgt (h1.1 x hx)))] at this
          simp only [Mem.read, assocGet, if_true] at this
          exact h2' e' (by simp) this.symm
      have hv : e.2 = e'.2 := by
        have := hr e.1
        simpa [Mem.read, assocGet, hk] using this
      have he : e = e' := Prod.ext hk hv
      subst he
      congr 1
      refine ih (fun a => ?_) h1.2 (fun x hx => h2 x (by simp [hx])) h1'.2 (fun x hx => h2' x (by simp [hx]))
      by_cases ha : e.1 = a
      · rw [low r a (fun x hx => ha ▸ h1.1 x hx), low r' a (fun x hx => ha ▸ h1'.1 x hx)]
      · have := hr a
        simpa [Mem.read, assocGet, ha] using this

end Sys2Proof.Laws
end

