-- ==== Sys2Proof/Laws/Part.lean ====
section
/-! SUPPORT. The fuses of the part (R1, R16): the bitmap of a die reads the fuse of each position, and at least 960 are set. -/

namespace Sys2Proof.Laws

open Sys2Proof Sys2Proof.Machine

/-- Bits set one by one from the lowest are below the next, and read as they were set. -/
theorem sumBits_spec (f : Nat → Bool) (n : Nat) :
    let x := (List.range n).foldl (fun a i => if f i then a + 2 ^ i else a) 0
    x < 2 ^ n ∧ ∀ i, x.testBit i = (decide (i < n) && f i) := by
  induction n with
  | zero => simp
  | succ n ih =>
    simp only [List.range_succ, List.foldl_append, List.foldl_cons, List.foldl_nil]
    obtain ⟨hl, hb⟩ := ih
    generalize (List.range n).foldl (fun a i => if f i then a + 2 ^ i else a) 0 = x at hl hb
    have hp : 2 ^ (n + 1) = 2 ^ n + 2 ^ n := by rw [pow_succ]; omega
    cases h : f n
    · refine ⟨by simp; omega, fun i => ?_⟩
      simp only [Bool.false_eq_true, if_false, hb]
      by_cases hi : i = n
      · subst hi; simp [h]
      · have : (i < n) ↔ (i < n + 1) := by omega
        simp [this]
    · refine ⟨by simp; omega, fun i => ?_⟩
      simp only [if_true]
      by_cases hi : i = n
      · subst hi
        rw [Nat.add_comm, Nat.testBit_two_pow_add_eq, Nat.testBit_lt_two_pow hl]; simp [h]
      · rcases Nat.lt_or_gt_of_ne hi with hlt | hgt
        · rw [Nat.add_comm, Nat.testBit_two_pow_add_gt hlt, hb]
          have : i < n + 1 := by omega
          simp [hlt, this]
        · have h1 : ¬ i < n + 1 := by omega
          have h2 : x + 2 ^ n < 2 ^ i := lt_of_lt_of_le (by omega) (Nat.pow_le_pow_right (by decide) (show n + 1 ≤ i from hgt))
          simp [Nat.testBit_lt_two_pow h2, h1]

/-- The bitmap of a die reads the fuses. -/
@[simp] theorem fusedBitmap_getLsbD (d i : Nat) (h : i < 1024) : (fusedBitmap d).getLsbD i = Config.fusedEnable d i := by
  have := (sumBits_spec (Config.fusedEnable d) 1024).2 i
  simp only [fusedBitmap, BitVec.getLsbD_ofNat, this, h, decide_true, Bool.true_and]

/-- At least 960 positions of a die are enabled (R1, R16). -/
theorem fusedEnable_count (d : Nat) : 960 ≤ ((List.range 1024).filter (Config.fusedEnable d)).length := by
  unfold Config.fusedEnable
  by_cases h : Config.fuseCount d < 960
  · simp only [h, decide_true, Bool.or_true, List.filter_true, List.length_range]; decide
  · simp only [h, decide_false, Bool.or_false]
    exact Nat.le_of_not_lt h

end Sys2Proof.Laws
end

