-- ==== Sys2Proof/Laws/PerInstr.lean ====
section
/-! SUPPORT. The family RoundTrip: reading the fields of a well-formed instruction gives the instruction back. -/

namespace Sys2Proof.Laws.RoundTrip

open Sys2Proof Sys2Proof.Laws

set_option Elab.async false

/-- Reading the fields of a well-formed instruction gives it back. -/
def Statement (i : Instr) : Prop := ∀ f, wellFormed i = true → toFields i = some f → ofFields f = some i

theorem nop x0 : Statement (.nop x0) := by
  intro f h hf
  obtain rfl := Option.some.inj hf
  simp [ofFields, ofFields0, wellFormed] at h ⊢

theorem add x0 x1 : Statement (.add x0 x1) := by
  intro f h hf
  obtain rfl := Option.some.inj hf
  simp [ofFields, ofFields0, parseAlu_fields, wellFormed] at h ⊢

theorem sub x0 x1 : Statement (.sub x0 x1) := by
  intro f h hf
  obtain rfl := Option.some.inj hf
  simp [ofFields, ofFields0, parseAlu_fields, wellFormed] at h ⊢

theorem mul x0 x1 : Statement (.mul x0 x1) := by
  intro f h hf
  obtain rfl := Option.some.inj hf
  simp [ofFields, ofFields0, parseAlu_fields, wellFormed] at h ⊢

theorem mulh x0 x1 : Statement (.mulh x0 x1) := by
  intro f h hf
  obtain rfl := Option.some.inj hf
  simp [ofFields, ofFields0, parseAlu_fields, wellFormed] at h ⊢

theorem div x0 x1 : Statement (.div x0 x1) := by
  intro f h hf
  obtain rfl := Option.some.inj hf
  simp [ofFields, ofFields0, parseAlu_fields, wellFormed] at h ⊢

theorem rem x0 x1 : Statement (.rem x0 x1) := by
  intro f h hf
  obtain rfl := Option.some.inj hf
  simp [ofFields, ofFields0, parseAlu_fields, wellFormed] at h ⊢

theorem and x0 x1 : Statement (.and x0 x1) := by
  intro f h hf
  obtain rfl := Option.some.inj hf
  simp [ofFields, ofFields0, parseAlu_fields, wellFormed] at h ⊢

theorem or x0 x1 : Statement (.or x0 x1) := by
  intro f h hf
  obtain rfl := Option.some.inj hf
  simp [ofFields, ofFields0, parseAlu_fields, wellFormed] at h ⊢

theorem xor x0 x1 : Statement (.xor x0 x1) := by
  intro f h hf
  obtain rfl := Option.some.inj hf
  simp [ofFields, ofFields0, parseAlu_fields, wellFormed] at h ⊢

theorem andn x0 x1 : Statement (.andn x0 x1) := by
  intro f h hf
  obtain rfl := Option.some.inj hf
  simp [ofFields, ofFields0, parseAlu_fields, wellFormed] at h ⊢

theorem shl x0 x1 : Statement (.shl x0 x1) := by
  intro f h hf
  obtain rfl := Option.some.inj hf
  simp [ofFields, ofFields0, parseAlu_fields, wellFormed] at h ⊢

theorem shr x0 x1 : Statement (.shr x0 x1) := by
  intro f h hf
  obtain rfl := Option.some.inj hf
  simp [ofFields, ofFields0, parseAlu_fields, wellFormed] at h ⊢

theorem sra x0 x1 : Statement (.sra x0 x1) := by
  intro f h hf
  obtain rfl := Option.some.inj hf
  simp [ofFields, ofFields0, parseAlu_fields, wellFormed] at h ⊢

theorem rot x0 x1 : Statement (.rot x0 x1) := by
  intro f h hf
  obtain rfl := Option.some.inj hf
  simp [ofFields, ofFields0, parseAlu_fields, wellFormed] at h ⊢

theorem cmp x0 x1 x2 x3 x4 x5 : Statement (.cmp x0 x1 x2 x3 x4 x5) := by
  intro f h hf
  obtain rfl := Option.some.inj hf
  simp [ofFields, ofFields0, wellFormed] at h ⊢

theorem sel x0 x1 x2 x3 x4 x5 : Statement (.sel x0 x1 x2 x3 x4 x5) := by
  intro f h hf
  obtain rfl := Option.some.inj hf
  simp [ofFields, ofFields1, bits_one, wellFormed] at h ⊢
  exact or_low 3 x4 (BitVec.ofBool x5) (by omega) (by omega)

theorem min x0 x1 : Statement (.min x0 x1) := by
  intro f h hf
  obtain rfl := Option.some.inj hf
  simp [ofFields, ofFields1, parseAlu_fields, wellFormed] at h ⊢

theorem max x0 x1 : Statement (.max x0 x1) := by
  intro f h hf
  obtain rfl := Option.some.inj hf
  simp [ofFields, ofFields1, parseAlu_fields, wellFormed] at h ⊢

theorem bitcClz x0 x1 x2 : Statement (.bitcClz x0 x1 x2) := by
  intro f h hf
  obtain rfl := Option.some.inj hf
  simp [ofFields, ofFields1, wellFormed] at h ⊢

theorem bitcCtz x0 x1 x2 : Statement (.bitcCtz x0 x1 x2) := by
  intro f h hf
  obtain rfl := Option.some.inj hf
  simp [ofFields, ofFields1, wellFormed] at h ⊢

theorem bitcPopc x0 x1 x2 : Statement (.bitcPopc x0 x1 x2) := by
  intro f h hf
  obtain rfl := Option.some.inj hf
  simp [ofFields, ofFields1, wellFormed] at h ⊢

theorem ext x0 x1 x2 x3 x4 x5 : Statement (.ext x0 x1 x2 x3 x4 x5) := by
  intro f h hf
  obtain rfl := Option.some.inj hf
  simp [ofFields, ofFields1, bits_one, or_low, or_high, wellFormed] at h ⊢

theorem ins x0 x1 x2 x3 x4 : Statement (.ins x0 x1 x2 x3 x4) := by
  intro f h hf
  obtain rfl := Option.some.inj hf
  simp [ofFields, ofFields1, or_low, or_high, wellFormed] at h ⊢

theorem li x0 x1 x2 : Statement (.li x0 x1 x2) := by
  intro f h hf
  obtain rfl := Option.some.inj hf
  simp [ofFields, ofFields1, wellFormed] at h ⊢

theorem lea x0 x1 x2 x3 x4 x5 : Statement (.lea x0 x1 x2 x3 x4 x5) := by
  intro f h hf
  obtain rfl := Option.some.inj hf
  simp [ofFields, ofFields1, low_bits, wellFormed] at h ⊢

theorem gtaIdx x0 x1 x2 x3 : Statement (.gtaIdx x0 x1 x2 x3) := by
  intro f h hf
  obtain rfl := Option.some.inj hf
  simp [ofFields, ofFields1, wellFormed] at h ⊢

theorem gtaRel x0 x1 x2 x3 x4 : Statement (.gtaRel x0 x1 x2 x3 x4) := by
  intro f h hf
  obtain rfl := Option.some.inj hf
  simp [ofFields, ofFields1, wellFormed] at h ⊢
  rw [BitVec.or_comm]
  exact ⟨or_high 5 x4 x3 (by omega) (by omega), or_low 5 x4 x3 (by omega) (by omega)⟩

theorem plog x0 x1 x2 x3 x4 : Statement (.plog x0 x1 x2 x3 x4) := by
  intro f h hf
  obtain rfl := Option.some.inj hf
  simp [ofFields, ofFields1, wellFormed] at h ⊢

theorem mfs x0 x1 x2 : Statement (.mfs x0 x1 x2) := by
  intro f h hf
  obtain rfl := Option.some.inj hf
  simp [ofFields, ofFields1, low_bits, wellFormed] at h ⊢

theorem mts x0 x1 x2 : Statement (.mts x0 x1 x2) := by
  intro f h hf
  obtain rfl := Option.some.inj hf
  simp [ofFields, ofFields1, low_bits, wellFormed] at h ⊢

theorem addc x0 x1 x2 x3 x4 x5 : Statement (.addc x0 x1 x2 x3 x4 x5) := by
  intro f h hf
  obtain rfl := Option.some.inj hf
  simp [ofFields, ofFields1, low_bits, wellFormed] at h ⊢

theorem br x0 x1 : Statement (.br x0 x1) := by
  intro f h hf
  obtain rfl := Option.some.inj hf
  simp [ofFields, ofFields2, wellFormed] at h ⊢

theorem jmp x0 x1 x2 : Statement (.jmp x0 x1 x2) := by
  intro f h hf
  obtain rfl := Option.some.inj hf
  simp [ofFields, ofFields2, wellFormed] at h ⊢

theorem call x0 x1 x2 : Statement (.call x0 x1 x2) := by
  intro f h hf
  obtain rfl := Option.some.inj hf
  simp [ofFields, ofFields2, wellFormed] at h ⊢

theorem callR x0 x1 x2 : Statement (.callR x0 x1 x2) := by
  intro f h hf
  obtain rfl := Option.some.inj hf
  simp [ofFields, ofFields2, wellFormed] at h ⊢

theorem ret x0 x1 : Statement (.ret x0 x1) := by
  intro f h hf
  obtain rfl := Option.some.inj hf
  simp [ofFields, ofFields2, wellFormed] at h ⊢

theorem loop x0 x1 x2 : Statement (.loop x0 x1 x2) := by
  intro f h hf
  obtain rfl := Option.some.inj hf
  simp [ofFields, ofFields2, wellFormed] at h ⊢

theorem halt x0 : Statement (.halt x0) := by
  intro f h hf
  obtain rfl := Option.some.inj hf
  simp [ofFields, ofFields2, wellFormed] at h ⊢

theorem yield x0 : Statement (.yield x0) := by
  intro f h hf
  obtain rfl := Option.some.inj hf
  simp [ofFields, ofFields2, wellFormed] at h ⊢

theorem waitc x0 x1 x2 x3 x4 x5 x6 : Statement (.waitc x0 x1 x2 x3 x4 x5 x6) := by
  intro f h hf
  obtain rfl := Option.some.inj hf
  simp [ofFields, ofFields2, bits_one, low_bits, wellFormed] at h ⊢

theorem ovlLoc x0 x1 x2 x3 x4 : Statement (.ovlLoc x0 x1 x2 x3 x4) := by
  intro f h hf
  obtain rfl := Option.some.inj hf
  simp [ofFields, ofFields2, wellFormed] at h ⊢

theorem ovlHbm x0 x1 x2 x3 x4 : Statement (.ovlHbm x0 x1 x2 x3 x4) := by
  intro f h hf
  obtain rfl := Option.some.inj hf
  simp [ofFields, ofFields2, wellFormed] at h ⊢

theorem ld x0 x1 x2 x3 x4 : Statement (.ld x0 x1 x2 x3 x4) := by
  intro f h hf
  obtain rfl := Option.some.inj hf
  simp [ofFields, ofFields3, low_bits, wellFormed] at h ⊢

theorem st x0 x1 x2 x3 x4 : Statement (.st x0 x1 x2 x3 x4) := by
  intro f h hf
  obtain rfl := Option.some.inj hf
  simp [ofFields, ofFields3, low_bits, wellFormed] at h ⊢

theorem ldg x0 x1 x2 x3 : Statement (.ldg x0 x1 x2 x3) := by
  intro f h hf
  obtain rfl := Option.some.inj hf
  simp [ofFields, ofFields3, parseMemD, parseMemD_fields, wellFormed] at h ⊢

theorem stg x0 x1 x2 x3 : Statement (.stg x0 x1 x2 x3) := by
  intro f h hf
  obtain rfl := Option.some.inj hf
  simp [ofFields, ofFields3, parseMemS, parseMemS_fields, wellFormed] at h ⊢

theorem st4 x0 x1 x2 x3 : Statement (.st4 x0 x1 x2 x3) := by
  intro f h hf
  obtain rfl := Option.some.inj hf
  simp [ofFields, ofFields3, wellFormed] at h ⊢

theorem st4G x0 x1 x2 x3 : Statement (.st4G x0 x1 x2 x3) := by
  intro f h hf
  obtain rfl := Option.some.inj hf
  simp [ofFields, ofFields3, wellFormed] at h ⊢

theorem ldl x0 x1 x2 x3 x4 : Statement (.ldl x0 x1 x2 x3 x4) := by
  intro f h hf
  obtain rfl := Option.some.inj hf
  simp [ofFields, ofFields3, low_bits, wellFormed] at h ⊢

theorem stu x0 x1 x2 x3 x4 : Statement (.stu x0 x1 x2 x3 x4) := by
  intro f h hf
  obtain rfl := Option.some.inj hf
  simp [ofFields, ofFields3, low_bits, wellFormed] at h ⊢

theorem addd x0 x1 x2 x3 : Statement (.addd x0 x1 x2 x3) := by
  intro f h hf
  obtain rfl := Option.some.inj hf
  simp [ofFields, ofFields3, parseAddS, wellFormed] at h ⊢
  cases x2 with
  | g ty b =>
    have : ty ≠ 13#4 := by rintro rfl; simp at h
    simp [addSrcTy, addSrcB, addSrcE, this]
  | la b => simp [addSrcTy, addSrcB, addSrcE, encW_4]

theorem ldw x0 x1 x2 x3 : Statement (.ldw x0 x1 x2 x3) := by
  intro f h hf
  obtain rfl := Option.some.inj hf
  simp [ofFields, ofFields3, encW_4, wellFormed] at h ⊢

theorem stw x0 x1 x2 x3 : Statement (.stw x0 x1 x2 x3) := by
  intro f h hf
  obtain rfl := Option.some.inj hf
  simp [ofFields, ofFields3, encW_4, wellFormed] at h ⊢

theorem fence x0 x1 : Statement (.fence x0 x1) := by
  intro f h hf
  obtain rfl := Option.some.inj hf
  simp [ofFields, ofFields3, low_bits, wellFormed] at h ⊢

theorem lbLoad x0 x1 x2 x3 x4 : Statement (.lbLoad x0 x1 x2 x3 x4) := by
  intro f h hf
  obtain rfl := Option.some.inj hf
  simp [ofFields, ofFields3, low_bits, wellFormed] at h ⊢

theorem lbStore x0 x1 x2 x3 x4 : Statement (.lbStore x0 x1 x2 x3 x4) := by
  intro f h hf
  obtain rfl := Option.some.inj hf
  simp [ofFields, ofFields3, wellFormed] at h ⊢
  exact (by decide : ∀ x : BitVec 3, (x.setWidth 4 ||| 8#4).extractLsb' 0 3 = x) x1

theorem msg x0 x1 x2 x3 x4 : Statement (.msg x0 x1 x2 x3 x4) := by
  intro f h hf
  obtain rfl := Option.some.inj hf
  simp [ofFields, ofFields3, parseMemS, parseMemS_fields, wellFormed] at h ⊢

theorem msgZ x0 x1 x2 x3 : Statement (.msgZ x0 x1 x2 x3) := by
  intro f h hf
  obtain rfl := Option.some.inj hf
  simp [ofFields, ofFields3, wellFormed] at h ⊢

theorem wptSet x0 x1 x2 x3 x4 : Statement (.wptSet x0 x1 x2 x3 x4) := by
  intro f h hf
  obtain rfl := Option.some.inj hf
  simp [ofFields, ofFields3, low_bits, wellFormed] at h ⊢

theorem wptClr x0 x1 : Statement (.wptClr x0 x1) := by
  intro f h hf
  obtain rfl := Option.some.inj hf
  simp [ofFields, ofFields3, low_bits, wellFormed] at h ⊢

theorem wptRd x0 x1 x2 : Statement (.wptRd x0 x1 x2) := by
  intro f h hf
  obtain rfl := Option.some.inj hf
  simp [ofFields, ofFields3, low_bits, wellFormed] at h ⊢

theorem vadd x0 x1 x2 x3 x4 : Statement (.vadd x0 x1 x2 x3 x4) := by
  intro f h hf
  obtain rfl := Option.some.inj hf
  simp [ofFields, ofFields4, parseVOps, decV_encV, bits_one, wellFormed] at h ⊢
  exact optW_fields x4 _ (by simp [h, Bool.decide_and, beq_eq_decide])

theorem vsub x0 x1 x2 x3 x4 : Statement (.vsub x0 x1 x2 x3 x4) := by
  intro f h hf
  obtain rfl := Option.some.inj hf
  simp [ofFields, ofFields4, parseVOps, decV_encV, bits_one, wellFormed] at h ⊢
  exact optW_fields x4 _ (by simp [h, Bool.decide_and, beq_eq_decide])

theorem vmul x0 x1 x2 x3 x4 : Statement (.vmul x0 x1 x2 x3 x4) := by
  intro f h hf
  obtain rfl := Option.some.inj hf
  simp [ofFields, ofFields4, parseVOps, decV_encV, bits_one, wellFormed] at h ⊢
  exact optW_fields x4 _ (by simp [h, Bool.decide_and, beq_eq_decide])

theorem vfma x0 x1 x2 x3 x4 : Statement (.vfma x0 x1 x2 x3 x4) := by
  intro f h hf
  obtain rfl := Option.some.inj hf
  simp [ofFields, ofFields4, parseVOps, decV_encV, wellFormed] at h ⊢

theorem vmin x0 x1 : Statement (.vmin x0 x1) := by
  intro f h hf
  obtain rfl := Option.some.inj hf
  simp [ofFields, ofFields4, parseVOps, decV_encV, wellFormed] at h ⊢

theorem vmax x0 x1 : Statement (.vmax x0 x1) := by
  intro f h hf
  obtain rfl := Option.some.inj hf
  simp [ofFields, ofFields4, parseVOps, decV_encV, wellFormed] at h ⊢

theorem vdiv x0 x1 x2 : Statement (.vdiv x0 x1 x2) := by
  intro f h hf
  obtain rfl := Option.some.inj hf
  simp [ofFields, ofFields4, parseVOps, decV_encV, wellFormed] at h ⊢

theorem vsqrt x0 x1 x2 x3 : Statement (.vsqrt x0 x1 x2 x3) := by
  intro f h hf
  obtain rfl := Option.some.inj hf
  simp [ofFields, ofFields4, decV_encV, wellFormed] at h ⊢

theorem vrsq x0 x1 x2 x3 : Statement (.vrsq x0 x1 x2 x3) := by
  intro f h hf
  obtain rfl := Option.some.inj hf
  simp [ofFields, ofFields4, decV_encV, wellFormed] at h ⊢

theorem vexp2 x0 x1 x2 x3 : Statement (.vexp2 x0 x1 x2 x3) := by
  intro f h hf
  obtain rfl := Option.some.inj hf
  simp [ofFields, ofFields4, decV_encV, wellFormed] at h ⊢

theorem vlog2 x0 x1 x2 x3 : Statement (.vlog2 x0 x1 x2 x3) := by
  intro f h hf
  obtain rfl := Option.some.inj hf
  simp [ofFields, ofFields4, decV_encV, wellFormed] at h ⊢

theorem vcmp x0 x1 x2 : Statement (.vcmp x0 x1 x2) := by
  intro f h hf
  obtain rfl := Option.some.inj hf
  simp [ofFields, ofFields4, parseVOps, decV_encV, wellFormed] at h ⊢

theorem vsel x0 x1 x2 : Statement (.vsel x0 x1 x2) := by
  intro f h hf
  obtain rfl := Option.some.inj hf
  simp [ofFields, ofFields4, parseVOps, decV_encV, wellFormed] at h ⊢

theorem vcvt x0 x1 x2 x3 x4 x5 x6 x7 x8 : Statement (.vcvt x0 x1 x2 x3 x4 x5 x6 x7 x8) := by
  intro f h hf
  obtain rfl := Option.some.inj hf
  simp [ofFields, ofFields4, decV_encV, or_low, or_high, wellFormed] at h ⊢
  exact ⟨optV_fields x7 _ (by simp [h, beq_eq_decide]), optW_fields x8 _ (by simp [h, Bool.decide_and, beq_eq_decide])⟩

theorem vcvtXs x0 x1 x2 x3 x4 x5 x6 x7 : Statement (.vcvtXs x0 x1 x2 x3 x4 x5 x6 x7) := by
  intro f h hf
  obtain rfl := Option.some.inj hf
  simp [ofFields, ofFields4, decV_encV, or_low, or_high, wellFormed] at h ⊢
  exact optW_fields x7 _ (by simp [h, Bool.decide_and, beq_eq_decide])

theorem vqnt x0 x1 x2 : Statement (.vqnt x0 x1 x2) := by
  intro f h hf
  obtain rfl := Option.some.inj hf
  simp [ofFields, ofFields4, decV_encV, encW_4, wellFormed] at h ⊢

theorem vqntS x0 x1 x2 : Statement (.vqntS x0 x1 x2) := by
  intro f h hf
  obtain rfl := Option.some.inj hf
  simp [ofFields, ofFields4, encW_4, wellFormed] at h ⊢

theorem vdq x0 x1 x2 x3 x4 : Statement (.vdq x0 x1 x2 x3 x4) := by
  intro f h hf
  obtain rfl := Option.some.inj hf
  simp [ofFields, ofFields4, decV_encV, low_bits, wellFormed] at h ⊢

theorem vredSum x0 x1 x2 x3 x4 : Statement (.vredSum x0 x1 x2 x3 x4) := by
  intro f h hf
  obtain rfl := Option.some.inj hf
  simp [ofFields, ofFields5, decV_encV, wellFormed] at h ⊢

theorem vredMin x0 x1 x2 x3 : Statement (.vredMin x0 x1 x2 x3) := by
  intro f h hf
  obtain rfl := Option.some.inj hf
  simp [ofFields, ofFields5, decV_encV, wellFormed] at h ⊢

theorem vredMax x0 x1 x2 x3 : Statement (.vredMax x0 x1 x2 x3) := by
  intro f h hf
  obtain rfl := Option.some.inj hf
  simp [ofFields, ofFields5, decV_encV, wellFormed] at h ⊢

theorem vredAmax x0 x1 x2 x3 : Statement (.vredAmax x0 x1 x2 x3) := by
  intro f h hf
  obtain rfl := Option.some.inj hf
  simp [ofFields, ofFields5, decV_encV, wellFormed] at h ⊢

theorem vperm x0 x1 : Statement (.vperm x0 x1) := by
  intro f h hf
  obtain rfl := Option.some.inj hf
  simp [ofFields, ofFields5, parseVOps, decV_encV, wellFormed] at h ⊢

theorem vshuf x0 x1 x2 x3 x4 x5 x6 : Statement (.vshuf x0 x1 x2 x3 x4 x5 x6) := by
  intro f h hf
  obtain rfl := Option.some.inj hf
  simp [ofFields, ofFields5, decV_encV, low_bits, wellFormed] at h ⊢
  exact optV_fields x5 _ h.1.2

theorem vbcast x0 x1 x2 x3 : Statement (.vbcast x0 x1 x2 x3) := by
  intro f h hf
  obtain rfl := Option.some.inj hf
  simp [ofFields, ofFields5, decV_encV, wellFormed] at h ⊢

theorem vbcastLane x0 x1 x2 x3 x4 : Statement (.vbcastLane x0 x1 x2 x3 x4) := by
  intro f h hf
  obtain rfl := Option.some.inj hf
  simp [ofFields, ofFields5, decV_encV, low_bits, wellFormed] at h ⊢

theorem vlogic x0 x1 x2 x3 x4 : Statement (.vlogic x0 x1 x2 x3 x4) := by
  intro f h hf
  obtain rfl := Option.some.inj hf
  simp [ofFields, ofFields5, decV_encV, wellFormed] at h ⊢

theorem vshift x0 x1 x2 x3 x4 x5 : Statement (.vshift x0 x1 x2 x3 x4 x5) := by
  intro f h hf
  obtain rfl := Option.some.inj hf
  simp [ofFields, ofFields5, parseShB, decV_encV, wellFormed] at h ⊢
  have lo : ∀ x : BitVec 2, (x.setWidth 4 ||| 0#4).extractLsb' 0 2 = x ∧ (x.setWidth 4 ||| 4#4).extractLsb' 0 2 = x := by decide
  cases x5 with
  | reg b => simp [shiftBFn, shiftBB, shiftBE, decV_encV, low_bits]
  | imm k => simp [shiftBFn, shiftBS, (lo x1).2]

theorem vmovgGet x0 x1 x2 x3 x4 : Statement (.vmovgGet x0 x1 x2 x3 x4) := by
  intro f h hf
  obtain rfl := Option.some.inj hf
  simp [ofFields, ofFields5, decV_encV, low_bits, wellFormed] at h ⊢

theorem vmovgPut x0 x1 x2 x3 x4 : Statement (.vmovgPut x0 x1 x2 x3 x4) := by
  intro f h hf
  obtain rfl := Option.some.inj hf
  simp [ofFields, ofFields5, encW_4, low_bits, wellFormed] at h ⊢

theorem vrng x0 x1 x2 x3 x4 : Statement (.vrng x0 x1 x2 x3 x4) := by
  intro f h hf
  obtain rfl := Option.some.inj hf
  simp [ofFields, ofFields5, decV_encV, bits_one, wellFormed] at h ⊢

theorem vla x0 x1 x2 x3 : Statement (.vla x0 x1 x2 x3) := by
  intro f h hf
  obtain rfl := Option.some.inj hf
  simp [ofFields, ofFields5, decV_encV, wellFormed] at h ⊢

theorem vlaP x0 x1 x2 x3 x4 : Statement (.vlaP x0 x1 x2 x3 x4) := by
  intro f h hf
  obtain rfl := Option.some.inj hf
  simp [ofFields, ofFields5, decV_encV, wellFormed] at h ⊢

theorem vlard x0 x1 x2 x3 x4 x5 : Statement (.vlard x0 x1 x2 x3 x4 x5) := by
  intro f h hf
  obtain rfl := Option.some.inj hf
  simp [ofFields, ofFields5, decV_encV, wellFormed] at h ⊢

theorem mma x0 x1 x2 x3 : Statement (.mma x0 x1 x2 x3) := by
  intro f h hf
  obtain rfl := Option.some.inj hf
  simp [ofFields, ofFields6, bits_one, low_bits, wellFormed] at h ⊢

theorem mmam x0 x1 x2 x3 x4 : Statement (.mmam x0 x1 x2 x3 x4) := by
  intro f h hf
  obtain rfl := Option.some.inj hf
  simp [ofFields, ofFields6, parseMask, bits_one, low_bits, wellFormed] at h ⊢
  cases x4 with
  | imm m => simp [maskC, maskImm]
  | reg c =>
    have hc : c.r.setWidth 6 ≠ 0#6 := by
      intro e
      have := (by decide : ∀ r : BitVec 5, r.setWidth 6 = 0#6 → r = 0#5) c.r e
      simp_all
    simp [maskC, maskE, hc]

theorem saa x0 x1 x2 x3 x4 x5 x6 : Statement (.saa x0 x1 x2 x3 x4 x5 x6) := by
  intro f h hf
  obtain rfl := Option.some.inj hf
  simp [ofFields, ofFields6, parseScale, or_low, or_high, wellFormed] at h ⊢
  cases x4 with
  | one => simp [scaleA]
  | reg v =>
    have hv : ∀ r : VReg, encV r ≠ 0#6 := by
      intro r
      cases r with
      | w k => revert k; decide
      | q k => revert k; decide
    simp [scaleA, scaleE, hv, decV_encV]

theorem acc x0 x1 x2 x3 x4 x5 : Statement (.acc x0 x1 x2 x3 x4 x5) := by
  intro f h hf
  obtain rfl := Option.some.inj hf
  simp [ofFields, ofFields6, or_low, or_high, wellFormed] at h ⊢

theorem lard x0 x1 x2 x3 x4 x5 x6 : Statement (.lard x0 x1 x2 x3 x4 x5 x6) := by
  intro f h hf
  obtain rfl := Option.some.inj hf
  simp [ofFields, ofFields6, bits_one, high_bits, wellFormed] at h ⊢

theorem lazero x0 x1 x2 : Statement (.lazero x0 x1 x2) := by
  intro f h hf
  obtain rfl := Option.some.inj hf
  simp [ofFields, ofFields6, high_bits, wellFormed] at h ⊢

theorem drain x0 x1 x2 x3 x4 x5 : Statement (.drain x0 x1 x2 x3 x4 x5) := by
  intro f h hf
  obtain rfl := Option.some.inj hf
  simp [ofFields, ofFields6, bits_one, wellFormed] at h ⊢

theorem ptmovSt x0 x1 x2 x3 : Statement (.ptmovSt x0 x1 x2 x3) := by
  intro f h hf
  obtain rfl := Option.some.inj hf
  simp [ofFields, ofFields6, low_bits, wellFormed] at h ⊢

theorem ptmovLd x0 x1 x2 x3 : Statement (.ptmovLd x0 x1 x2 x3) := by
  intro f h hf
  obtain rfl := Option.some.inj hf
  simp [ofFields, ofFields6, low_bits, wellFormed] at h ⊢

theorem ptmovGet x0 x1 x2 x3 x4 : Statement (.ptmovGet x0 x1 x2 x3 x4) := by
  intro f h hf
  obtain rfl := Option.some.inj hf
  simp [ofFields, ofFields6, encW_4, or_low, or_high, wellFormed] at h ⊢

theorem mrepA x0 x1 x2 : Statement (.mrepA x0 x1 x2) := by
  intro f h hf
  obtain rfl := Option.some.inj hf
  simp [ofFields, ofFields6, or_low, or_high, wellFormed] at h ⊢

theorem mrepB x0 x1 x2 : Statement (.mrepB x0 x1 x2) := by
  intro f h hf
  obtain rfl := Option.some.inj hf
  simp [ofFields, ofFields6, or_low, or_high, wellFormed] at h ⊢

theorem rchkRd x0 x1 : Statement (.rchkRd x0 x1) := by
  intro f h hf
  obtain rfl := Option.some.inj hf
  simp [ofFields, ofFields6, wellFormed] at h ⊢

theorem rchkClr x0 x1 : Statement (.rchkClr x0 x1) := by
  intro f h hf
  obtain rfl := Option.some.inj hf
  simp [ofFields, ofFields6, wellFormed] at h ⊢

theorem rchkInj x0 x1 : Statement (.rchkInj x0 x1) := by
  intro f h hf
  obtain rfl := Option.some.inj hf
  simp [ofFields, ofFields6, low_bits, wellFormed] at h ⊢

theorem mwaitArr x0 : Statement (.mwaitArr x0) := by
  intro f h hf
  obtain rfl := Option.some.inj hf
  simp [ofFields, ofFields6, wellFormed] at h ⊢

theorem mwaitAdd x0 : Statement (.mwaitAdd x0) := by
  intro f h hf
  obtain rfl := Option.some.inj hf
  simp [ofFields, ofFields6, wellFormed] at h ⊢

theorem mwaitAll x0 : Statement (.mwaitAll x0) := by
  intro f h hf
  obtain rfl := Option.some.inj hf
  simp [ofFields, ofFields6, wellFormed] at h ⊢

theorem nrmCur x0 x1 x2 : Statement (.nrmCur x0 x1 x2) := by
  intro f h hf
  obtain rfl := Option.some.inj hf
  simp [ofFields, ofFields7, wellFormed] at h ⊢

theorem nrmSt x0 x1 x2 x3 : Statement (.nrmSt x0 x1 x2 x3) := by
  intro f h hf
  obtain rfl := Option.some.inj hf
  simp [ofFields, ofFields7, wellFormed] at h ⊢

theorem nrmLd x0 x1 x2 x3 : Statement (.nrmLd x0 x1 x2 x3) := by
  intro f h hf
  obtain rfl := Option.some.inj hf
  simp [ofFields, ofFields7, wellFormed] at h ⊢

theorem atb x0 x1 x2 x3 x4 : Statement (.atb x0 x1 x2 x3 x4) := by
  intro f h hf
  obtain rfl := Option.some.inj hf
  simp [ofFields, ofFields7, wellFormed] at h ⊢

theorem smp x0 x1 x2 x3 x4 x5 x6 : Statement (.smp x0 x1 x2 x3 x4 x5 x6) := by
  intro f h hf
  obtain rfl := Option.some.inj hf
  simp [ofFields, ofFields7, bits_one, low_bits, wellFormed] at h ⊢

theorem smpl x0 x1 x2 x3 x4 x5 x6 x7 : Statement (.smpl x0 x1 x2 x3 x4 x5 x6 x7) := by
  intro f h hf
  obtain rfl := Option.some.inj hf
  simp [ofFields, ofFields7, bits_one, low_bits, wellFormed] at h ⊢

theorem svarUp x0 x1 x2 : Statement (.svarUp x0 x1 x2) := by
  intro f h hf
  obtain rfl := Option.some.inj hf
  simp [ofFields, ofFields7, or_low, or_high, wellFormed] at h ⊢

theorem svarRd x0 x1 : Statement (.svarRd x0 x1) := by
  intro f h hf
  obtain rfl := Option.some.inj hf
  simp [ofFields, ofFields7, wellFormed] at h ⊢

theorem svarInv x0 x1 : Statement (.svarInv x0 x1) := by
  intro f h hf
  obtain rfl := Option.some.inj hf
  simp [ofFields, ofFields7, wellFormed] at h ⊢

theorem svarSt x0 x1 : Statement (.svarSt x0 x1) := by
  intro f h hf
  obtain rfl := Option.some.inj hf
  simp [ofFields, ofFields7, wellFormed] at h ⊢

theorem svarLd x0 x1 : Statement (.svarLd x0 x1) := by
  intro f h hf
  obtain rfl := Option.some.inj hf
  simp [ofFields, ofFields7, wellFormed] at h ⊢

theorem sclrVar x0 : Statement (.sclrVar x0) := by
  intro f h hf
  obtain rfl := Option.some.inj hf
  simp [ofFields, ofFields7, wellFormed] at h ⊢

theorem sclrErr x0 : Statement (.sclrErr x0) := by
  intro f h hf
  obtain rfl := Option.some.inj hf
  simp [ofFields, ofFields7, wellFormed] at h ⊢

theorem sclrAll x0 : Statement (.sclrAll x0) := by
  intro f h hf
  obtain rfl := Option.some.inj hf
  simp [ofFields, ofFields7, wellFormed] at h ⊢

theorem sdraw x0 x1 x2 x3 x4 x5 : Statement (.sdraw x0 x1 x2 x3 x4 x5) := by
  intro f h hf
  obtain rfl := Option.some.inj hf
  simp [ofFields, ofFields7, encW_4, bits_one, wellFormed] at h ⊢

theorem sbindIn x0 x1 x2 x3 x4 x5 x6 x7 : Statement (.sbindIn x0 x1 x2 x3 x4 x5 x6 x7) := by
  intro f h hf
  obtain rfl := Option.some.inj hf
  simp [ofFields, ofFields7, encQ_3, bits_one, wellFormed] at h ⊢

theorem sbindOut x0 x1 x2 x3 x4 x5 x6 x7 : Statement (.sbindOut x0 x1 x2 x3 x4 x5 x6 x7) := by
  intro f h hf
  obtain rfl := Option.some.inj hf
  simp [ofFields, ofFields7, encQ_3, bits_one, wellFormed] at h ⊢

theorem sbindFa x0 x1 x2 x3 x4 x5 x6 x7 : Statement (.sbindFa x0 x1 x2 x3 x4 x5 x6 x7) := by
  intro f h hf
  obtain rfl := Option.some.inj hf
  simp [ofFields, ofFields7, bits_one, wellFormed] at h ⊢

theorem sbindFb x0 x1 x2 x3 x4 x5 x6 x7 : Statement (.sbindFb x0 x1 x2 x3 x4 x5 x6 x7) := by
  intro f h hf
  obtain rfl := Option.some.inj hf
  simp [ofFields, ofFields7, bits_one, wellFormed] at h ⊢

theorem sunbind x0 x1 : Statement (.sunbind x0 x1) := by
  intro f h hf
  obtain rfl := Option.some.inj hf
  simp [ofFields, ofFields7, encQ_3, wellFormed] at h ⊢

theorem sunbindFa x0 : Statement (.sunbindFa x0) := by
  intro f h hf
  obtain rfl := Option.some.inj hf
  simp [ofFields, ofFields7, wellFormed] at h ⊢

theorem sunbindFb x0 : Statement (.sunbindFb x0) := by
  intro f h hf
  obtain rfl := Option.some.inj hf
  simp [ofFields, ofFields7, wellFormed] at h ⊢

theorem sunbindPos x0 x1 x2 : Statement (.sunbindPos x0 x1 x2) := by
  intro f h hf
  obtain rfl := Option.some.inj hf
  simp [ofFields, ofFields7, encQ_3, wellFormed] at h ⊢

theorem sunbindPosa x0 x1 : Statement (.sunbindPosa x0 x1) := by
  intro f h hf
  obtain rfl := Option.some.inj hf
  simp [ofFields, ofFields7, wellFormed] at h ⊢

theorem sunbindPosb x0 x1 : Statement (.sunbindPosb x0 x1) := by
  intro f h hf
  obtain rfl := Option.some.inj hf
  simp [ofFields, ofFields7, wellFormed] at h ⊢

theorem cpy x0 x1 x2 x3 x4 x5 x6 x7 x8 : Statement (.cpy x0 x1 x2 x3 x4 x5 x6 x7 x8) := by
  intro f h hf
  obtain rfl := Option.some.inj hf
  simp [ofFields, ofFields7, or_low, or_high, wellFormed] at h ⊢

theorem cpym x0 x1 x2 x3 x4 x5 x6 x7 x8 x9 x10 : Statement (.cpym x0 x1 x2 x3 x4 x5 x6 x7 x8 x9 x10) := by
  intro f h hf
  obtain rfl := Option.some.inj hf
  simp [ofFields, ofFields7, bits_one, wellFormed] at h ⊢
  refine ⟨?_, ?_, ?_⟩
  all_goals
    apply BitVec.eq_of_getLsbD_eq
    intro i hi
    have : i = 0 ∨ i = 1 ∨ i = 2 ∨ i = 3 := by omega
    rcases this with rfl | rfl | rfl | rfl <;> simp_all [bit64, BitVec.getLsbD_of_ge]

theorem sxwSet x0 x1 x2 : Statement (.sxwSet x0 x1 x2) := by
  intro f h hf
  obtain rfl := Option.some.inj hf
  simp [ofFields, ofFields7, low_bits, wellFormed] at h ⊢

theorem sxwClr x0 x1 : Statement (.sxwClr x0 x1) := by
  intro f h hf
  obtain rfl := Option.some.inj hf
  simp [ofFields, ofFields7, low_bits, wellFormed] at h ⊢

theorem sxwRd x0 x1 x2 : Statement (.sxwRd x0 x1 x2) := by
  intro f h hf
  obtain rfl := Option.some.inj hf
  simp [ofFields, ofFields7, low_bits, wellFormed] at h ⊢

theorem cntSet x0 x1 x2 x3 : Statement (.cntSet x0 x1 x2 x3) := by
  intro f h hf
  obtain rfl := Option.some.inj hf
  simp [ofFields, ofFields7, or_low, or_high, wellFormed] at h ⊢

theorem cntAdd x0 x1 x2 x3 : Statement (.cntAdd x0 x1 x2 x3) := by
  intro f h hf
  obtain rfl := Option.some.inj hf
  simp [ofFields, ofFields7, or_low, or_high, wellFormed] at h ⊢

theorem cntRd x0 x1 x2 : Statement (.cntRd x0 x1 x2) := by
  intro f h hf
  obtain rfl := Option.some.inj hf
  simp [ofFields, ofFields7, low_bits, wellFormed] at h ⊢

theorem sgtSet x0 x1 x2 : Statement (.sgtSet x0 x1 x2) := by
  intro f h hf
  obtain rfl := Option.some.inj hf
  simp [ofFields, ofFields7, low_bits, wellFormed] at h ⊢

theorem sgtGo x0 x1 x2 x3 x4 x5 x6 : Statement (.sgtGo x0 x1 x2 x3 x4 x5 x6) := by
  intro f h hf
  obtain rfl := Option.some.inj hf
  simp [ofFields, ofFields7, or_low, or_high, wellFormed] at h ⊢

theorem sgtRd x0 x1 x2 : Statement (.sgtRd x0 x1 x2) := by
  intro f h hf
  obtain rfl := Option.some.inj hf
  simp [ofFields, ofFields7, low_bits, wellFormed] at h ⊢

theorem sgtFlt x0 x1 x2 : Statement (.sgtFlt x0 x1 x2) := by
  intro f h hf
  obtain rfl := Option.some.inj hf
  simp [ofFields, ofFields7, low_bits, wellFormed] at h ⊢

theorem engSt x0 x1 : Statement (.engSt x0 x1) := by
  intro f h hf
  obtain rfl := Option.some.inj hf
  simp [ofFields, ofFields7, wellFormed] at h ⊢

theorem engFlt x0 x1 : Statement (.engFlt x0 x1) := by
  intro f h hf
  obtain rfl := Option.some.inj hf
  simp [ofFields, ofFields7, wellFormed] at h ⊢

theorem engCrc x0 x1 : Statement (.engCrc x0 x1) := by
  intro f h hf
  obtain rfl := Option.some.inj hf
  simp [ofFields, ofFields7, wellFormed] at h ⊢

theorem engQ x0 : Statement (.engQ x0) := by
  intro f h hf
  obtain rfl := Option.some.inj hf
  simp [ofFields, ofFields7, wellFormed] at h ⊢

theorem bar x0 x1 : Statement (.bar x0 x1) := by
  intro f h hf
  obtain rfl := Option.some.inj hf
  simp [ofFields, ofFields8, low_bits, wellFormed] at h ⊢

theorem barv x0 x1 x2 x3 : Statement (.barv x0 x1 x2 x3) := by
  intro f h hf
  obtain rfl := Option.some.inj hf
  simp [ofFields, ofFields8, low_bits, wellFormed] at h ⊢

theorem bara x0 x1 x2 : Statement (.bara x0 x1 x2) := by
  intro f h hf
  obtain rfl := Option.some.inj hf
  simp [ofFields, ofFields8, low_bits, wellFormed] at h ⊢

theorem baraN x0 x1 : Statement (.baraN x0 x1) := by
  intro f h hf
  obtain rfl := Option.some.inj hf
  simp [ofFields, ofFields8, low_bits, wellFormed] at h ⊢

theorem waitb x0 x1 x2 : Statement (.waitb x0 x1 x2) := by
  intro f h hf
  obtain rfl := Option.some.inj hf
  simp [ofFields, ofFields8, low_bits, wellFormed] at h ⊢

theorem vabort x0 x1 : Statement (.vabort x0 x1) := by
  intro f h hf
  obtain rfl := Option.some.inj hf
  simp [ofFields, ofFields8, low_bits, wellFormed] at h ⊢

theorem bcfg x0 x1 x2 x3 : Statement (.bcfg x0 x1 x2 x3) := by
  intro f h hf
  obtain rfl := Option.some.inj hf
  simp [ofFields, ofFields8, low_bits, wellFormed] at h ⊢

theorem bred x0 x1 x2 : Statement (.bred x0 x1 x2) := by
  intro f h hf
  obtain rfl := Option.some.inj hf
  simp [ofFields, ofFields8, low_bits, wellFormed] at h ⊢

theorem bredCfg x0 x1 x2 : Statement (.bredCfg x0 x1 x2) := by
  intro f h hf
  obtain rfl := Option.some.inj hf
  simp [ofFields, ofFields8, low_bits, wellFormed] at h ⊢

theorem bredSt x0 x1 : Statement (.bredSt x0 x1) := by
  intro f h hf
  obtain rfl := Option.some.inj hf
  simp [ofFields, ofFields8, wellFormed] at h ⊢

theorem glchk x0 x1 : Statement (.glchk x0 x1) := by
  intro f h hf
  obtain rfl := Option.some.inj hf
  simp [ofFields, ofFields8, wellFormed] at h ⊢

theorem coll x0 x1 x2 : Statement (.coll x0 x1 x2) := by
  intro f h hf
  obtain rfl := Option.some.inj hf
  simp [ofFields, ofFields9, low_bits, wellFormed] at h ⊢

theorem waitp x0 x1 x2 x3 x4 x5 : Statement (.waitp x0 x1 x2 x3 x4 x5) := by
  intro f h hf
  obtain rfl := Option.some.inj hf
  simp [ofFields, ofFields9, low_bits, or_low, or_high, wellFormed] at h ⊢

theorem pcan x0 x1 x2 : Statement (.pcan x0 x1 x2) := by
  intro f h hf
  obtain rfl := Option.some.inj hf
  simp [ofFields, ofFields9, or_low, or_high, wellFormed] at h ⊢

theorem prdF32 x0 x1 x2 x3 x4 : Statement (.prdF32 x0 x1 x2 x3 x4) := by
  intro f h hf
  obtain rfl := Option.some.inj hf
  simp [ofFields, ofFields9, encW_4, or_low, or_high, wellFormed] at h ⊢

theorem prdLa x0 x1 x2 x3 x4 : Statement (.prdLa x0 x1 x2 x3 x4) := by
  intro f h hf
  obtain rfl := Option.some.inj hf
  simp [ofFields, ofFields9, or_low, or_high, wellFormed] at h ⊢

theorem cstat x0 x1 x2 : Statement (.cstat x0 x1 x2) := by
  intro f h hf
  obtain rfl := Option.some.inj hf
  simp [ofFields, ofFields9, low_bits, wellFormed] at h ⊢

theorem cstatPc x0 x1 x2 : Statement (.cstatPc x0 x1 x2) := by
  intro f h hf
  obtain rfl := Option.some.inj hf
  simp [ofFields, ofFields9, wellFormed] at h ⊢

theorem start x0 x1 x2 x3 : Statement (.start x0 x1 x2 x3) := by
  intro f h hf
  obtain rfl := Option.some.inj hf
  simp [ofFields, ofFields9, wellFormed] at h ⊢

theorem hstop x0 x1 : Statement (.hstop x0 x1) := by
  intro f h hf
  obtain rfl := Option.some.inj hf
  simp [ofFields, ofFields9, wellFormed] at h ⊢

theorem hstopAll x0 : Statement (.hstopAll x0) := by
  intro f h hf
  obtain rfl := Option.some.inj hf
  simp [ofFields, ofFields9, wellFormed] at h ⊢

theorem enq x0 x1 x2 x3 : Statement (.enq x0 x1 x2 x3) := by
  intro f h hf
  obtain rfl := Option.some.inj hf
  simp [ofFields, ofFields9, low_bits, wellFormed] at h ⊢

theorem ccnt x0 x1 x2 x3 x4 : Statement (.ccnt x0 x1 x2 x3 x4) := by
  intro f h hf
  obtain rfl := Option.some.inj hf
  simp [ofFields, ofFields9, low_bits, wellFormed] at h ⊢
  have := x1.isLt
  omega

theorem ccntQ x0 x1 x2 : Statement (.ccntQ x0 x1 x2) := by
  intro f h hf
  obtain rfl := Option.some.inj hf
  simp [ofFields, ofFields9, low_bits, wellFormed] at h ⊢

theorem cancel x0 x1 x2 x3 x4 : Statement (.cancel x0 x1 x2 x3 x4) := by
  intro f h hf
  obtain rfl := Option.some.inj hf
  simp [ofFields, ofFields9, low_bits, wellFormed] at h ⊢

theorem vtidShape x0 x1 : Statement (.vtidShape x0 x1) := by
  intro f h hf
  obtain rfl := Option.some.inj hf
  simp [ofFields, ofFields9, wellFormed] at h ⊢

theorem vtidOrd x0 x1 x2 : Statement (.vtidOrd x0 x1 x2) := by
  intro f h hf
  obtain rfl := Option.some.inj hf
  simp [ofFields, ofFields9, wellFormed] at h ⊢

theorem vtidIdx x0 x1 x2 : Statement (.vtidIdx x0 x1 x2) := by
  intro f h hf
  obtain rfl := Option.some.inj hf
  simp [ofFields, ofFields9, wellFormed] at h ⊢

theorem vtidHost x0 x1 x2 : Statement (.vtidHost x0 x1 x2) := by
  intro f h hf
  obtain rfl := Option.some.inj hf
  simp [ofFields, ofFields9, wellFormed] at h ⊢

theorem offer x0 x1 : Statement (.offer x0 x1) := by
  intro f h hf
  obtain rfl := Option.some.inj hf
  simp [ofFields, ofFields9, wellFormed] at h ⊢

theorem offerRd x0 x1 : Statement (.offerRd x0 x1) := by
  intro f h hf
  obtain rfl := Option.some.inj hf
  simp [ofFields, ofFields9, wellFormed] at h ⊢

theorem imp x0 x1 : Statement (.imp x0 x1) := by
  intro f h hf
  obtain rfl := Option.some.inj hf
  simp [ofFields, ofFieldsA, wellFormed] at h ⊢

theorem offl x0 x1 x2 x3 x4 : Statement (.offl x0 x1 x2 x3 x4) := by
  intro f h hf
  obtain rfl := Option.some.inj hf
  simp [ofFields, ofFieldsA, wellFormed] at h ⊢

theorem retn x0 x1 x2 x3 x4 : Statement (.retn x0 x1 x2 x3 x4) := by
  intro f h hf
  obtain rfl := Option.some.inj hf
  simp [ofFields, ofFieldsA, wellFormed] at h ⊢

theorem pstat x0 x1 x2 : Statement (.pstat x0 x1 x2) := by
  intro f h hf
  obtain rfl := Option.some.inj hf
  simp [ofFields, ofFieldsA, wellFormed] at h ⊢

theorem pstatDev x0 x1 : Statement (.pstatDev x0 x1) := by
  intro f h hf
  obtain rfl := Option.some.inj hf
  simp [ofFields, ofFieldsA, wellFormed] at h ⊢

theorem pin x0 x1 x2 : Statement (.pin x0 x1 x2) := by
  intro f h hf
  obtain rfl := Option.some.inj hf
  simp [ofFields, ofFieldsA, wellFormed] at h ⊢

theorem pinClr x0 x1 x2 : Statement (.pinClr x0 x1 x2) := by
  intro f h hf
  obtain rfl := Option.some.inj hf
  simp [ofFields, ofFieldsA, wellFormed] at h ⊢

theorem pinUns x0 x1 x2 : Statement (.pinUns x0 x1 x2) := by
  intro f h hf
  obtain rfl := Option.some.inj hf
  simp [ofFields, ofFieldsA, wellFormed] at h ⊢

theorem ckptGo x0 x1 x2 : Statement (.ckptGo x0 x1 x2) := by
  intro f h hf
  obtain rfl := Option.some.inj hf
  simp [ofFields, ofFieldsA, wellFormed] at h ⊢

theorem ckptRd x0 x1 : Statement (.ckptRd x0 x1) := by
  intro f h hf
  obtain rfl := Option.some.inj hf
  simp [ofFields, ofFieldsA, wellFormed] at h ⊢

theorem lnkrd x0 x1 x2 x3 : Statement (.lnkrd x0 x1 x2 x3) := by
  intro f h hf
  obtain rfl := Option.some.inj hf
  simp [ofFields, ofFieldsA, low_bits, wellFormed] at h ⊢

theorem lnkset x0 x1 x2 x3 : Statement (.lnkset x0 x1 x2 x3) := by
  intro f h hf
  obtain rfl := Option.some.inj hf
  simp [ofFields, ofFieldsA, wellFormed] at h ⊢

theorem lnksetUp x0 x1 x2 : Statement (.lnksetUp x0 x1 x2) := by
  intro f h hf
  obtain rfl := Option.some.inj hf
  simp [ofFields, ofFieldsA, wellFormed] at h ⊢

theorem lnksetDown x0 x1 x2 : Statement (.lnksetDown x0 x1 x2) := by
  intro f h hf
  obtain rfl := Option.some.inj hf
  simp [ofFields, ofFieldsA, wellFormed] at h ⊢

theorem lnkret x0 x1 x2 x3 : Statement (.lnkret x0 x1 x2 x3) := by
  intro f h hf
  obtain rfl := Option.some.inj hf
  simp [ofFields, ofFieldsA, low_bits, wellFormed] at h ⊢

theorem trap x0 x1 : Statement (.trap x0 x1) := by
  intro f h hf
  obtain rfl := Option.some.inj hf
  simp [ofFields, ofFieldsB, low_bits, wellFormed] at h ⊢

theorem tret x0 : Statement (.tret x0) := by
  intro f h hf
  obtain rfl := Option.some.inj hf
  simp [ofFields, ofFieldsB, wellFormed] at h ⊢

theorem sys x0 x1 x2 x3 : Statement (.sys x0 x1 x2 x3) := by
  intro f h hf
  obtain rfl := Option.some.inj hf
  simp [ofFields, ofFieldsB, low_bits, wellFormed] at h ⊢

theorem ctxsRd x0 x1 x2 x3 : Statement (.ctxsRd x0 x1 x2 x3) := by
  intro f h hf
  obtain rfl := Option.some.inj hf
  simp [ofFields, ofFieldsB, bits_one, wellFormed] at h ⊢

theorem ctxsNew x0 x1 x2 x3 : Statement (.ctxsNew x0 x1 x2 x3) := by
  intro f h hf
  obtain rfl := Option.some.inj hf
  simp [ofFields, ofFieldsB, wellFormed] at h ⊢

theorem ctxsSeg x0 x1 x2 : Statement (.ctxsSeg x0 x1 x2) := by
  intro f h hf
  obtain rfl := Option.some.inj hf
  simp [ofFields, ofFieldsB, wellFormed] at h ⊢

theorem ctxsGo x0 x1 x2 : Statement (.ctxsGo x0 x1 x2) := by
  intro f h hf
  obtain rfl := Option.some.inj hf
  simp [ofFields, ofFieldsB, wellFormed] at h ⊢

theorem ctxsSave x0 x1 x2 : Statement (.ctxsSave x0 x1 x2) := by
  intro f h hf
  obtain rfl := Option.some.inj hf
  simp [ofFields, ofFieldsB, wellFormed] at h ⊢

theorem ctxsRest x0 x1 x2 : Statement (.ctxsRest x0 x1 x2) := by
  intro f h hf
  obtain rfl := Option.some.inj hf
  simp [ofFields, ofFieldsB, wellFormed] at h ⊢

theorem kill x0 x1 : Statement (.kill x0 x1) := by
  intro f h hf
  obtain rfl := Option.some.inj hf
  simp [ofFields, ofFieldsB, low_bits, wellFormed] at h ⊢

theorem killCtx x0 x1 x2 : Statement (.killCtx x0 x1 x2) := by
  intro f h hf
  obtain rfl := Option.some.inj hf
  simp [ofFields, ofFieldsB, low_bits, wellFormed] at h ⊢

theorem idleRd x0 x1 x2 : Statement (.idleRd x0 x1 x2) := by
  intro f h hf
  obtain rfl := Option.some.inj hf
  simp [ofFields, ofFieldsB, wellFormed] at h ⊢

theorem idleSet x0 x1 : Statement (.idleSet x0 x1) := by
  intro f h hf
  obtain rfl := Option.some.inj hf
  simp [ofFields, ofFieldsB, wellFormed] at h ⊢

theorem tstReq x0 x1 x2 : Statement (.tstReq x0 x1 x2) := by
  intro f h hf
  obtain rfl := Option.some.inj hf
  simp [ofFields, ofFieldsB, wellFormed] at h ⊢

theorem tstRd x0 x1 x2 x3 : Statement (.tstRd x0 x1 x2 x3) := by
  intro f h hf
  obtain rfl := Option.some.inj hf
  simp [ofFields, ofFieldsB, low_bits, wellFormed] at h ⊢

theorem ecntK x0 x1 x2 x3 : Statement (.ecntK x0 x1 x2 x3) := by
  intro f h hf
  obtain rfl := Option.some.inj hf
  simp [ofFields, ofFieldsB, low_bits, wellFormed] at h ⊢

theorem ecntRes x0 x1 x2 : Statement (.ecntRes x0 x1 x2) := by
  intro f h hf
  obtain rfl := Option.some.inj hf
  simp [ofFields, ofFieldsB, wellFormed] at h ⊢

theorem ecntThm x0 x1 x2 : Statement (.ecntThm x0 x1 x2) := by
  intro f h hf
  obtain rfl := Option.some.inj hf
  simp [ofFields, ofFieldsB, wellFormed] at h ⊢

theorem ecntTs x0 x1 x2 x3 : Statement (.ecntTs x0 x1 x2 x3) := by
  intro f h hf
  obtain rfl := Option.some.inj hf
  simp [ofFields, ofFieldsB, high_bits, wellFormed] at h ⊢

theorem ecntSet x0 x1 x2 x3 : Statement (.ecntSet x0 x1 x2 x3) := by
  intro f h hf
  obtain rfl := Option.some.inj hf
  simp [ofFields, ofFieldsB, bits_one, wellFormed] at h ⊢

theorem dbgRd x0 x1 : Statement (.dbgRd x0 x1) := by
  intro f h hf
  obtain rfl := Option.some.inj hf
  simp [ofFields, ofFieldsB, wellFormed] at h ⊢

theorem dbgMark x0 x1 x2 : Statement (.dbgMark x0 x1 x2) := by
  intro f h hf
  obtain rfl := Option.some.inj hf
  simp [ofFields, ofFieldsB, wellFormed] at h ⊢

theorem dbgBrk x0 x1 : Statement (.dbgBrk x0 x1) := by
  intro f h hf
  obtain rfl := Option.some.inj hf
  simp [ofFields, ofFieldsB, wellFormed] at h ⊢

theorem deferredTrap : Statement .deferredTrap := fun _ h _ => by cases h

theorem resultDelivery : Statement .resultDelivery := fun _ h _ => by cases h

theorem remoteLoadArrival : Statement .remoteLoadArrival := fun _ h _ => by cases h

theorem remoteLoadReturn : Statement .remoteLoadReturn := fun _ h _ => by cases h

theorem deltaArrival : Statement .deltaArrival := fun _ h _ => by cases h

theorem foreshoreWriteArrival : Statement .foreshoreWriteArrival := fun _ h _ => by cases h

theorem msgArrival : Statement .msgArrival := fun _ h _ => by cases h

theorem ackArrival : Statement .ackArrival := fun _ h _ => by cases h

theorem lockGrant : Statement .lockGrant := fun _ h _ => by cases h

theorem ovlDone : Statement .ovlDone := fun _ h _ => by cases h

theorem idleWatchdogExpiry : Statement .idleWatchdogExpiry := fun _ h _ => by cases h

theorem waitcTimeout : Statement .waitcTimeout := fun _ h _ => by cases h

theorem waitpTimeout : Statement .waitpTimeout := fun _ h _ => by cases h

theorem fifoUnitComplete : Statement .fifoUnitComplete := fun _ h _ => by cases h

theorem arrayOpStart : Statement .arrayOpStart := fun _ h _ => by cases h

theorem partialTileWritten : Statement .partialTileWritten := fun _ h _ => by cases h

theorem adderCmdStart : Statement .adderCmdStart := fun _ h _ => by cases h

theorem adderCmdPerformed : Statement .adderCmdPerformed := fun _ h _ => by cases h

theorem drainStart : Statement .drainStart := fun _ h _ => by cases h

theorem drainSourceReadDone : Statement .drainSourceReadDone := fun _ h _ => by cases h

theorem atbBuildStart : Statement .atbBuildStart := fun _ h _ => by cases h

theorem atbDone : Statement .atbDone := fun _ h _ => by cases h

theorem smpAtHead : Statement .smpAtHead := fun _ h _ => by cases h

theorem smplBatchDecision : Statement .smplBatchDecision := fun _ h _ => by cases h

theorem smplDone : Statement .smplDone := fun _ h _ => by cases h

theorem streamPieceFetched : Statement .streamPieceFetched := fun _ h _ => by cases h

theorem streamOutPiecePerformed : Statement .streamOutPiecePerformed := fun _ h _ => by cases h

theorem copyCmdStart : Statement .copyCmdStart := fun _ h _ => by cases h

theorem copyCmdPerformed : Statement .copyCmdPerformed := fun _ h _ => by cases h

theorem copyAccessRefused : Statement .copyAccessRefused := fun _ h _ => by cases h

theorem cpymFollowon : Statement .cpymFollowon := fun _ h _ => by cases h

theorem gatherRefused : Statement .gatherRefused := fun _ h _ => by cases h

theorem sluiceTermFire : Statement .sluiceTermFire := fun _ h _ => by cases h

theorem arriveSend : Statement .arriveSend := fun _ h _ => by cases h

theorem barrierNodeArrive : Statement .barrierNodeArrive := fun _ h _ => by cases h

theorem arriveAtDecision : Statement .arriveAtDecision := fun _ h _ => by cases h

theorem abortAtDecision : Statement .abortAtDecision := fun _ h _ => by cases h

theorem barrierTimeout : Statement .barrierTimeout := fun _ h _ => by cases h

theorem decisionRelease : Statement .decisionRelease := fun _ h _ => by cases h

theorem parkAssert : Statement .parkAssert := fun _ h _ => by cases h

theorem parkWithdraw : Statement .parkWithdraw := fun _ h _ => by cases h

theorem bcfgControlArrival : Statement .bcfgControlArrival := fun _ h _ => by cases h

theorem glchkReply : Statement .glchkReply := fun _ h _ => by cases h

theorem releaseCommitAtTile : Statement .releaseCommitAtTile := fun _ h _ => by cases h

theorem releaseAbortAtTile : Statement .releaseAbortAtTile := fun _ h _ => by cases h

theorem groupStart : Statement .groupStart := fun _ h _ => by cases h

theorem clusterStartGateOpen : Statement .clusterStartGateOpen := fun _ h _ => by cases h

theorem giveUpRequest : Statement .giveUpRequest := fun _ h _ => by cases h

theorem moveRequest : Statement .moveRequest := fun _ h _ => by cases h

theorem reshapeDone : Statement .reshapeDone := fun _ h _ => by cases h

theorem foldTurnChange : Statement .foldTurnChange := fun _ h _ => by cases h

theorem launchMessageOffer : Statement .launchMessageOffer := fun _ h _ => by cases h

theorem poolIntake : Statement .poolIntake := fun _ h _ => by cases h

theorem admissionStep : Statement .admissionStep := fun _ h _ => by cases h

theorem nodeCompletion : Statement .nodeCompletion := fun _ h _ => by cases h

theorem cancelAtDispatcher : Statement .cancelAtDispatcher := fun _ h _ => by cases h

theorem dispatcherReply : Statement .dispatcherReply := fun _ h _ => by cases h

theorem clusterWake : Statement .clusterWake := fun _ h _ => by cases h

theorem clusterUsable : Statement .clusterUsable := fun _ h _ => by cases h

theorem clusterRetain : Statement .clusterRetain := fun _ h _ => by cases h

theorem clusterGate : Statement .clusterGate := fun _ h _ => by cases h

theorem testStart : Statement .testStart := fun _ h _ => by cases h

theorem testDone : Statement .testDone := fun _ h _ => by cases h

theorem coldReset : Statement .coldReset := fun _ h _ => by cases h

theorem monitorImageReceive : Statement .monitorImageReceive := fun _ h _ => by cases h

theorem monitorRequest : Statement .monitorRequest := fun _ h _ => by cases h

theorem attestationRequest : Statement .attestationRequest := fun _ h _ => by cases h

theorem kernelLoadRequest : Statement .kernelLoadRequest := fun _ h _ => by cases h

theorem kernelResetRequest : Statement .kernelResetRequest := fun _ h _ => by cases h

theorem kernelRetireRequest : Statement .kernelRetireRequest := fun _ h _ => by cases h

theorem sysReply : Statement .sysReply := fun _ h _ => by cases h

theorem saveComplete : Statement .saveComplete := fun _ h _ => by cases h

theorem sweepTokenAtTile : Statement .sweepTokenAtTile := fun _ h _ => by cases h

theorem sweepSwtExpiry : Statement .sweepSwtExpiry := fun _ h _ => by cases h

theorem sweepCleanResult : Statement .sweepCleanResult := fun _ h _ => by cases h

theorem purgeConfirmed : Statement .purgeConfirmed := fun _ h _ => by cases h

theorem pageAccess : Statement .pageAccess := fun _ h _ => by cases h

theorem offlCopyDone : Statement .offlCopyDone := fun _ h _ => by cases h

theorem retnCopyDone : Statement .retnCopyDone := fun _ h _ => by cases h

theorem writebackDrain : Statement .writebackDrain := fun _ h _ => by cases h

theorem pageTableWrite : Statement .pageTableWrite := fun _ h _ => by cases h

theorem faultRefuse : Statement .faultRefuse := fun _ h _ => by cases h

theorem checkpointDone : Statement .checkpointDone := fun _ h _ => by cases h

theorem collAllLaunched : Statement .collAllLaunched := fun _ h _ => by cases h

theorem collSourceRead : Statement .collSourceRead := fun _ h _ => by cases h

theorem adderDigitEmit : Statement .adderDigitEmit := fun _ h _ => by cases h

theorem planeLanded : Statement .planeLanded := fun _ h _ => by cases h

theorem collDeadlineExpiry : Statement .collDeadlineExpiry := fun _ h _ => by cases h

theorem contributionAccepted : Statement .contributionAccepted := fun _ h _ => by cases h

theorem collConsumerDone : Statement .collConsumerDone := fun _ h _ => by cases h

theorem flitReceive : Statement .flitReceive := fun _ h _ => by cases h

theorem replayTimeout : Statement .replayTimeout := fun _ h _ => by cases h

theorem linkTrainingDone : Statement .linkTrainingDone := fun _ h _ => by cases h

theorem linkRetrainDone : Statement .linkRetrainDone := fun _ h _ => by cases h

theorem autoStepDown : Statement .autoStepDown := fun _ h _ => by cases h

theorem autoStepUp : Statement .autoStepUp := fun _ h _ => by cases h

theorem reservoirTick : Statement .reservoirTick := fun _ h _ => by cases h

theorem backgroundScrubRead : Statement .backgroundScrubRead := fun _ h _ => by cases h

theorem trapRecordArrival : Statement .trapRecordArrival := fun _ h _ => by cases h

theorem rowCollectorForward : Statement .rowCollectorForward := fun _ h _ => by cases h

theorem trapUnitDeliver : Statement .trapUnitDeliver := fun _ h _ => by cases h

theorem fetchFault : Statement .fetchFault := fun _ h _ => by cases h

theorem softError : Statement .softError := fun _ h _ => by cases h

theorem freeListFill : Statement .freeListFill := fun _ h _ => by cases h

theorem tableBaseWrite : Statement .tableBaseWrite := fun _ h _ => by cases h

theorem chipNumberAssign : Statement .chipNumberAssign := fun _ h _ => by cases h

theorem runtimeImageLoad : Statement .runtimeImageLoad := fun _ h _ => by cases h

theorem collNodeInput : Statement .collNodeInput := fun _ h _ => by cases h

theorem routeTableChange : Statement .routeTableChange := fun _ h _ => by cases h

end Sys2Proof.Laws.RoundTrip
end

