-- ==== Sys2Proof/Laws/Residue.lean ====
section
/-! SUPPORT. The residue checks of R137, R138 pass whenever the arithmetic is exact, so a mismatch has another cause: an
armed injection or a soft error of the unit. -/

namespace Sys2Proof.Laws

open Sys2Proof Sys2Proof.Machine

/-- Equal remainders give equal residues. -/
theorem residue_congr {x y : Int} (h : x ≡ y [ZMOD 255]) : residue x = residue y := by unfold residue; rw [h.eq]

theorem residue_modEq (x : Int) : (residue x : Int) ≡ x [ZMOD 255] := by
  unfold residue
  rw [Int.toNat_of_nonneg (Int.emod_nonneg _ (by decide))]
  exact Int.mod_modEq x 255

/-- The residues of factors multiply. -/
theorem foldl_residue (ms : List Nat) (a : Nat) :
    ms.foldl (fun a m => a * (m % 255) % 255) a ≡ a * ms.prod [MOD 255] := by
  induction ms generalizing a with
  | nil => simpa using Nat.ModEq.refl a
  | cons m r ih =>
    rw [List.foldl_cons, List.prod_cons, ← mul_assoc]
    exact (ih _).trans (((Nat.mod_modEq _ _).trans ((Nat.mod_modEq m 255).mul_left a)).mul_right _)

/-- A shift rotates the residue by its count modulo 8 (R137). -/
theorem two_pow_residue (k : Nat) : 2 ^ (k % 8) ≡ 2 ^ k [MOD 255] := by
  conv_rhs => rw [← Nat.mod_add_div k 8, pow_add, pow_mul]
  have h : (2 ^ 8) ^ (k / 8) ≡ 1 ^ (k / 8) [MOD 255] := Nat.ModEq.pow _ (by decide)
  simpa using (h.mul_left (2 ^ (k % 8))).symm

/-- CheckResidue of R138 never differs by itself. -/
theorem residueAgrees_true (ts : List (List Val)) : residueAgrees ts = true := by
  unfold residueAgrees rhoOf sumOf
  simp only [beq_iff_eq]
  apply residue_congr
  generalize ts.filterMap finFactors = ps
  generalize leastExp ps = e0
  induction ps with
  | nil => rfl
  | cons p r ih =>
    simp only [List.map_cons, List.sum_cons]
    refine Int.ModEq.add ?_ ih
    have h : p.2.1.foldl (fun a m => a * (m % 255) % 255) 1 * 2 ^ ((p.2.2 - e0).toNat % 8) % 255 ≡
        p.2.1.prod * 2 ^ (p.2.2 - e0).toNat [MOD 255] :=
      (Nat.mod_modEq _ _).trans (Nat.ModEq.mul (by simpa using foldl_residue p.2.1 1) (two_pow_residue _))
    have h' := (Int.natCast_modEq_iff (n := 255)).mpr h
    split
    · exact h'.neg
    · exact h'

theorem groupAgrees_true (ta tb : BitVec 4) (ua ub : Unit_) (k0 kn : Nat) (rows cols : BitVec 32) (w : List Val) :
    groupAgrees ta tb ua ub k0 kn rows cols w = true := by
  simp [groupAgrees, residueAgrees_true]

@[simp] theorem mmaDiffers_none (ty : BitVec 4) (x : Bool) (n : Nat) (ua ub : Unit_) (rows cols : BitVec 32) :
    mmaDiffers ty x n ua ub rows cols = none := by
  simp [mmaDiffers, groupAgrees_true]

@[simp] theorem batchDiffers_none (ty : BitVec 4) (x : Bool) (n : Nat) (u v : Unit_) (w : List (BitVec 32)) :
    batchDiffers ty x n u v w = none := by
  simp [batchDiffers, groupAgrees_true]

/-- The limbs after a change of N hold it modulo 2^384. -/
theorem laMake_limbs (n : Int) (fl : BitVec 4) :
    (((laMake n fl).toNat % 2 ^ 384 : Nat) : Int) = n % 2 ^ 384 := by
  have h : (laMake n fl).toNat % 2 ^ 384 = (BitVec.ofInt 384 n).toNat := by
    rw [laMake, BitVec.toNat_setWidth, Nat.mod_mod_of_dvd _ (Nat.pow_dvd_pow 2 (by norm_num)), BitVec.toNat_append,
      Nat.shiftLeft_eq, mul_comm, ← Nat.two_pow_add_eq_or_of_lt (BitVec.isLt _), Nat.mul_add_mod,
      Nat.mod_eq_of_lt (BitVec.isLt _)]
  rw [h, BitVec.toNat_ofInt, Int.toNat_of_nonneg (Int.emod_nonneg _ (by positivity))]
  norm_num

/-- N is the limbs' value modulo 2^384. -/
theorem laInt_modEq (e : BitVec 512) : laInt e ≡ ((e.toNat % 2 ^ 384 : Nat) : Int) [ZMOD 2 ^ 384] := by
  unfold laInt
  rw [BitVec.toInt_eq_toNat_bmod, BitVec.toNat_setWidth]
  exact Int.bmod_emod

/-- The residue check of an addition into an element never differs by itself (R138). -/
theorem addAgrees_true (old : BitVec 512) (v : Val) : addAgrees old v = true := by
  cases v with
  | nan => rfl
  | inf => rfl
  | fin neg m ex =>
    simp only [addAgrees, addLa, beq_iff_eq]
    generalize (scale2 m 1 (ex + 256)).1 / (scale2 m 1 (ex + 256)).2 = t
    have key : ∀ x : Int, ∀ fl, residue (((laMake (laInt old + x) fl).toNat % 2 ^ 384 : Nat) : Int) =
        residue ((residue ((old.toNat % 2 ^ 384 : Nat) : Int) : Int) + (residue x : Int) -
          (((old.toNat % 2 ^ 384 : Nat) : Int) + x) / 2 ^ 384) := by
      intro x fl
      rw [laMake_limbs]
      apply residue_congr
      generalize hn : ((old.toNat % 2 ^ 384 : Nat) : Int) = n
      have h1 : (laInt old + x) % 2 ^ 384 = (n + x) % 2 ^ 384 := ((hn ▸ laInt_modEq old).add_right x)
      rw [h1, Int.emod_def]
      refine Int.ModEq.sub ((residue_modEq n).add (residue_modEq x)).symm ?_
      have : (2 : Int) ^ 384 ≡ 1 [ZMOD 255] := by decide
      simpa using this.mul_right ((n + x) / 2 ^ 384)
    by_cases h : 2 ^ 383 ≤ t
    · have h' : (2 : Int) ^ 383 ≤ (t : Int) := by exact_mod_cast h
      rw [if_pos h, if_pos h']
      simpa using key 0 _
    · have h' : ¬ (2 : Int) ^ 383 ≤ (t : Int) := by exact_mod_cast h
      rw [if_neg h, if_neg h']
      exact key _ _

end Sys2Proof.Laws
end

