-- ==== Sys2Proof/Laws/State.lean ====
section
/-! SUPPORT. One lemma per field and update of the state, and what a read of a tile, a strand, a context, a group or a register
gives after an update: later proofs never unfold a record update. -/

namespace Sys2Proof.Laws

open Sys2Proof Sys2Proof.Machine

/-! ### Fields that an update leaves -/

@[simp] theorem setTile_cycle (s : State) (t : TileId) (x : Tile) : (s.setTile t x).cycle = s.cycle := rfl
@[simp] theorem setTile_cur (s : State) (t : TileId) (x : Tile) : (s.setTile t x).cur = s.cur := rfl
@[simp] theorem setTile_issued (s : State) (t : TileId) (x : Tile) : (s.setTile t x).issued = s.issued := rfl
@[simp] theorem setTile_free (s : State) (t : TileId) (x : Tile) : (s.setTile t x).free = s.free := rfl
@[simp] theorem setTile_agenda (s : State) (t : TileId) (x : Tile) : (s.setTile t x).agenda = s.agenda := rfl
@[simp] theorem setTile_ev (s : State) (t : TileId) (x : Tile) : (s.setTile t x).ev = s.ev := rfl
@[simp] theorem setTile_chip (s : State) (t : TileId) (x : Tile) : (s.setTile t x).chip = s.chip := rfl
@[simp] theorem setTile_clusters (s : State) (t : TileId) (x : Tile) : (s.setTile t x).clusters = s.clusters := rfl
@[simp] theorem setTile_dies (s : State) (t : TileId) (x : Tile) : (s.setTile t x).dies = s.dies := rfl
@[simp] theorem setTile_ctxs (s : State) (t : TileId) (x : Tile) : (s.setTile t x).ctxs = s.ctxs := rfl
@[simp] theorem setTile_groups (s : State) (t : TileId) (x : Tile) : (s.setTile t x).groups = s.groups := rfl
@[simp] theorem setTile_disp (s : State) (t : TileId) (x : Tile) : (s.setTile t x).disp = s.disp := rfl
@[simp] theorem setTile_hbm (s : State) (t : TileId) (x : Tile) : (s.setTile t x).hbm = s.hbm := rfl
@[simp] theorem setTile_stk (s : State) (t : TileId) (x : Tile) : (s.setTile t x).stk = s.stk := rfl
@[simp] theorem setTile_tier (s : State) (t : TileId) (x : Tile) : (s.setTile t x).tier = s.tier := rfl
@[simp] theorem setTile_links (s : State) (t : TileId) (x : Tile) : (s.setTile t x).links = s.links := rfl
@[simp] theorem setTile_routes (s : State) (t : TileId) (x : Tile) : (s.setTile t x).routes = s.routes := rfl
@[simp] theorem setTile_flows (s : State) (t : TileId) (x : Tile) : (s.setTile t x).flows = s.flows := rfl
@[simp] theorem setTile_held (s : State) (t : TileId) (x : Tile) : (s.setTile t x).held = s.held := rfl
@[simp] theorem setTile_rows (s : State) (t : TileId) (x : Tile) : (s.setTile t x).rows = s.rows := rfl
@[simp] theorem setTile_units (s : State) (t : TileId) (x : Tile) : (s.setTile t x).units = s.units := rfl
@[simp] theorem setTile_mon (s : State) (t : TileId) (x : Tile) : (s.setTile t x).mon = s.mon := rfl
@[simp] theorem setTile_reports (s : State) (t : TileId) (x : Tile) : (s.setTile t x).reports = s.reports := rfl

@[simp] theorem modTile_cycle (s : State) (t : TileId) (f : Tile → Tile) : (s.modTile t f).cycle = s.cycle := rfl
@[simp] theorem modTile_cur (s : State) (t : TileId) (f : Tile → Tile) : (s.modTile t f).cur = s.cur := rfl
@[simp] theorem modTile_issued (s : State) (t : TileId) (f : Tile → Tile) : (s.modTile t f).issued = s.issued := rfl
@[simp] theorem modTile_free (s : State) (t : TileId) (f : Tile → Tile) : (s.modTile t f).free = s.free := rfl
@[simp] theorem modTile_agenda (s : State) (t : TileId) (f : Tile → Tile) : (s.modTile t f).agenda = s.agenda := rfl
@[simp] theorem modTile_ev (s : State) (t : TileId) (f : Tile → Tile) : (s.modTile t f).ev = s.ev := rfl
@[simp] theorem modTile_chip (s : State) (t : TileId) (f : Tile → Tile) : (s.modTile t f).chip = s.chip := rfl
@[simp] theorem modTile_clusters (s : State) (t : TileId) (f : Tile → Tile) : (s.modTile t f).clusters = s.clusters := rfl
@[simp] theorem modTile_dies (s : State) (t : TileId) (f : Tile → Tile) : (s.modTile t f).dies = s.dies := rfl
@[simp] theorem modTile_ctxs (s : State) (t : TileId) (f : Tile → Tile) : (s.modTile t f).ctxs = s.ctxs := rfl
@[simp] theorem modTile_groups (s : State) (t : TileId) (f : Tile → Tile) : (s.modTile t f).groups = s.groups := rfl
@[simp] theorem modTile_disp (s : State) (t : TileId) (f : Tile → Tile) : (s.modTile t f).disp = s.disp := rfl
@[simp] theorem modTile_hbm (s : State) (t : TileId) (f : Tile → Tile) : (s.modTile t f).hbm = s.hbm := rfl
@[simp] theorem modTile_stk (s : State) (t : TileId) (f : Tile → Tile) : (s.modTile t f).stk = s.stk := rfl
@[simp] theorem modTile_tier (s : State) (t : TileId) (f : Tile → Tile) : (s.modTile t f).tier = s.tier := rfl
@[simp] theorem modTile_links (s : State) (t : TileId) (f : Tile → Tile) : (s.modTile t f).links = s.links := rfl
@[simp] theorem modTile_routes (s : State) (t : TileId) (f : Tile → Tile) : (s.modTile t f).routes = s.routes := rfl
@[simp] theorem modTile_flows (s : State) (t : TileId) (f : Tile → Tile) : (s.modTile t f).flows = s.flows := rfl
@[simp] theorem modTile_held (s : State) (t : TileId) (f : Tile → Tile) : (s.modTile t f).held = s.held := rfl
@[simp] theorem modTile_rows (s : State) (t : TileId) (f : Tile → Tile) : (s.modTile t f).rows = s.rows := rfl
@[simp] theorem modTile_units (s : State) (t : TileId) (f : Tile → Tile) : (s.modTile t f).units = s.units := rfl
@[simp] theorem modTile_mon (s : State) (t : TileId) (f : Tile → Tile) : (s.modTile t f).mon = s.mon := rfl
@[simp] theorem modTile_reports (s : State) (t : TileId) (f : Tile → Tile) : (s.modTile t f).reports = s.reports := rfl

@[simp] theorem modV_cycle (s : State) (t : TileId) (f : VRegs → VRegs) : (s.modV t f).cycle = s.cycle := rfl
@[simp] theorem modV_cur (s : State) (t : TileId) (f : VRegs → VRegs) : (s.modV t f).cur = s.cur := rfl
@[simp] theorem modV_issued (s : State) (t : TileId) (f : VRegs → VRegs) : (s.modV t f).issued = s.issued := rfl
@[simp] theorem modV_free (s : State) (t : TileId) (f : VRegs → VRegs) : (s.modV t f).free = s.free := rfl
@[simp] theorem modV_agenda (s : State) (t : TileId) (f : VRegs → VRegs) : (s.modV t f).agenda = s.agenda := rfl
@[simp] theorem modV_ev (s : State) (t : TileId) (f : VRegs → VRegs) : (s.modV t f).ev = s.ev := rfl
@[simp] theorem modV_chip (s : State) (t : TileId) (f : VRegs → VRegs) : (s.modV t f).chip = s.chip := rfl
@[simp] theorem modV_clusters (s : State) (t : TileId) (f : VRegs → VRegs) : (s.modV t f).clusters = s.clusters := rfl
@[simp] theorem modV_dies (s : State) (t : TileId) (f : VRegs → VRegs) : (s.modV t f).dies = s.dies := rfl
@[simp] theorem modV_ctxs (s : State) (t : TileId) (f : VRegs → VRegs) : (s.modV t f).ctxs = s.ctxs := rfl
@[simp] theorem modV_groups (s : State) (t : TileId) (f : VRegs → VRegs) : (s.modV t f).groups = s.groups := rfl
@[simp] theorem modV_disp (s : State) (t : TileId) (f : VRegs → VRegs) : (s.modV t f).disp = s.disp := rfl
@[simp] theorem modV_hbm (s : State) (t : TileId) (f : VRegs → VRegs) : (s.modV t f).hbm = s.hbm := rfl
@[simp] theorem modV_stk (s : State) (t : TileId) (f : VRegs → VRegs) : (s.modV t f).stk = s.stk := rfl
@[simp] theorem modV_tier (s : State) (t : TileId) (f : VRegs → VRegs) : (s.modV t f).tier = s.tier := rfl
@[simp] theorem modV_links (s : State) (t : TileId) (f : VRegs → VRegs) : (s.modV t f).links = s.links := rfl
@[simp] theorem modV_routes (s : State) (t : TileId) (f : VRegs → VRegs) : (s.modV t f).routes = s.routes := rfl
@[simp] theorem modV_flows (s : State) (t : TileId) (f : VRegs → VRegs) : (s.modV t f).flows = s.flows := rfl
@[simp] theorem modV_held (s : State) (t : TileId) (f : VRegs → VRegs) : (s.modV t f).held = s.held := rfl
@[simp] theorem modV_rows (s : State) (t : TileId) (f : VRegs → VRegs) : (s.modV t f).rows = s.rows := rfl
@[simp] theorem modV_units (s : State) (t : TileId) (f : VRegs → VRegs) : (s.modV t f).units = s.units := rfl
@[simp] theorem modV_mon (s : State) (t : TileId) (f : VRegs → VRegs) : (s.modV t f).mon = s.mon := rfl
@[simp] theorem modV_reports (s : State) (t : TileId) (f : VRegs → VRegs) : (s.modV t f).reports = s.reports := rfl

@[simp] theorem modStrand_cycle (s : State) (t : TileId) (n : StrandNo) (f : Strand → Strand) : (s.modStrand t n f).cycle = s.cycle := rfl
@[simp] theorem modStrand_cur (s : State) (t : TileId) (n : StrandNo) (f : Strand → Strand) : (s.modStrand t n f).cur = s.cur := rfl
@[simp] theorem modStrand_issued (s : State) (t : TileId) (n : StrandNo) (f : Strand → Strand) : (s.modStrand t n f).issued = s.issued := rfl
@[simp] theorem modStrand_free (s : State) (t : TileId) (n : StrandNo) (f : Strand → Strand) : (s.modStrand t n f).free = s.free := rfl
@[simp] theorem modStrand_agenda (s : State) (t : TileId) (n : StrandNo) (f : Strand → Strand) : (s.modStrand t n f).agenda = s.agenda := rfl
@[simp] theorem modStrand_ev (s : State) (t : TileId) (n : StrandNo) (f : Strand → Strand) : (s.modStrand t n f).ev = s.ev := rfl
@[simp] theorem modStrand_chip (s : State) (t : TileId) (n : StrandNo) (f : Strand → Strand) : (s.modStrand t n f).chip = s.chip := rfl
@[simp] theorem modStrand_clusters (s : State) (t : TileId) (n : StrandNo) (f : Strand → Strand) : (s.modStrand t n f).clusters = s.clusters := rfl
@[simp] theorem modStrand_dies (s : State) (t : TileId) (n : StrandNo) (f : Strand → Strand) : (s.modStrand t n f).dies = s.dies := rfl
@[simp] theorem modStrand_ctxs (s : State) (t : TileId) (n : StrandNo) (f : Strand → Strand) : (s.modStrand t n f).ctxs = s.ctxs := rfl
@[simp] theorem modStrand_groups (s : State) (t : TileId) (n : StrandNo) (f : Strand → Strand) : (s.modStrand t n f).groups = s.groups := rfl
@[simp] theorem modStrand_disp (s : State) (t : TileId) (n : StrandNo) (f : Strand → Strand) : (s.modStrand t n f).disp = s.disp := rfl
@[simp] theorem modStrand_hbm (s : State) (t : TileId) (n : StrandNo) (f : Strand → Strand) : (s.modStrand t n f).hbm = s.hbm := rfl
@[simp] theorem modStrand_stk (s : State) (t : TileId) (n : StrandNo) (f : Strand → Strand) : (s.modStrand t n f).stk = s.stk := rfl
@[simp] theorem modStrand_tier (s : State) (t : TileId) (n : StrandNo) (f : Strand → Strand) : (s.modStrand t n f).tier = s.tier := rfl
@[simp] theorem modStrand_links (s : State) (t : TileId) (n : StrandNo) (f : Strand → Strand) : (s.modStrand t n f).links = s.links := rfl
@[simp] theorem modStrand_routes (s : State) (t : TileId) (n : StrandNo) (f : Strand → Strand) : (s.modStrand t n f).routes = s.routes := rfl
@[simp] theorem modStrand_flows (s : State) (t : TileId) (n : StrandNo) (f : Strand → Strand) : (s.modStrand t n f).flows = s.flows := rfl
@[simp] theorem modStrand_held (s : State) (t : TileId) (n : StrandNo) (f : Strand → Strand) : (s.modStrand t n f).held = s.held := rfl
@[simp] theorem modStrand_rows (s : State) (t : TileId) (n : StrandNo) (f : Strand → Strand) : (s.modStrand t n f).rows = s.rows := rfl
@[simp] theorem modStrand_units (s : State) (t : TileId) (n : StrandNo) (f : Strand → Strand) : (s.modStrand t n f).units = s.units := rfl
@[simp] theorem modStrand_mon (s : State) (t : TileId) (n : StrandNo) (f : Strand → Strand) : (s.modStrand t n f).mon = s.mon := rfl
@[simp] theorem modStrand_reports (s : State) (t : TileId) (n : StrandNo) (f : Strand → Strand) : (s.modStrand t n f).reports = s.reports := rfl

@[simp] theorem modCtx_cycle (s : State) (c : Nat) (f : Ctx → Ctx) : (s.modCtx c f).cycle = s.cycle := rfl
@[simp] theorem modCtx_cur (s : State) (c : Nat) (f : Ctx → Ctx) : (s.modCtx c f).cur = s.cur := rfl
@[simp] theorem modCtx_issued (s : State) (c : Nat) (f : Ctx → Ctx) : (s.modCtx c f).issued = s.issued := rfl
@[simp] theorem modCtx_free (s : State) (c : Nat) (f : Ctx → Ctx) : (s.modCtx c f).free = s.free := rfl
@[simp] theorem modCtx_agenda (s : State) (c : Nat) (f : Ctx → Ctx) : (s.modCtx c f).agenda = s.agenda := rfl
@[simp] theorem modCtx_ev (s : State) (c : Nat) (f : Ctx → Ctx) : (s.modCtx c f).ev = s.ev := rfl
@[simp] theorem modCtx_chip (s : State) (c : Nat) (f : Ctx → Ctx) : (s.modCtx c f).chip = s.chip := rfl
@[simp] theorem modCtx_tiles (s : State) (c : Nat) (f : Ctx → Ctx) : (s.modCtx c f).tiles = s.tiles := rfl
@[simp] theorem modCtx_clusters (s : State) (c : Nat) (f : Ctx → Ctx) : (s.modCtx c f).clusters = s.clusters := rfl
@[simp] theorem modCtx_dies (s : State) (c : Nat) (f : Ctx → Ctx) : (s.modCtx c f).dies = s.dies := rfl
@[simp] theorem modCtx_groups (s : State) (c : Nat) (f : Ctx → Ctx) : (s.modCtx c f).groups = s.groups := rfl
@[simp] theorem modCtx_disp (s : State) (c : Nat) (f : Ctx → Ctx) : (s.modCtx c f).disp = s.disp := rfl
@[simp] theorem modCtx_hbm (s : State) (c : Nat) (f : Ctx → Ctx) : (s.modCtx c f).hbm = s.hbm := rfl
@[simp] theorem modCtx_stk (s : State) (c : Nat) (f : Ctx → Ctx) : (s.modCtx c f).stk = s.stk := rfl
@[simp] theorem modCtx_tier (s : State) (c : Nat) (f : Ctx → Ctx) : (s.modCtx c f).tier = s.tier := rfl
@[simp] theorem modCtx_links (s : State) (c : Nat) (f : Ctx → Ctx) : (s.modCtx c f).links = s.links := rfl
@[simp] theorem modCtx_routes (s : State) (c : Nat) (f : Ctx → Ctx) : (s.modCtx c f).routes = s.routes := rfl
@[simp] theorem modCtx_flows (s : State) (c : Nat) (f : Ctx → Ctx) : (s.modCtx c f).flows = s.flows := rfl
@[simp] theorem modCtx_held (s : State) (c : Nat) (f : Ctx → Ctx) : (s.modCtx c f).held = s.held := rfl
@[simp] theorem modCtx_rows (s : State) (c : Nat) (f : Ctx → Ctx) : (s.modCtx c f).rows = s.rows := rfl
@[simp] theorem modCtx_units (s : State) (c : Nat) (f : Ctx → Ctx) : (s.modCtx c f).units = s.units := rfl
@[simp] theorem modCtx_mon (s : State) (c : Nat) (f : Ctx → Ctx) : (s.modCtx c f).mon = s.mon := rfl
@[simp] theorem modCtx_reports (s : State) (c : Nat) (f : Ctx → Ctx) : (s.modCtx c f).reports = s.reports := rfl

@[simp] theorem modGroup_cycle (s : State) (g : Nat) (f : Group → Group) : (s.modGroup g f).cycle = s.cycle := rfl
@[simp] theorem modGroup_cur (s : State) (g : Nat) (f : Group → Group) : (s.modGroup g f).cur = s.cur := rfl
@[simp] theorem modGroup_issued (s : State) (g : Nat) (f : Group → Group) : (s.modGroup g f).issued = s.issued := rfl
@[simp] theorem modGroup_free (s : State) (g : Nat) (f : Group → Group) : (s.modGroup g f).free = s.free := rfl
@[simp] theorem modGroup_agenda (s : State) (g : Nat) (f : Group → Group) : (s.modGroup g f).agenda = s.agenda := rfl
@[simp] theorem modGroup_ev (s : State) (g : Nat) (f : Group → Group) : (s.modGroup g f).ev = s.ev := rfl
@[simp] theorem modGroup_chip (s : State) (g : Nat) (f : Group → Group) : (s.modGroup g f).chip = s.chip := rfl
@[simp] theorem modGroup_tiles (s : State) (g : Nat) (f : Group → Group) : (s.modGroup g f).tiles = s.tiles := rfl
@[simp] theorem modGroup_clusters (s : State) (g : Nat) (f : Group → Group) : (s.modGroup g f).clusters = s.clusters := rfl
@[simp] theorem modGroup_dies (s : State) (g : Nat) (f : Group → Group) : (s.modGroup g f).dies = s.dies := rfl
@[simp] theorem modGroup_ctxs (s : State) (g : Nat) (f : Group → Group) : (s.modGroup g f).ctxs = s.ctxs := rfl
@[simp] theorem modGroup_disp (s : State) (g : Nat) (f : Group → Group) : (s.modGroup g f).disp = s.disp := rfl
@[simp] theorem modGroup_hbm (s : State) (g : Nat) (f : Group → Group) : (s.modGroup g f).hbm = s.hbm := rfl
@[simp] theorem modGroup_stk (s : State) (g : Nat) (f : Group → Group) : (s.modGroup g f).stk = s.stk := rfl
@[simp] theorem modGroup_tier (s : State) (g : Nat) (f : Group → Group) : (s.modGroup g f).tier = s.tier := rfl
@[simp] theorem modGroup_links (s : State) (g : Nat) (f : Group → Group) : (s.modGroup g f).links = s.links := rfl
@[simp] theorem modGroup_routes (s : State) (g : Nat) (f : Group → Group) : (s.modGroup g f).routes = s.routes := rfl
@[simp] theorem modGroup_flows (s : State) (g : Nat) (f : Group → Group) : (s.modGroup g f).flows = s.flows := rfl
@[simp] theorem modGroup_held (s : State) (g : Nat) (f : Group → Group) : (s.modGroup g f).held = s.held := rfl
@[simp] theorem modGroup_rows (s : State) (g : Nat) (f : Group → Group) : (s.modGroup g f).rows = s.rows := rfl
@[simp] theorem modGroup_units (s : State) (g : Nat) (f : Group → Group) : (s.modGroup g f).units = s.units := rfl
@[simp] theorem modGroup_mon (s : State) (g : Nat) (f : Group → Group) : (s.modGroup g f).mon = s.mon := rfl
@[simp] theorem modGroup_reports (s : State) (g : Nat) (f : Group → Group) : (s.modGroup g f).reports = s.reports := rfl

@[simp] theorem modCluster_cycle (s : State) (c : ClusterId) (f : Cluster → Cluster) : (s.modCluster c f).cycle = s.cycle := rfl
@[simp] theorem modCluster_cur (s : State) (c : ClusterId) (f : Cluster → Cluster) : (s.modCluster c f).cur = s.cur := rfl
@[simp] theorem modCluster_issued (s : State) (c : ClusterId) (f : Cluster → Cluster) : (s.modCluster c f).issued = s.issued := rfl
@[simp] theorem modCluster_free (s : State) (c : ClusterId) (f : Cluster → Cluster) : (s.modCluster c f).free = s.free := rfl
@[simp] theorem modCluster_agenda (s : State) (c : ClusterId) (f : Cluster → Cluster) : (s.modCluster c f).agenda = s.agenda := rfl
@[simp] theorem modCluster_ev (s : State) (c : ClusterId) (f : Cluster → Cluster) : (s.modCluster c f).ev = s.ev := rfl
@[simp] theorem modCluster_chip (s : State) (c : ClusterId) (f : Cluster → Cluster) : (s.modCluster c f).chip = s.chip := rfl
@[simp] theorem modCluster_tiles (s : State) (c : ClusterId) (f : Cluster → Cluster) : (s.modCluster c f).tiles = s.tiles := rfl
@[simp] theorem modCluster_dies (s : State) (c : ClusterId) (f : Cluster → Cluster) : (s.modCluster c f).dies = s.dies := rfl
@[simp] theorem modCluster_ctxs (s : State) (c : ClusterId) (f : Cluster → Cluster) : (s.modCluster c f).ctxs = s.ctxs := rfl
@[simp] theorem modCluster_groups (s : State) (c : ClusterId) (f : Cluster → Cluster) : (s.modCluster c f).groups = s.groups := rfl
@[simp] theorem modCluster_disp (s : State) (c : ClusterId) (f : Cluster → Cluster) : (s.modCluster c f).disp = s.disp := rfl
@[simp] theorem modCluster_hbm (s : State) (c : ClusterId) (f : Cluster → Cluster) : (s.modCluster c f).hbm = s.hbm := rfl
@[simp] theorem modCluster_stk (s : State) (c : ClusterId) (f : Cluster → Cluster) : (s.modCluster c f).stk = s.stk := rfl
@[simp] theorem modCluster_tier (s : State) (c : ClusterId) (f : Cluster → Cluster) : (s.modCluster c f).tier = s.tier := rfl
@[simp] theorem modCluster_links (s : State) (c : ClusterId) (f : Cluster → Cluster) : (s.modCluster c f).links = s.links := rfl
@[simp] theorem modCluster_routes (s : State) (c : ClusterId) (f : Cluster → Cluster) : (s.modCluster c f).routes = s.routes := rfl
@[simp] theorem modCluster_flows (s : State) (c : ClusterId) (f : Cluster → Cluster) : (s.modCluster c f).flows = s.flows := rfl
@[simp] theorem modCluster_held (s : State) (c : ClusterId) (f : Cluster → Cluster) : (s.modCluster c f).held = s.held := rfl
@[simp] theorem modCluster_rows (s : State) (c : ClusterId) (f : Cluster → Cluster) : (s.modCluster c f).rows = s.rows := rfl
@[simp] theorem modCluster_units (s : State) (c : ClusterId) (f : Cluster → Cluster) : (s.modCluster c f).units = s.units := rfl
@[simp] theorem modCluster_mon (s : State) (c : ClusterId) (f : Cluster → Cluster) : (s.modCluster c f).mon = s.mon := rfl
@[simp] theorem modCluster_reports (s : State) (c : ClusterId) (f : Cluster → Cluster) : (s.modCluster c f).reports = s.reports := rfl

@[simp] theorem modDie_cycle (s : State) (d : Nat) (f : Die → Die) : (s.modDie d f).cycle = s.cycle := rfl
@[simp] theorem modDie_cur (s : State) (d : Nat) (f : Die → Die) : (s.modDie d f).cur = s.cur := rfl
@[simp] theorem modDie_issued (s : State) (d : Nat) (f : Die → Die) : (s.modDie d f).issued = s.issued := rfl
@[simp] theorem modDie_free (s : State) (d : Nat) (f : Die → Die) : (s.modDie d f).free = s.free := rfl
@[simp] theorem modDie_agenda (s : State) (d : Nat) (f : Die → Die) : (s.modDie d f).agenda = s.agenda := rfl
@[simp] theorem modDie_ev (s : State) (d : Nat) (f : Die → Die) : (s.modDie d f).ev = s.ev := rfl
@[simp] theorem modDie_chip (s : State) (d : Nat) (f : Die → Die) : (s.modDie d f).chip = s.chip := rfl
@[simp] theorem modDie_tiles (s : State) (d : Nat) (f : Die → Die) : (s.modDie d f).tiles = s.tiles := rfl
@[simp] theorem modDie_clusters (s : State) (d : Nat) (f : Die → Die) : (s.modDie d f).clusters = s.clusters := rfl
@[simp] theorem modDie_ctxs (s : State) (d : Nat) (f : Die → Die) : (s.modDie d f).ctxs = s.ctxs := rfl
@[simp] theorem modDie_groups (s : State) (d : Nat) (f : Die → Die) : (s.modDie d f).groups = s.groups := rfl
@[simp] theorem modDie_disp (s : State) (d : Nat) (f : Die → Die) : (s.modDie d f).disp = s.disp := rfl
@[simp] theorem modDie_hbm (s : State) (d : Nat) (f : Die → Die) : (s.modDie d f).hbm = s.hbm := rfl
@[simp] theorem modDie_stk (s : State) (d : Nat) (f : Die → Die) : (s.modDie d f).stk = s.stk := rfl
@[simp] theorem modDie_tier (s : State) (d : Nat) (f : Die → Die) : (s.modDie d f).tier = s.tier := rfl
@[simp] theorem modDie_links (s : State) (d : Nat) (f : Die → Die) : (s.modDie d f).links = s.links := rfl
@[simp] theorem modDie_routes (s : State) (d : Nat) (f : Die → Die) : (s.modDie d f).routes = s.routes := rfl
@[simp] theorem modDie_flows (s : State) (d : Nat) (f : Die → Die) : (s.modDie d f).flows = s.flows := rfl
@[simp] theorem modDie_held (s : State) (d : Nat) (f : Die → Die) : (s.modDie d f).held = s.held := rfl
@[simp] theorem modDie_rows (s : State) (d : Nat) (f : Die → Die) : (s.modDie d f).rows = s.rows := rfl
@[simp] theorem modDie_units (s : State) (d : Nat) (f : Die → Die) : (s.modDie d f).units = s.units := rfl
@[simp] theorem modDie_mon (s : State) (d : Nat) (f : Die → Die) : (s.modDie d f).mon = s.mon := rfl
@[simp] theorem modDie_reports (s : State) (d : Nat) (f : Die → Die) : (s.modDie d f).reports = s.reports := rfl

@[simp] theorem modLink_cycle (s : State) (l : Nat) (f : Link → Link) : (s.modLink l f).cycle = s.cycle := by unfold State.modLink; rfl
@[simp] theorem modLink_cur (s : State) (l : Nat) (f : Link → Link) : (s.modLink l f).cur = s.cur := by unfold State.modLink; rfl
@[simp] theorem modLink_issued (s : State) (l : Nat) (f : Link → Link) : (s.modLink l f).issued = s.issued := by unfold State.modLink; rfl
@[simp] theorem modLink_free (s : State) (l : Nat) (f : Link → Link) : (s.modLink l f).free = s.free := by unfold State.modLink; rfl
@[simp] theorem modLink_agenda (s : State) (l : Nat) (f : Link → Link) : (s.modLink l f).agenda = s.agenda := by unfold State.modLink; rfl
@[simp] theorem modLink_ev (s : State) (l : Nat) (f : Link → Link) : (s.modLink l f).ev = s.ev := by unfold State.modLink; rfl
@[simp] theorem modLink_chip (s : State) (l : Nat) (f : Link → Link) : (s.modLink l f).chip = s.chip := by unfold State.modLink; rfl
@[simp] theorem modLink_tiles (s : State) (l : Nat) (f : Link → Link) : (s.modLink l f).tiles = s.tiles := by unfold State.modLink; rfl
@[simp] theorem modLink_clusters (s : State) (l : Nat) (f : Link → Link) : (s.modLink l f).clusters = s.clusters := by unfold State.modLink; rfl
@[simp] theorem modLink_dies (s : State) (l : Nat) (f : Link → Link) : (s.modLink l f).dies = s.dies := by unfold State.modLink; rfl
@[simp] theorem modLink_ctxs (s : State) (l : Nat) (f : Link → Link) : (s.modLink l f).ctxs = s.ctxs := by unfold State.modLink; rfl
@[simp] theorem modLink_groups (s : State) (l : Nat) (f : Link → Link) : (s.modLink l f).groups = s.groups := by unfold State.modLink; rfl
@[simp] theorem modLink_disp (s : State) (l : Nat) (f : Link → Link) : (s.modLink l f).disp = s.disp := by unfold State.modLink; rfl
@[simp] theorem modLink_hbm (s : State) (l : Nat) (f : Link → Link) : (s.modLink l f).hbm = s.hbm := by unfold State.modLink; rfl
@[simp] theorem modLink_stk (s : State) (l : Nat) (f : Link → Link) : (s.modLink l f).stk = s.stk := by unfold State.modLink; rfl
@[simp] theorem modLink_tier (s : State) (l : Nat) (f : Link → Link) : (s.modLink l f).tier = s.tier := by unfold State.modLink; rfl
@[simp] theorem modLink_routes (s : State) (l : Nat) (f : Link → Link) : (s.modLink l f).routes = s.routes := by unfold State.modLink; rfl
@[simp] theorem modLink_flows (s : State) (l : Nat) (f : Link → Link) : (s.modLink l f).flows = s.flows := by unfold State.modLink; rfl
@[simp] theorem modLink_held (s : State) (l : Nat) (f : Link → Link) : (s.modLink l f).held = s.held := by unfold State.modLink; rfl
@[simp] theorem modLink_rows (s : State) (l : Nat) (f : Link → Link) : (s.modLink l f).rows = s.rows := by unfold State.modLink; rfl
@[simp] theorem modLink_units (s : State) (l : Nat) (f : Link → Link) : (s.modLink l f).units = s.units := by unfold State.modLink; rfl
@[simp] theorem modLink_mon (s : State) (l : Nat) (f : Link → Link) : (s.modLink l f).mon = s.mon := by unfold State.modLink; rfl
@[simp] theorem modLink_reports (s : State) (l : Nat) (f : Link → Link) : (s.modLink l f).reports = s.reports := by unfold State.modLink; rfl

@[simp] theorem post_cycle (s : State) (d : Nat) (e : Ev) : (s.post d e).cycle = s.cycle := rfl
@[simp] theorem post_cur (s : State) (d : Nat) (e : Ev) : (s.post d e).cur = s.cur := rfl
@[simp] theorem post_issued (s : State) (d : Nat) (e : Ev) : (s.post d e).issued = s.issued := rfl
@[simp] theorem post_free (s : State) (d : Nat) (e : Ev) : (s.post d e).free = s.free := rfl
@[simp] theorem post_ev (s : State) (d : Nat) (e : Ev) : (s.post d e).ev = s.ev := rfl
@[simp] theorem post_chip (s : State) (d : Nat) (e : Ev) : (s.post d e).chip = s.chip := rfl
@[simp] theorem post_tiles (s : State) (d : Nat) (e : Ev) : (s.post d e).tiles = s.tiles := rfl
@[simp] theorem post_clusters (s : State) (d : Nat) (e : Ev) : (s.post d e).clusters = s.clusters := rfl
@[simp] theorem post_dies (s : State) (d : Nat) (e : Ev) : (s.post d e).dies = s.dies := rfl
@[simp] theorem post_ctxs (s : State) (d : Nat) (e : Ev) : (s.post d e).ctxs = s.ctxs := rfl
@[simp] theorem post_groups (s : State) (d : Nat) (e : Ev) : (s.post d e).groups = s.groups := rfl
@[simp] theorem post_disp (s : State) (d : Nat) (e : Ev) : (s.post d e).disp = s.disp := rfl
@[simp] theorem post_hbm (s : State) (d : Nat) (e : Ev) : (s.post d e).hbm = s.hbm := rfl
@[simp] theorem post_stk (s : State) (d : Nat) (e : Ev) : (s.post d e).stk = s.stk := rfl
@[simp] theorem post_tier (s : State) (d : Nat) (e : Ev) : (s.post d e).tier = s.tier := rfl
@[simp] theorem post_links (s : State) (d : Nat) (e : Ev) : (s.post d e).links = s.links := rfl
@[simp] theorem post_routes (s : State) (d : Nat) (e : Ev) : (s.post d e).routes = s.routes := rfl
@[simp] theorem post_flows (s : State) (d : Nat) (e : Ev) : (s.post d e).flows = s.flows := rfl
@[simp] theorem post_held (s : State) (d : Nat) (e : Ev) : (s.post d e).held = s.held := rfl
@[simp] theorem post_rows (s : State) (d : Nat) (e : Ev) : (s.post d e).rows = s.rows := rfl
@[simp] theorem post_units (s : State) (d : Nat) (e : Ev) : (s.post d e).units = s.units := rfl
@[simp] theorem post_mon (s : State) (d : Nat) (e : Ev) : (s.post d e).mon = s.mon := rfl
@[simp] theorem post_reports (s : State) (d : Nat) (e : Ev) : (s.post d e).reports = s.reports := rfl

@[simp] theorem postFirst_cycle (s : State) (e : Ev) : (s.postFirst e).cycle = s.cycle := rfl
@[simp] theorem postFirst_cur (s : State) (e : Ev) : (s.postFirst e).cur = s.cur := rfl
@[simp] theorem postFirst_issued (s : State) (e : Ev) : (s.postFirst e).issued = s.issued := rfl
@[simp] theorem postFirst_free (s : State) (e : Ev) : (s.postFirst e).free = s.free := rfl
@[simp] theorem postFirst_ev (s : State) (e : Ev) : (s.postFirst e).ev = s.ev := rfl
@[simp] theorem postFirst_chip (s : State) (e : Ev) : (s.postFirst e).chip = s.chip := rfl
@[simp] theorem postFirst_tiles (s : State) (e : Ev) : (s.postFirst e).tiles = s.tiles := rfl
@[simp] theorem postFirst_clusters (s : State) (e : Ev) : (s.postFirst e).clusters = s.clusters := rfl
@[simp] theorem postFirst_dies (s : State) (e : Ev) : (s.postFirst e).dies = s.dies := rfl
@[simp] theorem postFirst_ctxs (s : State) (e : Ev) : (s.postFirst e).ctxs = s.ctxs := rfl
@[simp] theorem postFirst_groups (s : State) (e : Ev) : (s.postFirst e).groups = s.groups := rfl
@[simp] theorem postFirst_disp (s : State) (e : Ev) : (s.postFirst e).disp = s.disp := rfl
@[simp] theorem postFirst_hbm (s : State) (e : Ev) : (s.postFirst e).hbm = s.hbm := rfl
@[simp] theorem postFirst_stk (s : State) (e : Ev) : (s.postFirst e).stk = s.stk := rfl
@[simp] theorem postFirst_tier (s : State) (e : Ev) : (s.postFirst e).tier = s.tier := rfl
@[simp] theorem postFirst_links (s : State) (e : Ev) : (s.postFirst e).links = s.links := rfl
@[simp] theorem postFirst_routes (s : State) (e : Ev) : (s.postFirst e).routes = s.routes := rfl
@[simp] theorem postFirst_flows (s : State) (e : Ev) : (s.postFirst e).flows = s.flows := rfl
@[simp] theorem postFirst_held (s : State) (e : Ev) : (s.postFirst e).held = s.held := rfl
@[simp] theorem postFirst_rows (s : State) (e : Ev) : (s.postFirst e).rows = s.rows := rfl
@[simp] theorem postFirst_units (s : State) (e : Ev) : (s.postFirst e).units = s.units := rfl
@[simp] theorem postFirst_mon (s : State) (e : Ev) : (s.postFirst e).mon = s.mon := rfl
@[simp] theorem postFirst_reports (s : State) (e : Ev) : (s.postFirst e).reports = s.reports := rfl

@[simp] theorem report_cycle (s : State) (r : Report) : (s.report r).cycle = s.cycle := rfl
@[simp] theorem report_cur (s : State) (r : Report) : (s.report r).cur = s.cur := rfl
@[simp] theorem report_issued (s : State) (r : Report) : (s.report r).issued = s.issued := rfl
@[simp] theorem report_free (s : State) (r : Report) : (s.report r).free = s.free := rfl
@[simp] theorem report_agenda (s : State) (r : Report) : (s.report r).agenda = s.agenda := rfl
@[simp] theorem report_ev (s : State) (r : Report) : (s.report r).ev = s.ev := rfl
@[simp] theorem report_chip (s : State) (r : Report) : (s.report r).chip = s.chip := rfl
@[simp] theorem report_tiles (s : State) (r : Report) : (s.report r).tiles = s.tiles := rfl
@[simp] theorem report_clusters (s : State) (r : Report) : (s.report r).clusters = s.clusters := rfl
@[simp] theorem report_dies (s : State) (r : Report) : (s.report r).dies = s.dies := rfl
@[simp] theorem report_ctxs (s : State) (r : Report) : (s.report r).ctxs = s.ctxs := rfl
@[simp] theorem report_groups (s : State) (r : Report) : (s.report r).groups = s.groups := rfl
@[simp] theorem report_disp (s : State) (r : Report) : (s.report r).disp = s.disp := rfl
@[simp] theorem report_hbm (s : State) (r : Report) : (s.report r).hbm = s.hbm := rfl
@[simp] theorem report_stk (s : State) (r : Report) : (s.report r).stk = s.stk := rfl
@[simp] theorem report_tier (s : State) (r : Report) : (s.report r).tier = s.tier := rfl
@[simp] theorem report_links (s : State) (r : Report) : (s.report r).links = s.links := rfl
@[simp] theorem report_routes (s : State) (r : Report) : (s.report r).routes = s.routes := rfl
@[simp] theorem report_flows (s : State) (r : Report) : (s.report r).flows = s.flows := rfl
@[simp] theorem report_held (s : State) (r : Report) : (s.report r).held = s.held := rfl
@[simp] theorem report_rows (s : State) (r : Report) : (s.report r).rows = s.rows := rfl
@[simp] theorem report_units (s : State) (r : Report) : (s.report r).units = s.units := rfl
@[simp] theorem report_mon (s : State) (r : Report) : (s.report r).mon = s.mon := rfl

/-! ### Reads that an update leaves -/

@[simp] theorem setTile_ctx (s : State) (t : TileId) (x : Tile) (k : Nat) : (s.setTile t x).ctx k = s.ctx k := rfl
@[simp] theorem setTile_group (s : State) (t : TileId) (x : Tile) (i : Nat) : (s.setTile t x).group i = s.group i := rfl
@[simp] theorem setTile_cluster (s : State) (t : TileId) (x : Tile) (i : ClusterId) : (s.setTile t x).cluster i = s.cluster i := rfl
@[simp] theorem setTile_die (s : State) (t : TileId) (x : Tile) (i : Nat) : (s.setTile t x).die i = s.die i := rfl
@[simp] theorem setTile_link (s : State) (t : TileId) (x : Tile) (i : Nat) : (s.setTile t x).link i = s.link i := rfl

@[simp] theorem modTile_ctx (s : State) (t : TileId) (f : Tile → Tile) (k : Nat) : (s.modTile t f).ctx k = s.ctx k := rfl
@[simp] theorem modTile_group (s : State) (t : TileId) (f : Tile → Tile) (i : Nat) : (s.modTile t f).group i = s.group i := rfl
@[simp] theorem modTile_cluster (s : State) (t : TileId) (f : Tile → Tile) (i : ClusterId) : (s.modTile t f).cluster i = s.cluster i := rfl
@[simp] theorem modTile_die (s : State) (t : TileId) (f : Tile → Tile) (i : Nat) : (s.modTile t f).die i = s.die i := rfl
@[simp] theorem modTile_link (s : State) (t : TileId) (f : Tile → Tile) (i : Nat) : (s.modTile t f).link i = s.link i := rfl

@[simp] theorem modV_ctx (s : State) (t : TileId) (f : VRegs → VRegs) (k : Nat) : (s.modV t f).ctx k = s.ctx k := rfl
@[simp] theorem modV_group (s : State) (t : TileId) (f : VRegs → VRegs) (i : Nat) : (s.modV t f).group i = s.group i := rfl
@[simp] theorem modV_cluster (s : State) (t : TileId) (f : VRegs → VRegs) (i : ClusterId) : (s.modV t f).cluster i = s.cluster i := rfl
@[simp] theorem modV_die (s : State) (t : TileId) (f : VRegs → VRegs) (i : Nat) : (s.modV t f).die i = s.die i := rfl
@[simp] theorem modV_link (s : State) (t : TileId) (f : VRegs → VRegs) (i : Nat) : (s.modV t f).link i = s.link i := rfl

@[simp] theorem modStrand_ctx (s : State) (t : TileId) (n : StrandNo) (f : Strand → Strand) (k : Nat) : (s.modStrand t n f).ctx k = s.ctx k := rfl
@[simp] theorem modStrand_group (s : State) (t : TileId) (n : StrandNo) (f : Strand → Strand) (i : Nat) : (s.modStrand t n f).group i = s.group i := rfl
@[simp] theorem modStrand_cluster (s : State) (t : TileId) (n : StrandNo) (f : Strand → Strand) (i : ClusterId) : (s.modStrand t n f).cluster i = s.cluster i := rfl
@[simp] theorem modStrand_die (s : State) (t : TileId) (n : StrandNo) (f : Strand → Strand) (i : Nat) : (s.modStrand t n f).die i = s.die i := rfl
@[simp] theorem modStrand_link (s : State) (t : TileId) (n : StrandNo) (f : Strand → Strand) (i : Nat) : (s.modStrand t n f).link i = s.link i := rfl

@[simp] theorem modCtx_tile (s : State) (c : Nat) (f : Ctx → Ctx) (u : TileId) : (s.modCtx c f).tile u = s.tile u := rfl
@[simp] theorem modCtx_strand (s : State) (c : Nat) (f : Ctx → Ctx) (u : TileId) (m : StrandNo) : (s.modCtx c f).strand u m = s.strand u m := rfl
@[simp] theorem modCtx_group (s : State) (c : Nat) (f : Ctx → Ctx) (i : Nat) : (s.modCtx c f).group i = s.group i := rfl
@[simp] theorem modCtx_cluster (s : State) (c : Nat) (f : Ctx → Ctx) (i : ClusterId) : (s.modCtx c f).cluster i = s.cluster i := rfl
@[simp] theorem modCtx_die (s : State) (c : Nat) (f : Ctx → Ctx) (i : Nat) : (s.modCtx c f).die i = s.die i := rfl
@[simp] theorem modCtx_link (s : State) (c : Nat) (f : Ctx → Ctx) (i : Nat) : (s.modCtx c f).link i = s.link i := rfl

@[simp] theorem modGroup_tile (s : State) (g : Nat) (f : Group → Group) (u : TileId) : (s.modGroup g f).tile u = s.tile u := rfl
@[simp] theorem modGroup_strand (s : State) (g : Nat) (f : Group → Group) (u : TileId) (m : StrandNo) : (s.modGroup g f).strand u m = s.strand u m := rfl
@[simp] theorem modGroup_ctx (s : State) (g : Nat) (f : Group → Group) (k : Nat) : (s.modGroup g f).ctx k = s.ctx k := rfl
@[simp] theorem modGroup_cluster (s : State) (g : Nat) (f : Group → Group) (i : ClusterId) : (s.modGroup g f).cluster i = s.cluster i := rfl
@[simp] theorem modGroup_die (s : State) (g : Nat) (f : Group → Group) (i : Nat) : (s.modGroup g f).die i = s.die i := rfl
@[simp] theorem modGroup_link (s : State) (g : Nat) (f : Group → Group) (i : Nat) : (s.modGroup g f).link i = s.link i := rfl

@[simp] theorem modCluster_tile (s : State) (c : ClusterId) (f : Cluster → Cluster) (u : TileId) : (s.modCluster c f).tile u = s.tile u := rfl
@[simp] theorem modCluster_strand (s : State) (c : ClusterId) (f : Cluster → Cluster) (u : TileId) (m : StrandNo) : (s.modCluster c f).strand u m = s.strand u m := rfl
@[simp] theorem modCluster_ctx (s : State) (c : ClusterId) (f : Cluster → Cluster) (k : Nat) : (s.modCluster c f).ctx k = s.ctx k := rfl
@[simp] theorem modCluster_group (s : State) (c : ClusterId) (f : Cluster → Cluster) (i : Nat) : (s.modCluster c f).group i = s.group i := rfl
@[simp] theorem modCluster_die (s : State) (c : ClusterId) (f : Cluster → Cluster) (i : Nat) : (s.modCluster c f).die i = s.die i := rfl
@[simp] theorem modCluster_link (s : State) (c : ClusterId) (f : Cluster → Cluster) (i : Nat) : (s.modCluster c f).link i = s.link i := rfl

@[simp] theorem modDie_tile (s : State) (d : Nat) (f : Die → Die) (u : TileId) : (s.modDie d f).tile u = s.tile u := rfl
@[simp] theorem modDie_strand (s : State) (d : Nat) (f : Die → Die) (u : TileId) (m : StrandNo) : (s.modDie d f).strand u m = s.strand u m := rfl
@[simp] theorem modDie_ctx (s : State) (d : Nat) (f : Die → Die) (k : Nat) : (s.modDie d f).ctx k = s.ctx k := rfl
@[simp] theorem modDie_group (s : State) (d : Nat) (f : Die → Die) (i : Nat) : (s.modDie d f).group i = s.group i := rfl
@[simp] theorem modDie_cluster (s : State) (d : Nat) (f : Die → Die) (i : ClusterId) : (s.modDie d f).cluster i = s.cluster i := rfl
@[simp] theorem modDie_link (s : State) (d : Nat) (f : Die → Die) (i : Nat) : (s.modDie d f).link i = s.link i := rfl

@[simp] theorem modLink_tile (s : State) (l : Nat) (f : Link → Link) (u : TileId) : (s.modLink l f).tile u = s.tile u := by simp only [State.tile, modLink_tiles]
@[simp] theorem modLink_strand (s : State) (l : Nat) (f : Link → Link) (u : TileId) (m : StrandNo) : (s.modLink l f).strand u m = s.strand u m := by simp only [State.strand, State.tile, modLink_tiles]
@[simp] theorem modLink_ctx (s : State) (l : Nat) (f : Link → Link) (k : Nat) : (s.modLink l f).ctx k = s.ctx k := by simp only [State.ctx, modLink_ctxs]
@[simp] theorem modLink_group (s : State) (l : Nat) (f : Link → Link) (i : Nat) : (s.modLink l f).group i = s.group i := by simp only [State.group, modLink_groups]
@[simp] theorem modLink_cluster (s : State) (l : Nat) (f : Link → Link) (i : ClusterId) : (s.modLink l f).cluster i = s.cluster i := by simp only [State.cluster, modLink_clusters]
@[simp] theorem modLink_die (s : State) (l : Nat) (f : Link → Link) (i : Nat) : (s.modLink l f).die i = s.die i := by simp only [State.die, modLink_dies]

@[simp] theorem post_tile (s : State) (d : Nat) (e : Ev) (u : TileId) : (s.post d e).tile u = s.tile u := rfl
@[simp] theorem post_strand (s : State) (d : Nat) (e : Ev) (u : TileId) (m : StrandNo) : (s.post d e).strand u m = s.strand u m := rfl
@[simp] theorem post_ctx (s : State) (d : Nat) (e : Ev) (k : Nat) : (s.post d e).ctx k = s.ctx k := rfl
@[simp] theorem post_group (s : State) (d : Nat) (e : Ev) (i : Nat) : (s.post d e).group i = s.group i := rfl
@[simp] theorem post_cluster (s : State) (d : Nat) (e : Ev) (i : ClusterId) : (s.post d e).cluster i = s.cluster i := rfl
@[simp] theorem post_die (s : State) (d : Nat) (e : Ev) (i : Nat) : (s.post d e).die i = s.die i := rfl
@[simp] theorem post_link (s : State) (d : Nat) (e : Ev) (i : Nat) : (s.post d e).link i = s.link i := rfl

@[simp] theorem postFirst_tile (s : State) (e : Ev) (u : TileId) : (s.postFirst e).tile u = s.tile u := rfl
@[simp] theorem postFirst_strand (s : State) (e : Ev) (u : TileId) (m : StrandNo) : (s.postFirst e).strand u m = s.strand u m := rfl
@[simp] theorem postFirst_ctx (s : State) (e : Ev) (k : Nat) : (s.postFirst e).ctx k = s.ctx k := rfl
@[simp] theorem postFirst_group (s : State) (e : Ev) (i : Nat) : (s.postFirst e).group i = s.group i := rfl
@[simp] theorem postFirst_cluster (s : State) (e : Ev) (i : ClusterId) : (s.postFirst e).cluster i = s.cluster i := rfl
@[simp] theorem postFirst_die (s : State) (e : Ev) (i : Nat) : (s.postFirst e).die i = s.die i := rfl
@[simp] theorem postFirst_link (s : State) (e : Ev) (i : Nat) : (s.postFirst e).link i = s.link i := rfl

@[simp] theorem report_tile (s : State) (r : Report) (u : TileId) : (s.report r).tile u = s.tile u := rfl
@[simp] theorem report_strand (s : State) (r : Report) (u : TileId) (m : StrandNo) : (s.report r).strand u m = s.strand u m := rfl
@[simp] theorem report_ctx (s : State) (r : Report) (k : Nat) : (s.report r).ctx k = s.ctx k := rfl
@[simp] theorem report_group (s : State) (r : Report) (i : Nat) : (s.report r).group i = s.group i := rfl
@[simp] theorem report_cluster (s : State) (r : Report) (i : ClusterId) : (s.report r).cluster i = s.cluster i := rfl
@[simp] theorem report_die (s : State) (r : Report) (i : Nat) : (s.report r).die i = s.die i := rfl
@[simp] theorem report_link (s : State) (r : Report) (i : Nat) : (s.report r).link i = s.link i := rfl

/-! ### Reads after an update of the same kind -/

theorem tile_setTile (s : State) (t u : TileId) (x : Tile) : (s.setTile t x).tile u = if u = t then x else s.tile u :=
  assocGet_assocSet ..

@[simp] theorem tile_setTile_self (s : State) (t : TileId) (x : Tile) : (s.setTile t x).tile t = x := by simp [tile_setTile]

theorem tile_modTile (s : State) (t u : TileId) (f : Tile → Tile) :
    (s.modTile t f).tile u = if u = t then f (s.tile t) else s.tile u := tile_setTile ..

@[simp] theorem tile_modTile_self (s : State) (t : TileId) (f : Tile → Tile) : (s.modTile t f).tile t = f (s.tile t) := by
  simp [tile_modTile]

theorem tile_modTile_of_ne (s : State) {t u : TileId} (f : Tile → Tile) (h : u ≠ t) : (s.modTile t f).tile u = s.tile u := by
  simp [tile_modTile, h]

theorem tile_modV (s : State) (t u : TileId) (f : VRegs → VRegs) :
    (s.modV t f).tile u = if u = t then { s.tile t with v := f (s.tile t).v } else s.tile u := tile_modTile ..

@[simp] theorem tile_modV_self (s : State) (t : TileId) (f : VRegs → VRegs) :
    (s.modV t f).tile t = { s.tile t with v := f (s.tile t).v } := by simp [tile_modV]

theorem tile_modStrand (s : State) (t u : TileId) (n : StrandNo) (f : Strand → Strand) :
    (s.modStrand t n f).tile u = if u = t then (s.tile t).modStrand n f else s.tile u := tile_modTile ..

@[simp] theorem tile_modStrand_self (s : State) (t : TileId) (n : StrandNo) (f : Strand → Strand) :
    (s.modStrand t n f).tile t = (s.tile t).modStrand n f := by simp [tile_modStrand]

@[simp] theorem modStrand_mem (T : Tile) (n : StrandNo) (f : Strand → Strand) : (T.modStrand n f).mem = T.mem := rfl

@[simp] theorem modStrand_v (T : Tile) (n : StrandNo) (f : Strand → Strand) : (T.modStrand n f).v = T.v := rfl

@[simp] theorem modStrand_galley (T : Tile) (n : StrandNo) (f : Strand → Strand) : (T.modStrand n f).galley = T.galley := rfl

/-- Memory of every tile after a change of a strand. -/
@[simp] theorem mem_modStrand (s : State) (t u : TileId) (n : StrandNo) (f : Strand → Strand) :
    ((s.modStrand t n f).tile u).mem = (s.tile u).mem := by
  rw [tile_modStrand]; split
  · subst u; rfl
  · rfl

/-- Virtual-scope registers of every tile after a change of a strand. -/
@[simp] theorem v_modStrand (s : State) (t u : TileId) (n : StrandNo) (f : Strand → Strand) :
    ((s.modStrand t n f).tile u).v = (s.tile u).v := by
  rw [tile_modStrand]; split
  · subst u; rfl
  · rfl

/-- Memory of every tile after a change of virtual-scope registers. -/
@[simp] theorem mem_modV (s : State) (t u : TileId) (f : VRegs → VRegs) : ((s.modV t f).tile u).mem = (s.tile u).mem := by
  rw [tile_modV]; split
  · subst u; rfl
  · rfl

/-- Strands of every tile after a change of virtual-scope registers. -/
@[simp] theorem strand_modV (s : State) (t u : TileId) (n : StrandNo) (f : VRegs → VRegs) :
    (s.modV t f).strand u n = s.strand u n := by
  simp only [State.strand, tile_modV]; split
  · subst u; rfl
  · rfl

/-- A strand after a change of a strand. -/
theorem strand_modStrand (s : State) (t u : TileId) (n m : StrandNo) (f : Strand → Strand) :
    (s.modStrand t n f).strand u m = if u = t ∧ m = n then f (s.strand t n) else s.strand u m := by
  simp only [State.strand, tile_modStrand]
  by_cases hu : u = t
  · subst u
    by_cases hm : m = n
    · subst m; simp [Tile.modStrand]
    · have : n.val ≠ m.val := fun h => hm (Fin.ext h.symm)
      simp [Tile.modStrand, hm, Vector.getElem_set_ne _ _ this]
  · simp [hu]

@[simp] theorem strand_modStrand_self (s : State) (t : TileId) (n : StrandNo) (f : Strand → Strand) :
    (s.modStrand t n f).strand t n = f (s.strand t n) := by simp [strand_modStrand]

theorem strand_modStrand_of_ne (s : State) {t u : TileId} {n m : StrandNo} (f : Strand → Strand) (h : u ≠ t ∨ m ≠ n) :
    (s.modStrand t n f).strand u m = s.strand u m := by
  rw [strand_modStrand, if_neg]; rintro ⟨a, b⟩; exact h.elim (· a) (· b)

theorem cluster_modCluster (s : State) (c d : ClusterId) (f : Cluster → Cluster) :
    (s.modCluster c f).cluster d = if d = c then f (s.cluster c) else s.cluster d := assocGet_assocSet ..

theorem ctx_modCtx (s : State) {c : Nat} (k : Nat) (f : Ctx → Ctx) (h : c < 32) :
    (s.modCtx c f).ctx k = if k = c then f (s.ctx c) else s.ctx k := by
  simp only [State.ctx, State.modCtx]
  by_cases hk : k = c
  · subst k; simp [h]
  · simp only [hk, if_false]
    rw [Vector.getElem?_setIfInBounds]
    simp [Ne.symm hk]

theorem die_modDie (s : State) {d : Nat} (k : Nat) (f : Die → Die) (h : d < 4) :
    (s.modDie d f).die k = if k = d then f (s.die d) else s.die k := by
  simp only [State.die, State.modDie]
  by_cases hk : k = d
  · subst k; simp [h]
  · simp only [hk, if_false]
    rw [Vector.getElem?_setIfInBounds]
    simp [Ne.symm hk]

theorem link_modLink (s : State) {l : Nat} (k : Nat) (f : Link → Link) (h : l < 64) :
    (s.modLink l f).link k = if k = l then f (s.link l) else s.link k := by
  simp only [State.link, State.modLink]
  by_cases hk : k = l
  · subst k; simp [h]
  · by_cases h2 : k < 64
    · simp [hk, h2]
    · simp [hk, h2]

/-! ### Registers of a strand -/

@[simp] theorem rg_zero (S : Strand) : S.rg 0 = 0 := rfl

/-- g0 reads zero, the register written its value, every other what it held (R58). -/
theorem rg_wg (S : Strand) (d k : BitVec 5) (v : Word) :
    (S.wg d v).rg k = if k = 0 then 0 else if k = d then v else S.rg k := by
  unfold Strand.rg Strand.wg
  by_cases hk : k = 0
  · simp only [hk, if_true]
  · by_cases hd : d = 0
    · subst d; simp only [hk, if_false, if_true]
    · by_cases h : k = d
      · subst k; simp only [hd, if_false, if_true, Vector.getElem_set_self]
      · have : d.toNat ≠ k.toNat := fun e => h (BitVec.eq_of_toNat_eq e.symm)
        simp only [hk, hd, h, if_false, Vector.getElem_set_ne _ _ this]

@[simp] theorem wg_zero (S : Strand) (v : Word) : S.wg 0 v = S := rfl

theorem rw_ww (S : Strand) (d k : BitVec 4) (v : VWord) : (S.ww d v).rw k = if k = d then v else S.rw k := by
  unfold Strand.rw Strand.ww
  by_cases h : k = d
  · subst k; simp
  · have : d.toNat ≠ k.toNat := fun e => h (BitVec.eq_of_toNat_eq e.symm)
    simp [h, Vector.getElem_set_ne _ _ this]

@[simp] theorem rp_zero (S : Strand) : S.rp 0 = true := rfl

@[simp] theorem wp_zero (S : Strand) (b : Bool) : S.wp 0 b = S := rfl

/-- p0 reads true, the predicate written its value, every other what it held (R58, R63). -/
theorem rp_wp (S : Strand) (d k : BitVec 3) (b : Bool) :
    (S.wp d b).rp k = if k = 0 then true else if k = d then b else S.rp k := by
  have bit : ∀ (p : BitVec 8) (d k : BitVec 3) (b : Bool),
      ((p &&& ~~~((1 : BitVec 8) <<< d.toNat)) ||| ((BitVec.ofBool b).setWidth 8 <<< d.toNat)).getLsbD k.toNat =
        if k = d then b else p.getLsbD k.toNat := by
    intro p d k b
    have hk := k.isLt
    have hd := d.isLt
    simp only [BitVec.getLsbD_or, BitVec.getLsbD_and, BitVec.getLsbD_not, BitVec.getLsbD_shiftLeft,
      BitVec.getLsbD_setWidth, BitVec.getLsbD_ofBool]
    by_cases h : k = d
    · subst k; simp; omega
    · have : k.toNat ≠ d.toNat := fun e => h (BitVec.eq_of_toNat_eq e)
      simp only [h, if_false]
      rcases Nat.lt_or_gt_of_ne this with hl | hg
      · simp [hl]; intro; omega
      · have h1 : k.toNat - d.toNat ≠ 0 := by omega
        simp [h1]; intro; omega
  unfold Strand.rp Strand.wp
  by_cases hk : k = 0
  · subst k; rfl
  · have hb : (k == 0) = false := by simpa using hk
    by_cases hd : d = 0
    · subst d; simp only [hk, if_false, if_true]
    · simp only [hd, hk, if_false, hb, Bool.false_or, bit]

@[simp] theorem wg_rp (S : Strand) (d : BitVec 5) (v : Word) (k : BitVec 3) : (S.wg d v).rp k = S.rp k := by
  unfold Strand.wg; split <;> rfl

@[simp] theorem wg_rw (S : Strand) (d : BitVec 5) (v : Word) (k : BitVec 4) : (S.wg d v).rw k = S.rw k := by
  unfold Strand.wg; split <;> rfl

@[simp] theorem wp_rg (S : Strand) (d : BitVec 3) (b : Bool) (k : BitVec 5) : (S.wp d b).rg k = S.rg k := by
  unfold Strand.wp; split <;> rfl

@[simp] theorem ww_rg (S : Strand) (d : BitVec 4) (v : VWord) (k : BitVec 5) : (S.ww d v).rg k = S.rg k := rfl

end Sys2Proof.Laws
end

