-- ==== Sys2Proof/Laws/Trap.lean ====
section
/-! SUPPORT. What taking a trap, a vote and the four ends of an instruction leave. -/

namespace Sys2Proof.Laws

open Sys2Proof Sys2Proof.Machine

/-! ### Votes and records -/

/-- A vote changes nothing but the causes that the tile has to vote. -/
theorem vote_cases (s : State) (t : TileId) (c : Cause) (n : Nat) (pc : BitVec 21) (i : BitVec 32) :
    vote s t c n pc i = s ∨ vote s t c n pc i =
      s.modV t (fun v => { v with votes := v.votes ++ [recordOf s t c 1 false n pc i] }) := by
  unfold vote; split
  · exact .inr rfl
  · exact .inl rfl

@[simp] theorem vote_mem (s : State) (t u : TileId) (c : Cause) (n : Nat) (pc : BitVec 21) (i : BitVec 32) :
    ((vote s t c n pc i).tile u).mem = (s.tile u).mem := by
  rcases vote_cases s t c n pc i with h | h <;> simp [h]

@[simp] theorem vote_strand (s : State) (t u : TileId) (c : Cause) (n : Nat) (m : StrandNo) (pc : BitVec 21) (i : BitVec 32) :
    (vote s t c n pc i).strand u m = s.strand u m := by
  rcases vote_cases s t c n pc i with h | h <;> simp [h]

theorem vote_tile_of_ne (s : State) {t u : TileId} (c : Cause) (n : Nat) (pc : BitVec 21) (i : BitVec 32) (h : u ≠ t) :
    (vote s t c n pc i).tile u = s.tile u := by
  rcases vote_cases s t c n pc i with e | e <;> simp [e, tile_modV, h]

@[simp] theorem vote_c (s : State) (t u : TileId) (c : Cause) (n : Nat) (pc : BitVec 21) (i : BitVec 32) :
    ((vote s t c n pc i).tile u).v.c = (s.tile u).v.c := by
  rcases vote_cases s t c n pc i with h | h
  · simp [h]
  · rw [h, tile_modV]; split
    · subst u; rfl
    · rfl

/-- A vote changes tiles alone. -/
@[simp] theorem vote_rest (s : State) (t : TileId) (c : Cause) (n : Nat) (pc : BitVec 21) (i : BitVec 32) :
    { vote s t c n pc i with tiles := s.tiles } = s := by
  rcases vote_cases s t c n pc i with h | h <;> rw [h] <;> rfl

theorem vote_agenda (s : State) (t : TileId) (c : Cause) (n : Nat) (pc : BitVec 21) (i : BitVec 32) :
    (vote s t c n pc i).agenda = s.agenda := by
  rcases vote_cases s t c n pc i with h | h <;> rw [h]; rfl

/-- What a strand that enters TRAPPED votes: one vote of some cause. -/
theorem trappedVote_vote (s : State) (t : TileId) (c : Cause) (n : StrandNo) (pc : BitVec 21) (i : BitVec 32) :
    ∃ c', trappedVote s t c n pc i = vote s t c' n.val pc i := by
  unfold trappedVote; split
  · exact ⟨_, rfl⟩
  · split
    · exact ⟨_, rfl⟩
    · exact ⟨_, rfl⟩

/-! ### Taking a trap -/

/-- Everything that taking a trap can do: the strand goes to its handler, with a vote or without one, or it is TRAPPED with a
record and a vote. The strand keeps all but its state, its wait and the trap registers. -/
theorem takeTrap_cases (s : State) (t : TileId) (n : StrandNo) (c : Cause) (i : BitVec 32) (pc succ : BitVec 21) :
    let ret := if c = .swtrap then succ else pc
    let S := s.strand t n
    let base : Strand := { S with tcause := tcauseOf false i c, trappc := ret.setWidth 64, wait := .idle, passed := false }
    let on : State := s.modStrand t n (fun _ =>
      { base with inHandler := true, st := .ready, notBefore := s.cycle + 1, watching := decide (c = .watch),
                  pc := if c = .overlay then (s.tile t).v.ovb.extractLsb' 0 21 else (s.tile t).v.tvec.extractLsb' 0 21 })
    let off : State := s.modStrand t n (fun _ => { base with st := .trapped })
    (trapHandled (s.tile t) S c = true ∧ (c = .galley ∨ c = .conflict) ∧ takeTrap s t n c i pc succ = vote on t c n.val ret i) ∨
    (trapHandled (s.tile t) S c = true ∧ ¬(c = .galley ∨ c = .conflict) ∧ takeTrap s t n c i pc succ = on) ∨
    (trapHandled (s.tile t) S c = false ∧ ∃ c',
      takeTrap s t n c i pc succ = vote (off.post 1 (.trapRecordArrival (recordOf off t c 0 false n.val ret i))) t c' n.val ret i) := by
  intro ret S base on off
  unfold takeTrap
  simp only []
  by_cases h : trapHandled (s.tile t) S c = true
  · have h' : trapHandled (s.tile t) (s.tile t).strands[n.val] c = true := h
    rw [if_pos h']
    by_cases hc : c = .galley ∨ c = .conflict
    · rw [if_pos hc]; exact .inl ⟨h, hc, rfl⟩
    · rw [if_neg hc]; exact .inr (.inl ⟨h, hc, rfl⟩)
  · have h' : ¬ trapHandled (s.tile t) (s.tile t).strands[n.val] c = true := h
    rw [if_neg h']
    obtain ⟨c', hv⟩ := trappedVote_vote (off.post 1 (.trapRecordArrival (recordOf off t c 0 false n.val ret i))) t c n ret i
    exact .inr (.inr ⟨by simpa using h, c', hv⟩)

@[simp] theorem takeTrap_mem (s : State) (t u : TileId) (n : StrandNo) (c : Cause) (i : BitVec 32) (pc succ : BitVec 21) :
    ((takeTrap s t n c i pc succ).tile u).mem = (s.tile u).mem := by
  rcases takeTrap_cases s t n c i pc succ with ⟨-, -, h⟩ | ⟨-, -, h⟩ | ⟨-, c', h⟩ <;> simp [h]

@[simp] theorem takeTrap_c (s : State) (t u : TileId) (n : StrandNo) (c : Cause) (i : BitVec 32) (pc succ : BitVec 21) :
    ((takeTrap s t n c i pc succ).tile u).v.c = (s.tile u).v.c := by
  rcases takeTrap_cases s t n c i pc succ with ⟨-, -, h⟩ | ⟨-, -, h⟩ | ⟨-, c', h⟩ <;> simp [h]

theorem takeTrap_tile_of_ne (s : State) {t u : TileId} (n : StrandNo) (c : Cause) (i : BitVec 32) (pc succ : BitVec 21)
    (hu : u ≠ t) : (takeTrap s t n c i pc succ).tile u = s.tile u := by
  rcases takeTrap_cases s t n c i pc succ with ⟨-, -, h⟩ | ⟨-, -, h⟩ | ⟨-, c', h⟩ <;>
    simp [h, vote_tile_of_ne, tile_modStrand, hu]

theorem takeTrap_strand_of_ne (s : State) (t : TileId) {n m : StrandNo} (c : Cause) (i : BitVec 32) (pc succ : BitVec 21)
    (hm : m ≠ n) : (takeTrap s t n c i pc succ).strand t m = s.strand t m := by
  rcases takeTrap_cases s t n c i pc succ with ⟨-, -, h⟩ | ⟨-, -, h⟩ | ⟨-, c', h⟩ <;>
    simp [h, strand_modStrand, hm]

/-- The package but for its tiles and its agenda. -/
theorem takeTrap_rest (s : State) (t : TileId) (n : StrandNo) (c : Cause) (i : BitVec 32) (pc succ : BitVec 21) :
    { takeTrap s t n c i pc succ with tiles := s.tiles, agenda := s.agenda } = s := by
  have key : ∀ (a : State) (c' : Cause) (k : Nat) (ret : BitVec 21), { vote a t c' k ret i with tiles := s.tiles, agenda := s.agenda } =
      { a with tiles := s.tiles, agenda := s.agenda } := by
    intro a c' k ret
    rcases vote_cases a t c' k ret i with h | h <;> rw [h]; rfl
  rcases takeTrap_cases s t n c i pc succ with ⟨-, -, h⟩ | ⟨-, -, h⟩ | ⟨-, c', h⟩ <;> rw [h] <;> try rw [key]
  all_goals rfl

/-! ### The ends of an instruction -/

@[simp] theorem wentTo_mem (s s' : State) (pc : BitVec 21) (u : TileId) : ((wentTo s s' pc).tile u).mem = (s'.tile u).mem := by
  simp only [wentTo, mem_modStrand, tile_modTile]; split
  · subst u; rfl
  · rfl

@[simp] theorem retired_mem (s s' : State) (len : Nat) (u : TileId) : ((retired s s' len).tile u).mem = (s'.tile u).mem :=
  wentTo_mem ..

@[simp] theorem blocked_mem (s s' : State) (len : Nat) (w : Wait) (u : TileId) :
    ((blocked s s' len w).tile u).mem = (s'.tile u).mem := by
  simp only [blocked, mem_modStrand, tile_modTile]; split
  · subst u; rfl
  · rfl

@[simp] theorem deferred_mem (s : State) (len : Nat) (w : Wait) (u : TileId) :
    ((deferred s len w).tile u).mem = (s.tile u).mem := by
  simp only [deferred, passOn, mem_modStrand]; rfl

@[simp] theorem took_mem (s : State) (t u : TileId) (n : StrandNo) : ((took s t n).tile u).mem = (s.tile u).mem := by
  simp only [took, tile_modTile]; split
  · subst u; rfl
  · rfl

@[simp] theorem trapTaken_mem (s : State) (len : Nat) (c : Cause) (i : BitVec 32) (u : TileId) :
    ((trapTaken s len c i).tile u).mem = (s.tile u).mem := by
  simp [trapTaken]

/-- No check of an issue, and no end of an instruction without an effect of its own, changes a byte of a tile's memory. -/
theorem issue_mem {s s' : State} {p : Pred} {who : Who} {srcs : List Src} {dsts : List Dst} {len : Nat}
    {body : State → TileId → StrandNo → Act} (u : TileId)
    (hb : ((finishAct s s.cur.1 s.cur.2 len (body s s.cur.1 s.cur.2)).tile u).mem = (s.tile u).mem)
    (h : issue p len who srcs dsts body s = .next s') : (s'.tile u).mem = (s.tile u).mem := by
  rcases issue_cases h with ⟨a, ha, e⟩ | ⟨-, -, -, e⟩ | ⟨-, e⟩
  · obtain rfl : s' = _ := by injection e
    rcases checkIssue_cases ha with ⟨rfl, -⟩ | ⟨c, i, rfl⟩ | ⟨w, rfl⟩ <;> simp
  · cases e
  · obtain rfl : s' = _ := by injection e
    exact hb

end Sys2Proof.Laws
end

