-- ==== Sys2Proof/Tests/Slice0.lean ====
section
/-! SUPPORT. Tests: ill-formed terms that the field rules refuse, words worked out in the spec, single steps with results
worked by hand from the rules, and for each statement a state and operands that meet its hypotheses. -/

namespace Sys2Proof.Tests

set_option Elab.async false

open Sys2Proof Sys2Proof.Machine

/-! ### The field rules refuse (R8, R58 to R62) -/

/-- The predicate "always". -/
abbrev al : Pred := ⟨0, false⟩

/-- A g source. -/
abbrev g (r : BitVec 5) : GSrc := ⟨r, false⟩

/-- A w source of a vector position. -/
abbrev w (r : BitVec 4) : VSrc := ⟨.w r, false⟩

/-- Operands of a three-register vector form: w1, w2, w3. -/
abbrev w123 (ty : BitVec 4) : VOps := ⟨ty, .w 1, w 2, w 3⟩

theorem test_illformed_scalar :
    wellFormed (.cmp al 10 1 (g 1) (g 2) 0) = false ∧ wellFormed (.addd al (g 1) (.g 2 (g 2)) 0) = false ∧
    wellFormed (.lnkrd al 6 1 (g 1)) = false ∧ wellFormed (.lnkret al 68 1 (g 1)) = false := by decide

theorem test_illformed_vector :
    wellFormed (.vadd al false (w123 10) 0 none) = false ∧ wellFormed (.vsub al false (w123 1) 1 none) = false ∧
    wellFormed (.vmul al true (w123 8) 0 none) = false ∧ wellFormed (.vadd al false (w123 8) 4 none) = false ∧
    wellFormed (.vfma al 3 0 (w123 8) (w 4)) = false ∧ wellFormed (.vfma al 0 5 (w123 8) (w 4)) = false ∧
    wellFormed (.vfma al 0 0 (w123 1) (w 4)) = false ∧ wellFormed (.vmin al (w123 10)) = false ∧
    wellFormed (.vmax al (w123 13)) = false ∧ wellFormed (.vdiv al 0 (w123 9)) = false ∧
    wellFormed (.vdiv al 5 (w123 8)) = false ∧ wellFormed (.vsqrt al 5 (.w 1) (w 2)) = false ∧
    wellFormed (.vrsq al 6 (.w 1) (w 2)) = false ∧ wellFormed (.vexp2 al 7 (.w 1) (w 2)) = false ∧
    wellFormed (.vlog2 al 5 (.w 1) (w 2)) = false ∧ wellFormed (.vcmp al 7 (w123 8)) = false ∧
    wellFormed (.vcmp al 0 (w123 10)) = false ∧ wellFormed (.vsel al (w123 12) (w 4)) = false := by decide

theorem test_illformed_vector_moves :
    wellFormed (.vcvt al 1 2 0 1 (.w 1) (w 2) none none) = false ∧
    wellFormed (.vcvt al 8 10 0 0 (.q 1) (w 2) none none) = false ∧
    wellFormed (.vcvt al 12 8 0 0 (.w 1) (w 2) none none) = false ∧
    wellFormed (.vcvtXs al 8 12 0 4 (.w 1) (w 2) none) = false ∧ wellFormed (.vcvtXs al 13 8 0 0 (.w 1) (w 2) none) = false ∧
    wellFormed (.vredSum al 10 0 1 (w 2)) = false ∧ wellFormed (.vredSum al 1 1 1 (w 2)) = false ∧
    wellFormed (.vredMin al 10 1 (w 2)) = false ∧ wellFormed (.vredMax al 11 1 (w 2)) = false ∧
    wellFormed (.vredAmax al 12 1 (w 2)) = false ∧ wellFormed (.vperm al (w123 12)) = false ∧
    wellFormed (.vshuf al 6 8 (.w 1) (w 2) none 0) = false ∧ wellFormed (.vshuf al 0 8 (.w 1) (w 2) none 0) = false ∧
    wellFormed (.vshuf al 4 8 (.w 1) (w 2) none 1) = false ∧ wellFormed (.vbcast al 12 (.w 1) (g 2)) = false ∧
    wellFormed (.vbcastLane al 13 (.w 1) (w 2) 0) = false ∧ wellFormed (.vshift al 0 8 (.w 1) (w 2) (.imm 1)) = false ∧
    wellFormed (.vmovgGet al 12 1 (w 2) 0) = false ∧ wellFormed (.vmovgPut al 12 1 (g 2) 0) = false := by decide

theorem test_illformed_engines :
    wellFormed (.vlard al 5 (.w 1) (g 1) (g 2) 0) = false ∧ wellFormed (.mma al 8 false 0) = false ∧
    wellFormed (.mma al 9 true 0) = false ∧ wellFormed (.mmam al 9 true 0 (.imm 0)) = false ∧
    wellFormed (.mmam al 10 false 0 (.reg (g 0))) = false ∧ wellFormed (.saa al 9 0 0 .one (g 1) (g 2)) = false ∧
    wellFormed (.acc al 7 0 0 (g 1) (g 2)) = false ∧ wellFormed (.lard al false 5 0 (g 1) (g 2) (g 3)) = false ∧
    wellFormed (.ptmovSt al 9 0 (g 1)) = false ∧ wellFormed (.ptmovLd al 9 0 (g 1)) = false ∧
    wellFormed (.ptmovGet al 9 0 0 1) = false ∧ wellFormed (.smp al 9 false 0 (g 1) 2 (g 3)) = false ∧
    wellFormed (.smpl al 8 false 0 0 (g 1) 2 (g 3)) = false ∧ wellFormed (.sbindIn al false 1 0 (g 1) (g 2) (g 3) 0) = false ∧
    wellFormed (.sbindOut al false 1 0 (g 1) (g 2) (g 3) 0) = false ∧
    wellFormed (.sbindFa al false false 1 (g 1) (g 2) (g 3) 0) = false ∧
    wellFormed (.sbindFb al false false 1 (g 1) (g 2) (g 3) 0) = false ∧ wellFormed .resultDelivery = false := by decide

/-! ### Words that the spec works out -/

/-- 03_encoding, "Worked encodings"; R92; R104; R89; the examples of 05_strand, 21 and 26. -/
theorem test_words_scalar :
    decodeTableWord 64 0xFFFFFF7400061405 = some (.add al ⟨5, 5, g 6, .imm (BitVec.ofInt 26 (-3))⟩) ∧
    decodeTableWord 128 0x0123456789ABCDEF0000000000001C5B = some (.li al 7 0x0123456789ABCDEF) ∧
    decodeTableWord 64 0x0000028000000C69 = some (.mfs al 3 0x00A) ∧
    decodeTableWord 64 0x000001400009006D = some (.mts al (g 9) 0x005) ∧
    decodeTableWord 96 0x243000040240009E = some (.waitc al true (g 0) (g 9) 3 4 2) ∧
    decodeTableWord 64 0xFFFFFF0040000081 = some (.br ⟨1, false⟩ (BitVec.ofInt 26 (-4))) ∧
    decodeTableWord 64 0xFFFFFA8000002091 = some (.loop al 8 (BitVec.ofInt 26 (-22))) ∧
    decodeTableWord 64 0x00000140038A2071 = some (.addc al 0 8 (g 10) (g 14) 5) ∧
    decodeTableWord 96 0x024A2C62 = some (.gtaIdx al 11 (g 10) (g 9)) := by decide

/-- R89, 05_strand, 21 and 22: memory forms. -/
theorem test_words_memory :
    decodeTableWord 64 0x00000414000710C1 = some (.ld al 5 4 (g 7) 0x10) ∧
    decodeTableWord 64 0x00000304000834C1 = some (.ld al 1 13 (g 8) 12) ∧
    decodeTableWord 64 0x000000000A4800E5 = some (.stw al (g 8) ⟨9, false⟩ 0) ∧
    decodeTableWord 96 0x018B00CE = some (.stg al (g 11) (.g 0 (g 6)) 0) ∧
    decodeTableWord 96 0x0000000800000004039000CE = some (.stg al (g 16) (.g 1 (g 14)) 0x80) ∧
    decodeTableWord 96 0x000008000040000402CA00A2 = some (.ovlHbm al (g 10) (g 11) 4 0x8000) := by decide

/-- 03_encoding, 06_vector, 22, 26: vector forms. -/
theorem test_words_vector :
    decodeTableWord 64 0x00084982A9648D0D = some (.vfma ⟨2, true⟩ 0 2 ⟨8, .w 3, w 4, ⟨.w 5, true⟩⟩ (w 6)) ∧
    decodeTableWord 64 0x0008000008E28501 = some (.vadd al false (w123 8) 0 none) ∧
    decodeTableWord 64 0x000000000184895D = some (.vrng al false (.w 2) (g 4) (g 6)) ∧
    decodeTableWord 64 0x01F8001400219549 = some (.vshuf al 5 8 (.w 5) (w 1) none 31) ∧
    decodeTableWord 64 0x000808800829A531 = some (.vsel al ⟨8, .w 9, w 9, w 0⟩ (w 2)) := by decide

/-- 07_accumulator, 08_sampler, 09_stream: engine forms. -/
theorem test_words_engines :
    decodeTableWord 64 0x002A000000000181 = some (.mma al 10 false 2) ∧
    decodeTableWord 64 0x000A000400000181 = some (.mma al 10 true 0) ∧
    decodeTableWord 128 0xFFFFFFFF3FFFFFFF000A000000000187 = some (.mmam al 10 false 0 (.imm 0xFFFFFFFF3FFFFFFF)) ∧
    decodeTableWord 64 0x0058030001630189 = some (.saa al 8 1 1 (.reg (w 3)) (g 5) (g 12)) ∧
    decodeTableWord 96 0x00000010002D00000248019A = some (.drain al false 2 (g 8) (g 9) 0x100) ∧
    decodeTableWord 64 0x001A0300018401C9 = some (.smp al 10 false 1 (g 4) 6 (g 12)) ∧
    decodeTableWord 96 0x005A0280018401CE = some (.smpl al 10 false 0 5 (g 4) 6 (g 10)) ∧
    decodeTableWord 96 0x0123456787300188014401EA = some (.cpy al 2 7 3 (g 4) (g 5) (g 6) 0x12345678 0) ∧
    decodeTableWord 128 0x011000040002D5E3 = some (.sbindOut al true 1 5 (g 2) (g 0) (g 0) 0) := by decide

/-- 11_context to 18_link, 20_energy: barriers, collectives, the dispatcher, the group, pages, contexts, links, energy. -/
theorem test_words_system :
    decodeTableWord 64 0x0010000000061605 = some (.barv al 1 5 (g 6)) ∧
    decodeTableWord 64 0x0050000000000211 = some (.vabort al 5) ∧
    decodeTableWord 96 0x1200000000070216 = some (.bcfg al 2 (g 7) 1) ∧
    decodeTableWord 64 0x0010000000040241 = some (.coll al 1 (g 4)) ∧
    decodeTableWord 64 0x0410000000000249 = some (.pcan al 1 8) ∧
    decodeTableWord 64 0x0218000000058A4D = some (.prdF32 al 1 4 2 (g 5)) ∧
    decodeTableWord 64 0x0020000000061669 = some (.enq al 2 5 (g 6)) ∧
    decodeTableWord 64 0x0000000C00030A71 = some (.cancel al 3 2 (g 3) (g 0)) ∧
    decodeTableWord 64 0x0000000C00061675 = some (.vtidHost al 5 (g 6)) ∧
    decodeTableWord 64 0x0000000000070279 = some (.offer al (g 7)) ∧
    decodeTableWord 96 0x0030000000061686 = some (.offl al 3 5 (g 6) 0) ∧
    decodeTableWord 64 0x0000000800030A91 = some (.pinUns al 2 (g 3)) ∧
    decodeTableWord 64 0x00000540000002C1 = some (.trap al 0x15) ∧
    decodeTableWord 64 0x00000004000602D1 = some (.killCtx al (g 6) 0) ∧
    decodeTableWord 64 0x00100000000616A1 = some (.lnkrd al 1 5 (g 6)) ∧
    decodeTableWord 96 0x01C612A6 = some (.lnkset al 4 (g 6) (g 7)) ∧
    decodeTableWord 64 0x0400000000030AA9 = some (.lnkret al 64 2 (g 3)) ∧
    decodeTableWord 64 0x00100000000616DD = some (.ecntK al 1 5 (g 6)) ∧
    decodeTableWord 96 0x4000000400030ADA = some (.tstRd al 4 2 (g 3)) := by decide

/-- R53, R62, R67: LEN = 0b00, an unassigned opcode, a reserved bit. -/
theorem test_words_refused :
    decodeTableWord 64 0x0000000000061404 = none ∧ decodeTableWord 64 0x0000000000000075 = none ∧
    decodeTableWord 64 0x0000004000000001 = none ∧ decodeTableWord 64 0x8000000000000241 = none := by decide

/-- The encoder gives the same words (03_encoding, 18_link). -/
theorem test_encode :
    encode (.add al ⟨5, 5, g 6, .imm (BitVec.ofInt 26 (-3))⟩) = some (.i64, 0xFFFFFF7400061405) ∧
    encode (.lnkret al 64 2 (g 3)) = some (.t64, 0x0400000000030AA9) ∧
    encodeBytes (.vadd al false (w123 8) 0 none) = [0x01, 0x85, 0xE2, 0x08, 0x00, 0x00, 0x08, 0x00] := by decide

/-! ### Small states -/

/-- A PARTW: code 1, register file 3, scratch 16, accumulator 8, galley 2, foreshore 1 granules. -/
abbrev part : Word := 0x0004020201000C01

/-- A strand that may issue. -/
def run : Strand := { st := .ready }

/-- A tile of group 1 of context 1 whose strand 0 may issue. -/
def tile (idx : BitVec 20) : Tile :=
  { running := true, group := 1, ctx := 1, strands := (Vector.replicate 11 {}).set 0 run
    v := { v := 2, idx := idx, ord := idx.toNat, partw := part } }

/-- The group of two tiles. -/
def grp : Group := { id := 1, ctx := 1, st := .running, v := 2, hosts := [0, 1], node := ⟨3, 0, 0, 0, 0⟩, timer := 1000 }

/-- A context that lives, with the segment entries of its two tiles. -/
def ctx1 : Ctx :=
  { st := .live, kernels := [{ kimg := 0, st := .running, partw := part, groups := 1 }]
    seg := [(0, 0xF00000000007C000), (1, 0xF00000000107C000)] }

/-- Strand 0 of tile 0 issues; tile 1 of the same cluster belongs to the group as well. -/
def base : State :=
  { State.reset with
    tiles := [(0, tile 0), (1, tile 1)], groups := [grp], clusters := [(0, { power := .awake, gate := true })]
    ctxs := State.reset.ctxs.set 1 ctx1 }

/-- g registers written into the strand that issues. -/
def regs (l : List (BitVec 5 × Word)) (s : State) : State := l.foldl (fun s x => putG s x.1 x.2) s

/-- A change of tile 0. -/
def on0 (f : Tile → Tile) (s : State) : State := s.modTile 0 f

/-- A change of the strand that issues. -/
def me (f : Strand → Strand) (s : State) : State := s.modStrand s.cur.1 s.cur.2 f

/-- Strand n issues. -/
def asStrand (n : StrandNo) (s : State) : State := { (s.modStrand 0 n (fun _ => run)) with cur := (0, n) }

/-- The root monitor core issues (R212). -/
def onMonitor (s : State) : State :=
  { s.setTile monitorTile { running := true, strands := (Vector.replicate 11 {}).set 0 run } with cur := (monitorTile, 0) }

/-- All of Ready, as one test. -/
def readyB (s : State) (p : Pred) (who : Who) (srcs : List Src) (dsts : List Dst) : Bool :=
  predTrue (self s) p &&
  (match who with
    | .any => true
    | .tile => s.cur.1 != monitorTile
    | .control => s.cur.1 != monitorTile && s.cur.2.val == 0
    | .zero => s.cur.2.val == 0
    | .monitor => s.cur.1 == monitorTile) &&
  srcs.all (fun x => !srcEmpty (self s) srcs x) && (streamTrap (self s) srcs dsts).isNone &&
  dsts.all (fun d => !(self s).isEmpty d) && (fullQ (self s) dsts).isNone && !lateQ (here s) (self s) dsts

theorem ready {s : State} {p : Pred} {who : Who} {srcs : List Src} {dsts : List Dst} (h : readyB s p who srcs dsts = true) :
    Ready s p who srcs dsts := by
  simp only [readyB, Bool.and_eq_true, List.all_eq_true, Bool.not_eq_true', Option.isNone_iff_eq_none] at h
  obtain ⟨⟨⟨⟨⟨⟨h1, h2⟩, h3⟩, h4⟩, h5⟩, h6⟩, h7⟩ := h
  exact ⟨h1, by cases who <;> simp_all [mayRun], h3, h4, h5, h6, h7⟩

/-- Offsets below 1 MiB lie in every tile's store (R17). -/
theorem below_cap (t : TileId) (n : Nat) (ht : t ≠ monitorTile) (h : n ≤ 0x100000) : n ≤ capOf t := by
  unfold capOf
  rw [if_neg ht]
  split <;> omega

/-- The checks of the receiving interface, but for CAP. -/
theorem seg_ok {s : State} {ctx : Nat} {ea : Word} {kind n : Nat} {q : Group} {t : TileId} {k : Nat}
    (hl : locate s ctx (eaIdx ea) = some (q, t, k)) (ht : t ≠ monitorTile) (hc : eaOfs ea + n ≤ 0x100000)
    (h : (let e := assocGet 0 (eaIdx ea).toNat (s.ctx ctx).seg
      let w := (slotRegs (s.tile t) k).partw
      e.getLsbD 63 && (e.extractLsb' 24 20).setWidth 12 == BitVec.ofNat 12 t && e.extractLsb' 36 8 == s.chip &&
       (s.tile t).running && decide (eaOfs ea + n ≤ e.toNat % 2 ^ 22) &&
       (if kind = segLoad then e.getLsbD 62 else if foreAt w (eaOfs ea) then e.getLsbD 60
        else kind == segWrite && e.getLsbD 61) && dataOk w (eaOfs ea) n &&
       (kind == segLoad || !claimed (slotRegs (s.tile t) k) (eaOfs ea) n)) = true) :
    segCheck s ctx ea kind n = some (t, k) := by
  have hcap : decide (eaOfs ea + n ≤ capOf t) = true := by simpa using below_cap t _ ht hc
  simp only [segCheck, hl]
  simp only [] at h
  rw [if_pos]
  simp only [hcap, Bool.and_true]
  exact h

/-- Ready for several forms at once: who may issue, sources, destinations. -/
theorem allReady {s : State} {p : Pred} {l : List (Who × List Src × List Dst)}
    (h : l.all (fun x => readyB s p x.1 x.2.1 x.2.2) = true) : ∀ x ∈ l, Ready s p x.1 x.2.1 x.2.2 :=
  fun x hx => ready (List.all_eq_true.mp h x hx)

/-! ### Single steps -/

/-- R53, R54: the word at the program counter runs as the first instruction. -/
theorem test_step_nop : (match step (State.reset.withFetchWord 64 0x1) with
    | .next s => decide ((s.strand 0 0).pc = 8) | _ => false) = true := by decide

/-- R99: `add.i32` of 2 and -3 gives -1, extended by its sign. -/
theorem test_add : (match exec (.add al ⟨5, 5, g 6, .imm (BitVec.ofInt 26 (-3))⟩) (regs [(6, 2)] base) with
    | .next s => decide ((self s).rg 5 = 0xFFFFFFFFFFFFFFFF ∧ (self s).pc = 8) | _ => false) = true := by decide

/-- R58: a write to g0 is discarded. -/
theorem test_add_g0 : (match exec (.add al ⟨0, 0, g 6, .reg (g 6)⟩) (regs [(6, 2)] base) with
    | .next s => decide ((self s).rg 0 = 0) | _ => false) = true := by decide

/-- R34: -2^31 by -1 is -2^31; the result comes 20 cycles later (Table 5.3), until then the register is empty. -/
theorem test_div : (match exec (.div al ⟨5, 5, g 6, .reg (g 7)⟩) (regs [(6, 0x80000000), (7, 0xFFFFFFFF)] base) with
    | .next s => decide ((self s).isEmpty (.g 5) = true ∧
        s.agenda = [(20, .resultDelivery 0 0 0 (.g 5) 0xFFFFFFFF80000000)]) | _ => false) = true := by decide +kernel

/-- R100: the worked sum of two 128-bit numbers carries into p5. -/
theorem test_addc : (match exec (.addc al 0 5 (g 1) (g 3) 5) (regs [(1, 0xFFFFFFFFFFFFFFFF), (3, 1)] base) with
    | .next s => decide ((self s).rg 5 = 0 ∧ (self s).rp 5 = true) | _ => false) = true := by decide

/-- R97, R105: a store and its misaligned neighbour. -/
theorem test_st : (match exec (.st al 2 (g 1) (g 2) 4) (regs [(1, 0x10000), (2, 0x1234)] base) with
    | .next s => decide ((here s).mem = [(0x10004, 0x34), (0x10005, 0x12)]) | _ => false) = true := by decide +kernel

theorem test_st_misaligned : (match exec (.st al 1 (g 1) (g 2) 2) (regs [(1, 0x10000), (2, 0x1234)] base) with
    | .next s => decide ((here s).mem = [] ∧ (self s).st = .trapped ∧ (self s).tcause = 0x15) | _ => false) = true := by
  decide

/-- R103: `loop` on 1 falls through, on 2 branches. -/
theorem test_loop : (match exec (.loop al 8 (BitVec.ofInt 26 (-4))) (me (fun S => { S with pc := 0x40 }) (regs [(8, 2)] base)) with
    | .next s => decide ((self s).pc = 0x30 ∧ (self s).rg 8 = 1) | _ => false) = true := by decide

/-- R225, R347: `trap #0x15` enters the handler with the successor in TRAPPC. -/
theorem test_trap : (match exec (.trap al 0x15) (on0 (fun T => { T with v := { T.v with tvec := 0x100 } }) base) with
    | .next s => decide ((self s).pc = 0x100 ∧ (self s).trappc = 8 ∧ (self s).inHandler = true) | _ => false) = true := by
  decide

/-- R63: a false predicate leaves everything but the program counter. -/
theorem test_predicated_off : (match exec (.li ⟨0, true⟩ 7 5) base with
    | .next s => decide ((self s).rg 7 = 0 ∧ (self s).pc = 16) | _ => false) = true := by decide

/-- R117, R119: 1.0 + 2.0 = 3.0 in lane 0, delivered after 2 cycles. -/
theorem test_vadd : (match exec (.vadd al false (w123 8) 0 none)
      (me (fun S => (S.ww 2 0x3F800000).ww 3 0x40000000) base) with
    | .next s => decide (s.agenda = [(2, .resultDelivery 0 0 0 (.w 1) 0x40400000)]) | _ => false) = true := by decide +kernel

/-! ### Hypotheses of the statements are met: scalar forms, control flow, memory -/

theorem meets_ScalarArithmetic :
    (∀ x ∈ [(Who.any, aluSrcs ⟨5, 5, g 6, .reg (g 7)⟩, [Dst.g 5]), (.any, aluSrcs ⟨0, 0, g 0, .imm 0⟩, [.g 0]),
      (.any, aluSrcs ⟨7, 31, g 31, .imm (-1)⟩, [.g 31])], Ready base al x.1 x.2.1 x.2.2) ∧
    (.add, fun _ _ x y => x + y) ∈ Spec.aluForms ∧ (.rem, Spec.remd, 20) ∈ Spec.aluLateForms :=
  ⟨allReady (by decide), by simp [Spec.aluForms], by simp [Spec.aluLateForms]⟩

theorem meets_PredicateAndBitForms :
    ∀ x ∈ [(Who.any, [Src.g (g 1), .g (g 31)], []), (.any, [], []), (.any, [.g (g 1), .g (g 2)], [Dst.g 31]),
      (.any, [.g (g 31)], [.g 0]), (.any, [], [.g 1])], Ready base al x.1 x.2.1 x.2.2 :=
  allReady (by decide)

/-- Every register number falls under exactly one clause. -/
theorem meets_SpecialRegisters_numbers : (List.range 4096).all (fun r =>
    (([r < 0xE, r == 0x20, 0x40 ≤ r && r < 0x4B, 0x100 ≤ r && r < 0x140, 0x10 ≤ r && r < 0x16,
      0xE ≤ r && r < 0x10 || 0x16 ≤ r && r < 0x20 || 0x21 ≤ r && r < 0x40 || 0x4B ≤ r && r < 0x100 || 0x140 ≤ r] : List Bool).filter
        (fun b => b)).length == 1) = true := by decide +kernel

theorem meets_SpecialRegisters :
    Ready base al .any [] [.g 5] ∧ base.cur.1 ≠ monitorTile ∧
    Ready (regs [(1, 0x3FFC)] base) al .any [.g (g 1)] [] ∧
    (let v := gOf (regs [(1, 0x3FFC)] base) (g 1)
     v.toNat % 4 = 0 ∧ v.toNat % 2 ^ 21 < xbOf (regs [(1, 0x3FFC)] base) 0 ∧ (regs [(1, 0x3FFC)] base).cur.2.val = 0) ∧
    Ready (regs [(1, 0x4000)] base) al .any [.g (g 1)] [] ∧
    ¬ (gOf (regs [(1, 0x4000)] base) (g 1)).toNat % 2 ^ 21 < xbOf (regs [(1, 0x4000)] base) 0 ∧
    predTrue (self (asStrand 1 base)) al = true ∧ (asStrand 1 base).cur.2.val ≠ 0 :=
  ⟨ready (by decide), by decide, ready (by decide), by decide +kernel, ready (by decide), by decide +kernel,
    by decide, by decide⟩

theorem meets_ControlFlow :
    (∀ x ∈ [(Who.any, [], []), (.any, [Src.g (g 1)], []), (.any, [], [Dst.g 31]), (.any, [.g (g 30)], [.g 30])],
      Ready base al x.1 x.2.1 x.2.2) ∧
    (gOf (regs [(1, 0x1FFFFF)] base) (g 1)).toNat < 2 ^ 21 ∧ ¬ (gOf (regs [(1, 0x200000)] base) (g 1)).toNat < 2 ^ 21 ∧
    (let s := base.modStrand 0 1 (fun _ => run); (s.strand 0 1).st ∈ [.started, .ready, .waiting]) :=
  ⟨allReady (by decide), by decide, by decide, by decide +kernel⟩

/-- Strand 0 waits on counter 15 with threshold 5, since cycle 0 and at most 1 cycle; the counter stands at a level. -/
abbrev waiter (level : Nat) : State :=
  on0 (fun T => { T with v := { T.v with c := T.v.c.set 15 (BitVec.ofNat 32 level) } })
    (me (fun S => { S with st := .waiting, wait := .counter 5 15 true 1 0 1, wlen := 12 }) { base with cycle := 1 })

theorem meets_WaitOnCounter :
    Ready base al .any [.g (g 1), .g (g 2)] [] ∧
    ((waiter 5).strand 0 0).st = .waiting ∧ ((waiter 5).strand 0 0).wait = .counter 5 15 true 1 0 1 ∧
    5 ≤ ((waiter 5).tile 0).v.c[15].toNat ∧ ((waiter 4).tile 0).v.c[15].toNat < 5 ∧ 0 + 1 ≤ (waiter 4).cycle ∧
    ({ waiter 4 with cycle := 0 } : State).cycle < 0 + 1 :=
  ⟨ready (by decide), by decide, by decide, by decide +kernel, by decide +kernel, by decide, by decide⟩

/-- An own-store access at the last word of the scratch partition. -/
theorem own_last : Spec.OwnAccess (regs [(1, 0x4FFFC)] base) (Spec.ea (regs [(1, 0x4FFFC)] base) (g 1) (0 : BitVec 26)) 4 :=
  ⟨by decide, by decide +kernel, by decide +kernel, by decide +kernel, by decide +kernel, by decide⟩

theorem own_wide : Spec.OwnAccess (regs [(1, 0x4FF80)] base) (Spec.ea (regs [(1, 0x4FF80)] base) (g 1) (0 : BitVec 26)) 128 :=
  ⟨by decide, by decide +kernel, by decide +kernel, by decide +kernel, by decide +kernel, by decide⟩

theorem window_last :
    Spec.WindowAccess (regs [(1, 0x124FFFC)] base) (Spec.ea (regs [(1, 0x124FFFC)] base) (g 1) (0 : BitVec 26)) 4 1 :=
  ⟨by decide, by decide +kernel, by decide +kernel, by decide +kernel, by decide +kernel, by decide +kernel,
    by decide +kernel, by decide +kernel, by decide +kernel, by decide⟩

theorem window_wide :
    Spec.WindowAccess (regs [(1, 0x124FF80)] base) (Spec.ea (regs [(1, 0x124FF80)] base) (g 1) (0 : BitVec 26)) 128 1 :=
  ⟨by decide, by decide +kernel, by decide +kernel, by decide +kernel, by decide +kernel, by decide +kernel,
    by decide +kernel, by decide +kernel, by decide +kernel, by decide⟩

/-- The same states with a kernel in DET mode. -/
abbrev det (s : State) : State :=
  { s with ctxs := s.ctxs.set 1 { ctx1 with kernels := [{ kimg := 0, st := .running, det := true, partw := part, groups := 1 }] } }

/-- An undo line written by a strand. -/
abbrev undo (ofs : Nat) (wby : BitVec 11) : Slot := { num := 0, kind := .undo, ofs := ofs, ss := 0, att := 0, wby := wby }

/-- A delta that strands of tile 0 have sent to their own tile. -/
abbrev delta (ofs : Nat) (wby : BitVec 11) : Slot := { undo ofs wby with kind := .plain }

theorem meets_LocalReads :
    (∀ x ∈ [(Who.any, [Src.g (g 1)], [Dst.g 5]), (.any, [.g (g 1)], [.w 5])],
      Ready (regs [(1, 0x4FFFC)] base) al x.1 x.2.1 x.2.2) ∧ (regs [(1, 0x4FFFC)] base).det 0 = false ∧
    Spec.OwnAccess (regs [(1, 0x4FFFC)] base) (Spec.ea (regs [(1, 0x4FFFC)] base) (g 1) (0 : BitVec 26))
      (Spec.bytesOfCode 1) ∧
    Spec.OwnAccess (regs [(1, 0x4FF80)] base) (Spec.ea (regs [(1, 0x4FF80)] base) (g 1) (0 : BitVec 26)) 128 ∧
    Spec.WindowAccess (regs [(1, 0x124FFFC)] base) (Spec.ea (regs [(1, 0x124FFFC)] base) (g 1) (0 : BitVec 26))
      (Spec.bytesOfCode 1) 1 ∧
    Spec.WindowAccess (regs [(1, 0x124FF80)] base) (Spec.ea (regs [(1, 0x124FF80)] base) (g 1) (0 : BitVec 26)) 128 1 :=
  ⟨allReady (by decide), by decide +kernel, own_last, own_wide, window_last, window_wide⟩

theorem meets_LocalReads_det :
    (∀ l ∈ [[], [undo 0x4FFC0 1], [undo 0x4FFC0 2], [delta 0x4FFC0 2], [delta 0x4FFC0 1, undo 0x4FFC0 1]],
      let s := on0 (fun T => { T with galley := l }) (det (regs [(1, 0x4FFFC)] base))
      readyB s al .any [.g (g 1)] [.g 5] = true ∧ s.det 0 = true ∧ versionedAt (here s).v.partw 0x4FFFC = true ∧
      Spec.ofsOf (Spec.ea s (g 1) (0 : BitVec 26)) = 0x4FFFC ∧ ownOverlap (here s) s.cur.2 0x4FFFC 4 = [] ∧
      ownSlots (here s) (0x4FFFC / 64) = l ∧
      ((∀ e ∈ l, otherStrand e.wby s.cur.2.val = none) ∨ (∀ e ∈ l, e.wby.getLsbD s.cur.2.val = false))) ∧
    otherStrand (undo 0x4FFC0 2).wby 0 ≠ none ∧ otherStrand (undo 0x4FFC0 1).wby 0 = none := by decide +kernel

/-- DET mode: the own lines of strand 0, those of the line below, which another strand has written, and none. -/
theorem meets_LocalWrites_det :
    ∀ l ∈ [[], [undo 0x4FFC0 1, delta 0x4FFC0 1], [undo 0x4FF80 2]],
      let s := on0 (fun T => { T with galley := l }) (det (regs [(1, 0x4FFFC)] base))
      readyB s al .any [.g (g 1), .g (g 2)] [] = true ∧ s.det 0 = true ∧ ¬ Spec.liesIn (here s).v.partw 5 0x4FFFC 4 ∧
      ∀ e ∈ (here s).galley, e.kind ≠ .out → Spec.touches 0x4FFFC 4 (e.ofs / 64) →
        otherStrand e.wby s.cur.2.val = none ∧ otherStrand e.rby s.cur.2.val = none := by decide +kernel

theorem meets_LocalWrites :
    (∀ x ∈ [(Who.any, [Src.g (g 1), .g (g 2)], []), (.any, [.g (g 1), .w ⟨5, false⟩], [])],
      Ready (regs [(1, 0x4FFFC)] base) al x.1 x.2.1 x.2.2) ∧
    Spec.OwnStore (regs [(1, 0x4FFFC)] base) (Spec.ea (regs [(1, 0x4FFFC)] base) (g 1) (0 : BitVec 26)) 4 ∧
    Spec.OwnStore (regs [(1, 0x4FF80)] base) (Spec.ea (regs [(1, 0x4FF80)] base) (g 1) (0 : BitVec 26)) 128 ∧
    Spec.Writable (regs [(1, 0x124FFFC)] base) 1 0x4FFFC 4 ∧ (here (regs [(1, 0x124FFFC)] base)).v.bstate ≠ 2 :=
  ⟨allReady (by decide),
    ⟨own_last, ⟨by decide +kernel, by decide, .inr (.inr (by decide +kernel)), by decide⟩, .inr (by decide +kernel),
      .inl (by decide), by decide +kernel⟩,
    ⟨own_wide, ⟨by decide +kernel, by decide, .inr (.inr (by decide +kernel)), by decide⟩, .inr (by decide +kernel),
      .inl (by decide), by decide +kernel⟩,
    ⟨by decide +kernel, by decide, .inr (.inr (by decide +kernel)), by decide⟩, by decide⟩

/-- Misaligned by one; just above the own store; the galley, which no strand reaches. -/
theorem meets_LocalAccessTraps :
    (∀ x ∈ [(Who.any, [Src.g (g 1)], [Dst.g 5]), (.any, [.g (g 1), .g (g 2)], []), (.any, [.g (g 1)], [.w 5]),
      (.any, [.g (g 1), .w ⟨5, false⟩], [])], Ready (regs [(1, 0x200000)] base) al x.1 x.2.1 x.2.2) ∧
    (Spec.ea (regs [(1, 0x10001)] base) (g 1) (0 : BitVec 26)).toNat % 2 ≠ 0 ∧
    (let x := Spec.ea (regs [(1, 0x200000)] base) (g 1) (0 : BitVec 26); x.toNat % 128 = 0 ∧ Spec.namesNothing x) ∧
    (let x := Spec.ea (regs [(1, 0x70000)] base) (g 1) (0 : BitVec 26)
     x.toNat % 128 = 0 ∧ Spec.namesOwn base x ∧ ¬ Spec.reachable (here base).v.partw (Spec.ofsOf x) 1) :=
  ⟨allReady (by decide), by decide +kernel, by decide +kernel, by decide +kernel⟩

/-- Offset 0x4FFFC: line 0x13FF, so h = (0x13FF XOR 0x13) AND 255 = 0xEC. -/
abbrev locked (l : List LockBit) : State := on0 (fun T => { T with locks := l }) (regs [(1, 0x4FFFC)] base)

theorem meets_Locks :
    (Ready (det (locked [])) al .any [.g (g 1)] [.g 5] ∧ (det (locked [])).det 0 = true ∧
      Ready (det (locked [])) al .any [.g (g 1), .g (g 2)] []) ∧
    (Ready (locked []) al .any [.g (g 1)] [.g 5] ∧ (locked []).det 0 = false ∧ grantDue (locked []) 0 0xEC = false ∧
      locksHeld (locked []) 0 0 < 4 ∧
      BitVec.ofNat 8 ((0x4FFFC / 64) ^^^ (0x4FFFC / 64 / 256)) = (0xEC : BitVec 8)) ∧
    (lockHolder (locked [⟨0xEC, 0, 1⟩]) 0 0xEC = some ⟨0xEC, 0, 1⟩ ∧ locksHeld (locked [⟨0xEC, 0, 1⟩]) 0 0 < 4) ∧
    lockHolder (locked [⟨0xEC, 0, 0⟩]) 0 0xEC = some ⟨0xEC, 0, 0⟩ ∧
    4 ≤ locksHeld (locked [⟨1, 0, 0⟩, ⟨2, 0, 0⟩, ⟨3, 0, 0⟩, ⟨4, 0, 0⟩]) 0 0 ∧
    Ready (locked [⟨0xEC, 0, 0⟩]) al .any [.g (g 1), .g (g 2)] [] :=
  ⟨⟨ready (by decide), by decide +kernel, ready (by decide)⟩,
    ⟨ready (by decide), by decide +kernel, by decide +kernel, by decide +kernel, by decide⟩, by decide +kernel,
    by decide +kernel, by decide +kernel, ready (by decide)⟩

/-! ### The remote path -/

/-- The last word of the scratch partition of tile 1, as a global address in g1. -/
abbrev far : State := regs [(1, 0x10000004FFFC)] base

theorem meets_RemoteForms :
    (∀ x ∈ [(Who.any, [Src.g (g 1), .g (g 2)], []), (.any, [.g (g 1), .w ⟨5, false⟩], []), (.any, [.g (g 1)], []),
      (.any, [.g (g 1)], [Dst.g 5]), (.any, [.g (g 1)], [.w 5])], Ready far al x.1 x.2.1 x.2.2) ∧
    Spec.GlobalAccess far (Spec.ea far (g 1) (0 : BitVec 36)) 4 ∧ Spec.early far (Spec.ea far (g 1) (0 : BitVec 36)) ∧
    Spec.GlobalAccess (regs [(1, 0x10000004FF80)] base)
      (Spec.ea (regs [(1, 0x10000004FF80)] base) (g 1) (0 : BitVec 36)) 128 :=
  ⟨allReady (by decide), ⟨by decide +kernel, by decide +kernel, by decide +kernel, by decide⟩, .inl (by decide),
    ⟨by decide +kernel, by decide +kernel, by decide +kernel, by decide⟩⟩

theorem meets_RemoteForms_lb :
    let s := regs [(1, 0x4FFFC)] base
    let y := Spec.ea s (g 1) (0 : BitVec 26)
    let x : Word := (here s).v.idx ++ BitVec.ofNat 44 (Spec.ofsOf y)
    y.toNat % 4 = 0 ∧ Spec.namesOwn s y ∧ s.cur.1 ≠ monitorTile ∧ Spec.reachable (here s).v.partw (Spec.ofsOf y) 4 ∧
    x.toNat % 4 = 0 ∧ x.toNat / 2 ^ 21 % 2 ^ 23 = 0 ∧ segAway s (here s).ctx x = false ∧ Spec.early s x ∧
    segCheck s (here s).ctx x segLoad 4 ≠ none := by
  refine ⟨by decide +kernel, by decide +kernel, by decide, by decide +kernel, by decide +kernel, by decide +kernel,
    by decide +kernel, .inl (by decide), ?_⟩
  rw [seg_ok (q := grp) (t := 0) (k := 0) (by decide +kernel) (by decide) (by decide +kernel) (by decide +kernel)]
  simp

/-- `lb` through the window at the own position (R97). -/
theorem meets_RemoteForms_lb_window :
    let s := regs [(1, 0x104FFFC)] base
    let y := Spec.ea s (g 1) (0 : BitVec 26)
    Spec.namesOwn s y ∧ Spec.ofsOf y = 0x4FFFC ∧ Spec.reachable (here s).v.partw (Spec.ofsOf y) 4 := by decide +kernel

theorem meets_RemoteForms_loads :
    (let x := Spec.ea far (g 1) (0 : BitVec 36)
     x.toNat % 4 = 0 ∧ x.toNat / 2 ^ 21 % 2 ^ 23 = 0 ∧ segAway far (here far).ctx x = false ∧
     segCheck far (here far).ctx x segLoad 4 ≠ none) ∧
    segCheck (regs [(1, 0x10000004FF80)] base) 1 0x10000004FF80 segLoad 128 ≠ none ∧
    segCheck (regs [(1, 0x20000004FFFC)] base) 1 0x20000004FFFC segLoad 4 = none := by
  refine ⟨⟨by decide +kernel, by decide +kernel, by decide +kernel, ?_⟩, ?_, ?_⟩
  · rw [seg_ok (q := grp) (t := 1) (k := 0) (by decide +kernel) (by decide) (by decide +kernel) (by decide +kernel)]
    simp
  · rw [seg_ok (q := grp) (t := 1) (k := 0) (by decide +kernel) (by decide) (by decide +kernel) (by decide +kernel)]
    simp
  · unfold segCheck
    rw [show locate (regs [(1, 0x20000004FFFC)] base) 1 (eaIdx 0x20000004FFFC) = none by decide +kernel]

/-- A sender: strand 0 of tile 0, access 7. -/
abbrev sender : Origin := ⟨1, 0, 0, 0, 0, 0, 0, 0, 7, false⟩

/-- The access of the sender is outstanding. -/
abbrev waitsAck : State := me (fun S => { S with ops := [{ id := 7, target := 1, load := false, away := false }] }) base

theorem meets_RemoteArrivals_load :
    segCheck base 1 0x10000004FF80 segLoad 128 = some (1, 0) ∧ (base.tile 1).busyUntil ≤ base.cycle ∧
    (base.tile 1).errs = [] ∧ (base.tile 1).slot = 0 ∧ segCheck base 1 0x20000004FF80 segLoad 128 = none ∧
    opOut waitsAck sender.tile sender.strand sender.op = true := by
  refine ⟨seg_ok (q := grp) (by decide +kernel) (by decide) (by decide +kernel) (by decide +kernel), by decide, by decide,
    by decide, ?_, by decide +kernel⟩
  unfold segCheck
  rw [show locate base 1 (eaIdx 0x20000004FF80) = none by decide +kernel]

/-- Four bytes for tile 1: the last word of the scratch partition, or the first of the foreshore. -/
abbrev packet (ofs : Word) : Packet := { src := sender, ea := 0x100000000000 + ofs, body := .bytes 4 0x1234 }

theorem meets_RemoteArrivals_write :
    (writeCheck base (packet 0x4FFFC) = some (1, 0) ∧
      foreAt (slotRegs (base.tile 1) 0).partw (eaOfs (packet 0x4FFFC).ea) = false ∧ (base.tile 1).twin = none ∧
      sender.ss = (slotRegs (base.tile 1) 0).ss ∧ sender.att = (slotRegs (base.tile 1) 0).att.toNat ∧
      eaOfs (packet 0x4FFFC).ea % 64 + 4 ≤ 64 ∧ (base.tile 1).galley = [] ∧ (base.tile 1).slots = [] ∧
      (base.tile 1).galley.length < galleyCap (base.tile 1).v.partw) ∧
    (writeCheck base (packet 0x78000) = some (1, 0) ∧
      foreAt (slotRegs (base.tile 1) 0).partw (eaOfs (packet 0x78000).ea) = true ∧ base.det 1 = false) ∧
    writeCheck base (packet 0x100000000000) = none ∧ segCheck base 1 0x100000078000 segMsg 1 = some (1, 0) := by
  have h1 : segCheck base 1 0x10000004FFFC segWrite 4 = some (1, 0) :=
    seg_ok (q := grp) (by decide +kernel) (by decide) (by decide +kernel) (by decide +kernel)
  have h2 : segCheck base 1 0x100000078000 segWrite 4 = some (1, 0) :=
    seg_ok (q := grp) (by decide +kernel) (by decide) (by decide +kernel) (by decide +kernel)
  have h3 : segCheck base 1 0x100000078000 segMsg 1 = some (1, 0) :=
    seg_ok (q := grp) (by decide +kernel) (by decide) (by decide +kernel) (by decide +kernel)
  refine ⟨⟨?_, by decide +kernel, by decide, by decide, by decide, by decide +kernel, by decide, by decide, by decide +kernel⟩,
    ⟨?_, by decide +kernel, by decide +kernel⟩, ?_, h3⟩
  · simp only [writeCheck, show checkedRange (packet 0x4FFFC) = (0x10000004FFFC, 4) by decide +kernel, h1]
  · simp only [writeCheck, show checkedRange (packet 0x78000) = (0x100000078000, 4) by decide +kernel, h2]
  · have h : segCheck base 1 0x200000000000 segWrite 4 = none := by
      unfold segCheck
      rw [show locate base 1 (eaIdx 0x200000000000) = none by decide +kernel]
    simp only [writeCheck, show checkedRange (packet 0x100000000000) = (0x200000000000, 4) by decide +kernel, h]

/-- A path with one link that can carry a new flow gives it that link. -/
theorem flowLink_single {s : State} {a b l : Nat} {p : List Nat} (h : flowOn s a b p = none)
    (h1 : p.filter (fun l => (s.link l).assignable) = [l]) : flowLink s a b p = some l := by
  simp [flowLink, h, h1, Nat.mod_one]

/-- Link 32, of the ring path between dies 0 and 1, in a state; every other link is DOWN. -/
abbrev ring (st : LinkSt) : State := { base with links := base.links.set 32 { st := st, busyUntil := 500 } }

/-- Within a die; between dies with every link DOWN, where no path carries it; over one link, UP or under training. -/
theorem meets_RemoteForms_sends :
    dieOf 0 = dieOf 1 ∧ dieOf 0 ≠ dieOf 1024 ∧ legsOf base 0 1024 (packetPaths base 0 0 1024) = none ∧
    legsOf (ring .up) 0 1024 (packetPaths (ring .up) 0 0 1024) = some [(32, 0, 96)] ∧
    legsOf (ring .stepping) 0 1024 (packetPaths (ring .stepping) 0 0 1024) = some [(32, 0, 596)] := by
  have h : ∀ st ∈ [LinkSt.up, .stepping], flowLink (ring st) 0 1024 (ringLinks 0 1) = some 32 := by
    intro st hs
    simp only [List.mem_cons, List.not_mem_nil, or_false] at hs
    rcases hs with rfl | rfl <;> exact flowLink_single (by decide +kernel) (by decide +kernel)
  refine ⟨by decide, by decide, ?_, ?_, ?_⟩
  · have h0 : packetPaths base 0 0 1024 = [(0, ioLinks 0), (4, ioLinks 1)] := by decide +kernel
    have h1 : flowLink base 0 1024 (ioLinks 0) = none := by
      have : (ioLinks 0).filter (fun l => (base.link l).assignable) = [] := by decide +kernel
      have h2 : flowOn base 0 1024 (ioLinks 0) = none := by decide +kernel
      simp [flowLink, h2, this]
    rw [h0]
    simp [legsOf, h1]
  · rw [show packetPaths (ring .up) 0 0 1024 = [(0, ringLinks 0 1)] by decide +kernel]
    simp only [legsOf, List.foldl, h .up (by simp)]
    decide +kernel
  · rw [show packetPaths (ring .stepping) 0 0 1024 = [(0, ringLinks 0 1)] by decide +kernel]
    simp only [legsOf, List.foldl, h .stepping (by simp)]
    decide +kernel

/-- A refused answer: an abort of the tile is due; nothing is; the strand has ended. The target is still copying. -/
theorem meets_RemoteArrivals_refused :
    (opOut waitsAck 0 0 7 = true ∧ trapWaits waitsAck 0 0 true = false ∧ liveSt (waitsAck.strand 0 0).st = true ∧
      (waitsAck.strand 0 0).deferred = none) ∧
    (let s := waitsAck.post 0 (.ackArrival sender .refused 0); opOut s 0 0 7 = true ∧ trapWaits s 0 0 true = true) ∧
    (let s := me (fun S => { S with st := .halted }) waitsAck
     opOut s 0 0 7 = true ∧ trapWaits s 0 0 true = false ∧ liveSt (s.strand 0 0).st = false) ∧
    (let s := base.modTile 1 (fun T => { T with busyUntil := 1 })
     segCheck s 1 0x10000004FF80 segLoad 128 = some (1, 0) ∧ s.cycle < (s.tile 1).busyUntil) :=
  ⟨by decide +kernel, by decide +kernel, by decide +kernel,
    seg_ok (q := grp) (by decide +kernel) (by decide) (by decide +kernel) (by decide +kernel), by decide⟩

/-- An access that the entry's rights refuse. -/
theorem seg_none {s : State} {ctx : Nat} {ea : Word} {kind n : Nat} {q : Group} {t : TileId} {k : Nat}
    (hl : locate s ctx (eaIdx ea) = some (q, t, k))
    (h : (let e := assocGet 0 (eaIdx ea).toNat (s.ctx ctx).seg
      if kind = segLoad then e.getLsbD 62 else if foreAt (slotRegs (s.tile t) k).partw (eaOfs ea) then e.getLsbD 60
        else kind == segWrite && e.getLsbD 61) = false) : segCheck s ctx ea kind n = none := by
  simp only [segCheck, hl]
  rw [if_neg]
  intro hc
  simp only [Bool.and_eq_true] at hc
  exact absurd (h ▸ hc.1.1.1.2) (by simp)

/-- A message with data, and one that no entry lets pass. -/
theorem meets_RemoteArrivals_message :
    segCheck base 1 0x100000078000 segMsg 4 = some (1, 0) ∧ segCheck base 1 0x10000004FFFC segMsg 4 = none ∧
    (base.tile 1).twin = none ∧ (base.tile 1).slot = 0 ∧ (base.tile 1).errs = [] ∧
    (∀ x ∈ (base.tile 1).slots, ∀ e ∈ x.prof, e.1 ≠ 0x4FFFC / 64) := by
  refine ⟨seg_ok (q := grp) (by decide +kernel) (by decide) (by decide +kernel) (by decide +kernel), ?_, by decide, by decide,
    by decide, by decide⟩
  exact seg_none (q := grp) (t := 1) (k := 0) (by decide +kernel) (by decide +kernel)

/-! ### Ordering, helpers, overlays, the machine -/

theorem meets_FenceAndWatchpoints :
    (∀ x ∈ [(Who.any, [], []), (.any, [Src.g (g 1), .g (g 2)], []), (.any, [], [Dst.g 31])], Ready base al x.1 x.2.1 x.2.2) ∧
    ((self base).ops = [] ∧ (here base).addQ = [] ∧ (here base).drains = []) ∧
    (Ready waitsAck al .any [] [] ∧ (self waitsAck).ops = [⟨7, 1, false, false⟩] ∧ clusterOf 1 = clusterOf waitsAck.cur.1 ∧
      opWaits waitsAck 0 0 7 = true) ∧
    (let s := on0 (fun T => { T with v := { T.v with wpt := T.v.wpt.set 1 { base := 0x4FFFF, len := 1, fl := 1 } } })
      (regs [(1, 0x4FFFC)] base)
     readyB s al .any [.g (g 1), .g (g 2)] [] = true ∧ claimed (here s).v 0x4FFFC 4 = false ∧ (here s).v.bstate ≠ 2 ∧
     s.det 0 = false ∧ (self s).suppress = false ∧ ((here s).v.wpt[1]).fl.getLsbD 0 = true ∧
     0x4FFFC < ((here s).v.wpt[1]).base.toNat + ((here s).v.wpt[1]).len.toNat ∧
     ((here s).v.wpt[1]).base.toNat < 0x4FFFC + 4) :=
  ⟨allReady (by decide), by decide +kernel, ⟨ready (by decide), by decide +kernel, by decide +kernel, by decide +kernel⟩, by decide +kernel⟩

theorem meets_HelpersAndOverlays :
    (∀ x ∈ [(Who.control, [Src.g (g 1)], []), (.control, [], [])], Ready base al x.1 x.2.1 x.2.2) ∧
    (4096 * (10 + 1) ≤ granOf (here base).v.partw 1 * 16384 ∧ (base.strand 0 10).st = .free) ∧
    ((base.modStrand 0 10 (fun _ => run)).strand 0 10).st ≠ .free ∧
    (let s := regs [(1, 0x10000), (2, 32)] base
     readyB s al .any [.g (g 1), .g (g 2)] [] = true ∧ (gOf s (g 2)).toNat = 32 ∧ 0x3FE0 + 32 ≤ xbOf s 0 ∧
     (here s).ovls = [] ∧ Spec.reachable (here s).v.partw (gOf s (g 1)).toNat 32 ∧ xbOf s 0 < 0x4000 + 32) :=
  ⟨allReady (by decide), by decide +kernel, by decide +kernel, by decide +kernel⟩

/-- An overlay of 32 bytes from the scratch partition is under way. -/
abbrev ovl1 : Ovl :=
  { id := 0, base := 0x3FE0, len := 32, src := 0x10000, hbm := false, ct := 3, strand := 0, pc := 0 }

abbrev ovlS : State := on0 (fun T => { T with ovls := [ovl1] }) base

theorem meets_HelpersAndOverlays_done :
    (ovlS.tile 0).ovls.find? (fun x => x.id == 0) = some ovl1 ∧ (ovlS.tile 0).errs = [] ∧
    ovl1.hbm = false ∧ ovl1.slot = (ovlS.tile 0).slot ∧
    (let s := on0 (fun T => { T with slots := [{ asked := [⟨0, 1, 5, 0⟩] }] }) base
     2 ≠ (s.strand 0 0).gen ∧ ∀ x ∈ (s.tile 0).slots, ∀ o ∈ x.asked, ¬ (o.strand = 0 ∧ o.gen = 2)) := by decide +kernel

theorem meets_TileSteps :
    (let s := { waiter 4 with cycle := 2 }
     (s.strand 0 0).st = .waiting ∧ (s.strand 0 0).wait = .counter 5 15 true 1 0 1 ∧ 0 + 1 < s.cycle) ∧
    (let s := me (fun S => { S with st := .waiting, wait := .precision 0 0 1 0 1 }) { base with cycle := 2 }
     (s.strand 0 0).st = .waiting ∧ (s.strand 0 0).wait = .precision 0 0 1 0 1 ∧ 0 + 1 < s.cycle) ∧
    (let s := me (fun S => { S with st := .waiting, wait := .lock 0 0xEC 0x4FFFC 1 5 }) { base with cycle := 2 }
     lockHolder s 0 0xEC = none ∧ nextHolder s 0 0xEC = some (0, 0) ∧ tileAt (clusterOf 0) 0 = 0 ∧
     (s.strand 0 0).wait = .lock 0 0xEC 0x4FFFC 1 5 ∧ (s.tile 0).errs = [] ∧ s.det 0 = false) ∧
    (let s := me (fun S => { S with deferred := some ⟨.prot, 0, 8, false⟩ }) base
     (s.strand 0 0).deferred = some ⟨.prot, 0, 8, false⟩ ∧ (s.tile 0).running = true ∧ liveSt (s.strand 0 0).st = true ∧
     trapWaits s 0 0 false = false ∧ trapWaits (s.post 0 (.sweepTokenAtTile 0 0)) 0 0 false = true) := by
  decide +kernel

/-- A strand that waits for two registers, g5 and g6: with both empty g5's result leaves it waiting, with g5 alone it goes on. -/
theorem meets_TileSteps_fill :
    let s (e : BitVec 32) := me (fun S => { S with st := .waiting, wait := .regs [.g 5, .g 6], gE := e }) base
    let S (e : BitVec 32) := ((s e).strand 0 0).deliver (.g 5) 7
    (S 0x20).st = .waiting ∧ (S 0x20).wait = .regs [.g 5, .g 6] ∧ (∀ r ∈ [Dst.g 5, .g 6], (S 0x20).isEmpty r = false) ∧
    (S 0x60).st = .waiting ∧ (S 0x60).wait = .regs [.g 5, .g 6] ∧ (∃ r ∈ [Dst.g 5, .g 6], (S 0x60).isEmpty r = true) := by
  decide +kernel

/-- Strand 0 of tile 0 at an address, with a byte there. -/
abbrev fetching (pc : BitVec 21) (b : Byte) : State :=
  on0 (fun T => { T with mem := T.mem.write pc.toNat b }) (me (fun S => { S with pc := pc }) base)

theorem meets_StepRunsDecoded :
    let s := fetching 24 0x01
    Spec.quiet s ∧ nextIssue s = some (0, 0) ∧ (s.strand 0 0).pc.toNat < xbOf s 0 ∧ (s.tile 0).ovls = [] ∧ (s.tile 0).errs = [] ∧
    (match decode ((s.tile 0).mem.bytes 24 (32 - 24 % 32)) with
      | .ok (.nop p, n) => decide (p = al ∧ n = 8) | _ => false) = true := by
  decide +kernel

/-- What a fetch at an address needs besides. -/
abbrev fetches (pc : BitVec 21) : Bool :=
  let s := fetching pc 2
  decide (Spec.quiet s) && s.ev == none && nextIssue s == some (0, 0) && (s.tile 0).v.ovb.getLsbD 63 == false &&
  (s.tile 0).ovls == []

theorem meets_FetchFaults :
    (fetches 0x4000 = true ∧ fetches 0x3FE2 = true) ∧ (fetches 0x3FFC = true ∧ fetches 0x3FF8 = true) ∧
    xbOf (fetching 0x4000 0) 0 = 0x4000 :=
  ⟨by decide +kernel, by decide +kernel, by decide +kernel⟩

theorem meets_FetchFaults_overlay :
    let s := on0 (fun T => { T with v := { T.v with ovb := 0x8000000000000000 } }) (fetching 0x4000 0)
    Spec.quiet s ∧ nextIssue s = some (0, 0) ∧ xbOf s 0 ≤ 0x4000 ∧ (s.tile 0).v.ovb.getLsbD 63 = true := by
  decide +kernel

theorem meets_FetchFaults_bytes :
    ((((fetching 0x3FF8 0).tile 0).mem.read 0x3FF8).toNat % 4 = 0 ∧
      (0x3FF8 % 32 + ((((fetching 0x3FF8 2).tile 0).mem.read 0x3FF8).toNat % 4 + 1) * 4 > 32)) ∧
    (match decode (((fetching 0x3FF8 0xA5).tile 0).mem.bytes 0x3FF8 8) with | .ok _ => false | _ => true) = true := by
  decide +kernel

theorem meets_PredicatedOff :
    toFields (.add ⟨0, true⟩ ⟨5, 5, g 6, .reg (g 7)⟩) ≠ none ∧ predTrue (self base) ⟨0, true⟩ = false ∧
    predTrue (self base) ⟨1, false⟩ = false := by decide +kernel

theorem meets_EmptyRegisters_forms :
    Spec.operands (.mul al ⟨5, 5, g 6, .reg (g 31)⟩) = some (al, 8, .any, [.g (g 6), .g (g 31)], [.g 5]) ∧
    Spec.operands (.st al 2 (g 6) (g 31) 4) = some (al, 8, .any, [.g (g 6), .g (g 31)], []) ∧
    Spec.operands (.vadd al false ⟨8, .q 7, ⟨.q 1, false⟩, ⟨.q 1, true⟩⟩ 0 none) =
      some (al, 8, .tile, [.v ⟨.q 1, false⟩, .v ⟨.q 1, true⟩], [.q 7]) ∧
    (Spec.operands .resultDelivery).isSome = false ∧ (toFields .resultDelivery).isSome = false ∧
    (Spec.operands (.sunbindPosb al 3)).isSome = true ∧ (toFields (.sunbindPosb al 3)).isSome = true :=
  ⟨rfl, rfl, rfl, rfl, rfl, rfl, rfl⟩

/-- g31 and w5 are empty, g5 and g6 full. -/
theorem meets_EmptyRegisters_waits :
    let s := me (fun S => { S with gE := 0x80000000, wE := 0x20 }) base
    let srcs : List Src := [.g (g 6), .g ⟨31, true⟩]
    predTrue (self s) al = true ∧ srcEmpty (self s) srcs (.g ⟨31, true⟩) = true ∧ srcEmpty (self s) srcs (.g (g 6)) = false ∧
    srcEmpty (self s) [.w ⟨5, false⟩] (.w ⟨5, false⟩) = true ∧ [Dst.g 31, .g 5].filter (self s).isEmpty = [.g 31] := by decide +kernel

theorem meets_EmptyRegisters :
    let s := me (fun S => { S with gE := 0x80000040 }) base
    predTrue (self s) al = true ∧ (self s).isEmpty (.g 6) = true ∧ (self s).isEmpty (.g 31) = true ∧
    (self s).isEmpty (.g 5) = false := by decide +kernel

theorem meets_Privileges :
    Spec.privileged (.idleSet al (g 1)) = some (al, 8) ∧ Spec.controlOnly (.bar al 0) = some (al, 8) ∧
    predTrue (self (asStrand 10 base)) al = true ∧ (asStrand 10 base).cur.1 ≠ monitorTile ∧
    (asStrand 10 base).cur.2.val ≠ 0 := by decide +kernel

theorem meets_TrapVotes :
    ((here base).running = true ∧ (here base).v.voted = false ∧ ¬ Spec.handled (here base) (self base) .prot) ∧
    (let s := on0 (fun T => { T with v := { T.v with tvec := 0x100 } }) base
     (here s).running = true ∧ (here s).v.voted = false ∧ Spec.handled (here s) (self s) .galley ∧
     Spec.handled (here s) (self s) .prot) := by decide +kernel

theorem meets_DecodeEncode :
    wellFormed (.add al ⟨7, 31, g 31, .imm (-1)⟩) = true ∧ wellFormed (.sys al 1 2 (g 3)) = true := by decide +kernel

theorem meets_DecodeExact :
    (match decodeWord 0x0000028000000C69 with | .ok (_, n) => n == 8 | _ => false) = true ∧
    (0x29 : Nat) ∈ List.range' 0x29 7 ∧ (0xA5 : BitVec 128).toNat / 4 % 256 = 0x29 ∧ (0xA5 : BitVec 128).toNat % 4 ≠ 0 := by
  decide +kernel

/-! ### The vector unit -/

theorem meets_VectorArithmetic :
    (∀ x ∈ [(Who.tile, [Src.v (w 2), .v (w 3)], [vdst (.w 1)]), (.tile, [.v (w 2), .v (w 3)] ++ optW (some ⟨4, false⟩), [vdst (.w 15)]),
      (.tile, [.v (w 0), .v (w 1), .v (w 2)], [vdst (.w 2)])], Ready base al x.1 x.2.1 x.2.2) ∧
    wellFormed (.vadd al false (w123 8) 4 (some ⟨4, false⟩)) = true ∧ wellFormed (.vmul al true (w123 5) 0 none) = true ∧
    wellFormed (.vfma al 2 3 (w123 8) (w 4)) = true ∧ Spec.intTy 7 = true ∧ wellFormed (.vcmp al 6 (w123 8)) = true ∧
    wellFormed (.vcmp al 5 (w123 7)) = true ∧ wellFormed (.vcmp al 6 (w123 0)) = true ∧
    wellFormed (.vsel al (w123 9) (w 4)) = true :=
  ⟨allReady (by decide), by decide, by decide, by decide, by decide, by decide, by decide, by decide, by decide⟩

theorem meets_VectorOther :
    (∀ x ∈ [(Who.tile, [Src.v (w 2), .v (w 3)], [vdst (.w 1)]), (.tile, [.v (w 2)], [vdst (.w 1)]), (.tile, [.g (g 1)], [vdst (.w 1)]),
      (.tile, [.v (w 2)], [.g 31]), (.tile, [.g (g 1)], [.w 15]), (.tile, [.v (w 2)], [.w 15]),
      (.tile, [.v (w 2)] ++ optW (some ⟨4, false⟩), [.w 15]),
      (.tile, (List.range 4).map (fun i => .w ⟨12 + BitVec.ofNat 4 i, false⟩), [vdst (.w 1)]),
      (.tile, (List.range 4).map (fun i => .w ⟨12 + BitVec.ofNat 4 i, false⟩), [.g 31]),
      (.tile, [.v (w 2), .g (g 1)], [vdst (.w 1)]), (.tile, [.g (g 1), .g (g 30), .g (g 31)], [vdst (.w 1)])],
      Ready base al x.1 x.2.1 x.2.2) :=
  allReady (by decide)

theorem meets_VectorOther_forms :
    (wellFormed (.vshift al 3 0 (.w 1) (w 2) (.reg (w 3))) = true ∧ wellFormed (.vshift al 2 4 (.w 1) (w 2) (.imm 63)) = true ∧
      wellFormed (.vperm al (w123 9)) = true ∧ wellFormed (.vshuf al 3 8 (.w 1) (w 2) (some (w 3)) 0) = true ∧
      wellFormed (.vshuf al 5 8 (.w 1) (w 2) none 32) = true ∧ wellFormed (.vshuf al 4 8 (.w 1) (w 2) none 0) = true ∧
      wellFormed (.vbcast al 8 (.w 1) (g 2)) = true ∧ wellFormed (.vbcastLane al 8 (.w 1) (w 2) 32) = true ∧
      wellFormed (.vmovgGet al 8 1 (w 2) 31) = true ∧ wellFormed (.vmovgPut al 8 1 (g 2) 31) = true) ∧
    (wellFormed (.vdiv al 3 (w123 8)) = true ∧ Spec.intTy 0 = true ∧ Spec.intTy 7 = true ∧ laneBits 7 < laneBits 0 ∧
      (7 : BitVec 3).toNat < laneBits 0 / laneBits 7 ∧
      wellFormed (.vcvt al 0 7 7 0 (.w 1) (w 2) none none) = true ∧ (12 : BitVec 4).toNat % 4 = 0 ∧
      (30 : BitVec 5).toNat % 2 = 0) := by decide +kernel

/-- FP32 lanes: -0 below +0, 1 below 2, equal values, a NaN; bfloat16 is a type of the clause as well. -/
theorem meets_VectorArithmetic_order :
    (∀ x ∈ [(Who.tile, [Src.v (w 2), .v (w 3)], [vdst (.w 1)])], Ready base al x.1 x.2.1 x.2.2) ∧
    (∀ k ∈ [(0 : BitVec 4), 1, 2, 3, 4, 5, 6], ∀ ty ∈ [(8 : BitVec 4), 9], wellFormed (.vcmp al k (w123 ty)) = true) ∧
    (let v (x : BitVec 32) : Val := Spec.valOf 8 x
     Spec.lessZ (v 0x80000000) (v 0) = true ∧ Spec.less (v 0x80000000) (v 0) = false ∧ Spec.less (v 0) (v 0x80000000) = false ∧
     Spec.less (v 0x3F800000) (v 0x40000000) = true ∧ Spec.lessZ (v 0x40000000) (v 0x3F800000) = false ∧
     Spec.less (v 0xFF800000) (v 0xFF7FFFFF) = true ∧ v 0x7FC00000 = .nan) :=
  ⟨allReady (by decide), by decide, by decide +kernel⟩

/-- Conversions: from FP32 to INT8 in part 3, from FP16 to FP32 in part 1, part 4 beyond them; a pair with `.mxf4`; its scale
source; lane 32 of 32; the order of reductions. -/
theorem meets_VectorOther_conversions :
    (wellFormed (.vcvt al 8 7 3 4 (.w 1) (w 2) none (some ⟨4, false⟩)) = true ∧
      max (laneBits 8) (laneBits 7) / min (laneBits 8) (laneBits 7) = 4 ∧
      wellFormed (.vcvt al 9 8 1 0 (.q 1) (w 2) none none) = true ∧
      max (laneBits 9) (laneBits 8) / min (laneBits 9) (laneBits 8) = 2 ∧ laneBits 9 < laneBits 8 ∧ laneBits 7 < laneBits 8) ∧
    ((12 : BitVec 4).toNat = 12 ∧ ¬ ((9 : BitVec 4) = 8 ∧ (12 : BitVec 4) = 12)) ∧
    1024 / laneBits 8 ≤ (32 : BitVec 7).toNat ∧
    (∃ j, j < 32 ∧ Spec.valOf 8 (Spec.laneOf 32 (BitVec.ofNat 1024 (0x7FC00000 * 2 ^ 992)) j) = .nan) ∧
    (∀ j, j < 32 → Spec.valOf 8 (Spec.laneOf 32 (0 : VWord) j) ≠ .nan) ∧
    (∀ x ∈ [(Who.tile, [Src.v (w 2)] ++ optV (some (w 3)) ++ optW none, [vdst (.w 1)]), (.tile, [.w ⟨13, false⟩], [vdst (.w 1)]),
      (.tile, [.v (w 2)] ++ optW (some ⟨4, false⟩), [vdst (.w 1)]), (.tile, [.g (g 1), .g (g 3)], [vdst (.w 1)])],
      Ready base al x.1 x.2.1 x.2.2) :=
  ⟨by decide +kernel, by decide, by decide, ⟨31, by decide, by decide +kernel⟩, by decide +kernel, allReady (by decide)⟩

theorem meets_RoundingExact :
    (11 : BitVec 4) ∈ [8, 9, 10, (11 : BitVec 4)] ∧ (0 : Nat) < 2 ^ (fmtOf 8).width ∧ decodeFp (fmtOf 8) 0x3F800000 ≠ .nan ∧
    (match decodeFp (fmtOf 8) 0x3F800000 with | .fin _ _ _ => true | _ => false) = true := by decide +kernel

/-! ### The array and the adder -/

/-- Partial tile 0 holds floating-point values; 1 is still INVALID; 2 waits for the command 1; 3 holds integers. -/
abbrev ptS (l : List (BitVec 5 × Word)) : State :=
  on0 (fun T => { T with pt := ((T.pt.set 0 { st := .ready }).set 2 { st := .pending, last := 1 }).set 3 { st := .ready, i32 := true } })
    (regs l base)

/-- Four commands wait in the array's queue, and eight in the adder's, of which four are `vla`. -/
abbrev fullS (l : List (BitVec 5 × Word)) : State :=
  on0 (fun T => { T with
    arrQ := List.replicate 4 { op := .mrep false 1 1, seq := 1, strand := 0, pc := 0 }
    addQ := List.replicate 4 { op := .lazero 0x50000, seq := 1, strand := 1, pc := 0 } ++
      List.replicate 4 { op := .vla 0x50000 0 none, seq := 1, strand := 1, pc := 0 } }) (ptS l)

theorem meets_ArrayAndAdderForms_ready :
    (∀ x ∈ [(Who.tile, [], []), (.tile, Spec.maskSrcs (.reg (g 1)), []), (.tile, [Src.g (g 1)], []), (.tile, [], [Dst.w 15]),
      (.tile, [.v (w 1), .g (g 1)], []), (.tile, [.v (w 1), .v (w 2), .g (g 1)], []),
      (.tile, [.g (g 1), .g (g 2)], [vdst (.w 1)]), (.tile, scaleSrcs (.reg (w 1)) ++ [.g (g 1), .g (g 2)], []),
      (.tile, [.g (g 1), .g (g 2)], []), (.tile, [.g (g 1), .g (g 2), .g (g 3)], [])],
      Ready (ptS []) al x.1 x.2.1 x.2.2) ∧
    (∀ x ∈ [(Who.tile, [], []), (.tile, [Src.g (g 1)], []), (.tile, [.v (w 1), .g (g 1)], [])],
      Ready (fullS []) al x.1 x.2.1 x.2.2) :=
  ⟨allReady (by decide), allReady (by decide)⟩

theorem meets_ArrayAndAdderForms_state :
    Spec.fp8 10 ∧ Spec.fp8 11 ∧ ¬ Spec.fp8 9 ∧ (1 : BitVec 2).getLsbD 0 = true ∧ (here (ptS [])).arrQ.length < 4 ∧
    4 ≤ (here (fullS [])).arrQ.length ∧ 8 ≤ (here (fullS [])).addQ.length ∧
    4 ≤ ((here (fullS [])).addQ.filter isVla).length ∧
    Spec.ptRefused (here (ptS [])) 1 false 1 ∧ Spec.ptRefused (here (ptS [])) 3 false 7 ∧
    Spec.ptReadable (here (ptS [])) 0 false ∧ ((here (ptS [])).ptOf 0).wrote = ((here (ptS [])).ptOf 0).last ∧
    Spec.ptReadable (here (ptS [])) 2 false ∧ ((here (ptS [])).ptOf 2).wrote ≠ ((here (ptS [])).ptOf 2).last := by
  decide +kernel

/-- The last block of the scratch partition, the last tile of the accumulator partition. -/
theorem meets_ArrayAndAdderForms_block : Spec.Block (ptS [(1, 0x4F000)]) (gOf (ptS [(1, 0x4F000)]) (g 1)) 128 4096 true :=
  ⟨by decide +kernel, by decide +kernel, by decide +kernel, by decide +kernel, by decide +kernel⟩

theorem meets_ArrayAndAdderForms_range :
    Spec.AccRange (ptS [(1, 0x60000)]) (gOf (ptS [(1, 0x60000)]) (g 1)) 65536 true ∧
    Spec.AccRange (ptS [(1, 0x6F800)]) (gOf (ptS [(1, 0x6F800)]) (g 1)) 2048 true :=
  ⟨⟨by decide +kernel, by decide +kernel, by decide +kernel, by decide +kernel⟩,
    ⟨by decide +kernel, by decide +kernel, by decide +kernel, by decide +kernel⟩⟩

theorem meets_ArrayAndAdderForms_traps :
    (gOf (ptS [(1, 0x60020)]) (g 1)).toNat % 64 ≠ 0 ∧ (gOf (ptS [(1, 0x60040)]) (g 1)).toNat % 64 = 0 ∧
    ¬ Spec.liesIn (here (ptS [])).v.partw 3 (Spec.ofsOf 0x60040) 65536 ∧ ¬ Spec.reachable (here (ptS [])).v.partw 0x70000 4096 ∧
    (0x5F000 < 0x50000 + 65536 ∧ 0x50000 < 0x5F000 + 4096) ∧ Spec.freeNow (ptS []) 0x60000 65536 true ∧
    (here (ptS [])).errs = [] ∧ (ptS []).det 0 = false ∧
    (let s := on0 (fun T => { T with v := { T.v with bstate := 2 } }) (ptS [])
     (here s).v.bstate = 2 ∧ Spec.freeNow s 0x60000 65536 false) ∧
    (here (ptS [])).arrFly = [] ∧ (here (ptS [])).drains = [] := by decide +kernel

theorem meets_LongAccumulator :
    (2 ^ 383 - 1) / 2 ^ 0 < 2 ^ 383 ∧ 1 * 2 ^ 382 < 2 ^ 383 ∧ 2 ^ 383 ≤ 1 * 2 ^ 383 ∧ 2 ^ 383 ≤ 2 ^ 384 / 2 ^ 1 ∧
    (BitVec.ofNat 512 (4 * 2 ^ 384)).getLsbD 386 = true ∧
    (BitVec.ofNat 512 (3 * 2 ^ 384)).getLsbD 384 = true ∧ (BitVec.ofNat 512 (3 * 2 ^ 384)).getLsbD 385 = true := by
  decide +kernel

theorem meets_GroupSums :
    ((mmaTiles 10 false 0 ⟨[], [], 10, false, false, false⟩ ⟨[], [], 10, false, false, false⟩ 1 1).map (fun q => q.1)) = [0, 1] ∧
    ((mmaTiles 7 false 3 ⟨[], [], 7, false, false, false⟩ ⟨[], [], 7, false, false, false⟩ 1 1).map (fun q => q.1)) = [3] := by decide +kernel

/-! ### The sampler -/

/-- Bytes at an address of tile 0. -/
abbrev bytes0 (a : Nat) (bs : List Byte) (s : State) : State := on0 (fun T => { T with mem := T.mem.store a bs }) s

/-- A tapped fill is in flight. -/
abbrev tapS (l : List (BitVec 5 × Word)) : State :=
  on0 (fun T => { T with fa := { bind := { live := true, tap := true, busy := true } } }) (regs l base)

theorem meets_SamplerForms_ready :
    ∀ x ∈ [(Who.tile, [Src.g (g 1), .g (g 2)], []), (.tile, [.g (g 1), .g (g 2), .g (g 3)], []),
      (.tile, [.g (g 1)] ++ pairSrcs ⟨30, false⟩ ++ [.g (g 3)], []),
      (.tile, [.g (g 1)] ++ pairSrcs ⟨2, false⟩ ++ [.g (g 4)], [Dst.w 15])],
      Ready base al x.1 x.2.1 x.2.2 :=
  allReady (by decide)

theorem meets_SamplerForms_norm :
    (let s := regs [(1, 4088), (2, 1), (3, 0x4FFC0)] base
     (gOf s (g 1)).toNat < 4096 ∧ (gOf s (g 1)).toNat % 8 = 0 ∧ 0 < (gOf s (g 2)).toNat ∧
     (gOf s (g 1)).toNat + (gOf s (g 2)).toNat ≤ 4096 ∧ tapFlight (here s) = false ∧ Spec.freeNow s 0x4FFC0 8 true ∧
     Spec.plainReads s ∧ (here s).errs = [] ∧
     (match putLocal s 0 0 (0, 0x4FFC0) .plain (List.replicate 8 1) with | .ok _ => true | _ => false) = true) ∧
    tapFlight (here (tapS [])) = true := by decide +kernel

theorem meets_SamplerForms_block :
    Spec.Block (regs [(3, 0x4FFC0)] base) (gOf (regs [(3, 0x4FFC0)] base) (g 3)) 64 8 true :=
  ⟨by decide +kernel, by decide +kernel, by decide +kernel, by decide +kernel, by decide +kernel⟩

/-- The last table of the scratch partition: one slab, its header usable. -/
abbrev tabS : State := bytes0 0x4FF80 [1, 0, 1] (regs [(1, 0), (2, 1), (3, 0x4FF80)] base)

theorem meets_SamplerForms_table : Spec.TableRange tabS (gOf tabS (g 3)) (64 + 16 * 1) ∧ Spec.TableRange tabS (gOf tabS (g 3)) 64 :=
  ⟨⟨by decide +kernel, by decide +kernel, by decide +kernel⟩, ⟨by decide +kernel, by decide +kernel, by decide +kernel⟩⟩

theorem meets_SamplerForms_draw :
    claimed (here tabS).v 0x4FF80 80 = false ∧ (here tabS).v.bstate ≠ 2 ∧
    (match draws tabS 0 0 0x4FF80 0 0 with | .ok (_, some ds) => ds.length == 8 | _ => false) = true ∧
    (match draws base 0 0 0x4FF80 0 0 with | .ok (_, none) => true | _ => false) = true ∧
    (∀ t ∈ (here tabS).samp.atbs, (here tabS).arrSeq < t.seq) ∧
    (let s := on0 (fun T => { T with samp := { T.samp with atbs := [{ tab := 0, s0 := 0, l := 1, ct := 0, strand := 0, seq := 0 }] } }) base
     ∃ t ∈ (here s).samp.atbs, t.seq ≤ (here s).arrSeq) := by decide +kernel

/-- A record of Table 8.3: TAB 0x10000, LAT 0x60000, NMIN = NMAX = 2, PROW 31. -/
abbrev smplBytes : List Byte := [0, 0, 1, 0, 0, 0, 0, 0, 0, 0, 6, 0, 0, 0, 0, 0, 2, 0, 2, 0, 31]

abbrev smplS : State := bytes0 0x4FFC0 smplBytes (regs [(3, 0x4FFC0)] base)

theorem meets_SamplerForms_record :
    smplRec (Spec.working base 0x4FFC0 64) = none ∧
    (match smplRec (Spec.working smplS 0x4FFC0 64) with
      | some r => decide (r.tab = 0x10000 ∧ r.lat = 0x60000 ∧ r.nmax = 2) | none => false) = true ∧
    Spec.freeNow smplS 0x4FFC0 64 true := by decide +kernel

theorem meets_SamplerForms_record_ranges :
    Spec.Block smplS (gOf smplS (g 3)) 64 64 false ∧ Spec.TableRange smplS 0x10000 64 ∧ Spec.AccRange smplS 0x60000 65536 true :=
  ⟨⟨by decide +kernel, by decide +kernel, by decide +kernel, by decide +kernel, by decide +kernel⟩,
    ⟨by decide +kernel, by decide +kernel, by decide +kernel⟩,
    ⟨by decide +kernel, by decide +kernel, by decide +kernel, by decide +kernel⟩⟩

theorem meets_StatusReads :
    (∀ x ∈ [(Who.tile, [], []), (.tile, [], [Dst.g 31]), (.tile, [Src.g (g 1)], [])], Ready base al x.1 x.2.1 x.2.2) ∧
    Spec.samplerDone base ∧ (here base).errs = [] ∧ (here base).chan.cmds = [] ∧
    (let s := on0 (fun T => { T with arrQ := [{ op := .sclr 0, seq := 1, strand := 0, pc := 0 }] }) base
     ¬ Spec.samplerDone s) ∧
    (let s := regs [(1, 0x4FEC0)] base
     Spec.reachable (here s).v.partw (Spec.ofsOf (gOf s (g 1))) 320 ∧ (gOf s (g 1)).toNat % 64 = 0 ∧
     (match putLocal s 0 0 (0, 0x4FEC0) .plain (List.replicate 320 1) with | .ok _ => true | _ => false) = true) :=
  ⟨allReady (by decide), by decide +kernel, by decide, by decide, by decide +kernel, by decide +kernel⟩

/-! ### Streams and copies -/

/-- A stream record of FP32 pieces from 0x10000 on, 128 bytes apart: 32 of them, or with FP8 slabs for a FIFO. -/
abbrev record (word4 : Nat) : List Byte :=
  [0, 0, 1, 0, 0, 0, 0, 0, 32, 0, 1, 0, 1, 0, 1, 0, 128, 0, 0, 0, 0, 0, 0, 0, 0, 0, 0, 0, 0, 0, 0, 0] ++
  [BitVec.ofNat 8 word4, BitVec.ofNat 8 (word4 / 256)]

/-- The record stands in the last line of the scratch partition. -/
abbrev recS1 (word4 : Nat) : State := bytes0 0x4FFC0 (record word4) (regs [(1, 0x4FFC0)] base)

theorem meets_StreamForms_ready :
    ∀ x ∈ [(Who.tile, [Src.g (g 1), .g (g 2), .g (g 0)], []), (.tile, [], []), (.tile, [], [Dst.g 31])],
      Ready (recS1 8) al x.1 x.2.1 x.2.2 :=
  allReady (by decide)

theorem meets_StreamForms_q :
    let s := recS1 8
    let r := BitVec.ofNat 512 (natOf (Spec.working s 0x4FFC0 64))
    Spec.namesOwn s (gOf s (g 1)) ∧ Spec.reachable (here s).v.partw 0x4FFC0 64 ∧ Spec.plainReads s ∧
    recShape r 0 = true ∧ recType r = 8 ∧ recSlab r = false ∧ recTap r = false ∧ recPieces r = 32 ∧
    (match recBox s 0 r 0 0 true true with | .ok rs => rs.all (fun x => ownOverlap (here s) 0 x.1 x.2 == []) | _ => false) = true ∧
    ownOverlap (here s) 0 0x4FFC0 64 = [] := by decide +kernel

theorem meets_StreamForms_fifo :
    (let s := recS1 8
     let r := BitVec.ofNat 512 (natOf (Spec.working s 0x4FFC0 64))
     recCombo r false false = true ∧ ((here s).fifo true).bind.live = false ∧
     (match recBox s 0 r 0 0 false false with | .ok rs => rs.all (fun x => ownOverlap (here s) 0 x.1 x.2 == []) | _ => false) = true) ∧
    (let s := recS1 (8 + 1024)
     recSlab (BitVec.ofNat 512 (natOf (Spec.working s 0x4FFC0 64))) = true) ∧
    ((here (tapS [])).fifo false).bind.live = true ∧
    recShape (BitVec.ofNat 512 (natOf (Spec.working base 0x4FFC0 64))) 0 = false := by decide +kernel

/-- The largest and the smallest copy; the FIFO's number; sources and destinations of the own store that do not meet. -/
theorem meets_ChannelForms_copy :
    Spec.CopyOk base 0 0 0x10000 0x4FFF0 16 ∧ Spec.CopyOk base 3 2 1 0 (2 ^ 31) := by
  refine ⟨⟨by decide, by decide, by decide, by decide, fun _ => ⟨0, 0x10000, rfl, .inl ⟨by decide, rfl, by decide +kernel⟩⟩,
    fun _ => ⟨0, 0x4FFF0, rfl, .inl ⟨by decide, rfl, by decide +kernel⟩⟩, ?_, by decide⟩,
    ⟨by decide, by decide, by decide, by decide, fun h => absurd h (by decide), fun h => absurd h (by decide),
      fun h => absurd h (by decide), fun h => absurd h (by decide)⟩⟩
  intro _ _ u o v q h1 h2 _
  have h3 : o = 0x10000 := h1.1
  have h4 : q = 0x4FFF0 := h2.1
  omega

theorem meets_ChannelForms :
    (∀ x ∈ [(Who.tile, [Src.g (g 1), .g (g 2), .g (g 3)], []), (.tile, [], []), (.tile, [], [Dst.g 31])],
      Ready base al x.1 x.2.1 x.2.2) ∧
    ¬ Spec.heldBack base 0 0x10000 ∧ (here base).chan.cmds.length < 16 ∧
    (let s := on0 (fun T => { T with v := { T.v with bstate := 2 } }) base; Spec.heldBack s 0 0x10000) ∧
    Spec.patternAt { base with ctxs := base.ctxs.set 1 { ctx1 with sgtLo := 15, sgtN := 1 } } 0 15 ∧
    (∀ i, ¬ Spec.patternAt base 15 i) ∧ Spec.copyLen 3 256 ∧ ¬ Spec.copyLen 3 272 ∧ Spec.copyLen 0 16 :=
  ⟨allReady (by decide), by decide +kernel, by decide, by decide +kernel, by decide +kernel,
    fun i h => absurd h.1 (by decide +kernel), by decide, by decide, by decide⟩

theorem meets_CountersAndTerms :
    ∀ x ∈ [(Who.any, [Src.g (g 1)], []), (.any, [], [Dst.g 31]), (.control, [.g (g 1)], []), (.control, [], []), (.tile, [], [.g 31])],
      Ready (regs [(1, 0x8000000000000000)] base) al x.1 x.2.1 x.2.2 :=
  allReady (by decide)

/-! ### Steps of the array, the adder and the sampler -/

/-- The lines of a range, logged. -/
abbrev lines (o n : Nat) : List Slot := (List.range n).map (fun k => undo (o + 64 * k) 1)

theorem allLogged {s : State} {t o n : Nat} (ht : t ≠ monitorTile) (ho : o % 64 = 0)
    (hp : Spec.liesIn (s.tile t).v.partw 2 o (64 * n) ∨ Spec.liesIn (s.tile t).v.partw 3 o (64 * n))
    {q m : Nat} {ahead : Bool}
    (hg : (s.tile t).galley = if ahead then lines q m ++ lines o n else lines o n ++ lines q m)
    (he : (s.tile t).errs = []) (hd : s.det t = false) : Spec.Settled s t o (64 * n) := by
  have hm : ∀ g, g ∈ (s.tile t).galley ↔ g ∈ lines o n ∨ g ∈ lines q m := by
    intro g
    rw [hg]
    cases ahead <;> simp only [if_true, Bool.false_eq_true, if_false, List.mem_append]
    exact or_comm
  refine ⟨ht, ho, hp, fun l hl => ?_, fun g h hk => ?_, he, hd⟩
  · rw [logged, List.any_eq_true]
    refine ⟨undo (o + 64 * (l - o / 64)) 1, (hm _).mpr (.inl (List.mem_map.mpr ⟨l - o / 64, List.mem_range.mpr ?_, rfl⟩)), ?_⟩
    · have := hl.1; have := hl.2; omega
    · have := hl.1
      simp only [Bool.and_eq_true, beq_self_eq_true, true_and, beq_iff_eq]
      omega
  · rcases (hm g).mp h with h | h <;>
      (obtain ⟨k, -, rfl⟩ := List.mem_map.mp h
       simp at hk)

/-- A unit of 32 rows. -/
abbrev unit1 : Unit_ := ⟨List.replicate 32 0, List.replicate 32 0, 8, true, false, false⟩

/-- A command of the array's queue. -/
abbrev ac (op : ArrOp) : ArrCmd := ⟨op, 5, 0, 0, {}⟩

theorem meets_ArrayAndAdderSteps_array :
    (let s := on0 (fun T => { T with fb := { part := List.replicate 32 0, fillers := [.cmd 3] } }) base
     ((s.tile 0).fifo true).part.length = 32 ∧ ((s.tile 0).fifo true).fillers.head? ≠ some .binding) ∧
    (let s := on0 (fun T => { T with arrQ := [ac (.mma 8 false 3 1 1)], fa := { units := [unit1] }, fb := { units := [unit1, unit1] } }) base
     (s.tile 0).arrQ = [ac (.mma 8 false 3 1 1)] ∧ Spec.arrayFree s 0 ∧ (s.tile 0).fa.held = [] ∧ (s.tile 0).fb.held = [] ∧
     (s.tile 0).fa.units = [unit1] ∧ (s.tile 0).fb.units = [unit1, unit1] ∧ (s.tile 0).inja = false ∧ (s.tile 0).errs = [] ∧
     beforeMet s 0 0 {} = true) ∧
    (let s := on0 (fun T => { T with arrQ := [ac (.mrep false 255 2)], fa := { units := [unit1, unit1] } }) base
     (s.tile 0).arrQ = [ac (.mrep false 255 2)] ∧ Spec.arrayFree s 0 ∧ ((s.tile 0).fifo false).held = [] ∧
     2 ≤ ((s.tile 0).fifo false).units.length ∧ beforeMet s 0 0 {} = true) ∧
    ({ held := [unit1], uses := 1 } : Fifo).held = [unit1] ∧
    (let f : ArrFly := { cmd := ac (.mma 8 false 3 1 1), outs := [(3, ⟨[], 0⟩)], bad := false, badPt := 0, due := 0 }
     let s := on0 (fun T => { T with arrFly := [f] }) base
     (s.tile 0).arrFly = [f] ∧ f.due ≤ s.cycle ∧ readersDone (s.tile 0) 3 f.cmd.seq = true) := by decide +kernel

/-- Adder commands and drains. -/
abbrev addS (c : AddCmd) : State := on0 (fun T => { T with addQ := [c] }) base

abbrev dr (e : Nat) : Drain := { ea := 0x60000, dst := 0, ct := 15, z := false, seq := 9, strand := 0, pc := 0, elem := e }

theorem meets_ArrayAndAdderSteps_adder :
    (let c : AddCmd := { op := .saa 2 false 0x50000 none none 0, seq := 1, strand := 0, pc := 0 }
     let s := addS c
     (s.tile 0).addQ = [c] ∧ drainBlocks (s.tile 0) c.seq (addRanges c.op) = false ∧ Spec.valueThere (s.tile 0) 2 0 ∧
     (s.tile 0).lanes = [] ∧ c.ready = none) ∧
    (let c : AddCmd := { op := .lazero 0x50000, seq := 1, strand := 0, pc := 0, running := true, due := 0 }
     let s := addS c
     (s.tile 0).addQ = [c] ∧ c.due ≤ s.cycle ∧ (s.tile 0).errs = []) ∧
    (let p : Drain := { dr 5 with ea := 0x50000, strand := 1, seq := 8, running := true }
     let s := on0 (fun T => { T with drains := [p, dr 0] }) base
     (s.tile 0).drains = [p] ++ dr 0 :: [] ∧ (s.tile 0).addQ = [] ∧ p.running = true ∧ p.seq < (dr 0).seq ∧ p.elem < 1024 ∧
     p.strand ≠ (dr 0).strand ∧ p.ea + 65536 ≤ (dr 0).ea) ∧
    (let p : Drain := { dr 1025 with seq := 8 }
     let s := on0 (fun T => { T with drains := [p, dr 1024] }) base
     (s.tile 0).drains = [p] ++ dr 1024 :: [] ∧ p.elem ≠ 1024 ∧ (dr 1024).elem = 1024 ∧ p.seq ≠ (dr 1024).seq) := by decide +kernel

/-- Zeros carry nowhere: `lazero` adds nothing. -/
theorem meets_ArrayAndAdderSteps_carry : ∀ l, let a := addsOf { op := .lazero 0x50000, seq := 1, strand := 0, pc := 0 }
    laneCarry (base.tile 0) a.1 a.2 l = 0 := fun _ => rfl

abbrev vlaS : State :=
  on0 (fun T => { T with galley := lines 0x6F800 32 }) (addS { op := .vla 0x6F800 0 none, seq := 1, strand := 0, pc := 0, running := true })

theorem meets_ArrayAndAdderSteps_vla : Spec.Settled vlaS 0 0x6F800 2048 ∧ (vlaS.tile 0).injd = false :=
  ⟨allLogged (n := 32) (m := 0) (q := 0) (ahead := true) (by decide) (by decide) (by decide +kernel) (by rfl) (by decide) (by decide +kernel), by decide⟩

abbrev lazS : State :=
  on0 (fun T => { T with galley := lines 0x60000 1024 }) (addS { op := .lazero 0x60000, seq := 1, strand := 0, pc := 0, running := true })

theorem meets_ArrayAndAdderSteps_lazero : Spec.Settled lazS 0 0x60000 65536 :=
  allLogged (n := 1024) (m := 0) (q := 0) (ahead := true) (by decide) (by decide) (by decide +kernel) (by decide +kernel) (by decide)
    (by decide +kernel)

/-- The last block of the scratch partition and the last tile of the accumulator partition, all of whose lines are logged. -/
abbrev lardS (c : AddOp) : State :=
  on0 (fun T => { T with galley := lines 0x4F000 64 ++ lines 0x60000 1024 })
    (addS { op := c, seq := 1, strand := 0, pc := 0, running := true, pts := some ⟨List.replicate 1024 0x3F800000, 1⟩ })

theorem meets_ArrayAndAdderSteps_effects :
    ∀ c ∈ [AddOp.lard 0x4F000 0x60000 none 0 true, .saa 2 false 0x60000 none none 0, .acc 2 true 0x60000 (-1) 0],
      Spec.Settled (lardS c) 0 0x4F000 4096 ∧ Spec.Settled (lardS c) 0 0x60000 65536 := by
  intro c hc
  simp only [List.mem_cons, List.not_mem_nil, or_false] at hc
  rcases hc with rfl | rfl | rfl <;> exact
    ⟨allLogged (n := 64) (m := 1024) (q := 0x60000) (ahead := false) (by decide) (by decide) (by decide +kernel)
        (by decide +kernel) (by decide) (by decide +kernel),
      allLogged (n := 1024) (m := 64) (q := 0x4F000) (ahead := true) (by decide) (by decide) (by decide +kernel)
        (by decide +kernel) (by decide) (by decide +kernel)⟩

/-- A build, with its table computed or not. -/
abbrev atb1 (b : Option (List Byte)) : Atb := { tab := 0x10000, s0 := 0, l := 4, ct := 15, strand := 0, seq := 1, built := b, due := 0 }

abbrev atbS (b : Option (List Byte)) : State :=
  on0 (fun T => { T with galley := lines 0x10000 2, samp := { T.samp with atbs := [atb1 b] } }) base

theorem meets_EngineSteps_build :
    (((atbS none).tile 0).samp.atbs = [atb1 none] ∧ ((atbS none).tile 0).errs = [] ∧ (atb1 none).due ≤ (atbS none).cycle) ∧
    ((atbS (some (List.replicate 128 7))).tile 0).samp.draws = [] ∧
    Spec.Settled (atbS (some (List.replicate 128 7))) 0 0x10000 (List.replicate 128 (7 : Byte)).length :=
  ⟨by decide, by decide, by
    rw [List.length_replicate]
    exact allLogged (n := 2) (m := 0) (q := 0) (ahead := true) (by decide) (by decide) (by decide +kernel) (by rfl) (by decide) (by decide +kernel)⟩

theorem meets_EngineSteps_smp :
    let c := ac (.smp 8 false 3 0 0 0x4FF80)
    let s := on0 (fun T => { T with arrQ := [c] }) tabS
    (s.tile 0).drawn = none ∧ Spec.arrayFree s 0 ∧ beforeMet s 0 0 {} = true ∧ (s.tile 0).samp.atbs = [] ∧
    (match draws (Spec.on s (.smpAtHead 0)) 0 0 0x4FF80 0 0 with | .ok (_, some _) => true | _ => false) = true ∧
    (match draws (Spec.on s (.smpAtHead 0)) 0 0 0x10000 0 0 with | .ok (_, none) => true | _ => false) = true := by
  decide +kernel

theorem meets_EngineSteps_smpl :
    (let run : SmplRun := { busy := true, last := ⟨[], 0⟩ }
     let s := on0 (fun T => { T with samp := { T.samp with run := some run } }) { base with cycle := 80 }
     (s.tile 0).samp.run = some run ∧ run.start + 80 ≤ s.cycle ∧ (s.tile 0).errs = [] ∧ (s.tile 0).samp.n ≠ 65535) ∧
    (let run : SmplRun := { ended := true, last := ⟨[], 0⟩ }
     run.busy = false ∧ readersDone (base.tile 0) 3 5 = true ∧ (base.tile 0).arrFly = []) := by decide +kernel

/-! ### Steps of streams, channels and terms -/

/-- The record of `recS1` in stream register 7 of strand 0. -/
abbrev qS (q : QReg) (s : State) : State := me (fun S => { S with q := S.q.set 7 { q with valid := true, rcd := BitVec.ofNat 512 (natOf (record 8)) } }) s

/-- Stream 7, named in two source fields, holds one piece and will give more; as a destination it has no room. -/
theorem meets_EmptyRegisters_streams :
    (let s := qS { have_ := [0] } base
     let srcs : List Src := [.v ⟨.q 7, false⟩, .v ⟨.q 7, false⟩]
     qNeed 7 srcs = 2 ∧ srcEmpty (self s) srcs (.v ⟨.q 7, false⟩) = true ∧
     (srcs.map Src.dst).filter (fun d => (self s).isEmpty d) = []) ∧
    (let s := qS { out := true, pend := [1, 2, 3, 4], next := 4 } base
     streamTrap (self s) [] [.q 7] = none ∧ 4 ≤ (self s).q[7].pend.length ∧ (self s).isEmpty (.q 7) = false) := by decide +kernel

theorem meets_EngineSteps_stream :
    (let s := qS { have_ := [0, 0, 0], ahead := 31 } base
     let q := (s.strand 0 0).q[7]
     beforeMet s 0 0 q.after = true ∧ q.stopped = false ∧ q.have_.length < 4 ∧ q.ahead < recPieces q.rcd ∧ recHbm q.rcd = false ∧ (s.tile 0).errs = [] ∧
     s.det 0 = false ∧ Spec.reachable (s.tile 0).v.partw ((pieceAddr q.rcd q.ofs q.ahead).toNat % 2 ^ 21) 128 ∧
     (s.tile 0).chan.fault = false ∧ Spec.tellable s 0 0 ∧ 31 < recN q.rcd 0 ∧ 0 < recN q.rcd 1) ∧
    (let s := qS { out := true, pend := [5], next := 32 } base
     let q := (s.strand 0 0).q[7]
     (s.strand 0 0).rest.find? (fun o => o.k == 7) = none ∧ q.exh = false ∧ q.lost = false ∧
     (s.strand 0 0).outPark.getLsbD 7 = false ∧ q.pend = [5] ∧
     (pieceAddr q.rcd q.ofs (q.next - q.pend.length)).toNat % 2 ^ 21 = 0x10F80 ∧
     claimed (s.tile 0).v 0x10F80 128 = false ∧ recPieces q.rcd ≤ q.next) := by decide +kernel

theorem meets_EngineSteps_out :
    Spec.Settled (on0 (fun T => { T with galley := lines 0x10F80 2 }) (qS { out := true, pend := [5], next := 32 } base)) 0 0x10F80 128 :=
  allLogged (n := 2) (m := 0) (q := 0) (ahead := true) (by decide) (by decide) (by decide +kernel) (by rfl) (by decide) (by decide +kernel)

/-- A command of channel 0. -/
abbrev cc (c : CopyCmd) (s : State) : State := on0 (fun T => { T with chan := { T.chan with cmds := [c] } }) s

abbrev fill : CopyCmd :=
  { seq := 1, strand := 0, pc := 0, dsp := 0, ssp := 3, dst := 0x4FF80, src := 0xDEADBEEF, len := 128, ct := 15, fl := 0, crc := 0, gate := 0 }

theorem meets_EngineSteps_channel :
    (let c := { fill with fl := 8, gate := 7 }
     let s := on0 (fun T => { T with chan := { T.chan with gates := T.chan.gates.set 7 1 } }) (cc c { base with cycle := 4 })
     Spec.headCmd (s.tile 0) c [] ∧ c.started = false ∧ c.pushed + 4 ≤ s.cycle ∧ beforeMet s 0 0 c.after = true ∧ c.fl.getLsbD 3 = true ∧
     (s.tile 0).chan.gates[c.gate.toNat] ≠ 0) ∧
    (let c := { fill with started := true, done := 128 }
     let s := cc c base
     Spec.headCmd (s.tile 0) c [] ∧ c.due ≤ s.cycle ∧ (s.tile 0).chan.park = false ∧ c.stuck = false ∧ c.wait = [] ∧ c.lost = false ∧ c.len ≤ c.done ∧ c.fl.getLsbD 2 = false) ∧
    (let c := { fill with started := true }
     let s := cc c base
     c.dst.toNat % 4096 + c.len ≤ 4096 ∧ c.fl.extractLsb' 0 3 = 0 ∧ (s.tile 0).v.coll = Vector.replicate 8 {} ∧
     (∀ i ∈ List.range 8, (s.tile (tileAt (clusterOf 0) i)).v.coll = Vector.replicate 8 {}) ∧ Spec.tellable s 0 0) ∧
    (let c := { fill with started := true, done := 128, follow := some (8, false, 3) }
     let s := cc c base
     c.len ≤ c.done ∧ c.lost = false ∧ (s.tile 0).arrQ.length < 4) ∧
    (∃ e, ({ fill with gather := some (15, 15) } : CopyCmd).gather = some (e, 15)) :=
  ⟨by decide +kernel, by decide +kernel, by decide +kernel, by decide +kernel, 15, rfl⟩

theorem meets_EngineSteps_fill :
    Spec.Settled (on0 (fun T => { T with galley := lines 0x4FF80 2 }) (cc { fill with started := true } base)) 0 0x4FF80 128 :=
  allLogged (n := 2) (m := 0) (q := 0) (ahead := true) (by decide) (by decide) (by decide +kernel) (by rfl) (by decide) (by decide +kernel)

theorem meets_EngineSteps_term :
    let s := on0 (fun T => { T with v := { T.v with terms := T.v.terms.set 7 0x800000000101FFFF#64, c := Vector.replicate 16 1 } }) base
    let w := termNow (s.tile 0) 7
    (s.tile 0).running = true ∧ w.getLsbD 63 = true ∧ (∀ i : Fin 16, (w.extractLsb' 24 16).toNat ≤ ((s.tile 0).v.c[i]).toNat) ∧
    (s.tile 0).arrQ = [] ∧ (s.tile 0).addQ = [] := by decide +kernel

/-! ### The barrier and the group -/

/-- Changes of the group, and of the virtual-scope registers of tile 0. -/
abbrev onGrp (f : Group → Group) (s : State) : State := { s with groups := [f grp] }

abbrev onV (f : VRegs → VRegs) (s : State) : State := on0 (fun T => { T with v := f T.v }) s

theorem meets_BarrierForms :
    (∀ x ∈ [(Who.control, [], []), (.control, [Src.g (g 1)], [Dst.g 31]), (.control, [.g (g 1)], []), (.tile, [], [.g 31]), (.tile, [], [])],
      Ready base al x.1 x.2.1 x.2.2) ∧
    (here base).v.bstate = 0 ∧ (here (onV (fun v => { v with bstate := 2 }) base)).v.bstate = 2 ∧
    Ready (onV (fun v => { v with bstate := 1 }) base) al .control [] [] ∧ (here base).running = true ∧
    (here base).v.voted = false ∧ (here (onV (fun v => { v with voted := true }) base)).v.voted = true ∧
    (here base).shadow = false ∧ base.groupOf base.cur.1 = some grp ∧
    (gOf (regs [(1, 0xFFFFFFFFFFFF)] base) (g 1)).extractLsb' 48 16 = 0 :=
  ⟨allReady (by decide), by decide, by decide, ready (by decide), by decide, by decide, by decide, by decide,
    by decide +kernel, by decide +kernel⟩

/-- A pair of copies whose arrivals are pending. -/
abbrev pairS : State :=
  { base with tiles := [(0, { tile 0 with twin := some 1, v := { (tile 0).v with bstate := 1 } }),
                        (1, { tile 1 with twin := some 0, shadow := true, v := { (tile 0).v with bstate := 1 } })] }

theorem meets_BarrierSteps_tile :
    (let s := onV (fun v => { v with bstate := 1 }) base
     s.groupOf 0 = some grp ∧ arrivalReady s 0 = true ∧ moreTurns s 0 = false ∧ (s.tile 0).twin = none ∧
     (s.tile 0).slots = [] ∧ (s.tile 0).shadow = false) ∧
    (let s := me (fun S => { S with st := .halted }) base
     (s.tile 0).v.bstate = 0 ∧ arrivalReady s 0 = true ∧ moreTurns s 0 = false) ∧
    (let s := pairS
     s.groupOf 0 = some grp ∧ (s.tile 0).twin = some 1 ∧ arrivalReady s 0 = true ∧ moreTurns s 0 = false ∧
     grp.dmrNow.contains 0 = false ∧ (s.tile 1).v.bstate ≠ 2 ∧ arrivalReady s 1 = true ∧ moreTurns s 1 = false ∧
     (s.tile 0).v.voted = false ∧ (s.tile 0).v.votes = [] ∧ (s.tile 0).running = true) ∧
    (let s := on0 (fun T => { T with chan := { T.chan with cmds := [fill], park := true } }) (onV (fun v => { v with bstate := 1 }) base)
     parkWanted s 0 = true ∧ (s.tile 0).v.park = false) ∧
    (let s := onV (fun v => { v with park := true }) base
     parkWanted s 0 = false ∧ (s.tile 0).v.park = true) := by decide +kernel

theorem meets_BarrierSteps_signatures :
    signature (pairS.tile 0) = signature (pairS.tile 1) ∧ signature (pairS.tile 0) ≠ signature { pairS.tile 1 with sig := 1 } := by
  refine ⟨rfl, ?_⟩
  have h0 : (pairS.tile 0).galley = [] := by decide
  have h1 : (pairS.tile 1).galley = [] := by decide
  have h2 : (pairS.tile 0).sig = 0 := by decide
  have h3 : (pairS.tile 0).v = (pairS.tile 1).v := rfl
  have h4 : (pairS.tile 0).outq = [] := by decide
  have h5 : (pairS.tile 1).outq = [] := by decide
  simp only [signature, turnSignature, h0, h1, h2, h3, h4, h5, List.filter_nil, List.map_nil, List.foldl_nil]
  generalize crc64 _ = x
  bv_omega

/-- A message of the group's superstep 0, attempt 0. -/
abbrev msg0 (n : Nat) (b : BitVec 2) : BarMsg :=
  { ss := 0, att := 0, bid := b, wild := false, cause := 0, opc := 0, count := n, opnd := 7 }

/-- Nodes that forward: the far one of a row, one of the anchor's column, and, on two dies, the anchor itself; a node waits
while what lies behind it has not arrived. -/
theorem meets_BarrierSteps_nodes :
    (let g := { grp with v := 4, hosts := [0, 1, 2, 32] }
     let s := onGrp (fun _ => g) base
     s.group 1 = some g ∧ (msg0 2 3).ss = g.ss ∧ (msg0 2 3).att = g.att ∧ g.nodes = [] ∧ anchorOf g 0 = (0, 0) ∧
     multiDie g = false ∧ nodeExpects g 0 0 1 = 2 ∧ (msg0 1 3).count < 2 ∧ nodeExpects g 0 1 0 = 1) ∧
    (let g := { grp with hosts := [0, 1024] }
     anchorOf g 0 = (0, 0) ∧ multiDie g = true ∧ nodeExpects g 0 0 0 = 1) := by decide +kernel

/-- Link 0, of die 0's path to the I/O chiplet, with a data flit in its buffer or none; every other link is DOWN. -/
abbrev ioLink (b : List (BitVec 12 × Flit)) : State :=
  { base with links := base.links.set 0 { st := .up, d0 := { buf := b } } }

/-- A crossing that no link can carry, one over an idle link, and one behind a data flit. -/
theorem meets_BarrierSteps_crossings :
    flowLink base 16384 16388 (ioLinks 0) = none ∧
    (∀ b ∈ [[], [((5 : BitVec 12), (⟨true, true, 5, 0, false, 0, false, 0, 0, []⟩ : Flit))]],
      flowLink (ioLink b) 16384 16388 (ioLinks 0) = some 0 ∧ (((ioLink b).link 0).dir false).buf.filter (fun f => f.2.vc == 0) = b) ∧
    (let s := { base with flows := [{ src := 0, dst := 0, link := 0, from_ := 0, vc := 0, group := none, ev := .resultDelivery 0 0 0 .none 0, due := 0, across := 5, till := 101 }] }
     dataUntil s 0 0 = 101) := by
  refine ⟨?_, ?_, by decide +kernel⟩
  · have h1 : flowOn base 16384 16388 (ioLinks 0) = none := by decide +kernel
    have h2 : (ioLinks 0).filter (fun l => (base.link l).assignable) = [] := by decide +kernel
    simp [flowLink, h1, h2]
  · intro b hb
    simp only [List.mem_cons, List.not_mem_nil, or_false] at hb
    rcases hb with rfl | rfl <;> exact ⟨flowLink_single (by decide +kernel) (by decide +kernel), by decide +kernel⟩

/-- An ABORT of the group's attempt. -/
theorem meets_BarrierSteps_abort :
    let m := { msg0 0 0 with cause := 5 }
    base.group 1 = some grp ∧ m.ss = grp.ss ∧ m.att = grp.att ∧ m.cause ≠ 0 ∧ multiDie grp = false ∧
    multiDie { grp with hosts := [0, 1024] } = true := by decide +kernel

theorem meets_BarrierSteps_decision :
    base.group 1 = some grp ∧ (msg0 2 3).ss = grp.ss ∧ (msg0 2 3).att = grp.att ∧ anchorOf grp 0 = (0, 0) ∧
    multiDie grp = false ∧ grp.dp = .open_ ∧ grp.st = .running ∧ grp.todo = [] ∧ grp.v ≤ (msg0 2 3).count ∧ (msg0 1 3).count < grp.v ∧
    (let g := { grp with dp := .gathering, bid := some 3, count := 1, tmo := 5, timer := 5 }
     (onGrp (fun _ => g) base).group 1 = some g ∧ (3 : BitVec 2) ≠ (msg0 1 2).bid ∧ 3 = (msg0 1 3).bid ∧ g.opc = (msg0 1 3).opc ∧
     g.v ≤ g.count + (msg0 1 3).count ∧ g.bid ≠ none ∧ g.tmo ≠ 0 ∧ g.tmo ≤ g.timer) := by decide +kernel

theorem meets_ReleaseAndGroupSteps_release :
    (let g := { grp with dp := .commit }
     let s := onGrp (fun _ => g) base
     s.group 1 = some g ∧ g.st = .running ∧ g.decideAt ≤ s.cycle ∧
     (∀ d ∈ groupDies g, 0 ≤ (s.die d).eres ∧ (s.die d).tmax.toInt < ((s.die d).tlim.toNat : Int)) ∧
     (let s := { s with dies := s.dies.set 0 { s.dies[0] with eres := -1 } }
      ∃ d ∈ groupDies g, (s.die d).eres < 0)) ∧
    (let g := { grp with dp := .abort }
     (onGrp (fun _ => g) base).group 1 = some g ∧ g.st = .running ∧ g.decideAt ≤ base.cycle ∧ g.dp = .abort) := by decide +kernel

/-- The release of superstep 0, attempt 0. -/
abbrev rel : Release := releaseOf grp 0 false false

theorem meets_ReleaseAndGroupSteps_runs :
    Spec.RunsRelease (onGrp (fun g => { g with todo := [(0, rel), (1, rel)] }) (on0 (fun T => { T with galley := [undo 0x10000 1] }) base)) 1
      { grp with todo := [(0, rel), (1, rel)] } 0 rel ∧
    (∀ x ∈ ((on0 (fun T => { T with galley := [undo 0x10000 1] }) base).tile 0).galley, x.kind = .undo ∧ x.ofs % 64 = 0) ∧
    (((on0 (fun T => { T with galley := [undo 0x10000 1] }) base).tile 0).galley.map (fun x => x.ofs)).Nodup :=
  ⟨⟨by decide, by decide, by decide, ⟨1, by decide, by decide⟩, by decide, by decide, by decide, by decide, by decide,
    by decide, by decide +kernel⟩, by decide, by decide⟩

/-- The kernel's partitions fit every tile. -/
theorem part_fits (k : Kernel) (t : TileId) (ht : t ≠ monitorTile) (hk : k.partw = part) (he : k.entries = []) : badPart k t = false := by
  have h : partLimit part 5 ≤ capOf t := below_cap t _ ht (by decide +kernel)
  have h' : ¬ capOf t < partLimit part 5 := by omega
  simp only [badPart, hk, he, h', decide_false, Bool.or_false]
  decide +kernel

theorem meets_ReleaseAndGroupSteps_start :
    (let g := { grp with st := .placed }
     let s := onGrp (fun _ => g) base
     s.group 1 = some g ∧ allUsable s g = true ∧ g.kept = [] ∧
     (s.ctx g.ctx).kernel g.kimg = some { kimg := 0, st := .running, partw := part, groups := 1 } ∧ g.v ≤ g.hosts.length) ∧
    (∀ t ∈ grp.tiles, badPart { kimg := 0, st := .running, partw := part, groups := 1 } t = false) := by
  refine ⟨by decide +kernel, fun t ht => part_fits _ t ?_ rfl rfl⟩
  have h : t = 0 ∨ t = 1 := by
    have : t ∈ ([0, 1] : List Nat) := ht
    simpa using this
  rcases h with rfl | rfl <;> decide

theorem meets_ReleaseAndGroupSteps_gate :
    let s := { base with clusters := [(0, { power := .awake, gate := false })] }
    s.group 1 = some grp ∧ grp.st = .running ∧ grp.v ≤ grp.hosts.length ∧ (s.cluster 0).gate = false ∧
    (∀ t ∈ grp.tiles, clusterOf t = 0 → (s.strand t 0).st ≠ .started) := by decide +kernel

/-- Tile 2 of the device is enabled and free. -/
theorem meets_ReleaseAndGroupSteps_move :
    let s := { base with ctxs := base.ctxs.set 1 { ctx1 with enbl := Vector.replicate 4 4 }
                         clusters := [(0, { power := .awake, gate := true, placed := some 1 })] }
    s.group 1 = some grp ∧ 1 < grp.v ∧ moveOk s grp (1 % grp.hosts.length) 2 = true := by
  refine ⟨by decide +kernel, by decide, ?_⟩
  have h : 0x78000 + 0x4000 ≤ capOf 2 := below_cap 2 _ (by decide) (by decide)
  simp only [moveOk]
  rw [show storeNeed _ _ _ = 0x78000 + 0x4000 by decide +kernel]
  simp only [h, and_true]
  decide +kernel

/-- Every page below 128 MiB of context 1 is mapped by one leaf; the group sits on tile 0 and is to have tile 1 too. -/
abbrev mapped (s : State) : State :=
  frameStore (frameStore { s with ctxs := s.ctxs.set 1 { (s.ctxs[1]) with tbr := 1 } } 0 0 1 0 (bytesOf 8 0x8000000000000002))
    0 0 2 0 (bytesOf 8 0xCC00000000001000)

abbrev reshaping : Group := { grp with st := .reshaping, hosts := [0], newHosts := [0, 1] }

abbrev reshS : State := mapped (onGrp (fun _ => reshaping) base)

/-- The image of a virtual tile lies in the mapped range. -/
theorem reshape_place (v : VRegs) (hw : v.partw = part ∨ v.partw = 0) (hc : v.coll = Vector.replicate 8 {}) :
    ∀ q ∈ ((imageVa ((Spec.on reshS (.reshapeDone 1)).ctx 1) v.idx 0, imgLen v.partw) ::
      ((List.range 8).filter (fun k => (v.slotOf (BitVec.ofNat 3 k)).st == 2)).map
        (fun k => (parkedVa ((Spec.on reshS (.reshapeDone 1)).ctx 1) v.idx k, 4096)) : List (Word × Nat)),
      q.1 = 0x1000 ∧ (q.2 = imgLen part ∨ q.2 = imgLen 0) := by
  have h : (List.range 8).filter (fun k => (v.slotOf (BitVec.ofNat 3 k)).st == 2) = [] := by
    exact List.filter_eq_nil_iff.mpr (fun k _ => by simp [VRegs.slotOf, hc])
  have ha : imageVa ((Spec.on reshS (.reshapeDone 1)).ctx 1) v.idx 0 = 0x1000 := by
    have h1 : ((Spec.on reshS (.reshapeDone 1)).ctx 1).sab.toNat = 0 := by decide +kernel
    have h2 : ((Spec.on reshS (.reshapeDone 1)).ctx 1).z = 0 := by decide +kernel
    simp only [imageVa, h1, h2]
    simp
  intro q hq
  rw [h] at hq
  obtain rfl : q = _ := by simpa using hq
  exact ⟨ha, hw.elim (fun h => .inl (by rw [h])) (fun h => .inr (by rw [h]))⟩

theorem on_tile (s : State) (e : Ev) (t : TileId) : (Spec.on s e).tile t = s.tile t := rfl

theorem reshape_regs (o : Nat) : (imgOf (Spec.on reshS (.reshapeDone 1)) reshaping o).regs = if o = 0 then (reshS.tile 0).v else {} := by
  have h0 : (reshaping.hosts[o % 1]?).getD 0 = 0 := by rw [Nat.mod_one]; decide
  have h1 : ((Spec.on reshS (.reshapeDone 1)).tile 0).slot = 0 := by decide +kernel
  have h2 : ((Spec.on reshS (.reshapeDone 1)).tile 0).slots = [] := by decide +kernel
  have h3 : ((Spec.on reshS (.reshapeDone 1)).tile 0).v = (reshS.tile 0).v := by rw [on_tile]
  have h4 : reshaping.hosts.length = 1 := rfl
  simp only [imgOf, h4, h0, Nat.div_one, slotRegs, h1, h2, h3]
  by_cases ho : o = 0
  · simp [ho]
  · rw [if_neg (fun h => ho h.symm), if_neg ho]
    rfl

theorem meets_ReleaseAndGroupSteps_reshape :
    reshS.group 1 = some reshaping ∧ reshaping.plan.saving = false ∧ (∀ t ∈ reshaping.tiles, (reshS.tile t).errs = []) ∧ allUsable reshS reshaping.reshaped = true ∧
    (∀ ords, imageBlocked (Spec.on reshS (.reshapeDone 1)) 1 (imagePlaces (Spec.on reshS (.reshapeDone 1)) reshaping ords) = none) := by
  refine ⟨by decide +kernel, by decide, by decide +kernel, by decide +kernel, fun ords => ?_⟩
  have h1 : imageBlocked (Spec.on reshS (.reshapeDone 1)) 1 [(0x1000, imgLen part)] = none := by decide +kernel
  have h2 : imageBlocked (Spec.on reshS (.reshapeDone 1)) 1 [(0x1000, imgLen 0)] = none := by decide +kernel
  have h : ∀ p ∈ imagePlaces (Spec.on reshS (.reshapeDone 1)) reshaping ords, p.1 = 0x1000 ∧ (p.2 = imgLen part ∨ p.2 = imgLen 0) := by
    intro p hp
    obtain ⟨o, -, hp⟩ := List.mem_flatMap.mp hp
    refine reshape_place _ ?_ ?_ p hp
    · rw [reshape_regs]; split
      · exact .inl (by decide +kernel)
      · exact .inr rfl
    · rw [reshape_regs]; split
      · decide +kernel
      · rfl
  rw [imageBlocked, List.findSome?_eq_none_iff] at h1 h2 ⊢
  intro p hp
  obtain ⟨ha, hn⟩ := h p hp
  obtain ⟨a, n⟩ := p
  obtain rfl : a = 0x1000 := ha
  rcases hn with hn | hn
  · obtain rfl : n = imgLen part := hn
    exact h1 _ (List.mem_singleton.mpr rfl)
  · obtain rfl : n = imgLen 0 := hn
    exact h2 _ (List.mem_singleton.mpr rfl)

theorem meets_ReleaseAndGroupSteps_turn :
    let g := { grp with hosts := [0] }
    let s := mapped (onGrp (fun _ => g) (on0 (fun T => { T with slots := [{}, {}] }) (onV (fun v => { v with bstate := 1 }) base)))
    s.groupOf 0 = some g ∧ arrivalReady s 0 = true ∧ moreTurns s 0 = true ∧ (s.tile 0).v.votes = [] ∧ (s.tile 0).errs = [] ∧
    (buffersWait (Spec.on s (.foldTurnChange 0)) g 0).isNone = true := by decide +kernel

/-! ### Queues, the dispatcher, clusters -/

/-- Context 1 with a change. -/
abbrev onCtx (f : Ctx → Ctx) (s : State) : State := { s with ctxs := s.ctxs.set 1 (f s.ctxs[1]) }

/-- The queues of context 1 are open. -/
abbrev openS : State := onCtx (fun x => { x with queues := Vector.replicate 16 { open_ := true } }) (regs [(1, 0x4FFC0)] base)

theorem meets_DispatcherAndMapForms :
    (∀ x ∈ [(Who.tile, [Src.g (g 1)], [Dst.g 5]), (.tile, [.g (g 1), .g (g 2)], [.g 31]), (.tile, [], [.g 0]), (.control, [.g (g 1)], [])],
      Ready openS al x.1 x.2.1 x.2.2) ∧
    Spec.OwnAccess openS (gOf openS (g 1)) 64 ∧ Spec.single openS ∧ openS.det 0 = false ∧ ownDevice openS 0 = 0 ∧
    ((openS.ctx 1).queue 3).open_ = true ∧ msgBad (openS.ctx 1) 0 = true ∧ ((base.ctx 1).queue 3).open_ = false ∧
    openS.groupOf openS.cur.1 = some grp ∧ findObj (base.ctx 1) ⟨0, 0, 0, 0, 0⟩ = none :=
  ⟨allReady (by decide), ⟨by decide, by decide +kernel, by decide +kernel, by decide +kernel, by decide +kernel, by decide⟩,
    by decide +kernel, by decide +kernel, by decide +kernel, by decide +kernel, by decide +kernel, by decide +kernel, by decide +kernel,
    by decide +kernel⟩

/-- An object of the context, open. -/
abbrev obj1 : ObjRec := { id := ⟨3, 1, 0, 0, 0⟩ }

/-- A message that ends job 1 (kind 4). -/
abbrev jobEnd : BitVec 512 := 4 + 1 * 2 ^ 32

/-- A node of the pool for a number of tiles. -/
abbrev pnode (o v n byp : Nat) : PoolNode :=
  { ctx := 1, dev := 0, prio := 3, order := o, node := ⟨0, 1, 0, 0, BitVec.ofNat 12 n⟩, kimg := 0, v := v, pmin := v, edecl := 0, trise := 0,
    arg := 0, pred := [], byp := byp }

theorem meets_DispatcherSteps :
    (let s := onCtx (fun x => { x with objs := [obj1] }) openS
     findObj (s.ctx 1) obj1.id = some obj1 ∧ obj1.st = .pending ∧ findObj (s.ctx 1) obj1.id ≠ none ∧
     msgBad (s.ctx 1) jobEnd = false ∧ ((s.ctx 1).queue 3).msgs.length + ((s.ctx 1).queue 3).rsv < 256) ∧
    (let s := onCtx (fun x => { x with queues := Vector.replicate 16 { open_ := true, msgs := List.replicate 256 0 } }) openS
     256 ≤ ((s.ctx 1).queue 3).msgs.length + ((s.ctx 1).queue 3).rsv) ∧
    (let s := onCtx (fun x => { x with objs := [{ obj1 with id := ⟨0, 1, 0, 0, 7⟩ }] }) openS
     findObj (s.ctx 1) ⟨0, 1, 0, 0, 7⟩ = some { obj1 with id := ⟨0, 1, 0, 0, 7⟩ }) ∧
    (let s := onCtx (fun x => { x with objs := [obj1] }) openS
     let g := { grp with node := ⟨0, 1, 0, 0, 7⟩, st := .placed }
     let s := { onGrp (fun _ => g) s with disp := { s.disp with pool := [pnode 1 1 1 0] } }
     s.group 1 = some g ∧ g.ctx = 1 ∧ objHolds obj1.id g.node = true ∧ objHolds obj1.id (pnode 1 1 1 0).node = true ∧
     (pnode 1 1 1 0).ctx = 1) ∧
    (let s := on0 (fun T => { T with acks := [(0, 0)] }) base
     ((0 : StrandNo), 0) ∈ (s.tile 0).acks) ∧
    nextQueue base = none ∧
    (let s := onCtx (fun x => { x with queues := x.queues.set 3 { open_ := true, msgs := [jobEnd] }, objs := [obj1] }) base
     nextQueue s = some 19 ∧ ((s.ctx (19 / 16)).queue (19 % 16)).msgs = jobEnd :: []) := by decide +kernel

/-- One granule of code, registers, scratch and galley. -/
abbrev small : Word := 0x0000010000100401

theorem small_cap (t : TileId) (n : Nat) (h : n ≤ 0x40000) : n ≤ capOf t := by
  unfold capOf
  split
  · exact h
  · split <;> omega

theorem small_need (v p : Nat) (t : TileId) : decide (storeNeed small v p ≤ capOf t) = true := by
  have h1 : partLimit small 5 = 0x10000 := by decide +kernel
  have h2 : granOf small 5 = 0 := by decide +kernel
  exact decide_eq_true (small_cap t _ (by rw [storeNeed, h1, h2]; omega))

theorem zero_need (t : TileId) : decide (0 ≤ capOf t) = true := decide_eq_true (Nat.zero_le _)

abbrev kern : Kernel := { kimg := 0, partw := small }

/-- Two nodes; tile 0 alone is enabled. -/
abbrev poolS (a b : PoolNode) : State :=
  { base with disp := { base.disp with pool := [a, b] }, groups := [], tiles := []
              ctxs := base.ctxs.set 1 { ctx1 with kernels := [kern], enbl := (Vector.replicate 4 0).set 0 1 } }

theorem meets_DispatcherSteps_admission (a b : PoolNode) (h : a = pnode 1 1 1 0 ∨ a = pnode 1 2 1 64 ∨ a = pnode 1 2 1 0) (hb : b = pnode 2 1 2 0) :
    ((poolS a b).ctx 1).st = .live ∧ ((poolS a b).ctx 1).mode = 0 ∧ (∀ x ∈ List.range 32, x ≠ 1 → ((poolS a b).ctx x).st ≠ .live) ∧
    nodeReady (poolS a b) a = true ∧ nodeReady (poolS a b) b = true ∧ ((poolS a b).ctx 1).kernel 0 = some kern ∧ kern.st = .loaded := by
  subst hb
  rcases h with rfl | rfl | rfl <;> decide +kernel

theorem small_usable (s : State) (x : Ctx) (c : ClusterId) (v p : Nat) :
    usableTiles s x c (storeNeed small v p) = usableTiles s x c 0 := by
  simp only [usableTiles, small_need, zero_need]

/-- With these partitions every store has room for a host (R17), so a placement depends on no fuse. -/
theorem small_place (s : State) (x : Ctx) (d n c v p e r : Nat) :
    placeTiles s x d n c (storeNeed small v p) e r = placeTiles s x d n c 0 e r := by
  simp only [placeTiles, small_usable]

theorem zero_usable (s : State) (x : Ctx) (c : ClusterId) :
    usableTiles s x c 0 = if (s.cluster c).placed.isSome || (s.cluster c).power == .test || (s.cluster c).tfail then [] else
      ((List.range 8).map (tileAt c)).filter (fun t => ((x.enbl[dieOf t]?).getD 0).getLsbD (t % 1024) && tileGiven x t) := by
  simp only [usableTiles, zero_need, Bool.and_true]

theorem meets_DispatcherSteps_fits_first :
    fits (Spec.on (poolS (pnode 1 1 1 0) (pnode 2 1 2 0)) .admissionStep) (pnode 1 1 1 0) kern ≠ none := by
  unfold fits
  simp only [small_place]
  unfold placeTiles
  simp only [zero_usable]
  decide +kernel

theorem meets_DispatcherSteps_fits_bypassed :
    fits (Spec.on (poolS (pnode 1 2 1 64) (pnode 2 1 2 0)) .admissionStep) (pnode 1 2 1 64) kern = none := by
  unfold fits
  simp only [small_place]
  unfold placeTiles
  simp only [zero_usable]
  decide +kernel

theorem meets_DispatcherSteps_fits_passed :
    fits (Spec.on (poolS (pnode 1 2 1 0) (pnode 2 1 2 0)) .admissionStep) (pnode 1 2 1 0) kern = none := by
  unfold fits
  simp only [small_place]
  unfold placeTiles
  simp only [zero_usable]
  decide +kernel

theorem meets_DispatcherSteps_fits_second :
    fits (Spec.on (poolS (pnode 1 2 1 0) (pnode 2 1 2 0)) .admissionStep) (pnode 2 1 2 0) kern ≠ none := by
  unfold fits
  simp only [small_place]
  unfold placeTiles
  simp only [zero_usable]
  decide +kernel

/-- A cluster with a change, its tiles at rest, after two seconds. -/
abbrev clus (k : Cluster) : State := { base with tiles := [], clusters := [(511, k)], cycle := 3200000000 }

theorem meets_KernelAndClusterSteps_power :
    ((clus {}).cluster 511).power = .gated ∧ ((clus { power := .retained }).cluster 511).power = .retained ∧
    ((clus { usableAt := some 3200000000 }).cluster 511).usableAt = some (clus {}).cycle ∧
    (let s := clus { power := .awake }
     (s.cluster 511).usableAt = none ∧ clusterFree s 511 = true ∧ s.disp.retd ≠ 0 ∧ s.disp.gatd ≠ 0 ∧
     s.disp.retd.toNat ≤ idleOf s 511 ∧ s.disp.gatd.toNat ≤ idleOf s 511) ∧
    (let s := clus { power := .retained, retAt := 0 }
     clusterFree s 511 = true ∧ s.disp.gatd.toNat ≤ (s.cycle - (s.cluster 511).retAt) / 1600) ∧
    (let s := { clus { power := .awake, tpend := true } with disp := { base.disp with ten := true } }
     testDue s 511 = true ∧ ∀ e ∈ s.agenda, e.2 = .admissionStep → s.cycle < e.1) ∧ ((clus { power := .test }).cluster 511).power = .test := by decide +kernel

/-! ### System forms, boot, contexts, kernels, records -/

theorem meets_MonitorForms_ready :
    (∀ x ∈ [(Who.any, [], []), (.any, [Src.g (g 1)], [Dst.g 5]), (.any, [.g (g 0)], [.g 5]), (.any, [.g (g 1)], []), (.any, [], [.g 31])],
      Ready base al x.1 x.2.1 x.2.2) ∧
    (∀ x ∈ [(Who.monitor, [Src.g (g 1)], []), (.monitor, [.g (g 1), .g (g 2)], [Dst.g 5]), (.monitor, [.g (g 1), .g (g 2)], []),
      (.monitor, [.g (g 1)], [.g 5])], Ready (onMonitor base) al x.1 x.2.1 x.2.2) :=
  ⟨allReady (by decide), allReady (by decide)⟩

theorem meets_MonitorForms :
    (self (me (fun S => { S with inHandler := true }) base)).inHandler = true ∧ (self base).inHandler = false ∧ Spec.single base ∧
    (base.ctx 31).st = .free ∧ (base.ctx 1).st = .live ∧ (base.ctx (here base).ctx).debug = false ∧
    (let s := onCtx (fun x => { x with debug := true, trace := true }) base
     (s.ctx (here s).ctx).debug = true) ∧
    (let s := { State.reset with disp := { State.reset.disp with dpolW := some 5 } }
     s.disp.dpolW = some 5 ∧ ∀ c ∈ List.range 32, (s.ctx c).st ≠ .live) ∧ (here base).ctx ≠ 0 ∧ ownDevice base 0 < 4 := by decide +kernel

theorem meets_MonitorForms_contexts :
    (let x : Word := BitVec.ofNat 64 (0x201 * 2 ^ 12 + 14)
     x.toNat % 4 < 3 ∧ x.toNat / 2 ^ 4 % 2 ^ 8 = 0 ∧ x.toNat / 2 ^ 28 = 0 ∧ x.toNat / 2 ^ 12 % 2 ^ 16 = 0x201) ∧
    (base.mon.dead = false ∧ (base.ctx 2).st = .free ∧ (∀ k ∈ List.range 2, 0 < k → (base.ctx k).st ≠ .free)) ∧
    (∀ c ∈ List.range 32, 0 < c → (({ base with ctxs := Vector.replicate 32 ctx1 } : State).ctx c).st ≠ .free) ∧
    (∀ st ∈ [CtxSt.building, .live, .saving, .saved], ((onCtx (fun x => { x with st := st }) base).ctx 1).st = st) ∧
    (let uses (g : Group) := g.ctx = 1 ∧ (g.st = .running ∨ g.st = .reshaping) ∧ g.base * 1024 ≤ 1 ∧ 1 < g.base * 1024 + g.v
     base.groups.find? (fun g => decide (uses g)) = some grp) := by decide +kernel

theorem meets_BootAndSweepSteps_boot :
    State.reset.mon.boot = .waiting ∧ ¬ ([0] : List Byte).length > 262144 ∧
    (let s := { State.reset with mon := { State.reset.mon with boot := .monitor } }; s.mon.boot = .monitor) ∧
    (let s := { State.reset with mon := { State.reset.mon with boot := .runtime } }; s.mon.boot ≠ .monitor ∧ s.mon.boot ≠ .waiting) := by
  decide +kernel

/-- An image that does not fit the monitor's memory is refused. -/
theorem meets_BootAndSweepSteps_refused (img : List Byte) (h : img.length = 262145) : ¬ img.length ≤ 262144 := by omega

/-- Context 1 is swept, in a round. -/
abbrev sweepS (r : Nat) : State := onCtx (fun x => { x with st := .sweeping, sweepRound := r }) base

theorem meets_BootAndSweepSteps_sweep :
    (let s := { base with mon := { base.mon with boot := .runtime } }
     s.mon.boot ≠ .waiting ∧ (s.ctx 1).st ≠ .free ∧ (s.ctx 1).st ≠ .sweeping) ∧
    (∀ r ∈ [1, 2, 3], ((sweepS r).ctx 1).st = .sweeping ∧ ((sweepS r).ctx 1).sweepRound = r ∧ ((sweepS r).tile 0).running = true ∧
      ((sweepS r).tile 0).ctx = 1) ∧
    (let s := mapped (onCtx (fun x => { x with st := .saving }) { base with groups := [] })
     savesDone s 1 = true ∧ (imageBlocked s 1 [((s.ctx 1).sab, 4096)]).isNone = true) := by decide +kernel

/-- An image with one code section: the header and the section table (Tables 13.1, 13.2). -/
abbrev image : List Byte :=
  [0x47, 0x51, 0x4B, 0x31, 1, 0, 0x10, 0, 1, 4, 0x10, 0, 0, 1, 0, 0, 0x40, 1, 0, 0, 1, 0, 0, 0, 0, 0, 0, 0x80] ++
  List.replicate 228 0 ++ [1, 0, 0, 0, 0, 0, 0, 0, 0x20, 1, 0, 0, 0x20, 0, 0, 0]

abbrev loadS : State := writeHbm (mapped (onCtx (fun x => { x with z := 16, kernels := [] }) base)) 1 0x8000 image

theorem meets_KernelAndClusterSteps_load :
    ((loadS.ctx 1).st = .live ∧ (loadS.ctx 1).kernels = [] ∧ imageReadable loadS 1 0x8000 256 = true ∧
      imageBehind loadS 1 0x8000 (256 + 16 * (headerOf loadS 1 0x8000).nsec + (headerOf loadS 1 0x8000).ilen) = false ∧
      loadCheck loadS 1 0x8000 (headerOf loadS 1 0x8000) = none) ∧
    imageReadable loadS 1 0 256 = true ∧
    imageBehind loadS 1 0 (256 + 16 * (headerOf loadS 1 0).nsec + (headerOf loadS 1 0).ilen) = false ∧ loadCheck loadS 1 0 (headerOf loadS 1 0) = some 1 := by decide +kernel

theorem meets_KernelAndClusterSteps_kernel :
    (∀ st ∈ [KernelSt.loaded, .running, .retrying, .failed, .retired],
      let s := onCtx (fun x => { x with kernels := [{ kern with st := st }] }) base
      (s.ctx 1).kernel 0 = some { kern with st := st }) ∧
    (base.ctx 1).kernel 0x1000 = none := by decide +kernel

/-- Strand 0 waits for room in the array's queue, which is empty; no other strand lives. -/
abbrev deadS : State := me (fun S => { S with st := .waiting, wait := .roomArr, wlen := 8 }) base

theorem meets_MonitorSteps_watchdog :
    (∃ n ∈ (List.finRange 11).filter (fun n => liveSt (base.strand 0 n).st), canProceed (Spec.on base (.idleWatchdogExpiry 0)) 0 n = true) ∧
    ((List.finRange 11).filter (fun n => liveSt (deadS.strand 0 n).st)) = [0] ∧
    canProceed (Spec.on deadS (.idleWatchdogExpiry 0)) 0 0 = false ∧ (deadS.tile 0).running = true ∧
    (deadS.strand 0 0).deferred = none := by decide +kernel

theorem meets_MonitorSteps_reply :
    let s := on0 (fun T => { T with acks := [(0, 0)] }) base
    ((0 : StrandNo), (0 : Nat)) ∈ (s.tile 0).acks ∧ shadowOf s 0 = none ∧
    beforeMet (Spec.on s (.sysReply 0 0 0 5 0x8001 0 0 {})) 0 0 {} = true ∧
    beforeMet (Spec.on waitsAck (.sysReply 0 0 0 5 1 0 0 { ops := [7] })) 0 0 { ops := [7] } = false := by decide +kernel

/-- A record of tile 0. -/
abbrev rec0 : TrapRec := ⟨0x14, 1, false, 1, 0, 0, 0, 0, 0, 0, 0, 0⟩

theorem meets_MonitorSteps_records :
    (∀ e ∈ base.rows, ¬ (e.die = recDie rec0 ∧ e.row = recRow rec0)) ∧
    (let e : RowEntry := { die := 0, row := 0, rcd := rec0, at_ := 0 }
     let s := { base with rows := [e], cycle := 256 }
     s.rows = [e] ∧ e.die = recDie rec0 ∧ e.row = recRow rec0 ∧ recMeets e.rcd rec0 = true ∧ e.at_ + 256 ≤ s.cycle ∧ s.units = []) ∧
    (let u : UnitEntry := { die := 0, rcd := rec0, bitmap := 1, at_ := 0, group := none }
     let s := { base with units := [u], cycle := 4096 }
     s.units = [u] ∧ u.at_ + 4096 ≤ s.cycle) ∧
    (base.tile 2).running = false ∧
    (let s := on0 (fun T => { T with errs := [{ place := .pool 0x10000, due := false }] }) base
     (s.tile 0).running = true ∧ (s.tile 0).errs = [{ place := .pool 0x10000, due := false }] ∧ (s.tile 0).galley = [] ∧
     0x10000 < poolUsed (s.tile 0)) := by decide +kernel

/-! ### Pages -/

/-- Page 0 of context 1 has a 32 KiB leaf in a state; frames and slots are free. -/
abbrev pageS (e : Word) (s : State) : State :=
  frameStore (frameStore (frameStore
    { s with ctxs := s.ctxs.set 1 { (s.ctxs[1]) with tbr := 1, frames := [(0, [9])], slots := [(0, [5])] } }
    0 0 1 0 (bytesOf 8 0x8000000000000002)) 0 0 2 0 (bytesOf 8 0x8000000000000003)) 0 0 3 0 (bytesOf 8 e.toNat)

/-- A leaf of frame 8 with read and write rights, in a state. -/
abbrev leaf (st : Nat) : Word := peSetState 0xCC00000000000008 st

theorem meets_PageForms_states :
    ∀ st ∈ [0, 1, 2, 3, 4], (match walk (pageS (leaf st) base) 1 0 with
      | .ok l => decide (l.1 = leaf st ∧ peHome l.1 = base.chip ∧ peState l.1 = st ∧ l.2.2.2 = false ∧ pePinned l.1 = false) | _ => false) = true := by
  decide +kernel

theorem meets_PageForms :
    (match walk (mapped base) 1 0 with | .ok l => l.2.2.2 | _ => false) = true ∧
    (match walk base 1 0 with | .ok _ => false | _ => true) = true ∧
    (match walk (pageS 0xDC00000000000008 base) 1 0 with | .ok l => pePinned l.1 | _ => false) = true ∧
    (match walk (pageS 0xCC00100000000008 base) 1 0 with | .ok l => peHome l.1 == 1 | _ => false) = true ∧
    (let s := onCtx (fun x => { x with imposed := [(1, 0)] }) (pageS (leaf 0) base)
     isImposed (s.ctx 1) 0 = true ∧ ckMissing s (s.ctx 1) 0 = false) ∧
    (let s := onCtx (fun x => { x with ckst := 0x4000000000000000, ckEnds := [(0, 32768)], ckSize := 32768, ckLeft := 32768, ckAll := 32768 }) (pageS (leaf 0) base)
     ckMissing s (s.ctx 1) 0 = true) ∧ isImposed ((pageS (leaf 0) base).ctx 1) 0 = false ∧
    (let X := (pageS (leaf 0) base).ctx 1
     assocGet [] 0 X.slots = 5 :: [] ∧ assocGet [] 0 X.frames = 9 :: [] ∧ assocGet [] 0 ctx1.slots = [] ∧ assocGet [] 0 ctx1.frames = []) ∧
    (let s := pageS (leaf 1) base
     match walk (cancelOutbound s 1 0) 1 0 with | .ok m => decide (peState m.1 = 0) | _ => false) = true := by decide +kernel

theorem meets_PageForms_ready :
    ∀ x ∈ [(Who.tile, [Src.g (g 1)], []), (.tile, [.g (g 1)], [Dst.g 5]), (.tile, [], [.g 5])],
      Ready (pageS (leaf 0) base) al x.1 x.2.1 x.2.2 :=
  allReady (by decide +kernel)

/-- A list of two addresses at the end of the scratch partition. -/
theorem meets_PageForms_list :
    let es : List Word := [0x8000, 0x10000]
    let s := bytes0 0x4FFC0 [2, 0, 0, 0, 0, 0, 0, 0, 0, 0x80, 0, 0, 0, 0, 0, 0, 0, 0, 1] (regs [(1, 0x4FFC0)] base)
    es.length < 256 ∧ Spec.reachable (here s).v.partw 0x4FFC0 (8 + 8 * es.length) ∧ ownOverlap (here s) 0 0x4FFC0 24 = [] ∧
    (here s).errs = [] ∧ s.det 0 = false ∧ Spec.single s ∧ Spec.place s 0x4FFC0 = 0x4FFC0 ∧
    (∀ i ∈ List.range 8, ((here s).mem.read (0x4FFC0 + i)).toNat = es.length / 256 ^ i % 256 ∧
      ((here s).mem.read (0x4FFC0 + 8 + i)).toNat = 0x8000 / 256 ^ i % 256 ∧
      ((here s).mem.read (0x4FFC0 + 16 + i)).toNat = 0x10000 / 256 ^ i % 256) := by decide +kernel

/-- An access of a channel to page 0. -/
abbrev acc1 : PageAcc := { ctx := 1, tile := 0, who := .chan, va := 0, write := true }

/-- Page 0 is offloaded and an access to it parked; a write of its leaf that makes it RESIDENT lets it go on. -/
theorem meets_PageSteps_tables :
    let s := onCtx (fun x => { x with parked := [acc1], faults := [{ va := 0, reason := 0, dev := 0 }] }) (pageS (leaf 2) base)
    acc1 ∈ (s.ctx 1).parked ∧ frameDev (s.ctx 1).mode 3 = some (0, 3) ∧
    translate (pageS (leaf 0) base) 1 0 1 true ≠ translate s 1 0 1 true ∧ pageOf acc1.va = pageOf 5 := by decide +kernel

theorem meets_PageSteps :
    (match translate (pageS (leaf 0) base) 1 0 1 true with | .ok _ _ _ => true | _ => false) = true ∧
    (match translate (pageS (leaf 2) base) 1 0 1 true with | .offloaded => true | _ => false) = true ∧
    (match translate (pageS (leaf 3) base) 1 0 1 true with | .inbound => true | _ => false) = true ∧
    (match translate base 1 0 1 true with | .unmapped => true | _ => false) = true ∧
    (match translate (pageS 0xC800000000000008 base) 1 0 1 true with | .refused => true | _ => false) = true ∧
    (∀ inb ∈ [false, true],
      let f : Xfer := { va := 0, inbound := inb, from_ := 8, to_ := 5, cts := [] }
      let s := onCtx (fun x => { x with xfers := [f] }) (pageS (leaf (if inb then 3 else 1)) base)
      findXfer (s.ctx 1) 0 inb = some f ∧ findAway s 1 0 inb = none ∧ frameDev (s.ctx 1).mode 8 = some (0, 8) ∧ frameDev (s.ctx 1).mode 5 = some (0, 5) ∧
      (s.ctx 1).pinWait = []) ∧
    (let w : WriteBack := { ctx := 1, chip := 0, tile := 0, vidx := 0, seq := 0, va := 0, n := 64, data := 7 }
     let s := onCtx (fun x => { x with drains := [w] }) (pageS (leaf 0) base)
     w.chip = s.chip ∧ (s.ctx 1).drains = w :: [] ∧ (leaf 0).getLsbD 58 = true ∧ (0xC800000000000008 : Word).getLsbD 58 = false ∧
     Spec.tellable s 0 0) ∧
    (let w : WriteBack := { ctx := 1, chip := 0, tile := 0, vidx := 0, seq := 0, va := 0, n := 64, data := 7 }
     let s := onCtx (fun x => { x with drains := [w] }) (pageS (leaf 0) base)
     match translate s 1 0 1 false with | .behind => true | _ => false) = true ∧
    frameDev (base.ctx 1).mode (base.ctx 1).tbr.toNat = some (0, 0) ∧
    (let s := onCtx (fun x => { x with ckst := 0x4000000000000005 }) base; (s.ctx 1).ckst.toNat / 2 ^ 62 = 1 ∧ ckNow s (s.ctx 1) = 0 ∧
     ckNow s { s.ctx 1 with ckLeft := 1, ckAll := 1 } ≠ 0) := by
  decide +kernel

/-! ### Collectives -/

theorem meets_PlaneAdder :
    let l : List Int := (List.range 49).map (fun (k : Nat) => ((2 : Int) ^ 46 / 2 ^ (48 - k)) * 2 ^ (48 - k))
    let r : List Int := l.map (fun x => -x)
    l.length = 49 ∧ r.length = 49 ∧
    (∀ k, k < 49 → (l.getD 48 0 - l.getD k 0).natAbs < 2 ^ (48 - k)) ∧ (∀ k, k < 49 → (r.getD 48 0 - r.getD k 0).natAbs < 2 ^ (48 - k)) ∧
    (l.getD 48 0 + r.getD 48 0).natAbs < 2 ^ 48 ∧ l.getD 48 0 = 2 ^ 46 := by decide +kernel

theorem meets_CollectiveForms_ready :
    ∀ x ∈ [(Who.tile, [Src.g (g 1)], []), (.tile, [.g (g 1), .g (g 2)], []), (.tile, [], []), (.tile, [.g (g 1)], [Dst.w 15]),
      (.tile, [], [.g 5]), (.tile, [.g (g 31)], [.g 31])], Ready base al x.1 x.2.1 x.2.2 :=
  allReady (by decide)

/-- A request of one member, from virtual ordinal `o`, for 32 FP32 elements from `src` to the scratch offset 0x20000. -/
abbrev crb1 (o src : Nat) : Crb :=
  { op := 1, dtype := 8, alg := 1, count := 32, ord0 := BitVec.ofNat 32 o, m := 1, mstr := 1, src := BitVec.ofNat 64 src, dst := 0x20000 }

/-- A request block of 128 bytes at the end of the scratch partition. -/
abbrev crbS (b : List Byte) : State := bytes0 0x4FF80 b (regs [(1, 0x4FF80)] base)

/-- The only slot of tile 0 in use. -/
abbrev slot0 (c : CollSlot) (s : State) : State := on0 (fun T => { T with v := { T.v with coll := T.v.coll.set 0 c } }) s

theorem meets_CollectiveForms_block :
    (∀ b ∈ [crbBytes (crb1 0 0x10000), crbBytes (crb1 0 0xFFC0), crbBytes (crb1 1 0x10000), List.replicate 128 0],
      let s := crbS b
      (gOf s (g 1)).toNat % 128 = 0 ∧ Spec.namesOwn s (gOf s (g 1)) ∧ Spec.reachable (here s).v.partw 0x4FF80 128 ∧
      Spec.freeNow s 0x4FF80 128 false ∧ Spec.plainReads s ∧ Spec.single s ∧ Spec.working s 0x4FF80 128 = b) ∧
    (let c := crb1 0 0x10000
     crbOf (crbBytes c) = c ∧ crbBad (crbBytes c) (Spec.groupV base) 0 = false ∧ c.member (here base).v.ord = some 0 ∧
     crbRanges (here base).v.partw c 0 = true ∧ crbTaken (here base).v c 7 = false ∧
     crbTaken (here (slot0 { crb := c, st := 1 } base)).v c 7 = true) ∧
    (let c := crb1 0 0xFFC0
     crbBad (crbBytes c) (Spec.groupV base) 0 = false ∧ c.member (here base).v.ord = some 0 ∧
     crbRanges (here base).v.partw c 0 = false) ∧
    (let c := crb1 1 0x10000
     crbBad (crbBytes c) (Spec.groupV base) 0 = false ∧ c.member (here base).v.ord = none) ∧
    crbBad (List.replicate 128 0) (Spec.groupV base) 0 = true ∧
    (gOf (regs [(1, 0x4FFC0)] base) (g 1)).toNat % 128 ≠ 0 ∧
    (let s := regs [(1, 0x80000)] base
     (gOf s (g 1)).toNat % 128 = 0 ∧ ¬ Spec.reachable (here s).v.partw (Spec.ofsOf (gOf s (g 1))) 128) := by decide +kernel

/-- Strand 0 waits for 48 planes of counter 63, which stands at a value. -/
abbrev precS (x : BitVec 16) : State :=
  on0 (fun T => { T with v := { T.v with pcnt := T.v.pcnt.set 63 x } })
    (me (fun S => { S with st := .waiting, wait := .precision 63 48 1 0 0, wlen := 12 }) base)

theorem meets_CollectiveForms_waits :
    (((precS 0x2030).strand 0 0).st = .waiting ∧ ((precS 0x2030).strand 0 0).wait = .precision 63 48 1 0 0) ∧
    (((precS 0x2030).tile 0).v.pc 63 = 0x2030 ∧ ((precS 0x602F).tile 0).v.pc 63 = 0x602F ∧ ((precS 0x202F).tile 0).v.pc 63 = 0x202F) ∧
    (48 ≤ (0x2030 : BitVec 16).toNat % 64 ∧ (0x602F : BitVec 16).toNat % 64 < 48 ∧ (0x602F : BitVec 16).toNat / 2 ^ 13 ≠ 1 ∧
     (0x202F : BitVec 16).toNat / 2 ^ 13 = 1) :=
  ⟨by decide +kernel, ⟨rfl, rfl, rfl⟩, by decide⟩

/-- A running collective of tile 0 in plane mode, with 48 planes landed. -/
abbrev planeS (pl : BitVec 16) (s : State) : State :=
  slot0 { crb := { crb1 0 0x10000 with pmode := 1, npl := 48, count := 64 }, st := 2 }
    (on0 (fun T => { T with v := { T.v with pcnt := T.v.pcnt.set 0 pl } }) s)

theorem meets_CollectiveForms_slots :
    (∀ st ∈ [(1 : BitVec 3), 2, 3], let o : CollSlot := { crb := crb1 0 0x10000, st := st }
      let s := slot0 o base
      (here s).v.coll[0] = o ∧ o.crb.consumer (here s).v.ord = true ∧ o.cut = 0 ∧ o.crb.nseg = 1) ∧
    ((here base).v.coll[7]).st = 0 ∧
    (let s := planeS 0x2030 (regs [(1, 32), (31, 63)] base)
     let o := (here s).v.coll[0]
     (gOf s (g 1)).toNat % 32 = 0 ∧ (gOf s (g 1)).toNat < o.crb.count.toNat ∧ o.crb.pmode = 1 ∧
     48 ≤ ((here s).v.pc (o.crb.pcb.toNat + 32 / 4096)).toNat % 64 ∧ Spec.plainReads s ∧
     Spec.reachable (here s).v.partw (o.crb.dst.toNat + 3200 * (32 / 256)) (128 + 64 * 48) ∧
     ∀ i ∈ List.range 32, (prdVal (Spec.working s 0x20000 192) (32 % 256 + i) 1).isSome = true) ∧
    (let s := planeS 0x2001 base
     ((here s).v.pc 0).toNat % 64 < 48) ∧
    (let s := slot0 { crb := crb1 0 0x10000, st := 2 } base
     ((here s).v.coll[0]).crb.pmode ≠ 1) := by decide +kernel

/-- `prd.la` into the last 2,048 bytes of the accumulator partition, whose lines are logged. -/
abbrev prdS : State :=
  on0 (fun T => { T with galley := lines 0x6F800 32 })
    (me (fun S => { S with suppress := true }) (planeS 0x2030 (regs [(1, 32), (2, 0x6F800)] base)))

theorem meets_CollectiveForms_prdLa :
    Ready prdS al .tile [.g (g 1), .g (g 2)] [] ∧ Spec.AccRange prdS (gOf prdS (g 2)) 2048 true ∧
    Spec.freeNow prdS 0x6F800 2048 true ∧ (self prdS).suppress = true ∧ Spec.plainReads prdS ∧ Spec.Settled prdS 0 0x6F800 2048 :=
  ⟨ready (by decide +kernel), ⟨by decide +kernel, by decide +kernel, by decide +kernel, by decide +kernel⟩, by decide +kernel, by decide +kernel,
    by decide +kernel, allLogged (n := 32) (m := 0) (q := 0) (ahead := true) (by decide) (by decide) (by decide +kernel) (by rfl) (by decide) (by decide +kernel)⟩

/-- The member of a collective of one, and the collective. -/
abbrev mem1 (c : Crb) : CMem := { ord := 0, idx := 0, slot := 0, crb := c, landed := [0] }

abbrev coll1 (c : Crb) : Coll := { inst := 9, group := 1, crb := c, mems := [mem1 c] }

/-- The collective runs at tile 0, in slot 0; its counter is open. -/
abbrev collS (c : Coll) (k : Crb) (pc : BitVec 16) : State :=
  slot0 { crb := k, st := 2, inst := 9 }
    (on0 (fun T => { T with v := { T.v with pcnt := T.v.pcnt.set 0 pc } }) (onCtx (fun x => { x with colls := [c] }) base))

/-- Collectives at each stage. -/
abbrev stages : List (Coll × Crb × BitVec 16) :=
  let r := crb1 0 0x10000
  let b : Crb := { r with op := 2, root := 0 }
  [(coll1 r, r, 0x2000), ({ coll1 r with crb := { r with count := 64 } }, r, 0x2000), ({ coll1 r with all := true }, r, 0x2000),
   ({ coll1 r with closed := true, out := List.replicate 32 0 }, r, 0x2000), ({ coll1 r with closed := true }, r, 0x4030),
   ({ coll1 r with vals := [(0, List.replicate 32 0)] }, r, 0x2000),
   ({ coll1 b with closed := true, mems := [{ mem1 b with read := 1 }] }, b, 0x2000)]

theorem meets_CollectiveSteps_member :
    ∀ x ∈ stages, ∃ m, x.1.mems = [m] ∧ Spec.OneMember (collS x.1 x.2.1 x.2.2) 1 x.1 m 0 := by
  intro x hx
  simp only [stages, List.mem_cons, List.not_mem_nil, or_false] at hx
  rcases hx with rfl | rfl | rfl | rfl | rfl | rfl | rfl <;>
    exact ⟨_, rfl, ⟨⟨by decide +kernel, by decide, rfl, ⟨grp, 0, by decide +kernel, by decide +kernel⟩, by decide +kernel, by decide +kernel,
      by decide +kernel⟩, by decide +kernel⟩⟩

/-- A request of a member that consumes nothing, PENDING; and the running collective of tile 0 with its node. -/
theorem meets_CollectiveForms_cutoff :
    (let o : CollSlot := { crb := { crb1 0 0x10000 with op := 2, m := 2, root := 1 }, st := 1 }
     let s := slot0 o base
     (here s).v.coll[0] = o ∧ o.crb.consumer (here s).v.ord = false ∧ o.cut = 0) ∧
    (let r := crb1 0 0x10000
     let s := collS (coll1 r) r 0x2000
     ((here s).v.coll[0]).st = 2 ∧ findColl (s.ctx (here s).ctx) ((here s).v.coll[0]).inst = some (coll1 r) ∧
     (coll1 r).mems.findIdx? (fun m => m.idx == (here s).v.idx) = some 0 ∧ (here s).shadow = false) := by decide +kernel

theorem meets_CollectiveSteps_launch :
    let r := crb1 0 0x10000
    (coll1 r).all = false ∧ allIn (coll1 r) = true ∧ crbsAgree (coll1 r) = true ∧ (coll1 r).refused = false ∧ r.alg = 1 ∧
    (mem1 r).crb.contributes (mem1 r).index = true ∧ (mem1 r).crb.consumes (mem1 r).index = true ∧
    allIn { coll1 r with crb := { r with count := 64 } } = true ∧ crbsAgree { coll1 r with crb := { r with count := 64 } } = false := by
  decide +kernel

theorem meets_CollectiveSteps_source :
    let r := crb1 0 0x10000
    let s := collS { coll1 r with all := true } r 0x2000
    let s1 := Spec.on s (.collSourceRead 1 9 0 0)
    r.nseg = 1 ∧ locate s 1 0 = some (grp, 0, 0) ∧ (s.tile 0).busyUntil ≤ s.cycle ∧ r.pmode ≠ 1 ∧
    remoteBytes s1 1 grp 0 0 0 r.src.toNat (r.count.toNat * r.esz) = (s1, true, List.replicate 128 0) :=
  ⟨by decide, by decide +kernel, by decide +kernel, by decide, by
    refine Prod.ext ?_ ?_
    · rfl
    · decide +kernel⟩

/-- A byte of the source has an error of two bits that its first reader has found. -/
theorem meets_CollectiveSteps_unread :
    let r := crb1 0 0x10000
    let c := { coll1 r with all := true }
    let s := on0 (fun T => { T with errs := [{ place := .pool 0x10000, due := true }] }) (collS c r 0x2000)
    Spec.SoleMember s 1 c (mem1 r) 0 ∧ locate s 1 0 = some (grp, 0, 0) ∧
    (remoteBytes (Spec.on s (.collSourceRead 1 9 0 0)) 1 grp 0 0 0 r.src.toNat (r.count.toNat * r.esz)).2.1 = false :=
  ⟨⟨by decide +kernel, by decide, rfl, ⟨grp, 0, by decide +kernel, by decide +kernel⟩, by decide +kernel, by decide +kernel,
    by decide +kernel⟩, by decide +kernel, by decide +kernel⟩

theorem meets_CollectiveSteps_counters :
    let r := crb1 0 0x10000
    ((collS (coll1 r) r 0x2000).tile 0).v.pc 0 = 0x2000 ∧ (0x2000 : BitVec 16).toNat / 2 ^ 13 = 1 ∧
    (0x4030 : BitVec 16).toNat / 2 ^ 13 ≠ 1 ∧ (coll1 r).cuts = [] ∧ (coll1 r).contributors = [0] ∧ (coll1 r).expos = [] ∧ r.mbma = 0 := by
  decide +kernel

theorem meets_CollectiveSteps_accepted :
    let b : Crb := { crb1 0 0x10000 with op := 2, root := 1 }
    let m : CMem := { mem1 b with read := 1 }
    m.crb.consumes m.index = false ∧ m.crb.nseg ≤ m.read := by decide +kernel

/-- Two leaves and their adder, which has sent `k` planes of segment 0. -/
abbrev adderS (k : Nat) : State :=
  onCtx (fun x => { x with colls := [{ coll1 (crb1 0 0x10000) with
    nodes := [⟨.leaf 0, 1, []⟩, ⟨.leaf 1, 1, []⟩, ⟨.adder 0 1, 0, [k]⟩, ⟨.adder 2 1, 0, [0]⟩] }] }) base

theorem meets_CollectiveSteps_adder :
    ∀ k ∈ [0, 47, 48], ∃ c, findColl ((adderS k).ctx 1) 9 = some c ∧ c.nodes[2]? = some ⟨.adder 0 1, 0, [k]⟩ ∧
      c.nodes[3]? = some ⟨.adder 2 1, 0, [0]⟩ ∧ nodeSent c 0 0 = 48 ∧ nodeSent c 1 0 = 48 ∧ nodeLimit c ⟨.adder 0 1, 0, [k]⟩ = 48 ∧
      nodeSent c 2 0 = k := by
  intro k hk
  simp only [List.mem_cons, List.not_mem_nil, or_false] at hk
  rcases hk with rfl | rfl | rfl <;> exact ⟨_, rfl, by decide +kernel⟩

/-! ### Links -/

/-- Link 0 in a state. -/
abbrev linkS (n : Fin 64) (k : Link) (s : State) : State := { s with links := s.links.set n.val k, cycle := 12800 }

theorem meets_LinkForms_ready :
    Ready (regs [(1, 64)] base) al .any [.g (g 1)] [.g 5] ∧
    (∀ x ∈ [(Who.monitor, [Src.g (g 1), .g (g 2)], [Dst.g 5]), (.monitor, [.g (g 1)], [.g 31])],
      Ready (onMonitor base) al x.1 x.2.1 x.2.2) :=
  ⟨ready (by decide), allReady (by decide)⟩

theorem meets_LinkForms_set :
    let s := linkS 63 { st := .up, step := 2 } (onMonitor base)
    (s.link 63).backoff.1 ≠ s.cycle ∧ Spec.inUse (s.link 63) ∧ (s.link 63).step = 2 := by decide +kernel

/-- A legal LCTL value with TARGET 0, one with TARGET 2 and FLOOR 2, and an illegal one with TARGET 3 without OVEN. -/
theorem meets_LinkForms_lctl :
    (∀ v ∈ [(0x8000000000000000 : Word), 0x8120000000000000],
      ¬ (v.extractLsb' 55 3).toNat < (v.extractLsb' 52 3).toNat ∧ ¬ 2 < (v.extractLsb' 55 3).toNat ∧ v.getLsbD 62 = false) ∧
    Spec.lower ((0x8000000000000000 : Word).extractLsb' 55 3) 6 = 0 ∧ Spec.lower ((0x8120000000000000 : Word).extractLsb' 55 3) 6 = 2 ∧
    (2 < ((0x8180000000000000 : Word).extractLsb' 55 3).toNat ∧ (0x8180000000000000 : Word).getLsbD 62 = false) := by
  refine ⟨fun v hv => ?_, by rfl, by rfl, by decide +kernel⟩
  simp only [List.mem_cons, List.not_mem_nil, or_false] at hv
  rcases hv with rfl | rfl <;> exact ⟨by decide +kernel, by decide +kernel, by decide +kernel⟩

/-- Link 0 has a path of its own or shares it with link 1, which is UP; it holds nothing, a flit, a waiting flit, a barrier
message, or a flow's packets. -/
theorem meets_LinkForms_paths :
    (∀ j ∈ pathOf 0, j = 0 ∨ ((linkS 0 { st := .up } base).link j).st = .down ∨ ((linkS 0 { st := .up } base).link j).st = .failed) ∧
    (let s := linkS 1 { st := .up } (linkS 0 { st := .up } base)
     (s.link 0).st ≠ .down ∧ ¬ (∀ j ∈ pathOf 0, j = 0 ∨ (s.link j).st = .down ∨ (s.link j).st = .failed) ∧
     (s.link 0).d0 = {} ∧ (s.link 0).d1 = {} ∧ s.flows = []) ∧
    (∀ st ∈ [LinkSt.down, .failed], ((linkS 0 { st := st } base).link 0).st = st) ∧
    (let k : Link := { st := .up, ret := 2 ^ 63 }
     k.ret.getLsbD 63 = true ∧ k.ret.getLsbD 62 = false ∧ Spec.inUse k) ∧
    (∀ st ∈ [LinkSt.stepping, .training], let k : Link := { st := st, ret := 2 ^ 63 }
      k.ret.getLsbD 62 = false ∧ k.st = st) := by decide +kernel

/-- A sequenced flit. -/
abbrev flit (seq : BitVec 12) (good : Bool) : Flit := ⟨good, true, seq, 3, false, 0, false, 0, 0, []⟩

/-- The bytes of a flit give its header back, and whether its CRC was good. -/
theorem meets_LinkSteps_bytes :
    ∀ g ∈ [true, false], let f := flitOf (flitBytes (flit 4095 g))
      f.good = g ∧ f.seqd = true ∧ f.ackv = false ∧ f.seq = 4095 ∧ f.vc = 3 ∧ f.payload = [] := by
  intro g hg
  refine ⟨Laws.flitOf_flitBytes_good _, ?_⟩
  simp only [List.mem_cons, List.not_mem_nil, or_false] at hg
  rcases hg with rfl | rfl <;> decide +kernel

/-- R330: byte 0 holds SEQ[7:0]; KIND stands in bits 21:20, VC in 23:22, LEN in 45:38; the payload starts at byte 16. -/
theorem test_flit_bytes :
    let b := flitBytes ⟨true, true, 0xABC, 3, true, 0x123, true, 1, 5, [0x77]⟩
    b.take 8 = [0xBC, 0x0A, 0xD0, 0x23, 0x71, 0x40, 0x05, 0x00] ∧ (b.drop 16).take 2 = [0x77, 0] := by decide +kernel

theorem meets_LinkSteps :
    (∀ st ∈ [LinkSt.training, .stepping], ∀ f ∈ [0, 1, 2, 3], ∀ l ∈ [(0 : Fin 64), 63],
      let s := linkS l { st := st, fails := f, step := 1, want := 2, busyUntil := 12800 } base
      (s.link l).st = st ∧ (s.link l).busyUntil ≤ s.cycle ∧ (s.link l).pending = false ∧ (s.link l).closing = false ∧ (s.link l).fails = f) ∧
    (let s := linkS 63 { st := .degraded, d1 := { eseq := 4095 } } base
     Spec.inUse (s.link 63) ∧ (flit 4095 true).seqd = true ∧ (flit 4095 true).ackv = false ∧ (flit 4095 true).seq = ((s.link 63).dir true).eseq ∧
     (flit 4094 true).seq ≠ ((s.link 63).dir true).eseq ∧ (((s.link 63).dir true).eseq - (flit 4094 true).seq).toNat < 2048) ∧
    (let s := linkS 63 { st := .up, d0 := { buf := [(0, flit 0 true)] } } base
     ((s.link 63).dir false).buf ≠ [] ∧ ((s.link 63).dir false).progress + 12800 ≤ s.cycle ∧ ((s.link 63).dir true).buf = []) ∧
    (let k : Link := { st := .up, step := 1 }
     k.auto_ = true ∧ Spec.inUse k ∧ k.floor_.toNat < k.step.toNat ∧ k.half = false ∧ k.step.toNat < (Spec.lower k.target k.gcap).toNat) ∧
    (let k : Link := { st := .up, step := 0, auto_ := false }
     k.step.toNat ≤ k.floor_.toNat) := by decide +kernel

/-- A flit on channel 1. -/
abbrev flit1 (seq : BitVec 12) : Flit := ⟨true, true, seq, 1, false, 0, false, 0, 0, []⟩

/-- Link 63 with the sender's side of a direction as given. -/
abbrev dirS (d : LinkDir) : State := linkS 63 { st := .up, d1 := d } base

/-- A new flit goes; it waits without a credit, behind a flit that waits, on channel 1 behind data, and on a link not in use. -/
theorem meets_LinkSteps_sending :
    (let D := ((dirS {}).link 63).dir true
     Spec.inUse ((dirS {}).link 63) ∧ (flit 0 true).seq = D.seq + BitVec.ofNat 12 D.wait.length ∧ D.wait = [] ∧
     D.buf.length < 1024 ∧ 0 < D.credit[3] ∧ (flit 4095 true).seq ≠ D.seq + BitVec.ofNat 12 D.wait.length) ∧
    (((dirS { credit := Vector.replicate 4 0 }).link 63).dir true).credit[3] = 0 ∧
    (let D := ((dirS { wait := [flit 0 true] }).link 63).dir true
     D.wait = [flit 0 true] ∧ (flit 1 true).seq = D.seq + BitVec.ofNat 12 D.wait.length) ∧
    (let D := ((dirS { seq := 1, buf := [(0, ⟨true, true, 0, 0, false, 0, false, 0, 0, []⟩)] }).link 63).dir true
     (flit1 1).seq = D.seq + BitVec.ofNat 12 D.wait.length ∧ D.buf.any (fun x => x.2.vc == 0) = true) ∧
    (∀ st ∈ [LinkSt.stepping, .training, .down, .failed],
      ((linkS 63 { st := st } base).link 63).st = st ∧ ¬ Spec.inUse ((linkS 63 { st := st } base).link 63)) := by decide +kernel

/-- A link that fails for the fourth time while a delta crosses it. -/
theorem meets_LinkSteps_lost :
    let s : State := { linkS 32 { st := .training, fails := 3, busyUntil := 12800 } base with
      flows := [{ src := 0, dst := 1024, link := 32, from_ := 0, vc := 0, group := some 1, ev := .deltaArrival (packet 0x4FFFC), due := 12900,
                  across := 12890, till := 12986 }] }
    (s.link 32).st = .training ∧ (s.link 32).busyUntil ≤ s.cycle ∧ (s.link 32).closing = false ∧ (s.link 32).fails = 3 ∧
    ∃ f ∈ s.flows, f.link = 32 ∧ f.vc = 0 ∧ s.cycle < f.across ∧ f.ev = .deltaArrival (packet 0x4FFFC) := by decide +kernel

/-! ### What instructions leave unchanged, and the invariant -/

/-- Is the outcome a next state? -/
abbrev goesOn (o : Host.Outcome State Fault Refusal) : Bool := match o with | .next _ => true | _ => false

theorem meets_ScalarFrames :
    Spec.scalarDst (.add al ⟨0, 5, g 6, .reg (g 7)⟩) = some ([5], []) ∧ goesOn (exec (.add al ⟨0, 5, g 6, .reg (g 7)⟩) base) = true := by
  decide +kernel

theorem meets_VectorFrames :
    (Spec.vectorDst (.vmin al ⟨8, .w 3, ⟨.w 1, false⟩, ⟨.w 2, false⟩⟩)).isSome = true ∧
    goesOn (exec (.vmin al ⟨8, .w 3, ⟨.w 1, false⟩, ⟨.w 2, false⟩⟩) base) = true := by decide +kernel

/-- `vlard` of the last elements of the accumulator partition. -/
theorem meets_VectorFrames_vlard :
    let s := regs [(1, 0x6F800)] base
    Spec.plainReads s ∧ goesOn (exec (.vlard al 0 (.w 1) (g 0) (g 1) 0) s) = true := by decide +kernel

theorem meets_CommandFrames :
    Spec.commandDst (.mrepA al 2 7) = some [] ∧ goesOn (exec (.mrepA al 2 7) base) = true := by decide +kernel

theorem base_canonical : Spec.Canonical base := by
  refine ⟨fun t => ?_, by decide +kernel, by decide +kernel⟩
  have h : base.tile t = if 0 = t then tile 0 else if 1 = t then tile 1 else {} := rfl
  rw [h]
  split
  · decide +kernel
  · split <;> decide +kernel

/-- The end of the issue of a cycle; a store of `st` is among the steps that W1 shows. -/
theorem meets_MemoryCanonical : Spec.Canonical base ∧ goesOn (step base) = true := ⟨base_canonical, by decide +kernel⟩

end Sys2Proof.Tests
end

/-! SUPPORT and O18. What `decodeWord` answers (R53, R55 checks 3, 5 and 6), said once per answer. -/

namespace Sys2Proof.Laws

open Sys2Proof

/-! ### The two common fields of a word, LEN and OP (Table 3.1) -/

/-- The number of the opcode that a word names. -/
theorem opcode_toNat (w : BitVec 128) : (w.extractLsb' 2 8).toNat = w.toNat / 4 % 256 := by
  simp [BitVec.extractLsb'_toNat, Nat.shiftRight_eq_div_pow]

theorem len_eq_zero_iff (w : BitVec 128) : w.extractLsb' 0 2 = 0 ↔ w.toNat % 4 = 0 := by
  simp [← BitVec.toNat_inj, BitVec.extractLsb'_toNat]

theorem packLow_op (len : BitVec 2) (f : Fields) : (packLow len f).extractLsb' 2 8 = f.op :=
  (BitVec.extractLsb'_append_eq_of_le (xlo := len) le_rfl).trans BitVec.extractLsb'_append_eq_right

/-- Every layout keeps the common block in its low 38 bits, so its words name the opcode they were packed with. -/
theorem packWord_op (l : Layout) (f : Fields) : (packWord l f).extractLsb' 2 8 = f.op := by
  have low {n : Nat} (hi : BitVec n) : (hi ++ packLow l.len f).extractLsb' 2 8 = f.op :=
    (BitVec.extractLsb'_append_eq_of_add_le (by decide)).trans (packLow_op _ f)
  cases l with
  | i64 => exact (BitVec.extractLsb'_setWidth_of_le (by decide)).trans (low _)
  | t64 => exact (BitVec.extractLsb'_setWidth_of_le (by decide)).trans (low _)
  | w96 => exact (BitVec.extractLsb'_setWidth_of_le (by decide)).trans (low _)
  | l128 => exact low _

/-! ### The answers of `encode` and `decodeWord` -/

theorem encode_of_toFields {i : Instr} {f : Fields} {l : Layout} (hf : toFields i = some f) (hl : layoutOf f.op = some l) :
    encode i = some (l, packWord l f) := by
  simp [encode, hf, hl]

/-- A word that decodes has the layout of its opcode, and packing the fields of its instruction gives it back. -/
theorem decodeWord_ok {w : BitVec 128} {i : Instr} {n : Nat} (h : decodeWord w = .ok (i, n)) :
    ∃ l f, layoutOf (w.extractLsb' 2 8) = some l ∧ n = l.bytes ∧ wellFormed i = true ∧ toFields i = some f ∧
      packWord l f = w := by
  unfold decodeWord at h
  split at h
  · cases h
  split at h
  · cases h
  next l hl =>
  split at h
  · cases h
  split at h
  · cases h
  next j _ =>
  cases hf : toFields j with
  | none => simp [hf] at h
  | some f =>
    simp only [hf, Bool.and_eq_true, beq_iff_eq] at h
    split at h
    next hc =>
      obtain ⟨hwf, hpack⟩ := hc
      cases h
      exact ⟨l, f, hl, rfl, hwf, hf, hpack⟩
    · cases h

theorem decodeWord_lenZero {w : BitVec 128} (h : w.extractLsb' 0 2 = 0) : decodeWord w = .error .lenZero := by
  simp [decodeWord, h]

theorem decodeWord_unassignedOp {w : BitVec 128} (hlen : w.extractLsb' 0 2 ≠ 0) (hop : layoutOf (w.extractLsb' 2 8) = none) :
    decodeWord w = .error .unassignedOp := by
  simp only [decodeWord, beq_iff_eq, if_neg hlen, hop]

/-- The opcodes that Table 3.5 leaves unassigned (R67). -/
def unassignedOps : List Nat :=
  List.range' 0x1D 3 ++ List.range' 0x29 7 ++ List.range' 0x3E 2 ++ List.range' 0x5A 6 ++ List.range' 0x6B 5 ++ [0x77] ++
    List.range' 0x88 8 ++ List.range' 0x95 3 ++ [0x9F] ++ List.range' 0xA6 2 ++ List.range' 0xAB 5 ++ List.range' 0xB9 7 ++
    List.range' 0xC0 64

theorem layoutOf_unassigned (op : BitVec 8) (h : op.toNat ∈ unassignedOps) : layoutOf op = none := by
  have hall : ∀ n ∈ unassignedOps, layoutOf (BitVec.ofNat 8 n) = none := by decide +kernel
  simpa using hall op.toNat h

/-- What decodes encodes back to the same word, bit for bit. -/
theorem encode_of_decodeWord {w : BitVec 128} {i : Instr} {n : Nat} (h : decodeWord w = .ok (i, n)) :
    ∃ l, encode i = some (l, w) ∧ n = l.bytes ∧ wellFormed i = true := by
  obtain ⟨l, f, hl, hn, hwf, hf, rfl⟩ := decodeWord_ok h
  rw [packWord_op] at hl
  exact ⟨l, encode_of_toFields hf hl, hn, hwf⟩

/-- Settles O18: `decodeWord` accepts a word only if packing the instruction's fields in the layout of the word's opcode
gives the word, and that opcode is the one the fields hold. -/
theorem decodeExact : Obligations.DecodeExact :=
  ⟨fun _ _ _ => encode_of_decodeWord,
   fun w h => decodeWord_lenZero ((len_eq_zero_iff w).mpr h),
   fun w h hop => decodeWord_unassignedOp (mt (len_eq_zero_iff w).mp h)
     (layoutOf_unassigned _ ((opcode_toNat w).symm ▸ hop))⟩

end Sys2Proof.Laws

/-! SUPPORT and O35. The memories that a step can change (R19, R81, R215, R292). Most of the model's functions change none:
each of these has one frame lemma, `mems_<name>`. Those that write memory have `canon_<name>`: what they leave is in
canonical form when what they got is. An act, an outcome or a result that may fail carries such a fact through `ActAll`,
`OutAll`, `ErrAll` and `OkOr`. The lemmas follow the order of the definitions they speak of. -/

namespace Sys2Proof.Laws
open Sys2Proof Sys2Proof.Machine

/-! ### The memories of the package -/

/-- All memory of the package: the stores of the tiles, HBM, the safe tier. -/
def mems (s : State) : (TileId → Mem) × Mem × Mem := (fun t => (s.tile t).mem, s.hbm, s.tier)

/-- Memories in canonical form. -/
def MemsOk (m : (TileId → Mem) × Mem × Mem) : Prop := (∀ t, (m.1 t).wf = true) ∧ m.2.1.wf = true ∧ m.2.2.wf = true

/-- Every memory of the state is in its canonical form. -/
@[simp] def Canon (s : State) : Prop := MemsOk (mems s)

/-- The memories are those of `s`. -/
@[simp] def Same (s s' : State) : Prop := mems s' = mems s

/-- What holds of every state that an instruction's body may leave. -/
def ActAll (q : State → Prop) : Act → Prop
  | .done s => q s
  | .goto _ s => q s
  | .trap _ _ => True
  | .wait _ => True
  | .block _ s => q s
  | .stop s => q s

/-- What holds of the state in which an error has been reported. -/
def ErrAll (q : State → Prop) : WErr → Prop
  | .ecc s => q s
  | .galley _ => True
  | .conflict _ => True

/-- What holds of the next state of an outcome. -/
def OutAll (q : State → Prop) : Host.Outcome State Fault Refusal → Prop
  | .next s => q s
  | .fault _ => True
  | .refused _ => True

/-- What holds of a result that may fail: `p` of the failure, `q` of the success. -/
def OkOr {ε α : Type} (p : ε → Prop) (q : α → Prop) : Except ε α → Prop
  | .error e => p e
  | .ok a => q a

section
variable {q : State → Prop} {s : State}

@[simp] theorem actAll_done : ActAll q (.done s) ↔ q s := Iff.rfl
@[simp] theorem actAll_goto (pc) : ActAll q (.goto pc s) ↔ q s := Iff.rfl
@[simp] theorem actAll_trap (c i) : ActAll q (.trap c i) := trivial
@[simp] theorem actAll_wait (w) : ActAll q (.wait w) := trivial
@[simp] theorem actAll_block (w) : ActAll q (.block w s) ↔ q s := Iff.rfl
@[simp] theorem actAll_stop : ActAll q (.stop s) ↔ q s := Iff.rfl
@[simp] theorem errAll_ecc : ErrAll q (.ecc s) ↔ q s := Iff.rfl
@[simp] theorem errAll_galley (l) : ErrAll q (.galley l) := trivial
@[simp] theorem errAll_conflict (i) : ErrAll q (.conflict i) := trivial
@[simp] theorem outAll_next : OutAll q (.next s) ↔ q s := Iff.rfl
@[simp] theorem outAll_fault (r) : OutAll q (.fault r) := trivial
@[simp] theorem outAll_refused (r) : OutAll q (.refused r) := trivial
@[simp] theorem okOr_error {ε α : Type} {p : ε → Prop} {q : α → Prop} (e) : OkOr p q (.error e) ↔ p e := Iff.rfl
@[simp] theorem okOr_ok {ε α : Type} {p : ε → Prop} {q : α → Prop} (a) : OkOr p q (.ok a) ↔ q a := Iff.rfl
end

section
variable {s : State}

theorem canon_iff : Canon s ↔ Spec.Canonical s := Iff.rfl

/-! ### Choices and folds -/

@[simp] theorem mems_ite {c : Prop} [Decidable c] (a b : State) :
    mems (if c then a else b) = if c then mems a else mems b := apply_ite ..

@[simp] theorem memsOk_ite {c : Prop} [Decidable c] {a b} : MemsOk (if c then a else b) ↔ if c then MemsOk a else MemsOk b := by
  split <;> rfl

@[simp] theorem mem_ite {c : Prop} [Decidable c] (a b : Tile) :
    (if c then a else b).mem = if c then a.mem else b.mem := apply_ite ..

@[simp] theorem actAll_ite {c : Prop} [Decidable c] {q} {a b : Act} :
    ActAll q (if c then a else b) ↔ if c then ActAll q a else ActAll q b := by split <;> rfl

@[simp] theorem outAll_ite {c : Prop} [Decidable c] {q} {a b : Host.Outcome State Fault Refusal} :
    OutAll q (if c then a else b) ↔ if c then OutAll q a else OutAll q b := by split <;> rfl

@[simp] theorem okOr_ite {ε α : Type} {p : ε → Prop} {q : α → Prop} {c : Prop} [Decidable c] {a b : Except ε α} :
    OkOr p q (if c then a else b) ↔ if c then OkOr p q a else OkOr p q b := by split <;> rfl

@[simp] theorem mems_ite_fst {β : Type} {c : Prop} [Decidable c] (a b : State × β) :
    mems (if c then a else b).1 = if c then mems a.1 else mems b.1 := by split <;> rfl

@[simp] theorem mems_foldl {α : Type} {f : State → α → State} {l : List α} (hf : ∀ s x, mems (f s x) = mems s) :
    mems (l.foldl f s) = mems s := by
  induction l generalizing s with
  | nil => rfl
  | cons x r ih => exact ih.trans (hf s x)

@[simp] theorem mems_foldl_fst {α β : Type} {f : State × β → α → State × β} {l : List α} {r : State × β}
    (hf : ∀ r x, mems (f r x).1 = mems r.1) : mems (l.foldl f r).1 = mems r.1 := by
  induction l generalizing r with
  | nil => rfl
  | cons x r ih => exact ih.trans (hf _ x)

theorem canon_foldl {α : Type} {f : State → α → State} {l : List α} (h : Canon s)
    (hf : ∀ s x, Canon s → Canon (f s x)) : Canon (l.foldl f s) := by
  induction l generalizing s with
  | nil => exact h
  | cons x r ih => exact ih (hf s x h)

theorem canon_foldl_fst {α β : Type} {f : State × β → α → State × β} {l : List α} {r : State × β} (h : Canon r.1)
    (hf : ∀ r x, Canon r.1 → Canon (f r x).1) : Canon (l.foldl f r).1 := by
  induction l generalizing r with
  | nil => exact h
  | cons x l ih => exact ih (hf r x h)

theorem okOr_foldl {ε α β : Type} {p : ε → Prop} {q : α → Prop} {f : Except ε α → β → Except ε α} {l : List β} {r : Except ε α}
    (h : OkOr p q r) (hf : ∀ r x, OkOr p q r → OkOr p q (f r x)) : OkOr p q (l.foldl f r) := by
  induction l generalizing r with
  | nil => exact h
  | cons x l ih => exact ih (hf r x h)

/-! ### Updates of the state -/

/-- Only the tiles and the two stores of the package are memory. -/
@[simp] theorem mems_mk (a b c d e f g i j k l m o q r u v w x y z) :
    mems ⟨a, b, c, d, e, f, g, s.tiles, i, j, k, l, m, s.hbm, o, s.tier, q, r, u, v, w, x, y, z⟩ = mems s := rfl

@[simp] theorem mems_setTile (t) {x : Tile} (hx : x.mem = (s.tile t).mem) : mems (s.setTile t x) = mems s := by
  refine Prod.ext (funext fun u => ?_) rfl
  simp only [mems, tile_setTile]
  split
  · next h => rw [h, hx]
  · rfl

@[simp] theorem mems_modTile (t) {f : Tile → Tile} (hf : (f (s.tile t)).mem = (s.tile t).mem) :
    mems (s.modTile t f) = mems s := mems_setTile t hf

@[simp] theorem mems_modV (t f) : mems (s.modV t f) = mems s := mems_modTile t rfl
@[simp] theorem mems_modStrand (t n f) : mems (s.modStrand t n f) = mems s := mems_modTile t rfl

theorem canon_setTile (h : Canon s) (t) {x : Tile} (hx : x.mem.wf = true) : Canon (s.setTile t x) := by
  refine ⟨fun u => ?_, h.2⟩
  simp only [mems, tile_setTile]
  split
  · exact hx
  · exact h.1 u

theorem canon_modTile (h : Canon s) (t) {f : Tile → Tile} (hf : (s.tile t).mem.wf = true → (f (s.tile t)).mem.wf = true) :
    Canon (s.modTile t f) := canon_setTile h t (hf (h.1 t))

theorem canon_hbm (h : Canon s) {m : Mem} (hm : m.wf = true) : Canon { s with hbm := m } := ⟨h.1, hm, h.2.2⟩

theorem canon_tier (h : Canon s) {m : Mem} (hm : m.wf = true) : Canon { s with tier := m } := ⟨h.1, h.2.1, hm⟩

/-- A store into a tile's memory keeps the form. -/
theorem canon_storeTile (h : Canon s) (t) {f : Tile → Tile} {a bs} (hf : (f (s.tile t)).mem = (s.tile t).mem.store a bs) :
    Canon (s.modTile t f) := canon_modTile h t fun hT => by rw [hf]; exact wf_store hT a bs
end

section
variable {ε α : Type} {p : ε → Prop} {q : α → Prop} {r : Except ε α}

theorem OkOr.of_error (h : OkOr p q r) {e : ε} (hr : r = .error e) : p e := by simpa [hr] using h
theorem OkOr.of_ok (h : OkOr p q r) {a : α} (hr : r = .ok a) : q a := by simpa [hr] using h

theorem OkOr.mono {p' : ε → Prop} {q' : α → Prop} (h : OkOr p q r) (hp : ∀ e, p e → p' e) (hq : ∀ a, q a → q' a) :
    OkOr p' q' r := by
  cases r with
  | error e => exact hp e h
  | ok a => exact hq a h

theorem ErrAll.mono {q q' : State → Prop} {e : WErr} (h : ErrAll q e) (hq : ∀ s, q s → q' s) : ErrAll q' e := by
  cases e with
  | ecc s => exact hq s h
  | galley l => trivial
  | conflict i => trivial

theorem ActAll.mono {q q' : State → Prop} {a : Act} (h : ActAll q a) (hq : ∀ s, q s → q' s) : ActAll q' a := by
  cases a with
  | done s => exact hq s h
  | goto pc s => exact hq s h
  | trap c i => trivial
  | wait w => trivial
  | block w s => exact hq s h
  | stop s => exact hq s h
end

theorem ErrAll.trans {s s' : State} {e : WErr} (h : ErrAll (Same s') e) (hs : mems s' = mems s) : ErrAll (Same s) e :=
  h.mono fun _ e => e.trans hs

theorem ActAll.trans {s s' : State} {a : Act} (h : ActAll (Same s') a) (hs : mems s' = mems s) : ActAll (Same s) a :=
  h.mono fun _ e => e.trans hs

/-- Memories of a state that has those of a canonical one. -/
theorem canon_of_same {s s' : State} (h : Canon s) (e : mems s' = mems s) : Canon s' := by rwa [Canon, e]

section
variable {s : State}

/-! ### Tiles, strands, contexts, groups -/

@[simp] theorem mems_modCtx (c f) : mems (s.modCtx c f) = mems s := by simp [State.modCtx]
@[simp] theorem mems_modGroup (g f) : mems (s.modGroup g f) = mems s := by simp [State.modGroup]
@[simp] theorem mems_modCluster (c f) : mems (s.modCluster c f) = mems s := by simp [State.modCluster]
@[simp] theorem mems_modDie (d f) : mems (s.modDie d f) = mems s := by simp [State.modDie]
@[simp] theorem mems_post (d e) : mems (s.post d e) = mems s := by simp [State.post]
@[simp] theorem mems_postFirst (e) : mems (s.postFirst e) = mems s := by simp [State.postFirst]
@[simp] theorem mems_postAll (es) : mems (s.postAll es) = mems s := by simp [State.postAll]
@[simp] theorem mems_report (r) : mems (s.report r) = mems s := by simp [State.report]
@[simp] theorem mems_freshNat : mems s.freshNat.2 = mems s := by simp [State.freshNat]

/-! ### Positions (R15, R18, R106) -/

@[simp] theorem mems_modLink (l f) : mems (s.modLink l f) = mems s := by simp [State.modLink]
@[simp] theorem mems_sendFlow (src a b group d e) : mems (s.sendFlow src a b group d e) = mems s := by
  unfold State.sendFlow; split <;> simp
@[simp] theorem mems_send (a b engine own d e) : mems (s.send a b engine own d e) = mems s := by simp [State.send]
@[simp] theorem mems_barSend (l die up group after d e) : mems (s.barSend l die up group after d e) = mems s := by
  simp [State.barSend]
@[simp] theorem mems_cross (die up group d e) : mems (s.cross die up group d e) = mems s := by
  unfold State.cross; dsimp only; split <;> simp
@[simp] theorem mems_sendHeld : mems s.sendHeld = mems s := by simp [State.sendHeld]

/-! ### Causes, trap records, votes (R271, R345 to R352) -/

@[simp] theorem mems_sendRecord (r) : mems (sendRecord s r) = mems s := by simp [sendRecord]
@[simp] theorem mems_vote (t c n pc info) : mems (vote s t c n pc info) = mems s := by simp [vote]
@[simp] theorem mems_contextFatal (ctx c) : mems (contextFatal s ctx c) = mems s := by simp [contextFatal]
@[simp] theorem mems_trappedVote (t c n pc info) : mems (trappedVote s t c n pc info) = mems s := by simp [trappedVote]

/-! ### Successor, trap entry and return (R54, R347 to R349, R225) -/

@[simp] theorem mems_takeTrap (t n c info pc succ) : mems (takeTrap s t n c info pc succ) = mems s := by simp [takeTrap]
@[simp] theorem mems_takeDeferred (t n d) : mems (takeDeferred s t n d) = mems s := by simp [takeDeferred]
@[simp] theorem mems_refuse (t n d) : mems (refuse s t n d) = mems s := by simp [refuse]

/-! ### Soft errors (R354) -/

@[simp] theorem mems_correctable (t) : mems (correctable s t) = mems s := by simp [correctable]

@[simp] theorem mems_eccRead (t fresh ofs len) : mems (eccRead s t fresh ofs len).1 = mems s := by
  unfold eccRead
  dsimp only
  repeat' split
  all_goals simp

@[simp] theorem mems_eccSlot (t g) : mems (eccSlot s t g).1 = mems s := by simp [eccSlot]
@[simp] theorem mems_eccWrite (t ofs len) : mems (eccWrite s t ofs len).1 = mems s := by simp [eccWrite]

/-! ### The galley (R194 to R197, R202, R203, R207, R208) -/

@[simp] theorem mems_logLine (t line) : OkOr (ErrAll (Same s)) (Same s) (logLine s t line) := by
  unfold logLine
  dsimp only
  repeat' split
  all_goals simp

@[simp] theorem mems_noteWrite (T line w k ofs) : (noteWrite T line w k ofs).mem = T.mem := by simp [noteWrite]

theorem canon_lineWrite (h : Canon s) {t w k ofs data} : OkOr (ErrAll Canon) Canon (lineWrite s t w k ofs data) := by
  unfold lineWrite
  dsimp only
  split
  · split
    · simpa using h
    · exact canon_modTile (by simpa using h) t fun hT => by simp [hT, wf_putBytes]
  · split
    · trivial
    · split
      · trivial
      · split
        · trivial
        · have hl := mems_logLine (s := s) t (ofs / 64)
          split
          · next e he => exact (hl.of_error he).mono fun _ hs => canon_of_same h hs
          · next s' he =>
            have hs : mems s' = mems s := hl.of_ok he
            split
            · simpa [hs] using h
            · exact canon_modTile (by simpa [hs] using h) t fun hT => by simp [hT, wf_putBytes]

@[simp] theorem mems_wordsRead (t rs) : mems (wordsRead s t rs).1 = mems s := by simp [wordsRead]

theorem canon_strandWrite (h : Canon s) {t w k ofs data} : OkOr (ErrAll Canon) Canon (strandWrite s t w k ofs data) := by
  refine okOr_foldl h fun r x hr => ?_
  cases r with
  | error e => exact hr
  | ok s' => exact canon_lineWrite hr

theorem canon_engineWrite (h : Canon s) {t w k ofs data} : Canon (engineWrite s t w k ofs data).1 := by
  refine canon_foldl_fst h fun r x hr => ?_
  have hw := canon_lineWrite hr (t := t) (w := w) (k := k) (ofs := x.1) (data := x.2)
  split
  · next he => exact hw.of_ok he
  · simpa using hr
  · simpa using hr
  · next he => exact hw.of_error he

@[simp] theorem mems_noteRead (T line n) : (noteRead T line n).mem = T.mem := by simp [noteRead]
@[simp] theorem mems_noteFlying (t line n) : mems (noteFlying s t line n) = mems s := by simp [noteFlying]

@[simp] theorem mems_lineRead (t n ofs len) : OkOr (ErrAll (Same s)) (fun r => mems r.1 = mems s) (lineRead s t n ofs len) := by
  unfold lineRead
  dsimp only
  repeat' split
  all_goals simp

theorem mems_localRead (t n ofs len) :
    OkOr (ErrAll (Same s)) (fun r => mems r.1 = mems s) (localRead s t n ofs len) := by
  refine okOr_foldl (r := .ok (s, [])) rfl fun r x hr => ?_
  match r, hr with
  | .error e, hr => exact hr
  | .ok (s', bs), hr =>
    have hl := mems_lineRead (s := s') t n x.1 x.2.length
    dsimp only
    split
    · next e he => exact (hl.of_error he).trans hr
    · next s'' b he => exact (hl.of_ok he).trans hr

@[simp] theorem mems_standingRead (t ofs len) : mems (standingRead s t ofs len).1 = mems s := by
  refine mems_foldl_fst (r := (s, true)) fun r l => ?_
  split
  · rfl
  · split <;> simp

/-! ### Registers and counters -/

@[simp] theorem mems_fill (t n d v) : mems (s.fill t n d v) = mems s := by simp [State.fill]
@[simp] theorem mems_addCounter (t ct x) : mems (addCounter s t ct x) = mems s := by simp [addCounter]
@[simp] theorem mems_modSlot (t k f) : mems (modSlot s t k f) = mems s := by simp [modSlot]

@[simp] theorem mems_raiseV (ctx idx ct) : mems (raiseV s ctx idx ct) = mems s := by
  unfold raiseV
  dsimp only
  repeat' split
  all_goals simp

@[simp] theorem mems_withdraw (ctx t f) : mems (s.withdraw ctx t f) = mems s := by simp [State.withdraw]

/-! ### HBM and its translation -/

theorem canon_frameStore (h : Canon s) {mode dev frame ofs bs} : Canon (frameStore s mode dev frame ofs bs) :=
  canon_hbm h (wf_foldl_write _ (fun _ _ hm => wf_write hm _ _) _ h.2.1)
@[simp] theorem mems_postPage (a) : mems (s.postPage a) = mems s := by simp [State.postPage]
@[simp] theorem mems_postDrain (d w) : mems (s.postDrain d w) = mems s := by simp [State.postDrain]

/-- The function is unfolded before it is applied: with its argument in place the kernel would reduce the match on `frameDev`,
which counts the frames of a device in unary. -/
theorem canon_setLeaf (h : Canon s) {ctx l e} : Canon (setLeaf s ctx l e) := by
  have hfun : setLeaf = setLeaf := rfl
  conv_rhs at hfun => delta setLeaf
  rw [hfun]
  dsimp only
  generalize frameDev (s.ctx ctx).mode l.2.1 = x
  cases x with
  | some d => exact canon_frameStore h
  | none => exact h

theorem canon_writeHbm (h : Canon s) {ctx va bs} : Canon (writeHbm s ctx va bs) := by
  refine canon_foldl_fst (r := (s, bs)) h fun r p hr => ?_
  dsimp only
  split
  · split
    · exact hr
    · split
      · exact canon_frameStore hr
      · exact hr
  · exact hr

theorem canon_cancelOutbound (h : Canon s) {ctx va} : Canon (cancelOutbound s ctx va) := by
  unfold cancelOutbound
  split
  · exact h
  · split
    · exact h
    · dsimp only
      split
      · exact canon_setLeaf h
      · simpa using canon_setLeaf h

@[simp] theorem mems_awayUsed : mems s.awayUsed = mems s := by simp [State.awayUsed]

theorem canon_touchPages (h : Canon s) {ctx va n} : Canon (touchPages s ctx va n) := by
  have hf := canon_foldl (l := pageParts (n / 32768 + 2) va.toNat n) h
    fun s p (hs : Canon s) => canon_cancelOutbound hs (ctx := ctx) (va := BitVec.ofNat 64 p.1)
  simpa [touchPages] using hf

/-! ### Stream binding records (R171, R172) -/

@[simp] theorem mems_dropFetch (t r) : mems (dropFetch s t r) = mems s := by simp [dropFetch]

/-! ### The issue of an instruction (R55 checks 7 to 10) -/

@[simp] theorem mems_took (t n) : mems (took s t n) = mems s := by simp [took]
@[simp] theorem mems_passOn (t n len w) : mems (passOn s t n len w) = mems s := by simp [passOn]

theorem finishAct_all {q : State → Prop} (hq : ∀ a b, mems a = mems b → q b → q a) (hs : q s) {t n len a}
    (ha : ActAll q a) : q (finishAct s t n len a) := by
  cases a with
  | done s' => exact hq _ s' (by simp [finishAct]) ha
  | goto pc s' => exact hq _ s' (by simp [finishAct]) ha
  | trap c i => exact hq _ s (by simp [finishAct]) hs
  | wait w => exact hq _ s (by simp [finishAct]) hs
  | block w s' => exact hq _ s' (by simp [finishAct]) ha
  | stop s' => exact hq _ s' (by simp [finishAct]) ha

theorem checkIssue_all {q : State → Prop} (hs : q s) {t n p who srcs dsts a}
    (ha : checkIssue s t n p who srcs dsts = some a) : ActAll q a := by
  unfold checkIssue at ha
  dsimp only at ha
  repeat' split at ha
  all_goals cases ha
  all_goals trivial

/-- What the issue of an instruction keeps is what its body keeps (R55). -/
theorem issue_all {q : State → Prop} (hq : ∀ a b, mems a = mems b → q b → q a) (hs : q s) {p len who srcs dsts body}
    (hb : ActAll q (body s s.cur.1 s.cur.2)) : OutAll q (issue p len who srcs dsts body s) := by
  unfold issue
  dsimp only
  split
  · next a ha => exact finishAct_all hq hs (checkIssue_all hs ha)
  · split
    · trivial
    · exact finishAct_all hq hs hb

@[simp] theorem mems_issue {p len who srcs dsts body} (hb : ActAll (Same s) (body s s.cur.1 s.cur.2)) :
    OutAll (Same s) (issue p len who srcs dsts body s) := issue_all (fun _ _ e => e.trans) rfl hb

theorem canon_issue (h : Canon s) {p len who srcs dsts body} (hb : ActAll Canon (body s s.cur.1 s.cur.2)) :
    OutAll Canon (issue p len who srcs dsts body s) := issue_all (fun _ _ e hb => canon_of_same hb e) h hb

/-! ### Reading sources -/

@[simp] theorem mems_takePiece (t n k) : mems (takePiece s t n k).1 = mems s := by simp [takePiece]
@[simp] theorem mems_takeV (t n v) : mems (takeV s t n v).1 = mems s := by
  unfold takeV; split <;> simp

/-! ### Writing results -/

@[simp] theorem mems_setG (t n d v) : mems (setG s t n d v) = mems s := by simp [setG]
@[simp] theorem mems_setP (t n d b) : mems (setP s t n d b) = mems s := by simp [setP]
@[simp] theorem mems_laterD (t n d v lat) : mems (laterD s t n d v lat) = mems s := by simp [laterD]
@[simp] theorem mems_laterG (t n d v lat) : mems (laterG s t n d v lat) = mems s := by simp [laterG]
@[simp] theorem mems_laterV (t n d v lat) : mems (laterV s t n d v lat) = mems s := by
  unfold laterV; split <;> simp

/-! ### Control flow (R103, Table 5 -/

@[simp] theorem mems_execBr (p imm) : OutAll (Same s) (execBr p imm s) :=
  mems_issue (by simp)
@[simp] theorem mems_jumpAct (a imm) : ActAll (Same s) (jumpAct s a imm) := by
  unfold jumpAct; split <;> simp
@[simp] theorem mems_execJmp (p a imm) : OutAll (Same s) (execJmp p a imm s) :=
  mems_issue (by simp)
@[simp] theorem mems_execCall (p d imm) : OutAll (Same s) (execCall p d imm s) :=
  mems_issue (by simp)
@[simp] theorem mems_execCallR (p d a) : OutAll (Same s) (execCallR p d a s) :=
  mems_issue ((mems_jumpAct ..).trans (mems_setG ..))
@[simp] theorem mems_execRet (p a) : OutAll (Same s) (execRet p a s) :=
  mems_issue (by simp)
@[simp] theorem mems_execLoop (p d imm) : OutAll (Same s) (execLoop p d imm s) :=
  mems_issue (by simp)
@[simp] theorem mems_execHalt (p) : OutAll (Same s) (execHalt p s) :=
  mems_issue (by simp)
@[simp] theorem mems_execYield (p) : OutAll (Same s) (execYield p s) :=
  mems_issue (by simp)
@[simp] theorem mems_execWaitc (p sub a b ct pf imm) : OutAll (Same s) (execWaitc p sub a b ct pf imm s) :=
  mems_issue (by simp)

/-! ### The remote path (R85, R106 to R110, R195, R196, R201 to R204, R250) -/

@[simp] theorem mems_noteItem (t kind addr data) : mems (noteItem s t kind addr data) = mems s := by simp [noteItem]
@[simp] theorem mems_bumpOp (t) : mems (bumpOp s t) = mems s := by simp [bumpOp]
@[simp] theorem mems_awayAck (o ea) : mems (awayAck s o ea) = mems s := by simp [awayAck]
@[simp] theorem mems_awayLoad (r) : mems (awayLoad s r) = mems s := by simp [awayLoad]
@[simp] theorem mems_sendPacket (t n pc ea b engine) : mems (sendPacket s t n pc ea b engine).1 = mems s := by
  simp [sendPacket]
@[simp] theorem mems_sendMsg (t n pc ea len d ct) : mems (sendMsg s t n pc ea len d ct) = mems s := by simp [sendMsg]
@[simp] theorem mems_sendAck (o a t info) : mems (sendAck s o a t info) = mems s := by simp [sendAck]

/-! ### Residues (R138, R149) -/

@[simp] theorem mems_arst (t unit pti) : mems (arst s t unit pti) = mems s := by simp [arst]
@[simp] theorem mems_mismatch (t unit pti) : mems (mismatch s t unit pti) = mems s := by simp [mismatch]
@[simp] theorem mems_residueCheck (t u good) : mems (residueCheck s t u good).1 = mems s := by simp [residueCheck]

/-! ### Deltas (R196, R202 to R204) -/

@[simp] theorem mems_acceptPart (t k o p) : OkOr (fun _ => True) (Same s) (acceptPart s t k o p) := by
  unfold acceptPart
  dsimp only
  repeat' split
  all_goals simp

@[simp] theorem mems_mergeRead (t k p) : mems (mergeRead s t k p).1 = mems s := by
  unfold mergeRead
  split
  · rfl
  · refine mems_foldl_fst fun r x => ?_
    split
    · split <;> simp
    · rfl

@[simp] theorem mems_acceptDelta (t k p) : mems (acceptDelta s t k p).1 = mems s := by
  unfold acceptDelta
  dsimp only
  split
  · rfl
  · have hf := okOr_foldl (p := fun _ : Ack × BitVec 32 => True) (q := Same s) (r := .ok s)
      (l := deltaParts (eaOfs p.ea) p.body)
      (f := fun r x => match r with
        | .error e => .error e
        | .ok s => acceptPart s t k p.src { x with rd := p.rd.contains (x.ofs / 64) }) rfl fun r x hr => by
          cases r with
          | error e => trivial
          | ok s' => exact (mems_acceptPart t k p.src _).mono (fun _ => id) fun _ e => Eq.trans e hr
    split
    · next he => exact hf.of_ok he
    · rfl

/-! ### The foreshore (R201) and additions to memory (R108) -/

theorem canon_applyFore (h : Canon s) {t k o ofs b} : Canon (applyFore s t k o ofs b).1 := by
  unfold applyFore
  cases readsOld b <;> simp only [if_true, Bool.false_eq_true, if_false]
  all_goals
    split
    · simpa using h
    · exact canon_of_same (canon_storeTile (by simpa using h) t rfl) (mems_modSlot ..)

/-! ### What acknowledgements end -/

@[simp] theorem mems_opDone (t n id) : mems (opDone s t n id) = mems s := by simp [opDone]

@[simp] theorem mems_enterOutq (t n pc va data) : mems (enterOutq s t n pc va data).1 = mems s := by
  unfold enterOutq
  dsimp only
  repeat' split
  all_goals simp

@[simp] theorem mems_enterLines (t n pc addr data) : mems (enterLines s t n pc addr data).1 = mems s := by simp [enterLines]

/-! ### Local space (R97) -/

/-- A place that is refused leaves no state: the access traps or waits. -/
theorem ownPlace_all {q} (t n ofs len wr) : OkOr (ActAll q) (fun _ => True) (ownPlace s t n ofs len wr) := by
  unfold ownPlace
  dsimp only
  repeat' split
  all_goals trivial

theorem windowPlace_all {q} (t u ofs len wr) : OkOr (ActAll q) (fun _ => True) (windowPlace s t u ofs len wr) := by
  unfold windowPlace
  dsimp only
  repeat' split
  all_goals trivial

theorem localPlace_all {q} (t n ea len wr) : OkOr (ActAll q) (fun _ => True) (localPlace s t n ea len wr) := by
  unfold localPlace
  simp [ownPlace_all, windowPlace_all]

theorem wErrAct_all {q : State → Prop} {e} (h : ErrAll q e) : ActAll q (wErrAct e) := by
  cases e with
  | ecc s => exact h
  | galley l => trivial
  | conflict i => trivial

theorem mems_loadAct (t n ea len) {k : State → Nat → Nat → State} (hk : ∀ s x l, mems (k s x l) = mems s) :
    ActAll (Same s) (loadAct s t n ea len k) := by
  unfold loadAct
  split
  · next he => exact (localPlace_all ..).of_error he
  · next p _ =>
    have hr := mems_localRead (s := s) p.1 n p.2 len
    split
    · next he => exact wErrAct_all (hr.of_error he)
    · next he => exact (hk ..).trans (hr.of_ok he)

theorem canon_putLocal (h : Canon s) {t n p k data} : OkOr (ActAll Canon) Canon (putLocal s t n p k data) := by
  unfold putLocal
  split
  · split
    · trivial
    · split
      · next he => exact wErrAct_all ((canon_strandWrite h).of_error he)
      · next he => exact (canon_strandWrite h).of_ok he
  · exact canon_engineWrite h

theorem canon_storeAct (h : Canon s) {t n ea k data} : ActAll Canon (storeAct s t n ea k data) := by
  unfold storeAct
  split
  · next he => exact (localPlace_all ..).of_error he
  · split
    · next he => exact (canon_putLocal h).of_error he
    · next he => exact (canon_putLocal h).of_ok he

@[simp] theorem mems_execLd (p wd d a imm) : OutAll (Same s) (execLd p wd d a imm s) :=
  mems_issue (mems_loadAct _ _ _ _ fun _ _ _ => mems_laterG ..)
theorem canon_execSt (h : Canon s) {p wd a b imm} : OutAll Canon (execSt p wd a b imm s) :=
  canon_issue h (canon_storeAct h)
@[simp] theorem mems_execLdw (p d a imm) : OutAll (Same s) (execLdw p d a imm s) :=
  mems_issue (mems_loadAct _ _ _ _ fun _ _ _ => mems_laterD ..)
theorem canon_execStw (h : Canon s) {p a b imm} : OutAll Canon (execStw p a b imm s) :=
  canon_issue h (canon_storeAct h)
theorem canon_execSt4 (h : Canon s) {p a b imm} : OutAll Canon (execSt4 p a b imm s) :=
  canon_issue h (canon_storeAct h)

/-! ### Locks (R111) -/

@[simp] theorem mems_setLock (u hx pos n) : mems (setLock s u hx pos n) = mems s := by simp [setLock]
@[simp] theorem mems_clearLock (u hx) : mems (clearLock s u hx) = mems s := by simp [clearLock]

@[simp] theorem mems_execLdl (p wd d a imm) : OutAll (Same s) (execLdl p wd d a imm s) := by
  refine mems_issue ?_
  dsimp only
  split
  · trivial
  · split
    · next he => exact (localPlace_all ..).of_error he
    · next q _ =>
      have hr := mems_localRead (s := s) q.1 s.cur.2.val q.2 (widthBytes wd)
      split
      · trivial
      · split
        · simp
        · split
          · next he => exact wErrAct_all (hr.of_error he)
          · next r he => simpa using (hr.of_ok he : mems r.1 = mems s)

theorem canon_execStu (h : Canon s) {p wd a b imm} : OutAll Canon (execStu p wd a b imm s) := by
  refine canon_issue h ?_
  dsimp only
  split
  · trivial
  · split
    · next he => exact (localPlace_all ..).of_error he
    · split
      · trivial
      · split
        · next he => exact (canon_putLocal h).of_error he
        · next he => simpa using (canon_putLocal h).of_ok he

/-! ### Global space (R106 to R110) -/

@[simp] theorem mems_remoteAct (t n ea align b) : ActAll (Same s) (remoteAct s t n ea align b) := by simp [remoteAct]
@[simp] theorem mems_remoteLoad (t n ea len wd d) : ActAll (Same s) (remoteLoad s t n ea len wd d) := by simp [remoteLoad]

@[simp] theorem mems_execLdg (p d a imm) : OutAll (Same s) (execLdg p d a imm s) := by
  unfold execLdg
  dsimp only
  repeat' split
  all_goals simp

@[simp] theorem mems_execStg (p a b imm) : OutAll (Same s) (execStg p a b imm s) :=
  mems_issue (by simp)
@[simp] theorem mems_execSt4G (p a b imm) : OutAll (Same s) (execSt4G p a b imm s) :=
  mems_issue (by simp)

@[simp] theorem mems_execAddd (p a b imm) : OutAll (Same s) (execAddd p a b imm s) := by
  unfold execAddd
  dsimp only
  repeat' split
  all_goals simp

@[simp] theorem mems_execMsg (p ct a b imm) : OutAll (Same s) (execMsg p ct a b imm s) :=
  mems_issue (by simp)
@[simp] theorem mems_execMsgZ (p ct a imm) : OutAll (Same s) (execMsgZ p ct a imm s) :=
  mems_issue (by simp)

theorem lbCheck_all {q t ea len a} (ha : lbCheck s t ea len = some a) : ActAll q a := by
  unfold lbCheck at ha
  repeat' split at ha
  all_goals cases ha
  all_goals trivial

@[simp] theorem mems_execLbLoad (p wd d a imm) : OutAll (Same s) (execLbLoad p wd d a imm s) := by
  refine mems_issue ?_
  dsimp only
  split
  · next he => exact lbCheck_all he
  · exact mems_remoteLoad ..

@[simp] theorem mems_execLbStore (p wd a b imm) : OutAll (Same s) (execLbStore p wd a b imm s) := by
  refine mems_issue ?_
  dsimp only
  split
  · next he => exact lbCheck_all he
  · exact mems_remoteAct ..

/-! ### Ordering and watchpoints (R112, R113) -/

@[simp] theorem mems_execFence (p sc) : OutAll (Same s) (execFence p sc s) :=
  mems_issue (by simp)
@[simp] theorem mems_setWpt (t n w) : mems (setWpt s t n w) = mems s := by simp [setWpt]
@[simp] theorem mems_execWptSet (p n a b fl) : OutAll (Same s) (execWptSet p n a b fl s) :=
  mems_issue (by simp)
@[simp] theorem mems_execWptClr (p n) : OutAll (Same s) (execWptClr p n s) :=
  mems_issue (by simp)
@[simp] theorem mems_execWptRd (p n d) : OutAll (Same s) (execWptRd p n d s) :=
  mems_issue (by simp)

/-! ### Overlays (R89) -/

@[simp] theorem mems_ovlAct (t n hbm src len ct base) : ActAll (Same s) (ovlAct s t n hbm src len ct base) := by
  simp [ovlAct]
@[simp] theorem mems_execOvlLoc (p a b ct base) : OutAll (Same s) (execOvlLoc p a b ct base s) :=
  mems_issue (by simp)
@[simp] theorem mems_execOvlHbm (p a b ct base) : OutAll (Same s) (execOvlHbm p a b ct base s) :=
  mems_issue (by simp)

/-! ### Helpers (R114, R115) -/

@[simp] theorem mems_execStart (p hx a imm) : OutAll (Same s) (execStart p hx a imm s) :=
  mems_issue (by simp)
@[simp] theorem mems_dropLocks (t n) : mems (dropLocks s t n) = mems s := by simp [dropLocks]
@[simp] theorem mems_forgetOwed (t n) : mems (forgetOwed s t n) = mems s := by simp [forgetOwed]
@[simp] theorem mems_stopHelper (t n) : mems (stopHelper s t n) = mems s := by simp [stopHelper]
@[simp] theorem mems_execHstop (p hx) : OutAll (Same s) (execHstop p hx s) :=
  mems_issue (by simp)
@[simp] theorem mems_execHstopAll (p) : OutAll (Same s) (execHstopAll p s) :=
  mems_issue (by simp)

/-! ### The end of a wait -/

@[simp] theorem mems_wake (t n) : mems (wake s t n) = mems s := by simp [wake]
@[simp] theorem mems_complete (t n d) : mems (complete s t n d) = mems s := by simp [complete]
@[simp] theorem mems_wakeOvl (t) : mems (wakeOvl s t) = mems s := by simp [wakeOvl]

/-! ### Results and traps -/

@[simp] theorem mems_takePrecise (t n c info pc succ) : mems (takePrecise s t n c info pc succ) = mems s := by
  unfold takePrecise; split <;> simp

@[simp] theorem mems_execDeferredTrap : OutAll (Same s) (execDeferredTrap s) := by
  unfold execDeferredTrap
  repeat' split
  all_goals simp

@[simp] theorem mems_execFetchFault : OutAll (Same s) (execFetchFault s) := by
  unfold execFetchFault
  dsimp only
  repeat' split
  all_goals simp

@[simp] theorem mems_execSoftError : OutAll (Same s) (execSoftError s) := by
  unfold execSoftError; split <;> simp

/-! ### Remote loads (R85, R106, R204, R259) -/

@[simp] theorem mems_remoteBytes (ctx g u k idx ofs n) : mems (remoteBytes s ctx g u k idx ofs n).1 = mems s := by
  simp [remoteBytes]

@[simp] theorem mems_execRemoteLoadArrival : OutAll (Same s) (execRemoteLoadArrival s) := by
  unfold execRemoteLoadArrival
  dsimp only
  repeat' split
  all_goals simp

@[simp] theorem mems_execRemoteLoadReturn : OutAll (Same s) (execRemoteLoadReturn s) := by
  unfold execRemoteLoadReturn
  dsimp only
  repeat' split
  all_goals simp

/-! ### Remote writes (R85, R149, R196, R201, R250) -/

@[simp] theorem mems_checkDelta (u b) : mems (checkDelta s u b) = mems s := by
  unfold checkDelta; split <;> simp

@[simp] theorem mems_takeDelta (u k p) : mems (takeDelta s u k p) = mems s := by
  unfold takeDelta
  dsimp only
  repeat' split
  all_goals simp

theorem canon_takeFore (h : Canon s) {u k p} : Canon (takeFore s u k p) := by
  have hf := canon_applyFore h (t := u) (k := k) (o := p.src) (ofs := eaOfs p.ea) (b := p.body)
  unfold takeFore
  dsimp only
  repeat' split
  · simpa using h
  · exact hf
  · simpa using canon_applyFore hf
  · simpa using hf

theorem canon_takeWrite (h : Canon s) {p} : Canon (takeWrite s p) := by
  unfold takeWrite
  split
  · simpa using h
  · split
    · exact canon_takeFore h
    · simpa using h

theorem canon_execDeltaArrival (h : Canon s) : OutAll Canon (execDeltaArrival s) := by
  unfold execDeltaArrival
  split
  · exact canon_takeWrite h
  · exact h

theorem canon_execForeshoreWriteArrival (h : Canon s) : OutAll Canon (execForeshoreWriteArrival s) := by
  unfold execForeshoreWriteArrival
  split
  · exact canon_takeWrite h
  · exact h

theorem canon_takeMsg (h : Canon s) {u k m} : Canon (takeMsg s u k m).1 := by
  have hf := canon_applyFore h (t := u) (k := k) (o := m.src) (ofs := eaOfs m.ea) (b := .bytes m.n m.data)
  unfold takeMsg
  by_cases h0 : m.n = 0 <;> simp only [h0, if_true, if_false]
  · simpa using h
  · split
    · simpa using hf
    · exact hf

theorem canon_execMsgArrival (h : Canon s) : OutAll Canon (execMsgArrival s) := by
  unfold execMsgArrival
  split
  · next m _ =>
    split
    · simpa using h
    · next u k _ =>
      have hr : Canon (takeMsg s u k m).1 := canon_takeMsg h
      dsimp only
      split
      · exact hr
      · refine canon_of_same ?_ (mems_sendAck ..)
        split
        · exact canon_takeMsg hr
        · exact hr
  · exact h

/-! ### Locks (R111) -/

@[simp] theorem mems_execLockGrant : OutAll (Same s) (execLockGrant s) := by
  unfold execLockGrant
  split
  · next u h _ =>
    split
    · simp
    · split
      · simp
      · next pos n _ =>
        dsimp only
        split
        · next ofs wd _ _ =>
          have hr := mems_localRead (s := s) u n.val ofs (widthBytes wd)
          split
          · next he => simpa using hr.of_error he
          · simp
          · next r he => simpa using (hr.of_ok he : mems r.1 = mems s)
        · simp
  · simp

/-! ### Timeouts (R104, R323) -/

@[simp] theorem mems_execWaitcTimeout : OutAll (Same s) (execWaitcTimeout s) := by
  unfold execWaitcTimeout
  repeat' split
  all_goals simp

@[simp] theorem mems_execWaitpTimeout : OutAll (Same s) (execWaitpTimeout s) := by
  unfold execWaitpTimeout
  repeat' split
  all_goals simp

/-! ### Overlays (R89) -/

@[simp] theorem mems_dropOvl (t id) : mems (dropOvl s t id) = mems s := by simp [dropOvl]

theorem canon_landOvl (h : Canon s) {t o bs} : Canon (landOvl s t o bs) := by
  have hs : Canon (eccWrite s t o.base o.len).1 := by simpa using h
  simpa [landOvl] using canon_storeTile hs t rfl

theorem canon_execOvlDone (h : Canon s) : OutAll Canon (execOvlDone s) := by
  unfold execOvlDone
  split
  · split
    · exact h
    · next o _ =>
      extract_lets T a r s1
      have hr : Canon r.1 := by simpa [r] using h
      have h1 : Canon s1 := canon_of_same h (by simp [s1])
      split
      · cases r.2
        · simpa using hr
        · exact canon_landOvl hr
      · split
        · exact canon_landOvl (canon_touchPages h)
        · simpa using h
        · simpa using h
        · simpa using h1
  · exact h

/-! ### The operand FIFOs (R130 to R132) -/

@[simp] theorem mems_modFifo (t fb f) : mems (modFifo s t fb f) = mems s := by simp [modFifo]
@[simp] theorem mems_pushRow (t fb row sc) : mems (pushRow s t fb row sc) = mems s := by simp [pushRow]

/-! ### Issue into the queues -/

@[simp] theorem mems_modPt (t n f) : mems (modPt s t n f) = mems s := by simp [modPt]
@[simp] theorem mems_pushArrAfter (t n pc b op) : mems (pushArrAfter s t n pc b op) = mems s := by simp [pushArrAfter]
@[simp] theorem mems_pushArr (t n pc op) : mems (pushArr s t n pc op) = mems s := by simp [pushArr]
@[simp] theorem mems_pend (t n i32) : mems (pend s t n i32) = mems s := by simp [pend]
@[simp] theorem mems_pushAdd (t n op) : mems (pushAdd s t n op) = mems s := by simp [pushAdd]

theorem ptTrap_all {q T n i a} (ha : ptTrap T n i = some a) : ActAll q a := by
  unfold ptTrap at ha
  dsimp only at ha
  repeat' split at ha
  all_goals cases ha
  all_goals trivial

theorem accPlace_all {q} (t ea len wr) : OkOr (ActAll q) (fun _ => True) (accPlace s t ea len wr) := by
  unfold accPlace
  dsimp only
  repeat' split
  all_goals trivial

theorem blockPlace_all {q} (t ea al len wr) : OkOr (ActAll q) (fun _ => True) (blockPlace s t ea al len wr) := by
  unfold blockPlace
  dsimp only
  repeat' split
  all_goals trivial

theorem rangeWait_all {q t n rs wr a} (ha : rangeWait s t n rs wr = some a) : ActAll q a := by
  unfold rangeWait at ha
  dsimp only at ha
  repeat' split at ha
  all_goals cases ha
  all_goals trivial

theorem mems_vlaBody (a b c sub t n) : ActAll (Same s) (vlaBody a b c sub s t n) := by
  unfold vlaBody
  split
  · next he => exact (accPlace_all ..).of_error he
  · split
    · next he => exact rangeWait_all he
    · dsimp only
      repeat' split
      all_goals simp

@[simp] theorem mems_execVla (p a c sub) : OutAll (Same s) (execVla p a c sub s) := mems_issue (mems_vlaBody ..)
@[simp] theorem mems_execVlaP (p a b c sub) : OutAll (Same s) (execVlaP p a b c sub s) := mems_issue (mems_vlaBody ..)

@[simp] theorem mems_execVlard (p rm d a c sub) : OutAll (Same s) (execVlard p rm d a c sub s) := by
  refine mems_issue ?_
  dsimp only
  split
  · trivial
  · split
    · next he => exact (accPlace_all ..).of_error he
    · next o _ =>
      have hr := mems_localRead (s := s) s.cur.1 s.cur.2.val o 2048
      split
      · next he => exact rangeWait_all he
      · split
        · next he => exact wErrAct_all (hr.of_error he)
        · next r he => simpa using (hr.of_ok he : mems r.1 = mems s)

/-! ### Array commands (R132, R135, R136, R147) -/

@[simp] theorem mems_pushMma (t n pc b ty x k rows cols) : mems (pushMma s t n pc b ty x k rows cols) = mems s := by
  simp [pushMma]
@[simp] theorem mems_mmaBody (ty x k rows cols t n) : ActAll (Same s) (mmaBody ty x k rows cols s t n) := by simp [mmaBody]
@[simp] theorem mems_execMma (p ty x n) : OutAll (Same s) (execMma p ty x n s) :=
  mems_issue (by simp)
@[simp] theorem mems_execMmam (p ty x n m) : OutAll (Same s) (execMmam p ty x n m s) := by
  unfold execMmam; split <;> simp
@[simp] theorem mems_mrepBody (fb n w t k) : ActAll (Same s) (mrepBody fb n w s t k) := by simp [mrepBody]
@[simp] theorem mems_execMrepA (p n w) : OutAll (Same s) (execMrepA p n w s) :=
  mems_issue (by simp)
@[simp] theorem mems_execMrepB (p n w) : OutAll (Same s) (execMrepB p n w s) :=
  mems_issue (by simp)

@[simp] theorem mems_execPtmovSt (p ty n c) : OutAll (Same s) (execPtmovSt p ty n c s) := by
  refine mems_issue ?_
  split
  · next he => exact (blockPlace_all ..).of_error he
  · dsimp only
    split
    · next he => exact ptTrap_all he
    · split
      · next he => exact rangeWait_all he
      · simp

@[simp] theorem mems_execPtmovLd (p ty n c) : OutAll (Same s) (execPtmovLd p ty n c s) := by
  refine mems_issue ?_
  split
  · next he => exact (blockPlace_all ..).of_error he
  · split
    · next he => exact rangeWait_all he
    · simp

@[simp] theorem mems_execPtmovGet (p ty n r d) : OutAll (Same s) (execPtmovGet p ty n r d s) := by
  refine mems_issue ?_
  dsimp only
  split
  · next he => exact ptTrap_all he
  · simp

/-! ### Residue status (R138 to R140) -/

@[simp] theorem mems_execRchkRd (p d) : OutAll (Same s) (execRchkRd p d s) :=
  mems_issue (by simp)
@[simp] theorem mems_execRchkClr (p d) : OutAll (Same s) (execRchkClr p d s) :=
  mems_issue (by simp)
@[simp] theorem mems_execRchkInj (p u) : OutAll (Same s) (execRchkInj p u s) :=
  mems_issue (by simp)

/-! ### Adder commands (R144 to R148) -/

theorem mems_tileCmd (t n ea pre) {k : State → Nat → State} (hp : ∀ a, pre = some a → ActAll (Same s) a)
    (hk : ∀ o, mems (k s o) = mems s) : ActAll (Same s) (tileCmd s t n ea pre k) := by
  unfold tileCmd
  split
  · next he => exact (accPlace_all ..).of_error he
  · split
    · exact hp _ rfl
    · simp [hk]

@[simp] theorem mems_execSaa (p ty k off a b c) : OutAll (Same s) (execSaa p ty k off a b c s) := by
  refine mems_issue (mems_tileCmd _ _ _ _ (fun _ he => ptTrap_all he) fun o => ?_)
  cases a with
  | one => simp
  | reg v => simp

@[simp] theorem mems_execAcc (p ty k off b c) : OutAll (Same s) (execAcc p ty k off b c s) :=
  mems_issue (mems_tileCmd _ _ _ _ (fun _ he => ptTrap_all he) fun _ => mems_pushAdd ..)
@[simp] theorem mems_execLazero (p off c) : OutAll (Same s) (execLazero p off c s) :=
  mems_issue (mems_tileCmd _ _ _ none (by rintro _ ⟨⟩) fun _ => mems_pushAdd ..)

@[simp] theorem mems_execLard (p z rm off a b c) : OutAll (Same s) (execLard p z rm off a b c s) := by
  refine mems_issue ?_
  dsimp only
  split
  · trivial
  · split
    · next he => exact (blockPlace_all ..).of_error he
    · next he _ => exact (accPlace_all ..).of_error he
    · split
      · trivial
      · split
        · next he => exact rangeWait_all he
        · simp

@[simp] theorem mems_execDrain (p z ct a b imm) : OutAll (Same s) (execDrain p z ct a b imm s) := by
  refine mems_issue ?_
  split
  · next he => exact (accPlace_all ..).of_error he
  · dsimp only
    split
    · trivial
    · split
      · trivial
      · split
        · next he => exact rangeWait_all he
        · simp

/-! ### Waits (R150) -/

@[simp] theorem mems_mwaitBody (arr add t _n) : ActAll (Same s) (mwaitBody arr add s t _n) := by simp [mwaitBody]
@[simp] theorem mems_execMwaitArr (p) : OutAll (Same s) (execMwaitArr p s) :=
  mems_issue (by simp)
@[simp] theorem mems_execMwaitAdd (p) : OutAll (Same s) (execMwaitAdd p s) :=
  mems_issue (by simp)
@[simp] theorem mems_execMwaitAll (p) : OutAll (Same s) (execMwaitAll p s) :=
  mems_issue (by simp)

/-! ### The forms of the vector unit 0x40 to 0x57 (06_vector R116 to R126) -/

@[simp] theorem mems_vec1 (lat ok f p d a) : OutAll (Same s) (vec1 lat ok f p d a s) :=
  mems_issue (by simp)
@[simp] theorem mems_vec2 (lat ok f p d a b) : OutAll (Same s) (vec2 lat ok f p d a b s) :=
  mems_issue (by simp)
@[simp] theorem mems_vec3 (lat ok f p d a b c) : OutAll (Same s) (vec3 lat ok f p d a b c s) :=
  mems_issue (by simp)
@[simp] theorem mems_vecG (lat ok f p d a) : OutAll (Same s) (vecG lat ok f p d a s) :=
  mems_issue (by simp)
@[simp] theorem mems_arith (k lat p sat o rm c) : OutAll (Same s) (arith k lat p sat o rm c s) :=
  mems_issue (by simp)
@[simp] theorem mems_execVadd (p sat o rm c) : OutAll (Same s) (execVadd p sat o rm c s) := by simp [execVadd]
@[simp] theorem mems_execVsub (p sat o rm c) : OutAll (Same s) (execVsub p sat o rm c s) := by simp [execVsub]
@[simp] theorem mems_execVmul (p sat o rm c) : OutAll (Same s) (execVmul p sat o rm c s) := by simp [execVmul]
@[simp] theorem mems_execVfma (p k rm o c) : OutAll (Same s) (execVfma p k rm o c s) := by simp [execVfma]
@[simp] theorem mems_execVmin (p o) : OutAll (Same s) (execVmin p o s) := by simp [execVmin]
@[simp] theorem mems_execVmax (p o) : OutAll (Same s) (execVmax p o s) := by simp [execVmax]
@[simp] theorem mems_execVdiv (p rm o) : OutAll (Same s) (execVdiv p rm o s) := by simp [execVdiv]
@[simp] theorem mems_execVsqrt (p rm d a) : OutAll (Same s) (execVsqrt p rm d a s) := by simp [execVsqrt]
@[simp] theorem mems_execVrsq (p rm d a) : OutAll (Same s) (execVrsq p rm d a s) := by simp [execVrsq]
@[simp] theorem mems_execVexp2 (p rm d a) : OutAll (Same s) (execVexp2 p rm d a s) := by simp [execVexp2]
@[simp] theorem mems_execVlog2 (p rm d a) : OutAll (Same s) (execVlog2 p rm d a s) := by simp [execVlog2]
@[simp] theorem mems_execVcmp (p k o) : OutAll (Same s) (execVcmp p k o s) := by simp [execVcmp]
@[simp] theorem mems_execVsel (p o c) : OutAll (Same s) (execVsel p o c s) := by simp [execVsel]
@[simp] theorem mems_takeOptV (t n b) : mems (takeOptV s t n b).1 = mems s := by
  unfold takeOptV; split <;> simp
@[simp] theorem mems_execVcvt (p ty tgt k rm d a b c) : OutAll (Same s) (execVcvt p ty tgt k rm d a b c s) :=
  mems_issue (by simp)
@[simp] theorem mems_execVcvtXs (p ty tgt k rm d a c) : OutAll (Same s) (execVcvtXs p ty tgt k rm d a c s) :=
  mems_issue (by simp)
@[simp] theorem mems_execVqnt (p d a) : OutAll (Same s) (execVqnt p d a s) :=
  mems_issue (by simp)
@[simp] theorem mems_execVqntS (p d a) : OutAll (Same s) (execVqntS p d a s) :=
  mems_issue (by simp)
@[simp] theorem mems_execVdq (p d a b k) : OutAll (Same s) (execVdq p d a b k s) :=
  mems_issue (by simp)
@[simp] theorem mems_execVredSum (p ty rm d a) : OutAll (Same s) (execVredSum p ty rm d a s) := by simp [execVredSum]
@[simp] theorem mems_execVredMin (p ty d a) : OutAll (Same s) (execVredMin p ty d a s) := by simp [execVredMin]
@[simp] theorem mems_execVredMax (p ty d a) : OutAll (Same s) (execVredMax p ty d a s) := by simp [execVredMax]
@[simp] theorem mems_execVredAmax (p ty d a) : OutAll (Same s) (execVredAmax p ty d a s) := by simp [execVredAmax]
@[simp] theorem mems_execVperm (p o) : OutAll (Same s) (execVperm p o s) := by simp [execVperm]
@[simp] theorem mems_execVshuf (p pat ty d a b sh) : OutAll (Same s) (execVshuf p pat ty d a b sh s) :=
  mems_issue (by simp)
@[simp] theorem mems_execVbcast (p ty d a) : OutAll (Same s) (execVbcast p ty d a s) :=
  mems_issue (by simp)
@[simp] theorem mems_execVbcastLane (p ty d a k) : OutAll (Same s) (execVbcastLane p ty d a k s) := by simp [execVbcastLane]
@[simp] theorem mems_execVlogic (p tt d a b) : OutAll (Same s) (execVlogic p tt d a b s) := by simp [execVlogic]

@[simp] theorem mems_execVshift (p k ty d a b) : OutAll (Same s) (execVshift p k ty d a b s) := by
  unfold execVshift
  dsimp only
  repeat' split
  all_goals simp

@[simp] theorem mems_execVmovgGet (p ty d a k) : OutAll (Same s) (execVmovgGet p ty d a k s) := by simp [execVmovgGet]
@[simp] theorem mems_execVmovgPut (p ty d a k) : OutAll (Same s) (execVmovgPut p ty d a k s) :=
  mems_issue (by simp)
@[simp] theorem mems_execVrng (p nx d a b) : OutAll (Same s) (execVrng p nx d a b s) :=
  mems_issue (by simp)

/-! ### Norms (R153 to R155) -/

@[simp] theorem mems_modSamp (t f) : mems (modSamp s t f) = mems s := by simp [modSamp]
@[simp] theorem mems_sampRead (t here) : mems (sampRead s t here).1 = mems s := by simp [sampRead]
@[simp] theorem mems_sampRenew (t here) : mems (sampRenew s t here) = mems s := by simp [sampRenew]
@[simp] theorem mems_tapUnit (t fb u) : mems (tapUnit s t fb u) = mems s := by simp [tapUnit]
@[simp] theorem mems_execNrmCur (p a b) : OutAll (Same s) (execNrmCur p a b s) :=
  mems_issue (by simp)

theorem nrmPlace_all {q} (t n a b c wr) : OkOr (ActAll q) (fun _ => True) (nrmPlace s t n a b c wr) := by
  unfold nrmPlace
  dsimp only
  split
  · trivial
  · split
    · next he => exact (blockPlace_all (q := q) ..).of_error he
    · split
      · trivial
      · split
        · next he => exact rangeWait_all he
        · trivial

theorem canon_execNrmSt (h : Canon s) {p a b c} : OutAll Canon (execNrmSt p a b c s) := by
  refine canon_issue h ?_
  split
  · next he => exact (nrmPlace_all ..).of_error he
  · extract_lets x m get M q
    have hq : Canon q.1 := by simpa [q] using h
    split
    · exact hq
    · split
      · next he => exact (canon_putLocal hq).of_error he
      · next he => exact (canon_putLocal hq).of_ok he

@[simp] theorem mems_execNrmLd (p a b c) : OutAll (Same s) (execNrmLd p a b c s) := by
  refine mems_issue ?_
  split
  · next he => exact (nrmPlace_all ..).of_error he
  · next o _ =>
    dsimp only
    have hr := mems_localRead (s := s) s.cur.1 s.cur.2.val o (8 * (gv s s.cur.1 s.cur.2 b).toNat)
    split
    · next he => exact wErrAct_all (hr.of_error he)
    · next r he => simpa using (hr.of_ok he : mems r.1 = mems s)

/-! ### The sampling table (R156 to R160) -/

theorem tablePlace_all {q} (t ea n) : OkOr (ActAll q) (fun _ => True) (tablePlace s t ea n) := by
  unfold tablePlace
  dsimp only
  repeat' split
  all_goals trivial

@[simp] theorem mems_execAtb (p ct a b c) : OutAll (Same s) (execAtb p ct a b c s) := by
  refine mems_issue ?_
  dsimp only
  split
  · trivial
  · split
    · next he => exact (tablePlace_all ..).of_error he
    · simp

/-! ### Draws (R161) -/

theorem mems_tabEntry (t n tab j) : OkOr (ErrAll (Same s)) (fun r => mems r.1 = mems s) (tabEntry s t n tab j) := by
  have hr := mems_localRead (s := s) t n (tab + 64 + 16 * j) 16
  unfold tabEntry
  split
  · next he => exact hr.of_error he
  · next he => exact hr.of_ok he

theorem mems_drawOne (t n tab L hi lo) :
    OkOr (ErrAll (Same s)) (fun r => mems r.1 = mems s) (drawOne s t n tab L hi lo) := by
  have h1 := mems_tabEntry (s := s) t n tab (hi * L / 2 ^ 32)
  unfold drawOne
  dsimp only
  split
  · next he => exact h1.of_error he
  · next r he =>
    have hr : mems r.1 = mems s := h1.of_ok he
    generalize (if lo < r.2.1 then hi * L / 2 ^ 32 else r.2.2.1) = j
    split
    · exact hr
    · have h2 := mems_tabEntry (s := r.1) t n tab j
      split
      · next he => exact (h2.of_error he).trans hr
      · next he => exact (h2.of_ok he).trans hr

theorem mems_tabSlabs (t n tab) : OkOr (ErrAll (Same s)) (fun r => mems r.1 = mems s) (tabSlabs s t n tab) := by
  have hr := mems_localRead (s := s) t n tab 64
  unfold tabSlabs
  split
  · next he => exact hr.of_error he
  · next he => exact hr.of_ok he

theorem mems_draws (t n tab key ctr) : OkOr (ErrAll (Same s)) (fun r => mems r.1 = mems s) (draws s t n tab key ctr) := by
  have ht := mems_tabSlabs (s := s) t n tab
  unfold draws
  split
  · next he => exact ht.of_error he
  · next he => exact ht.of_ok he
  · next s1 L he =>
    have h1 : mems s1 = mems s := ht.of_ok he
    refine okOr_foldl (r := .ok (s1, some [])) h1 fun r i hr => ?_
    match r, hr with
    | .error e, hr => exact hr
    | .ok (s2, none), hr => exact hr
    | .ok (s2, some ds), hr =>
      have hr : mems s2 = mems s := hr
      dsimp only
      split
      · next he => exact ((mems_drawOne ..).of_error he).trans hr
      · next he => exact ((mems_drawOne ..).of_ok he).trans hr
      · next he => exact ((mems_drawOne ..).of_ok he).trans hr

@[simp] theorem mems_execSmp (p ty x k a b c) : OutAll (Same s) (execSmp p ty x k a b c s) := by
  refine mems_issue ?_
  dsimp only
  split
  · trivial
  · split
    · next he => exact (tablePlace_all ..).of_error he
    · simp

@[simp] theorem mems_serveDraw (t q) : mems (serveDraw s t q) = mems s := by
  have hd := mems_draws (s := s) t q.strand.val q.tab q.key q.ctr
  unfold serveDraw
  split
  · next he => exact hd.of_error he
  · simp
  · rfl
  · next s1 r he => simpa using (hd.of_ok he : mems s1 = mems s)

@[simp] theorem mems_execSdraw (p nx d a b c) : OutAll (Same s) (execSdraw p nx d a b c s) := by
  refine mems_issue ?_
  dsimp only
  split
  · trivial
  · split
    · next he => exact (tablePlace_all ..).of_error he
    · split <;> simp

/-! ### Variance and stopping (R164, R165) -/

@[simp] theorem mems_execSmpl (p ty x k ct a b c) : OutAll (Same s) (execSmpl p ty x k ct a b c s) := by
  refine mems_issue ?_
  dsimp only
  split
  · trivial
  · split
    · next he => exact (blockPlace_all ..).of_error he
    · next o _ =>
      have hr := mems_localRead (s := s) s.cur.1 s.cur.2.val o 64
      split
      · next he => exact wErrAct_all (hr.of_error he)
      · next s1 _ he =>
        have h1 : mems s1 = mems s := hr.of_ok he
        split
        · trivial
        · split
          · next he => exact (tablePlace_all ..).of_error he
          · next he _ => exact (accPlace_all ..).of_error he
          · simp [h1]

/-! ### Sampler state (R167 to R169) -/

theorem afterSamp_all {q : State → Prop} (hs : q s) (t n) {k} (hk : ActAll q k) : ActAll q (afterSamp s t n k) := by
  unfold afterSamp
  dsimp only
  split
  · exact hk
  · exact hs

theorem mems_afterSamp (t n) {k} (hk : ActAll (Same s) k) : ActAll (Same s) (afterSamp s t n k) :=
  afterSamp_all (q := Same s) rfl t n hk

@[simp] theorem mems_execSvarUp (p k r) : OutAll (Same s) (execSvarUp p k r s) := by
  refine mems_issue ?_
  dsimp only
  split
  · next he => exact ptTrap_all he
  · simp

@[simp] theorem mems_execSvarRd (p d) : OutAll (Same s) (execSvarRd p d s) :=
  mems_issue (mems_afterSamp _ _ (by simp))
@[simp] theorem mems_execSvarInv (p d) : OutAll (Same s) (execSvarInv p d s) :=
  mems_issue (mems_afterSamp _ _ (by simp))

theorem canon_execSvarSt (h : Canon s) {p c} : OutAll Canon (execSvarSt p c s) := by
  refine canon_issue h ?_
  split
  · next he => exact (blockPlace_all ..).of_error he
  · refine afterSamp_all h _ _ ?_
    split
    · next he => exact rangeWait_all he
    · extract_lets r
      have hr : Canon r.1 := by simpa [r] using h
      split
      · exact hr
      · split
        · next he => exact (canon_putLocal hr).of_error he
        · next he => exact (canon_putLocal hr).of_ok he

@[simp] theorem mems_execSvarLd (p c) : OutAll (Same s) (execSvarLd p c s) := by
  refine mems_issue ?_
  split
  · next he => exact (blockPlace_all ..).of_error he
  · next o _ =>
    refine mems_afterSamp _ _ ?_
    have hr := mems_localRead (s := s) s.cur.1 s.cur.2.val o 320
    split
    · next he => exact rangeWait_all he
    · split
      · next he => exact wErrAct_all (hr.of_error he)
      · next r he => simpa using (hr.of_ok he : mems r.1 = mems s)

@[simp] theorem mems_sclrBody (k t n) : ActAll (Same s) (sclrBody k s t n) := by simp [sclrBody]
@[simp] theorem mems_execSclrVar (p) : OutAll (Same s) (execSclrVar p s) :=
  mems_issue (by simp)
@[simp] theorem mems_execSclrErr (p) : OutAll (Same s) (execSclrErr p s) :=
  mems_issue (by simp)
@[simp] theorem mems_execSclrAll (p) : OutAll (Same s) (execSclrAll p s) :=
  mems_issue (by simp)

/-! ### Engine faults (R183, Table 9.3) -/

@[simp] theorem mems_setEfr (t kind ct info) : mems (setEfr s t kind ct info) = mems s := by simp [setEfr]

/-! ### Records (R171 to R173) -/

theorem recBox_all {q} (t r ofs sb x y) : OkOr (ActAll q) (fun _ => True) (recBox s t r ofs sb x y) := by
  unfold recBox
  dsimp only
  repeat' split
  all_goals trivial

theorem mems_sbindCheck (t n a b c start x y z) :
    OkOr (ActAll (Same s)) (fun r => mems r.1 = mems s) (sbindCheck s t n a b c start x y z) := by
  unfold sbindCheck
  dsimp only
  split
  · trivial
  · next o _ =>
    have hr := mems_localRead (s := s) t n o 64
    split
    · trivial
    · split
      · trivial
      · split
        · next he => exact wErrAct_all (hr.of_error he)
        · next q he =>
          repeat' split
          · trivial
          · trivial
          · trivial
          · next he => exact (recBox_all ..).of_error he
          · next he => exact rangeWait_all he
          · exact hr.of_ok he

@[simp] theorem mems_modQ (t n k f) : mems (modQ s t n k f) = mems s := by simp [modQ]
@[simp] theorem mems_exhaustQ (t n k) : mems (exhaustQ s t n k) = mems s := by simp [exhaustQ]

theorem mems_sbindQ (out cnt ct d a b c start t n) : ActAll (Same s) (sbindQ out cnt ct d a b c start s t n) := by
  have hc := mems_sbindCheck (s := s) t n a b c start true out false
  unfold sbindQ
  split
  · next he => exact hc.of_error he
  · next he => simpa using hc.of_ok he

@[simp] theorem mems_execSbindIn (p cnt ct d a b c start) : OutAll (Same s) (execSbindIn p cnt ct d a b c start s) :=
  mems_issue (mems_sbindQ ..)
@[simp] theorem mems_execSbindOut (p cnt ct d a b c start) : OutAll (Same s) (execSbindOut p cnt ct d a b c start s) :=
  mems_issue (mems_sbindQ ..)
@[simp] theorem mems_endBind (t fb) : mems (endBind s t fb) = mems s := by simp [endBind]
@[simp] theorem mems_exhaustF (t fb) : mems (exhaustF s t fb) = mems s := by simp [exhaustF]

theorem mems_sbindF (fb sink cnt ct a b c start t n) : ActAll (Same s) (sbindF fb sink cnt ct a b c start s t n) := by
  have hc := mems_sbindCheck (s := s) t n a b c start false false sink
  unfold sbindF
  split
  · next he => exact hc.of_error he
  · next he =>
    split
    · trivial
    · simpa using hc.of_ok he

@[simp] theorem mems_execSbindFa (p sink cnt ct a b c start) : OutAll (Same s) (execSbindFa p sink cnt ct a b c start s) :=
  mems_issue (mems_sbindF ..)
@[simp] theorem mems_execSbindFb (p sink cnt ct a b c start) : OutAll (Same s) (execSbindFb p sink cnt ct a b c start s) :=
  mems_issue (mems_sbindF ..)

/-! ### Ending a binding (R177) -/

@[simp] theorem mems_execSunbind (p d) : OutAll (Same s) (execSunbind p d s) :=
  mems_issue (by simp)
@[simp] theorem mems_unbindF (fb t _a) : ActAll (Same s) (unbindF fb s t _a) := by simp [unbindF]
@[simp] theorem mems_execSunbindFa (p) : OutAll (Same s) (execSunbindFa p s) :=
  mems_issue (by simp)
@[simp] theorem mems_execSunbindFb (p) : OutAll (Same s) (execSunbindFb p s) :=
  mems_issue (by simp)
@[simp] theorem mems_execSunbindPos (p d a) : OutAll (Same s) (execSunbindPos p d a s) :=
  mems_issue (by simp)
@[simp] theorem mems_fifoPos (fb d t n) : ActAll (Same s) (fifoPos fb d s t n) := by simp [fifoPos]
@[simp] theorem mems_execSunbindPosa (p d) : OutAll (Same s) (execSunbindPosa p d s) :=
  mems_issue (by simp)
@[simp] theorem mems_execSunbindPosb (p d) : OutAll (Same s) (execSunbindPosb p d s) :=
  mems_issue (by simp)

/-! ### Pieces (R174, R175) -/

@[simp] theorem mems_markStream (t r busy stopped) : mems (markStream s t r busy stopped) = mems s := by
  unfold markStream; split <;> simp
@[simp] theorem mems_parkStream (t r a) : mems (parkStream s t r a) = mems s := by
  unfold parkStream; split <;> simp
@[simp] theorem mems_refusePiece (t r addr) : mems (refusePiece s t r addr) = mems s := by simp [refusePiece]

theorem canon_readParts (h : Canon s) {t r n hbm parts} :
    OkOr Canon (fun x => Canon x.1) (readParts s t r n hbm parts) := by
  refine okOr_foldl (r := .ok (s, [])) h fun x p hx => ?_
  match x, hx with
  | .error e, hx => exact hx
  | .ok (s', bs), hx =>
    have hx : Canon s' := hx
    dsimp only
    split
    · split
      · exact canon_touchPages hx
      · simpa using hx
      · exact hx
      · simpa using hx
    · have hr := mems_localRead (s := s') t n (p.1 % 2 ^ 21) p.2
      split
      · next q he => exact canon_of_same (s' := q.1) hx (hr.of_ok he)
      · next s'' he => simpa [show mems s'' = mems s' from hr.of_error he] using hx
      · simpa using hx
      · exact hx

theorem canon_fetchQ (h : Canon s) {t n k} : Canon (fetchQ s t n k) := by
  unfold fetchQ
  dsimp only
  split
  · split
    · next he => exact (canon_readParts h).of_error he
    · next he => simpa using (canon_readParts h).of_ok he
  · exact h

theorem canon_fetchF (h : Canon s) {t fb} : Canon (fetchF s t fb) := by
  unfold fetchF
  dsimp only
  split
  · split
    · next he =>
      split
      · exact h
      · exact (canon_readParts h).of_error he
    · next he => simpa using (canon_readParts h).of_ok he
  · exact h

theorem canon_execStreamPieceFetched (h : Canon s) : OutAll Canon (execStreamPieceFetched s) := by
  unfold execStreamPieceFetched
  split
  · next t r ok _ =>
    split
    · have hm : Canon (markStream s t r false false) := canon_of_same h (mems_markStream ..)
      cases r with
      | q n k => exact canon_fetchQ hm
      | fa => exact canon_fetchF hm
      | fb => exact canon_fetchF hm
    · exact canon_of_same h (mems_refusePiece ..)
  · exact h

/-! ### Pieces written (R174, R175, R177) -/

theorem canon_putPiece (h : Canon s) {t n pc hbm addr data s' w} (hp : putPiece s t n pc hbm addr data = .written s' w) :
    Canon s' := by
  unfold putPiece at hp
  dsimp only at hp
  repeat' split at hp
  all_goals cases hp
  · simpa using h
  · exact canon_engineWrite h

@[simp] theorem mems_outDone (t n k) : mems (outDone s t n k) = mems s := by simp [outDone]
@[simp] theorem mems_refuseOut (t n k addr) : mems (refuseOut s t n k addr) = mems s := by
  unfold refuseOut; split <;> simp
@[simp] theorem mems_outGone (t n k whole) : mems (outGone s t n k whole) = mems s := by
  unfold outGone; split <;> simp

theorem canon_execStreamOutPiecePerformed (h : Canon s) : OutAll Canon (execStreamOutPiecePerformed s) := by
  unfold execStreamOutPiecePerformed
  split
  · split
    · exact h
    · split
      · exact h
      · split
        · next hp => simpa using canon_putPiece h hp
        · simpa using h
        · simpa using h
  · exact h

/-! ### Counters (R178, R179) -/

@[simp] theorem mems_execCntSet (p k m a) : OutAll (Same s) (execCntSet p k m a s) :=
  mems_issue (by simp)
@[simp] theorem mems_execCntAdd (p k m a) : OutAll (Same s) (execCntAdd p k m a s) :=
  mems_issue (by simp)
@[simp] theorem mems_execCntRd (p k d) : OutAll (Same s) (execCntRd p k d s) :=
  mems_issue (by simp)

/-! ### Strand images (R94, R176) -/

theorem canon_writeImages (h : Canon s) {t} : Canon (writeImages s t) := by
  refine canon_foldl h fun s' n hs => ?_
  dsimp only
  split
  · exact canon_modTile (by simpa using hs) t fun hT => by simp only [wf_store hT]
  · exact hs

@[simp] theorem mems_loadImages (t nb) : mems (loadImages s t nb) = mems s := by simp [loadImages]

/-! ### Images in the save area (R221, R257) -/

theorem canon_putImage (h : Canon s) {ctx va v m from_} : Canon (putImage s ctx va v m from_) :=
  canon_writeHbm (canon_writeHbm h)
theorem canon_takeImages (h : Canon s) {t} : Canon (takeImages s t) := by simpa [takeImages] using canon_writeImages h

theorem canon_getImage (h : Canon s) {ctx va t v from_} : Canon (getImage s ctx va t v from_) := by
  unfold getImage
  exact canon_storeTile h t rfl

/-! ### Trap records on their way (R352, R353) -/

@[simp] theorem mems_deliver (u) : mems (deliver s u) = mems s := by simp [deliver]

@[simp] theorem mems_unitTakes (die row r) : mems (unitTakes s die row r) = mems s := by
  unfold unitTakes
  dsimp only
  repeat' split
  all_goals simp

@[simp] theorem mems_execTrapRecordArrival : OutAll (Same s) (execTrapRecordArrival s) := by
  unfold execTrapRecordArrival
  dsimp only
  repeat' split
  all_goals simp

@[simp] theorem mems_execRowCollectorForward : OutAll (Same s) (execRowCollectorForward s) := by
  unfold execRowCollectorForward
  repeat' split
  all_goals simp

@[simp] theorem mems_execTrapUnitDeliver : OutAll (Same s) (execTrapUnitDeliver s) := by
  unfold execTrapUnitDeliver
  repeat' split
  all_goals simp

@[simp] theorem mems_flushGroup (g) : mems (flushGroup s g) = mems s := by simp [flushGroup]

/-! ### The background read (R354) -/

@[simp] theorem mems_execBackgroundScrubRead : OutAll (Same s) (execBackgroundScrubRead s) := by
  unfold execBackgroundScrubRead
  split
  · next t _ =>
    dsimp only
    split
    · simp
    · refine (mems_foldl fun s g => mems_eccSlot ..).trans (mems_foldl fun s e => ?_)
      split
      · split
        · simp
        · rfl
      · rfl
  · simp

/-! ### The copy channel of a tile (R180 to R186), stride gathers (R189, R190), the sluice crossbar (R187, R188), and acknowledgements (R85, R183, R196) -/

@[simp] theorem mems_modChan (t f) : mems (modChan s t f) = mems s := by simp [modChan]
@[simp] theorem mems_modCmd (t q f) : mems (modCmd s t q f) = mems s := by simp [modCmd]
@[simp] theorem mems_dropCmd (t q) : mems (dropCmd s t q) = mems s := by simp [dropCmd]

/-! ### Issue (R180, R181, R184, R185) -/

theorem engPlace_all {q} (t ea len) : OkOr (ActAll q) (fun _ => True) (engPlace s t ea len) := by
  unfold engPlace
  dsimp only
  repeat' split
  all_goals trivial

theorem cpyTrap_all {q t d sp dst src len a} (ha : cpyTrap s t d sp dst src len = some a) : ActAll q a := by
  have place (c : Prop) [Decidable c] (ea n) : OkOr (ActAll q) (fun _ => True) (if c then engPlace s t ea n else .ok (t, 0)) := by
    simp [engPlace_all]
  unfold cpyTrap at ha
  dsimp only at ha
  repeat' split at ha
  · cases ha; trivial
  · cases ha; trivial
  · cases ha; trivial
  · cases ha; exact OkOr.of_error (place (d = 0) dst len.toNat) ‹_›
  · cases ha; exact OkOr.of_error (place (sp = 0) src len.toNat) ‹_›
  · cases ha; trivial
  · cases ha; trivial
  · cases ha

@[simp] theorem mems_pushCmd (t n c) : ActAll (Same s) (pushCmd s t n c) := by simp [pushCmd]

@[simp] theorem mems_execCpy (p fn fl ct a b c crc gate) : OutAll (Same s) (execCpy p fn fl ct a b c crc gate s) := by
  refine mems_issue ?_
  dsimp only
  split
  · trivial
  · split
    · next he => exact cpyTrap_all he
    · simp

@[simp] theorem mems_execCpym (p fn fl ct a b c ty x k gate) :
    OutAll (Same s) (execCpym p fn fl ct a b c ty x k gate s) := by
  refine mems_issue ?_
  dsimp only
  split
  · trivial
  · split
    · next he => exact cpyTrap_all he
    · simp

/-! ### Status (R186) -/

@[simp] theorem mems_execEngSt (p d) : OutAll (Same s) (execEngSt p d s) :=
  mems_issue (by simp)
@[simp] theorem mems_execEngFlt (p d) : OutAll (Same s) (execEngFlt p d s) :=
  mems_issue (by simp)
@[simp] theorem mems_execEngCrc (p d) : OutAll (Same s) (execEngCrc p d s) :=
  mems_issue (by simp)
@[simp] theorem mems_execEngQ (p) : OutAll (Same s) (execEngQ p s) :=
  mems_issue (by simp)

/-! ### Sluice terms (R187, R188) -/

@[simp] theorem mems_setTerm (t k w) : mems (setTerm s t k w) = mems s := by simp [setTerm]
@[simp] theorem mems_execSxwSet (p k a) : OutAll (Same s) (execSxwSet p k a s) :=
  mems_issue (by simp)
@[simp] theorem mems_execSxwClr (p k) : OutAll (Same s) (execSxwClr p k s) :=
  mems_issue (by simp)
@[simp] theorem mems_execSxwRd (p k d) : OutAll (Same s) (execSxwRd p k d s) :=
  mems_issue (by simp)

@[simp] theorem mems_execSluiceTermFire : OutAll (Same s) (execSluiceTermFire s) := by
  unfold execSluiceTermFire
  dsimp only
  repeat' split
  all_goals simp

/-! ### Stride gathers (R189, R190) -/

@[simp] theorem mems_execSgtSet (p e desc) : OutAll (Same s) (execSgtSet p e desc s) := by
  refine mems_issue ?_; split <;> simp
@[simp] theorem mems_execSgtRd (p e d) : OutAll (Same s) (execSgtRd p e d s) := by
  refine mems_issue ?_; split <;> simp
@[simp] theorem mems_execSgtFlt (p k d) : OutAll (Same s) (execSgtFlt p k d s) :=
  mems_issue (by simp)

@[simp] theorem mems_execSgtGo (p e dst ct a b c) : OutAll (Same s) (execSgtGo p e dst ct a b c s) := by
  refine mems_issue ?_
  dsimp only
  split
  · trivial
  · split
    · trivial
    · split
      · trivial
      · split
        · trivial
        · generalize hx : (if dst = 0 then _ else _ : Except Act (TileId × Nat)) = x
          have hall : OkOr (ActAll (Same s)) (fun _ => True) x := by
            subst hx
            split
            · exact engPlace_all ..
            · trivial
          cases x with
          | error a => exact hall
          | ok o =>
            simp only [actAll_ite, actAll_trap, mems_pushCmd, ite_self]

/-! ### Commands run (R182, R183) -/

@[simp] theorem mems_endCmd (t c code kind info) : mems (endCmd s t c code kind info) = mems s := by simp [endCmd]

@[simp] theorem mems_execCopyAccessRefused : OutAll (Same s) (execCopyAccessRefused s) := by
  unfold execCopyAccessRefused
  repeat' split
  all_goals simp

@[simp] theorem mems_execGatherRefused : OutAll (Same s) (execGatherRefused s) := by
  unfold execGatherRefused
  dsimp only
  repeat' split
  all_goals simp

@[simp] theorem mems_execCopyCmdStart : OutAll (Same s) (execCopyCmdStart s) := by
  unfold execCopyCmdStart
  dsimp only
  repeat' split
  all_goals simp

@[simp] theorem mems_parkCmd (t va write) : mems (parkCmd s t va write) = mems s := by simp [parkCmd]

theorem canon_chanHbm (h : Canon s) {t va n} : OkOr Canon (fun r => Canon r.1) (chanHbm s t va n) := by
  unfold chanHbm
  dsimp only
  split
  · exact canon_touchPages h
  · simpa using h
  · exact h
  · simpa using h

theorem mems_chanLocal (t c ea n) : OkOr (Same s) (fun r => mems r.1 = mems s) (chanLocal s t c ea n) := by
  have hr (u) := mems_localRead (s := s) u c.strand.val (ea.toNat % 2 ^ 21) n
  unfold chanLocal
  dsimp only
  cases ownName t ea
  all_goals
    dsimp only
    split
    · rfl
    · split
      · next he => exact (hr _).of_ok he
      · next s' he => simpa using ((hr _).of_error he : mems s' = mems s)
      · simp
      · rfl

@[simp] theorem mems_chanGlobal (t ea n) : OkOr (Same s) (fun r => mems r.1 = mems s) (chanGlobal s t ea n) := by
  unfold chanGlobal
  dsimp only
  repeat' split
  all_goals simp

theorem canon_chanGather (h : Canon s) {t c d ofs n} : OkOr Canon (fun r => Canon r.1) (chanGather s t c d ofs n) := by
  refine okOr_foldl (r := .ok (s, [])) h fun r i hr => ?_
  match r, hr with
  | .error e, hr => exact hr
  | .ok (s', bs), hr =>
    have hr : Canon s' := hr
    dsimp only
    split
    · next he => exact OkOr.of_error (canon_chanHbm hr) he
    · next x he => exact OkOr.of_ok (a := x) (canon_chanHbm hr) he

theorem canon_chanRead (h : Canon s) {t c ofs n} : OkOr Canon (fun r => Canon r.1) (chanRead s t c ofs n) := by
  unfold chanRead
  split
  · exact canon_chanGather h
  · split
    · exact h
    · refine okOr_foldl (r := .ok (s, [])) h fun r p hr => ?_
      match r, hr with
      | .error e, hr => exact hr
      | .ok (s', bs), hr =>
        have hr : Canon s' := hr
        have part : OkOr Canon (fun r => Canon r.1) (if c.ssp = 0 then chanLocal s' t c p.1 p.2
            else if c.ssp = 1 then chanGlobal s' t p.1 p.2 else chanHbm s' t p.1 p.2) := by
          split
          · exact (mems_chanLocal ..).mono (fun _ => canon_of_same hr) fun _ => canon_of_same hr
          · split
            · exact (mems_chanGlobal ..).mono (fun _ => canon_of_same hr) fun _ => canon_of_same hr
            · exact canon_chanHbm hr
        dsimp only
        split
        · next he => exact OkOr.of_error part he
        · next x he => exact OkOr.of_ok (a := x) part he

theorem canon_chanWrite (h : Canon s) {t c ofs bs} : OkOr Canon Canon (chanWrite s t c ofs bs) := by
  have hw (u o) := canon_engineWrite h (t := u) (w := .engine c.strand (posOf t)) (k := .plain) (ofs := o) (data := bs)
  unfold chanWrite
  dsimp only
  cases ownName t (c.dst + BitVec.ofNat 64 ofs)
  all_goals
    dsimp only
    split
    · repeat' split
      · exact h
      · simpa using h
      · exact hw ..
      · simpa using hw ..
    · repeat' split
      all_goals simpa using h

theorem canon_chanMove (h : Canon s) {t} : OkOr Canon Canon (chanMove s t) := by
  unfold chanMove
  split
  · exact h
  · split
    · exact h
    · dsimp only
      split
      · next he => exact OkOr.of_error (canon_chanRead h) he
      · next he =>
        have h1 := (canon_chanRead h).of_ok he
        split
        · next he => exact OkOr.of_error (canon_chanWrite h1) he
        · next he => simpa using (canon_chanWrite h1).of_ok he

@[simp] theorem mems_finishCmd (t c) : mems (finishCmd s t c) = mems s := by simp [finishCmd]

theorem canon_execCopyCmdPerformed (h : Canon s) : OutAll Canon (execCopyCmdPerformed s) := by
  unfold execCopyCmdPerformed
  split
  · next t _ =>
    split
    · split
      · exact h
      · extract_lets bad r s1
        have hr : OkOr Canon Canon r := okOr_foldl (r := .ok s) h fun r _ hr => by
          cases r with
          | error s' => exact hr
          | ok s' => exact canon_chanMove hr
        clear_value r
        have h1 : Canon s1 := by
          cases r with
          | error s' => exact hr
          | ok s' => exact hr
        split
        · simpa using h
        · split
          · split
            · simpa using h1
            · exact h1
          · exact h1
    · exact h
  · exact h

@[simp] theorem mems_execCpymFollowon : OutAll (Same s) (execCpymFollowon s) := by
  unfold execCpymFollowon
  repeat' split
  all_goals simp

/-! ### Acknowledgements (R85, R183, R196, R197, R203) -/

@[simp] theorem mems_engineAck (o a info) : mems (engineAck s o a info) = mems s := by
  unfold engineAck
  dsimp only
  repeat' split
  all_goals simp

@[simp] theorem mems_execAckArrival : OutAll (Same s) (execAckArrival s) := by
  unfold execAckArrival
  dsimp only
  repeat' split
  all_goals simp

/-! ### FIFO units -/

@[simp] theorem mems_execFifoUnitComplete : OutAll (Same s) (execFifoUnitComplete s) := by
  unfold execFifoUnitComplete
  dsimp only
  repeat' split
  all_goals simp

/-! ### The array (R133 to R138) -/

@[simp] theorem mems_popArr (t) : mems (popArr s t) = mems s := by simp [popArr]
@[simp] theorem mems_flyArr (t f hold) : mems (flyArr s t f hold) = mems s := by simp [flyArr]
@[simp] theorem mems_freeUnits (t) : mems (freeUnits s t) = mems s := by simp [freeUnits]

theorem mems_takeUnits {t s' u v} (ht : takeUnits s t = some (s', u, v)) : mems s' = mems s := by
  unfold takeUnits at ht
  dsimp only at ht
  split at ht
  · cases ht; simp
  · cases ht

@[simp] theorem mems_arrCheck (t n differs) : mems (arrCheck s t n differs).1 = mems s := by simp [arrCheck]

@[simp] theorem mems_smplBegin (t ty x n st) : mems (smplBegin s t ty x n st) = mems s := by
  unfold smplBegin
  split
  · rfl
  · next ht => simpa using mems_takeUnits ht

@[simp] theorem mems_startArr (t c) : mems (startArr s t c) = mems s := by
  unfold startArr
  dsimp only
  split
  · split
    · rfl
    · next ht => simpa using mems_takeUnits ht
  · simp
  · simp
  · next a _ =>
    have hr := mems_localRead (s := s) t c.strand a 4096
    split
    · next r he => simpa using (hr.of_ok he : mems r.1 = mems s)
    · next s' he => simpa using (hr.of_error he : mems s' = mems s)
    · simp
    · rfl
  · split
    · rfl
    · next ht => simpa using mems_takeUnits ht
  · simp
  · simp
  · simp

@[simp] theorem mems_execArrayOpStart : OutAll (Same s) (execArrayOpStart s) := by
  unfold execArrayOpStart
  repeat' split
  all_goals simp

@[simp] theorem mems_writePt (t q n v) : mems (writePt s t q n v) = mems s := by simp [writePt]
@[simp] theorem mems_serveGets (t) : mems (serveGets s t) = mems s := by simp [serveGets]

theorem canon_storePt (h : Canon s) {t n a v} : Canon (storePt s t n a v) := by
  unfold storePt
  split
  · exact canon_engineWrite h
  · refine canon_foldl h fun s' e hs => ?_
    split
    · exact canon_engineWrite hs
    · exact hs

theorem canon_execPartialTileWritten (h : Canon s) : OutAll Canon (execPartialTileWritten s) := by
  unfold execPartialTileWritten
  split
  · next t _ =>
    split
    · exact h
    · next f r _ =>
      split
      · exact h
      · split
        · next a _ _ =>
          extract_lets q
          have hq : mems q.1 = mems s := mems_foldl_fst (r := (s, true)) fun r o => by simp
          split
          · exact canon_of_same h hq
          · exact canon_foldl (canon_of_same h (by simpa using hq)) fun s o hs => canon_storePt hs
        · extract_lets s1 s2 s3
          have h3 : mems s3 = mems s := by simp [s3, s2, s1]
          split
          · simpa [h3] using h
          · simpa [h3] using h
  · exact h

/-! ### The adder (R127, R142 to R146) -/

@[simp] theorem mems_noteReady (t) : mems (noteReady s t) = mems s := by simp [noteReady]

@[simp] theorem mems_execAdderCmdStart : OutAll (Same s) (execAdderCmdStart s) := by
  unfold execAdderCmdStart
  dsimp only
  repeat' split
  all_goals simp

theorem canon_laChange (h : Canon s) {t w k a f} : Canon (laChange s t w k a f).1 := by
  have hr : Canon (eccRead s t false a 64).1 := by simpa using h
  unfold laChange
  dsimp only
  split
  · exact hr
  · exact canon_engineWrite hr

theorem canon_addAll (h : Canon s) {t w ea xs} : Canon (addAll s t w ea xs) :=
  canon_foldl h fun _ _ hs => canon_laChange hs

theorem canon_lardRun (h : Canon s) {t n ead ea sig rm z} : Canon (lardRun s t n ead ea sig rm z) := by
  refine canon_foldl h fun s' e hs => ?_
  have hr := mems_localRead (s := s') t n (ea + 64 * e) 64
  split
  · simpa using hs
  · next he => exact canon_of_same hs (hr.of_error he)
  · exact hs
  · next r he =>
    have h1 : Canon r.1 := canon_of_same hs (hr.of_ok he)
    dsimp only
    split
    · exact canon_engineWrite (canon_engineWrite h1)
    · exact canon_engineWrite h1

theorem canon_addRun (h : Canon s) {t c} : Canon (addRun s t c) := by
  unfold addRun
  dsimp only
  split
  · exact canon_engineWrite h
  · exact canon_lardRun h
  · exact canon_addAll h

@[simp] theorem mems_addsCheck (t ea xs) : mems (addsCheck s t ea xs).1 = mems s := by simp [addsCheck]
@[simp] theorem mems_addCheck (t c) : mems (addCheck s t c).1 = mems s := by simp [addCheck]

@[simp] theorem mems_addReads (t c) : mems (addReads s t c).1 = mems s := by
  unfold addReads
  split
  · rfl
  · split
    · simp
    · next ead ea _ _ z _ =>
      dsimp only
      generalize hq : wordsRead s t _ = q
      have hs : mems q.1 = mems s := by rw [← hq]; simp
      have hr := mems_localRead (s := q.1) t c.strand ea 65536
      split
      · next he => exact (hr.of_ok he).trans hs
      · next he => exact (Eq.trans (hr.of_error he) hs)
      · exact hs
    · simp

theorem canon_execAdderCmdPerformed (h : Canon s) : OutAll Canon (execAdderCmdPerformed s) := by
  unfold execAdderCmdPerformed
  split
  · next t _ =>
    dsimp only
    split
    · exact h
    · next c r _ =>
      have he : Canon (addReads s t c).1 := by simpa using h
      have hq : Canon (addCheck (addReads s t c).1 t c).1 := by simpa using h
      split
      · split
        · exact he
        · have hr := canon_addRun hq (t := t) (c := c)
          split
          · simpa using hr
          · simpa using hr
      · exact h
  · exact h

/-! ### Drains (R148) -/

@[simp] theorem mems_modDrain (t q f) : mems (modDrain s t q f) = mems s := by simp [modDrain]

@[simp] theorem mems_execDrainStart : OutAll (Same s) (execDrainStart s) := by
  unfold execDrainStart
  repeat' split
  all_goals simp

theorem canon_drainElem (h : Canon s) {t d} : Canon (drainElem s t d) := by
  have hr := mems_localRead (s := s) t d.strand (d.ea + 64 * d.elem) 64
  unfold drainElem
  dsimp only
  split
  · simpa using h
  · next he => exact canon_of_same h (hr.of_error he)
  · exact h
  · next r he =>
    have h1 : Canon r.1 := canon_of_same h (hr.of_ok he)
    split
    · exact canon_engineWrite (by simpa using h1)
    · simpa using h1

theorem canon_drainTick (h : Canon s) {t} : Canon (drainTick s t) := by
  refine canon_foldl h fun s' d hs => ?_
  simpa using canon_drainElem hs

@[simp] theorem mems_execDrainSourceReadDone : OutAll (Same s) (execDrainSourceReadDone s) := by
  unfold execDrainSourceReadDone
  repeat' split
  all_goals simp

@[simp] theorem mems_dropDrains (t) : mems (dropDrains s t) = mems s := by simp [dropDrains]

/-! ### Alias tables (R160) -/

@[simp] theorem mems_execAtbBuildStart : OutAll (Same s) (execAtbBuildStart s) := by
  unfold execAtbBuildStart
  dsimp only
  repeat' split
  all_goals simp

@[simp] theorem mems_serveDraws (t) : mems (serveDraws s t) = mems s := by simp [serveDraws]

theorem canon_execAtbDone (h : Canon s) : OutAll Canon (execAtbDone s) := by
  unfold execAtbDone
  split
  · next t _ =>
    split
    · next a r _ =>
      split
      · exact h
      · next bs _ =>
        extract_lets q w s1
        have hq : Canon q.1 := by simpa [q] using h
        have hw : Canon w.1 := canon_engineWrite hq
        have h1 : Canon s1 := by simpa [s1] using hw
        split
        · exact h
        · split
          · simpa using hq
          · split
            · simpa using h1
            · simpa using h1
    · exact h
  · exact h

/-! ### Sampled commands (R161, R162, R166) -/

@[simp] theorem mems_handIdx (t idx) : mems (handIdx s t idx) = mems s := by simp [handIdx]

theorem mems_drawFor (t c key ctr tab) {bad : State → State} (hb : ∀ s, mems (bad s) = mems s) :
    mems (drawFor s t c key ctr tab bad) = mems s := by
  have hd := mems_draws (s := s) t c.strand tab key ctr
  unfold drawFor
  split
  · next s' he => simpa using (hd.of_error he : mems s' = mems s)
  · simp
  · rfl
  · next s' he => simpa [hb] using (hd.of_ok he : mems s' = mems s)
  · next s' _ he => simpa using (hd.of_ok he : mems s' = mems s)

@[simp] theorem mems_execSmpAtHead : OutAll (Same s) (execSmpAtHead s) := by
  unfold execSmpAtHead
  split
  · next t _ =>
    extract_lets T first s1 run s2 st
    split
    · rfl
    · next c _ _ =>
      split
      · rfl
      · split
        · exact mems_drawFor _ _ _ _ _ fun s => by simp
        · have h2 : mems s2 = mems s := by simp [s2]
          split
          · simp [s1]
          · split
            · simp [s2]
            · exact (mems_drawFor _ _ _ _ _ fun s => by simp).trans h2
        · rfl
  · rfl

@[simp] theorem mems_undoAhead (t run) : mems (undoAhead s t run) = mems s := by
  unfold undoAhead; split <;> simp
@[simp] theorem mems_exhaustSlab (t fb) : mems (exhaustSlab s t fb) = mems s := by simp [exhaustSlab]

@[simp] theorem mems_keepAhead (t c run) : mems (keepAhead s t c run) = mems s := by
  unfold keepAhead
  split
  · next key ctr _ r _ _ _ =>
    have hd := mems_draws (s := s) t c.strand r.tab.toNat key (ctr + BitVec.ofNat 128 (4 * (run.batch + 1)))
    dsimp only
    split
    all_goals
      simp
      split
      · next he => exact hd.of_ok he
      · rfl
  · rfl

theorem canon_execSmplBatchDecision (h : Canon s) : OutAll Canon (execSmplBatchDecision s) := by
  unfold execSmplBatchDecision
  split
  · next t _ =>
    extract_lets T q
    split
    · next c _ run _ _ =>
      split
      · next r _ =>
        extract_lets xs e s1 k s2 s3 m stops fin m2 s4
        have he : Canon e.1 := by simpa [e, q] using h
        have h1 : Canon s1 := by
          dsimp only [s1]
          split
          · simpa using he
          · exact he
        clear_value s1
        have h2 : Canon s2 := canon_addAll (by simpa [k] using h1)
        have h3 : Canon s3 := by
          dsimp only [s3]
          split
          · exact h2
          · simpa using h2
        have h4 : Canon s4 := by simpa [s4] using h3
        split
        · exact h
        · split
          · simpa using he
          · split
            · simpa using h4
            · simpa using h4
      · exact h
    · exact h
  · exact h

@[simp] theorem mems_execSmplDone : OutAll (Same s) (execSmplDone s) := by
  unfold execSmplDone
  dsimp only
  repeat' split
  all_goals simp

/-! ### The group's tiles -/

@[simp] theorem mems_sendAbort (g die row col m) : mems (sendAbort s g die row col m) = mems s := by simp [sendAbort]

/-! ### Messages (R265) -/

@[simp] theorem mems_sendArrive (t g) : mems (sendArrive s t g) = mems s := by
  unfold sendArrive
  dsimp only
  repeat' split
  all_goals simp

@[simp] theorem mems_dmrMismatch (t u g) : mems (dmrMismatch s t u g) = mems s := by simp [dmrMismatch]

@[simp] theorem mems_execArriveSend : OutAll (Same s) (execArriveSend s) := by
  unfold execArriveSend
  repeat' split
  all_goals simp

/-! ### The tree (R265, R267) -/

@[simp] theorem mems_nodeSends (g die row col m) : mems (nodeSends s g die row col m) = mems s := by simp [nodeSends]
@[simp] theorem mems_nodeTakes (g node die row col m) : mems (nodeTakes s g node die row col m) = mems s := by
  unfold nodeTakes; dsimp only; split <;> simp

@[simp] theorem mems_execBarrierNodeArrive : OutAll (Same s) (execBarrierNodeArrive s) := by
  unfold execBarrierNodeArrive
  repeat' split
  all_goals simp

/-! ### The decision point (R273 to R276) -/

@[simp] theorem mems_decisionSends (g r) : mems (decisionSends s g r) = mems s := by simp [decisionSends]
@[simp] theorem mems_decisionRecord (g cause) : mems (decisionRecord s g cause) = mems s := by simp [decisionRecord]
@[simp] theorem mems_decideAbort (g cause who d) : mems (decideAbort s g cause who d) = mems s := by simp [decideAbort]

@[simp] theorem mems_fixPlan (gid) : mems (fixPlan s gid) = mems s := by
  unfold fixPlan
  dsimp only
  repeat' split
  all_goals simp

@[simp] theorem mems_decideCommit (g c) : mems (decideCommit s g c) = mems s := by simp [decideCommit]

@[simp] theorem mems_takeArrive (g m) : mems (takeArrive s g m) = mems s := by
  unfold takeArrive
  dsimp only
  repeat' split
  all_goals simp

@[simp] theorem mems_execArriveAtDecision : OutAll (Same s) (execArriveAtDecision s) := by
  unfold execArriveAtDecision
  repeat' split
  all_goals simp

@[simp] theorem mems_execAbortAtDecision : OutAll (Same s) (execAbortAtDecision s) := by
  unfold execAbortAtDecision
  repeat' split
  all_goals simp

@[simp] theorem mems_execBarrierTimeout : OutAll (Same s) (execBarrierTimeout s) := by
  unfold execBarrierTimeout
  repeat' split
  all_goals simp

@[simp] theorem mems_tickTimer (g) : mems (tickTimer s g) = mems s := by simp [tickTimer]
@[simp] theorem mems_tickGroup (g) : mems (tickGroup s g) = mems s := by simp [tickGroup]

/-! ### PARK (R272) -/

@[simp] theorem mems_sendPark (t on) : mems (sendPark s t on) = mems s := by
  unfold sendPark; dsimp only; split <;> simp
@[simp] theorem mems_execParkAssert : OutAll (Same s) (execParkAssert s) := by
  unfold execParkAssert; split <;> simp
@[simp] theorem mems_execParkWithdraw : OutAll (Same s) (execParkWithdraw s) := by
  unfold execParkWithdraw; split <;> simp

/-! ### Votes (R271, R350, R351) -/

@[simp] theorem mems_sendVotes (t) : mems (sendVotes s t) = mems s := by
  unfold sendVotes
  dsimp only
  repeat' split
  all_goals simp

/-! ### The barrier forms (R282 to R287) -/

theorem mems_arriveForm (t b opnd) {k : State → Act} (hk : ∀ s', mems s' = mems s → ActAll (Same s) (k s')) :
    ActAll (Same s) (arriveForm s t b opnd k) := by
  unfold arriveForm
  split
  · trivial
  · exact hk _ (mems_modV ..)

@[simp] theorem mems_execBar (p b) : OutAll (Same s) (execBar p b s) := mems_issue (mems_arriveForm _ _ _ fun _ e => e)
@[simp] theorem mems_execBarv (p b d a) : OutAll (Same s) (execBarv p b d a s) := mems_issue (mems_arriveForm _ _ _ fun _ e => e)
@[simp] theorem mems_execBara (p b a) : OutAll (Same s) (execBara p b a s) := mems_issue (mems_arriveForm _ _ _ fun _ e => e)
@[simp] theorem mems_execBaraN (p b) : OutAll (Same s) (execBaraN p b s) := mems_issue (mems_arriveForm _ _ _ fun _ e => e)
@[simp] theorem mems_execWaitb (p b d) : OutAll (Same s) (execWaitb p b d s) :=
  mems_issue (by simp)
@[simp] theorem mems_execVabort (p u) : OutAll (Same s) (execVabort p u s) :=
  mems_issue (by simp)

@[simp] theorem mems_execBcfg (p b a op) : OutAll (Same s) (execBcfg p b a op s) := by
  refine mems_issue ?_
  dsimp only
  repeat' split
  all_goals simp

@[simp] theorem mems_execBcfgControlArrival : OutAll (Same s) (execBcfgControlArrival s) := by
  unfold execBcfgControlArrival
  dsimp only
  repeat' split
  all_goals simp

@[simp] theorem mems_execBred (p b d) : OutAll (Same s) (execBred p b d s) :=
  mems_issue (by simp)
@[simp] theorem mems_execBredCfg (p b d) : OutAll (Same s) (execBredCfg p b d s) :=
  mems_issue (by simp)
@[simp] theorem mems_execBredSt (p d) : OutAll (Same s) (execBredSt p d s) :=
  mems_issue (by simp)

@[simp] theorem mems_execGlchk (p d) : OutAll (Same s) (execGlchk p d s) := by
  refine mems_issue ?_
  dsimp only
  repeat' split
  all_goals simp

@[simp] theorem mems_execGlchkReply : OutAll (Same s) (execGlchkReply s) := by
  unfold execGlchkReply
  repeat' split
  all_goals simp

/-! ### Requests to the dispatcher (R240) -/

@[simp] theorem mems_ask (t n d q) : mems (ask s t n d q) = mems s := by
  unfold ask; dsimp only; split <;> simp

/-! ### Launch messages (R232, Table 12.2) -/

@[simp] theorem mems_appendMsg (ctx q m) : mems (appendMsg s ctx q m) = mems s := by simp [appendMsg]
@[simp] theorem mems_enterReservation (ctx q m) : mems (enterReservation s ctx q m) = mems s := by simp [enterReservation]
@[simp] theorem mems_dropReservation (ctx q) : mems (dropReservation s ctx q) = mems s := by simp [dropReservation]

@[simp] theorem mems_execLaunchMessageOffer : OutAll (Same s) (execLaunchMessageOffer s) := by
  unfold execLaunchMessageOffer
  dsimp only
  repeat' split
  all_goals simp

/-! ### Completion (R233, R234) -/

@[simp] theorem mems_notify (ctx r rcd) : mems (notify s ctx r rcd) = mems s := by simp [notify]
@[simp] theorem mems_completeObj (ctx o st) : mems (completeObj s ctx o st) = mems s := by
  unfold completeObj; dsimp only; split <;> simp
@[simp] theorem mems_settleObj (ctx o) : mems (settleObj s ctx o) = mems s := by
  unfold settleObj; dsimp only; split <;> simp
@[simp] theorem mems_settleUp (ctx o) : mems (settleUp s ctx o) = mems s := by simp [settleUp]
@[simp] theorem mems_settlePool (ctx) : mems (settlePool s ctx) = mems s := by simp [settlePool]
@[simp] theorem mems_settleJob (ctx o) : mems (settleJob s ctx o) = mems s := by simp [settleJob]
@[simp] theorem mems_settleAll (ctx o) : mems (settleAll s ctx o) = mems s := by simp [settleAll]
@[simp] theorem mems_execNodeCompletion : OutAll (Same s) (execNodeCompletion s) := by
  unfold execNodeCompletion; split <;> simp

/-! ### Intake (R231) -/

@[simp] theorem mems_takeLaunch (ctx q m) : mems (takeLaunch s ctx q m) = mems s := by simp [takeLaunch]

@[simp] theorem mems_execPoolIntake : OutAll (Same s) (execPoolIntake s) := by
  unfold execPoolIntake
  dsimp only
  repeat' split
  all_goals simp

/-! ### The power of clusters (R78, R238, R362) -/

theorem canon_clearPools (h : Canon s) {c} : Canon (clearPools s c) :=
  canon_foldl h fun _ _ hs => canon_modTile hs _ fun _ => wf_nil

theorem canon_execClusterWake (h : Canon s) : OutAll Canon (execClusterWake s) := by
  unfold execClusterWake
  split
  · split
    · simpa using canon_clearPools h
    · simpa using h
    · exact h
    · exact h
  · exact h

@[simp] theorem mems_execClusterUsable : OutAll (Same s) (execClusterUsable s) := by
  unfold execClusterUsable
  dsimp only
  repeat' split
  all_goals simp

@[simp] theorem mems_execClusterRetain : OutAll (Same s) (execClusterRetain s) := by
  unfold execClusterRetain
  dsimp only
  repeat' split
  all_goals simp

theorem canon_execClusterGate (h : Canon s) : OutAll Canon (execClusterGate s) := by
  unfold execClusterGate
  split
  · split
    · simpa using canon_clearPools h
    · exact h
  · exact h

theorem canon_execTestStart (h : Canon s) : OutAll Canon (execTestStart s) := by
  unfold execTestStart
  split
  · dsimp only
    split
    · simpa using h
    · split
      · simpa using canon_clearPools h
      · exact h
  · exact h

theorem canon_execTestDone (h : Canon s) : OutAll Canon (execTestDone s) := by
  unfold execTestDone
  split
  · split
    · exact h
    · have hf : Canon s.freshNat.2 := by simpa using h
      simpa using canon_clearPools hf
  · exact h

@[simp] theorem mems_tickCluster (c) : mems (tickCluster s c) = mems s := by simp [tickCluster]

/-! ### Admission (R236) -/

@[simp] theorem mems_admitNode (n p) : mems (admitNode s n p) = mems s := by
  unfold admitNode
  simp only [mems_post, mems_ite, ite_self]
  refine (mems_foldl fun s c => ?_).trans ?_
  · split <;> simp
  · simp

/-- The recursion is unfolded by hand: the function's own equations would have Lean search for a place for the node. -/
@[simp] theorem mems_admitFirst (past ns) : mems (admitFirst s past ns) = mems s := by
  delta admitFirst List.brecOn List.brecOn.go admitFirst._f
  induction ns generalizing past with
  | nil => rfl
  | cons n r ih =>
    dsimp only at ih ⊢
    split
    · simp [admitFirst.refuseNode]
    · split
      · split
        · simp [admitFirst.refuseNode]
        · simp
      · split
        · rfl
        · exact ih _

@[simp] theorem mems_admitDevice (ctx dev) : mems (admitDevice s ctx dev) = mems s := by simp [admitDevice]

@[simp] theorem mems_execAdmissionStep : OutAll (Same s) (execAdmissionStep s) := by
  unfold execAdmissionStep
  dsimp only
  repeat' split
  all_goals simp

/-! ### The queue forms (R240 to R243) -/

@[simp] theorem mems_hold (t hx) : mems (hold s t hx) = mems s := by simp [hold]

@[simp] theorem mems_execEnq (p q d a) : OutAll (Same s) (execEnq p q d a s) := by
  refine mems_issue ?_
  dsimp only
  split
  · trivial
  · split
    · trivial
    · split
      · next he => exact (ownPlace_all ..).of_error he
      · next pl _ =>
        have hr := mems_localRead (s := s) s.cur.1 s.cur.2.val pl.2 64
        split
        · next he => exact wErrAct_all (hr.of_error he)
        · next r he =>
          have hr : mems r.1 = mems s := hr.of_ok he
          split
          · simp [hr]
          · simp [hr]

@[simp] theorem mems_execCcnt (p lv d a b) : OutAll (Same s) (execCcnt p lv d a b s) :=
  mems_issue (by simp)
@[simp] theorem mems_execCcntQ (p q d) : OutAll (Same s) (execCcntQ p q d s) :=
  mems_issue (by simp)
@[simp] theorem mems_execCancel (p lv d a b) : OutAll (Same s) (execCancel p lv d a b s) :=
  mems_issue (by simp)
@[simp] theorem mems_execIdleRd (p d a) : OutAll (Same s) (execIdleRd p d a s) :=
  mems_issue (by simp)
@[simp] theorem mems_execIdleSet (p a) : OutAll (Same s) (execIdleSet p a s) :=
  mems_issue (by simp)

/-! ### Pages, frames, slots -/

@[simp] theorem mems_freeFrame (ctx frame) : mems (freeFrame s ctx frame) = mems s := by simp [freeFrame]
@[simp] theorem mems_freeSlotNo (ctx dev slot) : mems (freeSlotNo s ctx dev slot) = mems s := by simp [freeSlotNo]
@[simp] theorem mems_raiseAll (ctx cts) : mems (raiseAll s ctx cts) = mems s := by simp [raiseAll]
@[simp] theorem mems_dropXfer (ctx va) : mems (dropXfer s ctx va) = mems s := by simp [dropXfer]

/-! ### Parked accesses (R294) -/

@[simp] theorem mems_pageFault (a reason) : mems (pageFault s a reason) = mems s := by simp [pageFault]

@[simp] theorem mems_resumeAcc (a) : mems (resumeAcc s a) = mems s := by
  unfold resumeAcc
  dsimp only
  repeat' split
  all_goals simp

@[simp] theorem mems_resumeWhere (ctx p) : mems (resumeWhere s ctx p) = mems s := by simp [resumeWhere]
@[simp] theorem mems_resumePage (ctx va) : mems (resumePage s ctx va) = mems s := by simp [resumePage]
@[simp] theorem mems_resumeChanged {s' : State} (ctx) : mems (resumeChanged s s' ctx) = mems s' := by simp [resumeChanged]
@[simp] theorem mems_refuseDrain (w) : mems (refuseDrain s w) = mems s := by
  unfold refuseDrain; dsimp only; split <;> simp

@[simp] theorem mems_refuseAcc (a) : mems (refuseAcc s a) = mems s := by
  unfold refuseAcc
  dsimp only
  repeat' split
  all_goals simp

@[simp] theorem mems_parkAcc (a r) : mems (parkAcc s a r) = mems s := by
  unfold parkAcc; split <;> simp
@[simp] theorem mems_accessAway (a) : mems (accessAway s a) = mems s := by
  unfold accessAway; dsimp only; split <;> simp

theorem canon_execPageAccess (h : Canon s) : OutAll Canon (execPageAccess s) := by
  unfold execPageAccess
  split
  · split
    · simpa using canon_cancelOutbound h
    · simpa using h
    · simpa using h
    · simpa using h
    · simpa using h
  · exact h

@[simp] theorem mems_execFaultRefuse : OutAll (Same s) (execFaultRefuse s) := by
  unfold execFaultRefuse
  dsimp only
  repeat' split
  all_goals simp

/-! ### Transfers (R293, R302) -/

theorem canon_startIn (h : Canon s) {ctx va l dev cts s'} (hi : startIn s ctx va l dev cts = some s') : Canon s' := by
  unfold startIn at hi
  dsimp only at hi
  split at hi
  · cases hi
  · cases hi
    refine canon_of_same (canon_setLeaf (s := State.modCtx ..) ?_) (mems_post ..)
    simpa using h

theorem canon_pageOffl (h : Canon s) {ctx va cts} : Canon (pageOffl s ctx va cts).1 := by
  unfold pageOffl
  split
  · exact h
  · dsimp only
    repeat' split
    · exact h
    · exact h
    · exact h
    · exact h
    · refine canon_of_same (canon_setLeaf (s := State.modCtx ..) ?_) (mems_post ..)
      simpa using h
    · exact h
    · exact h

theorem canon_pageRetn (h : Canon s) {ctx dev va cts} : Canon (pageRetn s ctx dev va cts).1 := by
  unfold pageRetn
  repeat' split
  · exact h
  · exact h
  · simpa using canon_cancelOutbound h
  · next hi => exact canon_startIn h hi
  · exact h
  · exact h

@[simp] theorem mems_endAway (ctx f) : mems (endAway s ctx f) = mems s := by simp [endAway]

theorem canon_execOfflCopyDone (h : Canon s) : OutAll Canon (execOfflCopyDone s) := by
  unfold execOfflCopyDone
  split
  · split
    · simpa using h
    · split
      · extract_lets mode bs s1 s2
        have h1 : Canon s1 := canon_tier h (wf_store h.2.2 ..)
        have h2 : Canon s2 := canon_setLeaf h1
        split
        · exact h
        · simpa using h2
      · exact h
  · exact h

theorem canon_servePins (h : Canon s) {ctx va} : Canon (servePins s ctx va) := by
  unfold servePins
  dsimp only
  split
  · exact h
  · refine canon_of_same ?_ (mems_foldl fun _ _ => mems_post ..)
    split
    · exact canon_setLeaf (by simpa using h)
    · simpa using h

theorem canon_execRetnCopyDone (h : Canon s) : OutAll Canon (execRetnCopyDone s) := by
  unfold execRetnCopyDone
  split
  · split
    · simpa using h
    · split
      · extract_lets mode bs s1 s2 s3
        have h1 : Canon s1 := by
          dsimp only [s1]
          split
          · exact canon_frameStore h
          · exact h
        have h2 : Canon s2 := canon_setLeaf h1
        have h3 : Canon s3 := by simpa [s3] using h2
        split
        · exact h
        · simpa using canon_servePins (by simpa using h3)
      · exact h
  · exact h

/-! ### Table writes by the monitor (R288 to R290, R292) -/

/-- `frameDev` and `tableEntry` stand as variables in the proof (`id` keeps them so in its term): with their definitions in
view, the kernel would evaluate the matches on them, which count frames in unary. -/
theorem canon_execPageTableWrite (h : Canon s) : OutAll Canon (execPageTableWrite s) := by
  unfold execPageTableWrite
  generalize frameDev = fd, tableEntry = te
  revert fd te
  refine id fun fd te => ?_
  split
  · extract_lets x a put next s1
    have hput (frame k) : Canon (put frame k) := by
      dsimp only [put]
      split
      · exact canon_frameStore h
      · exact h
    have h1 : Canon s1 := by
      dsimp only [s1]
      split
      · exact hput ..
      · split
        · exact hput ..
        · exact h
      · split
        · split
          · exact hput ..
          · exact h
        · exact h
    exact canon_of_same h1 (mems_resumeChanged ..)
  · exact h

@[simp] theorem mems_execTableBaseWrite : OutAll (Same s) (execTableBaseWrite s) := by
  unfold execTableBaseWrite; split <;> simp
@[simp] theorem mems_execFreeListFill : OutAll (Same s) (execFreeListFill s) := by
  unfold execFreeListFill; split <;> simp

/-! ### The drain of write-backs and migration (R195, R293, R295, R296) -/

@[simp] theorem mems_drained (w) : mems (drained s w) = mems s := by simp [drained]
theorem canon_landWrite (h : Canon s) {w} : Canon (landWrite s w) :=
  canon_of_same (canon_writeHbm (canon_cancelOutbound h)) (mems_drained ..)

theorem canon_landForeign (h : Canon s) {w} : Canon (landForeign s w) := by
  have hc := canon_cancelOutbound h (ctx := w.ctx) (va := w.va)
  unfold landForeign
  dsimp only
  split
  · simpa using hc
  · repeat' split
    · exact canon_landWrite hc
    · exact canon_landWrite (canon_setLeaf hc)
    · exact canon_of_same (canon_setLeaf (canon_of_same hc (mems_freshNat ..))) ((mems_drained ..).trans (mems_freeFrame ..))
    · exact canon_landWrite (canon_of_same hc (by simp))

theorem canon_landAway (h : Canon s) {w l} : Canon (landAway s w l) := by
  unfold landAway
  dsimp only
  repeat' split
  · simpa using h
  · simpa using h
  · simpa using h
  · exact canon_of_same (canon_setLeaf (by simpa using h)) (mems_drained ..)
  · simpa using h
  · exact canon_landWrite (canon_setLeaf (canon_of_same (canon_frameStore (by simpa using h)) (mems_freshNat ..)))
  · exact canon_landWrite (canon_setLeaf (by simpa using h))

@[simp] theorem mems_parkDrain (w r) : mems (parkDrain s w r) = mems s := by simp [parkDrain]

theorem canon_execWritebackDrain (h : Canon s) : OutAll Canon (execWritebackDrain s) := by
  unfold execWritebackDrain
  repeat' split
  · exact h
  · simpa using h
  · simpa using h
  · simpa using h
  · simpa using h
  · exact canon_landAway h
  · simpa using h
  · simpa using h
  · exact canon_landForeign h
  · exact canon_landWrite h
  · exact h

/-! ### Imposition lists (R297, R298) -/

theorem canon_imposeList (h : Canon s) {ctx dev gid es} : Canon (imposeList s ctx dev gid es) := by
  have start {s : State} (h : Canon s) (va l) : Canon ((startIn s ctx va l dev []).getD s) := by
    cases hi : startIn s ctx va l dev [] with
    | none => exact h
    | some s' => exact canon_startIn h hi
  refine canon_foldl h fun s' e hs => ?_
  dsimp only
  split
  · exact hs
  · generalize hr : (if e.getLsbD 0 = true then _ else _) = r
    have hrc : Canon r := by
      rw [← hr]
      repeat' split
      · exact start hs ..
      · exact hs
      · exact hs
      · exact hs
    split
    · simpa using hrc
    · exact hrc

@[simp] theorem mems_execImp (p a) : OutAll (Same s) (execImp p a s) := by
  refine mems_issue ?_
  dsimp only
  split
  · trivial
  · split
    · trivial
    · split
      · next he => exact (ownPlace_all ..).of_error he
      · next pl _ =>
        have hr := mems_localRead (s := s) s.cur.1 s.cur.2.val pl.2 8
        split
        · next he => exact wErrAct_all (hr.of_error he)
        · next r he =>
          have h1 : mems r.1 = mems s := hr.of_ok he
          have hq := mems_localRead (s := r.1) s.cur.1 s.cur.2.val (pl.2 + 8) (8 * (natOf r.2 % 256))
          split
          · next he => exact (ownPlace_all ..).of_error he
          · split
            · next he => exact wErrAct_all ((hq.of_error he).trans h1)
            · next q he => simpa using (hq.of_ok he : mems q.1 = mems r.1).trans h1

/-! ### How far a checkpoint has come (R23, R299) -/

theorem canon_serveOffl (h : Canon s) {ctx} : Canon (serveOffl s ctx) := by
  unfold serveOffl
  dsimp only
  split
  · exact h
  · refine canon_foldl (by simpa using h) fun s' w hs => ?_
    exact canon_of_same (canon_pageOffl hs) (mems_post ..)

/-! ### The forms (R301 to R304) -/

@[simp] theorem mems_startAway (ctx va inbound cts) : mems (startAway s ctx va inbound cts) = mems s := by simp [startAway]

theorem pageAsk_all {q : State → Prop} (hq : ∀ a b, mems a = mems b → q b → q a) (h : q s) (t n d va x)
    {f : State → State × Nat} (hf : q (f s).1) : q (pageAsk s t n d va x f) := by
  unfold pageAsk
  split
  · refine hq _ s ?_ h
    dsimp only
    split
    · split <;> simp
    · simp
  · exact hq _ _ (mems_ask ..) hf

theorem canon_execOffl (h : Canon s) {p ct d a imm} : OutAll Canon (execOffl p ct d a imm s) := by
  refine canon_issue h ?_
  dsimp only
  split
  · trivial
  · split
    · simpa using h
    · exact pageAsk_all (fun _ _ e hb => canon_of_same hb e) h _ _ _ _ _ (canon_pageOffl h)

theorem canon_execRetn (h : Canon s) {p ct d a imm} : OutAll Canon (execRetn p ct d a imm s) := by
  refine canon_issue h ?_
  dsimp only
  split
  · trivial
  · exact pageAsk_all (fun _ _ e hb => canon_of_same hb e) h _ _ _ _ _ (canon_pageRetn h)

@[simp] theorem mems_pstatOf (ctx va) : mems (pstatOf s ctx va).1 = mems s := by
  unfold pstatOf; split <;> simp
@[simp] theorem mems_execPstat (p d a) : OutAll (Same s) (execPstat p d a s) :=
  mems_issue (by simp)
@[simp] theorem mems_execPstatDev (p d) : OutAll (Same s) (execPstatDev p d s) :=
  mems_issue (by simp)

theorem canon_pagePin (h : Canon s) {ctx va l} : Canon (pagePin s ctx va l).1 := by
  have hc := canon_cancelOutbound h (ctx := ctx) (va := va)
  unfold pagePin
  dsimp only
  split
  · split
    · exact canon_setLeaf h
    · exact h
  · split
    · dsimp only
      split
      · exact canon_setLeaf hc
      · exact hc
    · exact h
    · exact h
    · dsimp only
      split
      · exact canon_setLeaf h
      · exact h

theorem canon_execPin (h : Canon s) {p d a} : OutAll Canon (execPin p d a s) := by
  refine canon_issue h ?_
  dsimp only
  split
  · exact pageAsk_all (fun _ _ e hb => canon_of_same hb e) h _ _ _ _ _ h
  · split
    · simpa using h
    · next l _ =>
      have hp := canon_pagePin h (ctx := (s.tile s.cur.1).ctx) (va := gv s s.cur.1 s.cur.2 a) (l := l)
      split
      · next he => rw [he] at hp; simpa using hp
      · next he => rw [he] at hp; simpa using hp

theorem canon_execPinClr (h : Canon s) {p d a} : OutAll Canon (execPinClr p d a s) := by
  refine canon_issue h (pageAsk_all (fun _ _ e hb => canon_of_same hb e) h _ _ _ _ _ ?_)
  split
  · exact h
  · exact canon_setLeaf h

theorem canon_execPinUns (h : Canon s) {p d a} : OutAll Canon (execPinUns p d a s) := by
  refine canon_issue h (pageAsk_all (fun _ _ e hb => canon_of_same hb e) h _ _ _ _ _ ?_)
  split
  · exact h
  · split
    · exact h
    · split
      · exact canon_setLeaf h
      · exact h

/-! ### Checkpoints (R299, R300, R305) -/

@[simp] theorem mems_ckShare : mems (ckShare s) = mems s := by simp [ckShare]
@[simp] theorem mems_startCheckpoint (ctx ss ct) : mems (startCheckpoint s ctx ss ct) = mems s := by simp [startCheckpoint]
@[simp] theorem mems_endCheckpoint (ctx st) : mems (endCheckpoint s ctx st) = mems s := by simp [endCheckpoint]
@[simp] theorem mems_execCheckpointDone : OutAll (Same s) (execCheckpointDone s) := by
  unfold execCheckpointDone; split <;> simp
@[simp] theorem mems_execCkptGo (p ct d) : OutAll (Same s) (execCkptGo p ct d s) :=
  mems_issue (by simp)
@[simp] theorem mems_execCkptRd (p d) : OutAll (Same s) (execCkptRd p d s) :=
  mems_issue (by simp)

/-! ### Members, wherever they are hosted -/

@[simp] theorem mems_modV2 (ctx idx f) : mems (modV2 s ctx idx f) = mems s := by
  unfold modV2
  dsimp only
  repeat' split
  all_goals simp

theorem canon_landAt (h : Canon s) {ctx t ofs bs} : Canon (landAt s ctx t ofs bs) := by
  unfold landAt
  extract_lets s1 T
  have h1 : Canon s1 := canon_storeTile (by simpa using h) t rfl
  split
  · split
    · exact h1
    · exact canon_writeHbm h1
  · exact h1

theorem canon_landBytes (h : Canon s) {ctx t ofs bs} : Canon (landBytes s ctx t ofs bs) := by
  unfold landBytes
  dsimp only
  split
  · exact canon_landAt (canon_landAt h)
  · exact canon_landAt h

@[simp] theorem mems_modCollective (ctx id f) : mems (modCollective s ctx id f) = mems s := by simp [modCollective]
@[simp] theorem mems_dropColls (ctx) : mems (dropColls s ctx) = mems s := by simp [dropColls]
@[simp] theorem mems_endSlot (ctx m st) : mems (endSlot s ctx m st) = mems s := by simp [endSlot]
@[simp] theorem mems_failColl (ctx c err) : mems (failColl s ctx c err) = mems s := by simp [failColl]

/-! ### Launch (R307, R308, R310) -/

@[simp] theorem mems_joinColl (ctx gid v k) : mems (joinColl s ctx gid v k).1 = mems s := by
  unfold joinColl; dsimp only; split <;> simp

@[simp] theorem mems_startColl (ctx c) : mems (startColl s ctx c) = mems s := by
  refine (mems_foldl fun s k => ?_).trans (mems_modCollective ..)
  split
  · rfl
  · dsimp only
    split
    · simp
    · simp

theorem canon_execCollAllLaunched (h : Canon s) : OutAll Canon (execCollAllLaunched s) := by
  unfold execCollAllLaunched
  split
  · split
    · exact h
    · split
      · exact h
      · split
        · simpa using h
        · split
          · simpa using h
          · split
            · simpa using h
            · simpa using h
            · split
              · simpa using h
              · extract_lets s1 d s2
                have h1 : Canon s1 := canon_touchPages h
                have h2 : Canon s2 := by simpa [s2] using h1
                split
                · simpa using h2
                · split
                  · simpa using h2
                  · simpa using h2
  · exact h

/-! ### Sources (R311) -/

@[simp] theorem mems_execCollSourceRead : OutAll (Same s) (execCollSourceRead s) := by
  unfold execCollSourceRead
  dsimp only
  repeat' split
  all_goals simp

/-! ### The chip's tree in plane mode (R313, R314) -/

@[simp] theorem mems_postLandings (ctx c seg d) : mems (postLandings s ctx c seg d) = mems s := by simp [postLandings]

@[simp] theorem mems_execAdderDigitEmit : OutAll (Same s) (execAdderDigitEmit s) := by
  unfold execAdderDigitEmit
  dsimp only
  repeat' split
  all_goals simp

/-! ### Inputs of the chip's node (R309, R313, R316 to R318) -/

@[simp] theorem mems_closeNode (ctx c) : mems (closeNode s ctx c) = mems s := by
  unfold closeNode
  extract_lets segs ins cut tree nodes c' s1 s2 s3
  have h2 : mems s2 = mems s1 := mems_foldl fun s seg => by
    refine (mems_foldl fun s k => ?_).trans (mems_postLandings ..)
    split
    · split
      · simp
      · rfl
    · rfl
  simp [s3, h2, s1]

@[simp] theorem mems_lateInput (ctx c k) : mems (lateInput s ctx c k) = mems s := by
  unfold lateInput
  extract_lets s1 s2
  have h1 : mems s1 = mems s := mems_foldl fun s j => by split <;> simp
  have h2 : mems s2 = mems s := by simpa [s2] using h1
  split
  · simpa using h2
  · exact h2

@[simp] theorem mems_takeInput (ctx c k f) : mems (takeInput s ctx c k f) = mems s := by simp [takeInput]

@[simp] theorem mems_execCollNodeInput : OutAll (Same s) (execCollNodeInput s) := by
  unfold execCollNodeInput
  repeat' split
  all_goals simp

@[simp] theorem mems_execCollDeadlineExpiry : OutAll (Same s) (execCollDeadlineExpiry s) := by
  unfold execCollDeadlineExpiry
  dsimp only
  repeat' split
  all_goals simp

/-! ### Landing and completion (R310, R312, R315) -/

theorem canon_landPlane (h : Canon s) {ctx c k seg i m t bs} : Canon (landPlane s ctx c k seg i m t bs) :=
  canon_of_same (canon_foldl h fun _ _ hs => canon_landBytes hs) ((mems_modV2 ..).trans (mems_modCollective ..))
theorem canon_landHead (h : Canon s) {ctx c k seg m t bs} : Canon (landHead s ctx c k seg m t bs) :=
  canon_of_same (canon_foldl h fun _ _ hs => canon_landBytes hs) (mems_modCollective ..)
theorem canon_landVals (h : Canon s) {ctx c seg m t} : Canon (landVals s ctx c seg m t) :=
  canon_of_same (canon_landBytes h) (mems_modV2 ..)

theorem canon_landNext (h : Canon s) {ctx c k seg m t} : Canon (landNext s ctx c k seg m t) := by
  unfold landNext
  dsimp only
  repeat' split
  · exact canon_landVals h
  · simpa using h
  · exact canon_of_same (canon_landHead h) (mems_post ..)
  · exact h
  · simpa using h
  · exact canon_of_same (canon_landPlane h) (mems_post ..)
  · exact canon_landPlane h

theorem canon_execPlaneLanded (h : Canon s) : OutAll Canon (execPlaneLanded s) := by
  unfold execPlaneLanded
  split
  · split
    · exact h
    · split
      · exact h
      · split
        · split
          · exact h
          · simpa using canon_landNext h
        · exact h
  · exact h

theorem canon_execCollConsumerDone (h : Canon s) : OutAll Canon (execCollConsumerDone s) := by
  unfold execCollConsumerDone
  split
  · split
    · exact h
    · split
      · exact h
      · split
        · extract_lets s1 st
          have h1 : Canon s1 := by
            dsimp only [s1]
            split
            · exact h
            · exact canon_landBytes h
          split
          · exact h
          · simpa using h1
        · exact h
  · exact h

@[simp] theorem mems_execContributionAccepted : OutAll (Same s) (execContributionAccepted s) := by
  unfold execContributionAccepted
  repeat' split
  all_goals simp

/-! ### Parking (R319) -/

theorem canon_parkColls (h : Canon s) {ctx idx save} : Canon (parkColls s ctx idx save) := by
  unfold parkColls
  split
  · exact h
  · refine canon_foldl h fun s' k hs => ?_
    dsimp only
    split
    · refine canon_of_same (canon_writeHbm ?_) (mems_modV2 ..)
      split
      · exact hs
      · simpa using hs
    · exact hs

@[simp] theorem mems_kickColls (ctx idx) : mems (kickColls s ctx idx) = mems s := by
  refine mems_foldl fun s c => ?_
  split
  · rfl
  · split
    · rfl
    · simp

@[simp] theorem mems_unparkColls (ctx idx) : mems (unparkColls s ctx idx) = mems s := by simp [unparkColls]

/-! ### The forms (R321 to R326) -/

@[simp] theorem mems_execColl (p k a) : OutAll (Same s) (execColl p k a s) := by
  refine mems_issue ?_
  split
  · next he => exact (blockPlace_all ..).of_error he
  · next o _ =>
    have hr := mems_localRead (s := s) s.cur.1 s.cur.2.val o 128
    split
    · next he => exact rangeWait_all he
    · split
      · next he => exact wErrAct_all (hr.of_error he)
      · next r he =>
        have hr : mems r.1 = mems s := hr.of_ok he
        simp [hr]

@[simp] theorem mems_execWaitp (p k j pf a b) : OutAll (Same s) (execWaitp p k j pf a b s) :=
  mems_issue (by simp)

@[simp] theorem mems_execPcan (p k c) : OutAll (Same s) (execPcan p k c s) := by
  refine mems_issue ?_
  dsimp only
  repeat' split
  all_goals simp

theorem mems_prdRead (t n c e planes) :
    OkOr (ErrAll (Same s)) (fun r => mems r.1 = mems s) (prdRead s t n c e planes) := by
  have hr := mems_localRead (s := s) t n (c.dst.toNat + 3200 * (e / 256)) (128 + 64 * planes)
  unfold prdRead
  split
  · next he => exact hr.of_error he
  · next r he => exact hr.of_ok (a := r) he

@[simp] theorem mems_prdBits (w f xs) : mems (prdBits s w f xs).1 = mems s := by simp [prdBits]

@[simp] theorem mems_execPrdF32 (p k n d a) : OutAll (Same s) (execPrdF32 p k n d a s) := by
  refine mems_issue ?_
  dsimp only
  split
  · trivial
  · have hr := mems_prdRead (s := s) s.cur.1 s.cur.2 ((s.tile s.cur.1).v.slotOf k).crb (gv s s.cur.1 s.cur.2 a).toNat n.toNat
    split
    · next he => exact wErrAct_all (hr.of_error he)
    · next r he => simpa using (hr.of_ok he : mems r.1 = mems s)

theorem canon_execPrdLa (h : Canon s) {p k n a c} : OutAll Canon (execPrdLa p k n a c s) := by
  refine canon_issue h ?_
  dsimp only
  split
  · next he => exact (accPlace_all ..).of_error he
  · split
    · trivial
    · split
      · next he => exact rangeWait_all he
      · have hr := mems_prdRead (s := s) s.cur.1 s.cur.2 ((s.tile s.cur.1).v.slotOf k).crb (gv s s.cur.1 s.cur.2 a).toNat n.toNat
        split
        · next he => exact wErrAct_all ((hr.of_error he).mono fun _ => canon_of_same h)
        · next r he =>
          have h1 := canon_of_same h (hr.of_ok he)
          split
          · next he => exact (canon_putLocal (by simpa using h1)).of_error he
          · next he => exact (canon_putLocal (by simpa using h1)).of_ok he

@[simp] theorem mems_execCstat (p k d) : OutAll (Same s) (execCstat p k d s) :=
  mems_issue (by simp)
@[simp] theorem mems_execCstatPc (p d a) : OutAll (Same s) (execCstatPc p d a s) :=
  mems_issue (by simp)

/-! ### The slots of a host -/

@[simp] theorem mems_modAllSlots (t f) : mems (modAllSlots s t f) = mems s := by simp [modAllSlots]

/-! ### Slots of the galley applied (R205, R108) -/

theorem canon_applyPool (h : Canon s) {t g} : Canon (applyPool s t g) := by
  have hr : Canon (eccRead s t true (g.ofs / 64 * 64) 64).1 := by simpa using h
  unfold applyPool
  dsimp only
  split
  · exact hr
  · exact canon_storeTile hr t rfl

theorem canon_applyBuf (h : Canon s) {ctx va g} : Canon (applyBuf s ctx va g) := canon_writeHbm h

theorem canon_applySlots (h : Canon s) {t g r} : Canon (applySlots s t g r).1 := by
  unfold applySlots
  extract_lets mine order s1
  suffices h1 : Canon s1 by exact canon_of_same h1 (mems_modTile t rfl)
  refine canon_foldl h fun s' x hs => ?_
  extract_lets e c k
  have he : mems e.1 = mems s' := mems_eccSlot ..
  have hc : mems c.1 = mems s' := by
    dsimp only [c]
    split
    · exact (mems_residueCheck ..).trans he
    · exact he
  split
  · exact canon_of_same hs he
  · split
    · exact canon_of_same hs (by simpa using hc)
    · split
      · exact canon_of_same hs hc
      · next x _ =>
        extract_lets s2
        have h2 : Canon s2 := by
          dsimp only [s2]
          split
          · exact canon_applyBuf (canon_of_same hs hc)
          · exact canon_of_same hs hc
        split
        · exact canon_applyPool h2
        · exact canon_of_same h2 (mems_modSlot ..)

/-! ### What every release does at a tile -/

@[simp] theorem mems_wptRecords (t v) : mems (wptRecords s t v) = mems s := by
  refine mems_foldl fun s k => ?_
  split
  · split
    · simp
    · rfl
  · rfl

@[simp] theorem mems_debugEvents (t) : mems (debugEvents s t) = mems s := by simp [debugEvents]
@[simp] theorem mems_clearEngines (T) : (clearEngines T).mem = T.mem := by simp [clearEngines]

@[simp] theorem mems_takeEnergy (t gid r) : mems (takeEnergy s t gid r) = mems s := by
  unfold takeEnergy
  exact (mems_modTile t rfl).trans (mems_modGroup ..)

@[simp] theorem mems_clearLocks (t) : mems (clearLocks s t) = mems s := by simp [clearLocks]

/-! ### Requests that were held behind the vote (R241, R242, R298, R305) -/

@[simp] theorem mems_replyLate (t n gen d v) : mems (replyLate s t n gen d v) = mems s := by simp [replyLate]

theorem canon_actHeld (h : Canon s) {g ss idx t hd} : Canon (actHeld s g ss idx t hd) := by
  unfold actHeld
  split
  · extract_lets on s1
    have h1 : mems s1 = mems s := by simp [s1]
    split
    · simpa [h1] using h
    · simpa [h1] using h
  · simpa using h
  · simpa using h
  · exact canon_imposeList h
  · exact h

theorem canon_actList (h : Canon s) {g ss l} : Canon (actList s g ss l) :=
  canon_foldl h fun _ _ h1 => canon_foldl h1 fun _ _ h2 => canon_actHeld h2

theorem canon_actAll (h : Canon s) {g ss} : Canon (actAll s g ss) := by
  refine canon_of_same (canon_actList (canon_of_same h (mems_modCtx ..))) (mems_foldl fun s t => ?_)
  simp

/-! ### Commit at a tile (R205, R278) -/

@[simp] theorem mems_completeWait (t n) : mems (completeWait s t n) = mems s := by
  unfold completeWait
  dsimp only
  repeat' split
  all_goals simp

@[simp] theorem mems_commitStrands (t) : mems (commitStrands s t) = mems s := by simp [commitStrands]

theorem canon_fixBuffer (h : Canon s) {t ctx va x} : Canon (fixBuffer s t ctx va x) := by
  unfold fixBuffer
  extract_lets w at_ put go s1
  have hput {s : State} (h : Canon s) (n d b) : Canon (put s n d b) := by
    dsimp only [put]
    split
    · exact h
    · exact canon_writeHbm h
  have hgo {s : State} (h : Canon s) (n len) : Canon (go s n len) := canon_writeHbm h
  have h1 : Canon s1 := canon_foldl h fun s' q hs => by
    split
    · refine hgo ?_ ..
      split
      · exact hput hs ..
      · exact hs
    · exact hgo (hput hs ..) ..
    · exact hs
  refine canon_foldl h1 fun s' n hs => ?_
  split
  · exact hs
  · dsimp only
    split
    · exact canon_writeHbm hs
    · exact hs

theorem canon_loadSlot (h : Canon s) {t g k nb} : Canon (loadSlot s t g k nb) := by
  unfold loadSlot
  extract_lets v va w s1 s2 s3 owed
  have h1 : Canon s1 := canon_of_same h (mems_modTile t rfl)
  have h2 : Canon s2 := canon_getImage h1
  have h3 : Canon s3 := canon_of_same h2 (mems_modV ..)
  exact canon_of_same h3 ((mems_foldl fun s o => mems_modStrand ..).trans (mems_loadImages ..))

@[simp] theorem mems_keepSlot (T f) : (keepSlot T f).mem = T.mem := by simp [keepSlot]

theorem canon_execResultDelivery (h : Canon s) : OutAll Canon (execResultDelivery s) := by
  unfold execResultDelivery
  split
  · split
    · simpa using h
    · extract_lets T mine reg
      split
      · next k g _ _ =>
        extract_lets x write now s1 s2 s3
        have h1 : Canon s1 := by
          dsimp only [s1]
          split
          · exact h
          · exact canon_writeHbm h
        have h2 : Canon s2 := by
          dsimp only [s2]
          split
          · exact canon_writeHbm h1
          · exact h1
        have h3 : Canon s3 := by simpa [s3] using h2
        split
        · simpa using h3
        · exact h3
      · exact h
  · exact h

@[simp] theorem mems_imageFault (ctx t b) : mems (imageFault s ctx t b) = mems s := by
  unfold imageFault; split <;> simp

theorem mems_buffersWait (g t) : ∀ a, buffersWait s g t = some a → mems a = mems s := by
  intro a ha
  obtain ⟨p, -, rfl⟩ := Option.map_eq_some_iff.1 ha
  exact mems_imageFault ..

theorem canon_stageNext (h : Canon s) {t g} : Canon (stageNext s t g) := canon_imposeList h
@[simp] theorem mems_dropFetches (t ctx) : mems (dropFetches s t ctx) = mems s := by simp [dropFetches]

theorem canon_commitFold (h : Canon s) {t g} : Canon (commitFold s t g) := by
  unfold commitFold
  extract_lets s1 k s2 owed s3 s4 flipped s5 ords s6
  have h1 : Canon s1 := canon_of_same (canon_takeImages h) (mems_dropFetches ..)
  have h2 : Canon s2 := canon_putImage h1
  have h3 : Canon s3 := canon_of_same h2 (by simp [s3])
  have h4 : Canon s4 := canon_foldl h3 fun s' i hs => by
    split
    · split
      · exact canon_fixBuffer hs
      · exact hs
    · exact hs
  have h6 : Canon s6 := canon_of_same h4 (by simp [s6, s5])
  exact canon_stageNext (canon_loadSlot h6)

@[simp] theorem mems_launchColls (t g) : mems (launchColls s t g) = mems s := by
  refine mems_foldl fun s i => mems_foldl fun s k => ?_
  dsimp only
  repeat' split
  all_goals simp

theorem canon_commitTile (h : Canon s) {t g r} : Canon (commitTile s t g r) := by
  unfold commitTile
  extract_lets s1 s2 s3 s4 s5 s6 s7 a s8 s9
  have h1 : Canon s1 := by
    dsimp only [s1]
    split
    · exact h
    · exact canon_actList h
  have h5 : Canon s5 := canon_of_same h1 (by simp [s5, s4, s3, s2])
  have h6 : Canon s6 := by
    dsimp only [s6]
    split
    · exact canon_commitFold h5
    · exact h5
  have ha : Canon a.1 := canon_applySlots (canon_of_same h6 (mems_modAllSlots ..))
  have h8 : Canon s8 := by
    refine canon_of_same ?_ (mems_launchColls ..)
    split
    · exact ha
    · exact canon_writeImages ha
  have h9 : Canon s9 := canon_of_same h8 (by simp [s9])
  exact canon_of_same h9 (mems_foldl fun s v => mems_kickColls ..)

/-! ### Abort at a tile (R206, R278) -/

theorem canon_restoreLines (h : Canon s) {t} : Canon (restoreLines s t).1 := by
  refine canon_foldl h fun s' x hs => ?_
  have he : Canon (eccSlot s' t x).1 := by simpa using hs
  dsimp only
  split
  · exact he
  · exact canon_storeTile he t rfl

@[simp] theorem mems_dropHeld (t ctx) : mems (dropHeld s t ctx) = mems s := by
  unfold dropHeld
  split
  · rfl
  · refine mems_foldl fun s h => ?_
    split
    · simp
    · rfl

@[simp] theorem mems_dropParked (t ctx ovl) : mems (dropParked s t ctx ovl) = mems s := by simp [dropParked]
@[simp] theorem mems_stopEngines (T) : (stopEngines T).mem = T.mem := by simp [stopEngines]

theorem canon_abortTile (h : Canon s) {t g r} : Canon (abortTile s t g r) := by
  unfold abortTile
  extract_lets s1 s2 l later s3 s4 s5 s6 s7
  have hl : Canon l.1 := canon_restoreLines (canon_of_same h (by simp [s2, s1]))
  have h5 : Canon s5 := canon_of_same hl (by simp [s5, s4, s3])
  have h6 : Canon s6 := by
    dsimp only [s6]
    split
    · exact canon_stageNext (canon_loadSlot h5)
    · exact canon_of_same h5 (mems_loadImages ..)
  have h7 : Canon s7 := canon_of_same h6 (by simp [s7])
  exact canon_of_same h7 (mems_foldl fun s v => mems_kickColls ..)

/-! ### The end of a group (Table 14.1) -/

@[simp] theorem mems_freedTile (T) : (freedTile T).mem = T.mem := by simp [freedTile]
@[simp] theorem mems_releaseClusters (g keep) : mems (releaseClusters s g keep) = mems s := by simp [releaseClusters]
@[simp] theorem mems_leaveTiles (g) : mems (leaveTiles s g) = mems s := by simp [leaveTiles]
@[simp] theorem mems_endGroup (g st) : mems (endGroup s g st) = mems s := by simp [endGroup]

/-! ### Cancellation (R235) -/

@[simp] theorem mems_cancelObj (ctx o) : mems (cancelObj s ctx o) = mems s := by simp [cancelObj]
@[simp] theorem mems_execCancelAtDispatcher : OutAll (Same s) (execCancelAtDispatcher s) := by
  unfold execCancelAtDispatcher; split <;> simp

/-! ### The decision's release (R273, R279) -/

@[simp] theorem mems_endMoves (g hosts) : mems (endMoves s g hosts) = mems s := by simp [endMoves]
@[simp] theorem mems_releaseWrites (g) : mems (releaseWrites s g) = mems s := by simp [releaseWrites]
@[simp] theorem mems_sendRelease (g f) : mems (sendRelease s g f) = mems s := by simp [sendRelease]

theorem canon_releaseCommit (h : Canon s) {g} : Canon (releaseCommit s g) := by
  unfold releaseCommit
  extract_lets ends f off taken s1 hosts moved r s2 s3 s4 s5 s6 s7 s8
  have h3 : Canon s3 := canon_of_same h (by simp [s3, s2, s1, f])
  have h4 : Canon s4 := canon_actAll h3
  exact canon_of_same h4 (by simp [s8, s7, s6, s5])

@[simp] theorem mems_releaseAbort (g) : mems (releaseAbort s g) = mems s := by simp [releaseAbort]

theorem canon_execDecisionRelease (h : Canon s) : OutAll Canon (execDecisionRelease s) := by
  unfold execDecisionRelease
  split
  · next gid _ =>
    split
    · exact h
    · have hf : Canon (flushGroup s gid) := by simpa using h
      split
      · exact h
      · split
        · split
          · simpa using h
          · exact canon_releaseCommit hf
        · split
          · simpa using hf
          · exact h
  · exact h

/-! ### Images of virtual tiles -/

theorem wf_window {m : Mem} (h : m.wf = true) (a n to_) : (m.window a n to_).wf = true := by
  rw [wf_iff] at h ⊢
  obtain ⟨hk, hz⟩ := h
  have mem {c} (hc : c ∈ m.window a n to_) : ∃ e ∈ m, a ≤ e.1 ∧ c = (e.1 - a + to_, e.2) := by
    obtain ⟨e, he, hce⟩ := List.mem_filterMap.1 hc
    split at hce
    · next hr => exact ⟨e, he, hr.1, (Option.some.inj hce).symm⟩
    · cases hce
  refine ⟨?_, fun c hc => ?_⟩
  · rw [List.pairwise_map] at hk ⊢
    refine List.pairwise_filterMap.2 (hk.imp fun {x y} hxy c hc d hd => ?_)
    split at hc
    · next hx =>
      split at hd
      · next hy =>
        cases hc; cases hd
        dsimp only
        omega
      · cases hd
    · cases hc
  · obtain ⟨e, he, -, rfl⟩ := mem hc
    exact hz e he

theorem wf_hostTile (h : Canon s) {g imgs t twin shadow} (hi : ∀ i ∈ imgs, i.pool.wf = true) :
    (hostTile s g imgs t twin shadow).mem.wf = true := by
  have hm : ∀ i ∈ imgs.filter (fun i => i.ord % g.hosts.length == physOrd g t), i.pool.wf = true :=
    fun i him => hi i (List.mem_filter.1 him).1
  unfold hostTile
  dsimp only
  split
  · exact h.1 t
  · next first _ he => exact wf_foldl_write _ (fun _ _ hw => wf_write hw ..) _ (hm first (by simp [he]))

theorem canon_placeHosts (h : Canon s) {g imgs nb} (hi : ∀ i ∈ imgs, i.pool.wf = true) : Canon (placeHosts s g imgs nb) := by
  unfold placeHosts
  extract_lets put s1 s2 s3
  have hput {s : State} (h : Canon s) (t twin shadow) : Canon (put s t twin shadow) :=
    canon_of_same (canon_setTile h t (wf_hostTile h hi)) ((mems_modTile t rfl).trans (mems_loadImages ..))
  have h1 : Canon s1 := canon_foldl h fun s' j hs => by
    split
    · exact hput (hput hs ..) ..
    · exact hput hs ..
    · exact hs
  have h2 : Canon s2 := by
    dsimp only [s2]
    split
    · exact canon_foldl h1 fun _ _ hs => canon_putImage hs
    · exact h1
  have h3 : Canon s3 := canon_of_same h2 (mems_modGroup ..)
  split
  · exact canon_foldl h3 fun _ _ hs => canon_stageNext hs
  · exact h3

@[simp] theorem mems_waitMapped (g b e) : mems (waitMapped s g b e) = mems s := by simp [waitMapped]

/-! ### Segment entries (Table 4.3, R220, R254) -/

@[simp] theorem mems_writeSegs (g) : mems (writeSegs s g) = mems s := by simp [writeSegs]

/-! ### A commit release at a tile (R205, R278) -/

@[simp] theorem mems_dropEnergy (g r) : mems (dropEnergy s g r) = mems s := by simp [dropEnergy]
@[simp] theorem mems_finishCommit (g r) : mems (finishCommit s g r) = mems s := by simp [finishCommit]
@[simp] theorem mems_ranRelease (gid t r) : mems (ranRelease s gid t r) = mems s := by simp [ranRelease]

theorem canon_execReleaseCommitAtTile (h : Canon s) : OutAll Canon (execReleaseCommitAtTile s) := by
  unfold execReleaseCommitAtTile
  split
  · next gid t r _ =>
    split
    · exact h
    · next g _ =>
      split
      · exact h
      · split
        · simpa using h
        · split
          · next he =>
            split at he
            · simpa [mems_buffersWait _ _ _ he] using h
            · cases he
          · extract_lets s1
            have h1 : Canon s1 := by simpa [s1] using canon_commitTile h
            split
            · split
              · exact h1
              · simpa using h1
            · exact h1
  · exact h

@[simp] theorem mems_finishAbort (g r) : mems (finishAbort s g r) = mems s := by simp [finishAbort]

theorem canon_execReleaseAbortAtTile (h : Canon s) : OutAll Canon (execReleaseAbortAtTile s) := by
  unfold execReleaseAbortAtTile
  split
  · next gid t r _ =>
    split
    · exact h
    · next g _ =>
      split
      · exact h
      · split
        · simpa using h
        · split
          · next he =>
            split at he
            · simpa [mems_buffersWait _ _ _ he] using h
            · cases he
          · extract_lets s1
            have h1 : Canon s1 := by simpa [s1] using canon_abortTile h
            split
            · split
              · exact h1
              · simpa using h1
            · exact h1
  · exact h

/-! ### The launch (R80, R82, R247, R255) -/

@[simp] theorem mems_refuseLaunch (g) : mems (refuseLaunch s g) = mems s := by simp [refuseLaunch]

/-- The image of a virtual tile at a launch is in canonical form. -/
theorem wf_launchImg (g k ord) : (launchImg s g k ord).pool.wf = true := by
  unfold launchImg
  extract_lets w load strands
  have hload (fore) : (load fore).wf = true := by
    refine wf_foldl_write _ (fun m c hm => ?_) _ wf_nil
    split
    · exact hm
    · exact wf_store hm ..
  refine wf_foldl_write _ (fun m n hm => ?_) _ (hload false)
  split
  · exact wf_store hm ..
  · exact hm

theorem canon_launch (h : Canon s) {g k} : Canon (launch s g k) := by
  refine canon_of_same (canon_placeHosts h fun i hi => ?_) ((mems_modGroup ..).trans (mems_writeSegs ..))
  obtain ⟨o, -, rfl⟩ := List.mem_map.1 hi
  exact wf_launchImg ..

/-- The image that a save has left, read back from HBM, is in canonical form. -/
theorem wf_savedImg (g ord) : (savedImg s g ord).pool.wf = true := by
  unfold savedImg
  exact wf_store wf_nil ..

theorem canon_restoreGroup (h : Canon s) {g} : Canon (restoreGroup s g) := by
  unfold restoreGroup
  extract_lets s1 s2 s3
  have h1 : Canon s1 := canon_placeHosts h fun i hi => by
    obtain ⟨o, -, rfl⟩ := List.mem_map.1 hi
    exact wf_savedImg ..
  have h3 : Canon s3 := canon_of_same h1 (by simp [s3, s2])
  exact canon_of_same h3 (mems_foldl fun s o => mems_unparkColls ..)

theorem canon_execGroupStart (h : Canon s) : OutAll Canon (execGroupStart s) := by
  unfold execGroupStart
  split
  · split
    · exact h
    · split
      · exact h
      · split
        · split
          · simpa using h
          · exact canon_restoreGroup h
        · split
          · simpa using h
          · split
            · simpa using h
            · dsimp only
              split
              · simpa using h
              · exact canon_launch h
  · exact h

/-! ### The start gate (R256) -/

@[simp] theorem mems_wakeGate (c) : mems (wakeGate s c) = mems s := by simp [wakeGate]

@[simp] theorem mems_execClusterStartGateOpen : OutAll (Same s) (execClusterStartGateOpen s) := by
  unfold execClusterStartGateOpen
  repeat' split
  all_goals simp

/-! ### Turns under folding (R258) -/

theorem canon_turnChange (h : Canon s) {t g} : Canon (turnChange s t g) := by
  unfold turnChange
  extract_lets s1 T k w s2 waits owed prof s3 cost s4
  have h1 : Canon s1 := canon_writeImages h
  have h2 : Canon s2 := canon_putImage h1
  have h3 : Canon s3 := canon_of_same h2 (by simp [s3])
  have hl := canon_loadSlot (canon_of_same h3 (mems_dropFetches t g.ctx)) (t := t) (g := g) (k := k + 1) (nb := s3.cycle + cost)
  have h4 : Canon s4 := by simpa [s4] using hl
  exact canon_stageNext (canon_of_same h4 (mems_kickColls ..))

theorem canon_execFoldTurnChange (h : Canon s) : OutAll Canon (execFoldTurnChange s) := by
  unfold execFoldTurnChange
  split
  · split
    · exact h
    · split
      · exact h
      · split
        · next he => exact canon_of_same h (mems_buffersWait _ _ _ he)
        · extract_lets w r
          have hr : Canon r.1 := by simpa [r] using h
          split
          · exact canon_turnChange hr
          · exact hr
  · exact h

/-! ### Requests for a reshape (R255, R260) -/

@[simp] theorem mems_execGiveUpRequest : OutAll (Same s) (execGiveUpRequest s) := by
  unfold execGiveUpRequest
  dsimp only
  repeat' split
  all_goals simp

@[simp] theorem mems_reserveCluster (g c) : mems (reserveCluster s g c) = mems s := by simp [reserveCluster]

@[simp] theorem mems_execMoveRequest : OutAll (Same s) (execMoveRequest s) := by
  unfold execMoveRequest
  dsimp only
  repeat' split
  all_goals simp

/-! ### The reshape and the save (R221, R261) -/

theorem canon_saveGroup (h : Canon s) {g} : Canon (saveGroup s g) := by
  unfold saveGroup
  extract_lets imgs s1 kept s2 s3 s4
  have h1 : Canon s1 := canon_foldl h fun _ _ hs => canon_parkColls hs
  have h2 : Canon s2 := canon_foldl h1 fun _ _ hs => canon_putImage hs
  exact canon_of_same h2 (by simp [s4, s3])

/-- The image of a virtual tile as it stands at a barrier is in canonical form. -/
theorem wf_imgOf (h : Canon s) (g ord) : (imgOf s g ord).pool.wf = true := by
  unfold imgOf
  extract_lets p T k v w b code va
  split
  · exact wf_window (h.1 _) ..
  · exact wf_store (wf_window (h.1 _) ..) ..

theorem canon_reshape (h : Canon s) {g n moved} : Canon (reshape s g n moved) := by
  unfold reshape
  extract_lets s1 imgs s2 s3 s4 s5 gained s6 s7
  have h1 : Canon s1 := canon_foldl h fun _ _ hs => canon_parkColls hs
  have hi : ∀ i ∈ imgs, i.pool.wf = true := fun i hi => by
    obtain ⟨o, -, rfl⟩ := List.mem_map.1 hi
    dsimp only
    split
    · exact wf_imgOf h1 ..
    · exact wf_imgOf h1 ..
  have h2 : Canon s2 := canon_foldl h1 fun _ i hs => by
    split
    · exact canon_putImage hs
    · exact hs
  have h4 : Canon s4 := canon_of_same h2 ((mems_modGroup ..).trans (mems_foldl fun s t => by simp))
  have h5 : Canon s5 := canon_of_same (canon_placeHosts h4 hi) (mems_writeSegs ..)
  exact canon_of_same h5 ((mems_foldl fun s o => by simp).trans (by simp [s7, s6]))

theorem canon_execReshapeDone (h : Canon s) : OutAll Canon (execReshapeDone s) := by
  unfold execReshapeDone
  split
  · split
    · exact h
    · next g _ =>
      have ht : Canon (g.tiles.foldl takeImages s) := canon_foldl h fun _ _ hs => canon_takeImages hs
      split
      · exact h
      · split
        · split
          · simpa using h
          · exact canon_saveGroup ht
        · dsimp only
          split
          · simpa using h
          · split
            · exact canon_reshape ht
            · simpa using h
  · exact h

/-! ### The forms (R262 to R264) -/

@[simp] theorem mems_mapForm (t n d f) : ActAll (Same s) (mapForm s t n d f) := by
  unfold mapForm; split <;> simp
@[simp] theorem mems_execVtidShape (p d) : OutAll (Same s) (execVtidShape p d s) :=
  mems_issue (by simp)
@[simp] theorem mems_execVtidOrd (p d a) : OutAll (Same s) (execVtidOrd p d a s) :=
  mems_issue (by simp)
@[simp] theorem mems_execVtidIdx (p d a) : OutAll (Same s) (execVtidIdx p d a s) :=
  mems_issue (by simp)
@[simp] theorem mems_execVtidHost (p d a) : OutAll (Same s) (execVtidHost p d a s) :=
  mems_issue (by simp)
@[simp] theorem mems_execOffer (p a) : OutAll (Same s) (execOffer p a s) :=
  mems_issue (by simp)
@[simp] theorem mems_execOfferRd (p d) : OutAll (Same s) (execOfferRd p d s) :=
  mems_issue (by simp)

/-! ### Boot and trust (R216, R217) -/

theorem canon_reset : Canon State.reset := ⟨fun _ => wf_nil, wf_nil, wf_nil⟩

theorem canon_execColdReset (h : Canon s) : OutAll Canon (execColdReset s) := by
  unfold execColdReset
  split
  · exact canon_reset
  · exact h

theorem canon_startMonitor (h : Canon s) {img} : Canon (startMonitor s img) :=
  canon_of_same (canon_modTile h monitorTile fun _ => wf_store wf_nil 0 img) (mems_modStrand ..)

theorem canon_execMonitorImageReceive (h : Canon s) : OutAll Canon (execMonitorImageReceive s) := by
  unfold execMonitorImageReceive
  split
  · split
    · exact h
    · dsimp only
      split
      · exact canon_startMonitor (by simpa using h)
      · simpa using h
  · exact h

@[simp] theorem mems_execChipNumberAssign : OutAll (Same s) (execChipNumberAssign s) := by
  unfold execChipNumberAssign; split <;> simp

@[simp] theorem mems_execRuntimeImageLoad : OutAll (Same s) (execRuntimeImageLoad s) := by
  unfold execRuntimeImageLoad
  dsimp only
  repeat' split
  all_goals simp

@[simp] theorem mems_execAttestationRequest : OutAll (Same s) (execAttestationRequest s) := by
  unfold execAttestationRequest; split <;> simp

/-! ### Creation, segments, start (Table 11.4, R219, R220) -/

@[simp] theorem mems_ctxNew (a b) : mems (ctxNew s a b).1 = mems s := by
  unfold ctxNew; dsimp only; split <;> simp

@[simp] theorem mems_ctxSeg (a b) : mems (ctxSeg s a b) = mems s := by
  unfold ctxSeg
  dsimp only
  repeat' split
  all_goals simp

@[simp] theorem mems_ctxGo (c) : mems (ctxGo s c).1 = mems s := by simp [ctxGo]

@[simp] theorem mems_ctxSave (c) : mems (ctxSave s c).1 = mems s := by
  unfold ctxSave
  dsimp only
  repeat' split
  all_goals simp

/-! ### Save and restore (R218, R221) -/

theorem canon_execSaveComplete (h : Canon s) : OutAll Canon (execSaveComplete s) := by
  unfold execSaveComplete
  split
  · dsimp only
    split
    · exact h
    · split
      · simpa using h
      · exact canon_of_same (canon_writeHbm h) (mems_modCtx ..)
  · exact h

@[simp] theorem mems_holdClusters (g) : mems (holdClusters s g) = mems s := by simp [holdClusters]

theorem mems_placeAll (gs) : ∀ a, placeAll s gs = some a → mems a = mems s := by
  induction gs generalizing s with
  | nil => rintro _ ⟨⟩; rfl
  | cons g r ih =>
    intro a ha
    unfold placeAll at ha
    split at ha
    · simpa using ih a ha
    · split at ha
      · cases ha
      · simpa using ih a ha

@[simp] theorem mems_ctxRest (c) : mems (ctxRest s c).1 = mems s := by
  unfold ctxRest
  split
  · rfl
  · split
    · rfl
    · next hp => simpa using mems_placeAll _ _ hp

/-! ### Pages of kernel images (R246, R248) -/

theorem canon_unpinImage (h : Canon s) {ctx k} : Canon (unpinImage s ctx k) := by
  refine canon_foldl h fun s' p hs => ?_
  split
  · exact hs
  · split
    · exact canon_setLeaf hs
    · exact hs

/-! ### The inundation sweep (R222, R223, R227) -/

@[simp] theorem mems_dropPackets (ctx) : mems (dropPackets s ctx) = mems s := by simp [dropPackets]
@[simp] theorem mems_sendToken (ctx ts) : mems (sendToken s ctx ts) = mems s := by simp [sendToken]

theorem canon_startSweep (h : Canon s) {ctx r} : Canon (startSweep s ctx r) := by
  unfold startSweep
  extract_lets x nodes s1 s2 _ s3 s4 s5
  split
  · exact h
  · have h1 : Canon s1 := canon_of_same h (by simp [s1])
    have h2 : Canon s2 := canon_foldl h1 fun s' k hs => canon_of_same (canon_unpinImage hs) (mems_modCtx ..)
    exact canon_of_same h2 (by simp [s5, s4, s3])

theorem canon_execSweepTokenAtTile (h : Canon s) : OutAll Canon (execSweepTokenAtTile s) := by
  unfold execSweepTokenAtTile
  split
  · split
    · exact h
    · extract_lets s1 mine s2
      have h1 : Canon s1 := by simpa [s1] using h
      have h2 : Canon s2 := by
        dsimp only [s2]
        split
        · exact canon_modTile h1 _ fun _ => wf_nil
        · exact h1
      simpa using h2
  · exact h

@[simp] theorem mems_execSweepSwtExpiry : OutAll (Same s) (execSweepSwtExpiry s) := by
  unfold execSweepSwtExpiry
  dsimp only
  repeat' split
  all_goals simp

@[simp] theorem mems_execSweepCleanResult : OutAll (Same s) (execSweepCleanResult s) := by
  unfold execSweepCleanResult
  dsimp only
  repeat' split
  all_goals simp

/-- Unfolded before it is applied, as `setLeaf` is. -/
theorem canon_scrubFrame (h : Canon s) {mode frame n} : Canon (scrubFrame s mode frame n) := by
  have hfun : scrubFrame = scrubFrame := rfl
  conv_rhs at hfun => delta scrubFrame
  rw [hfun]
  beta_reduce
  generalize frameDev mode frame = x
  cases x with
  | none => exact h
  | some d => exact canon_hbm h (wf_filter h.2.1 _)

theorem canon_dropTier (h : Canon s) (ctx : Nat) :
    Canon { s with tier := s.tier.filter (fun c => !decide (c.1 / 2 ^ 43 = ctx)) } :=
  canon_tier h (wf_filter h.2.2 _)

theorem canon_execPurgeConfirmed (h : Canon s) : OutAll Canon (execPurgeConfirmed s) := by
  unfold execPurgeConfirmed
  split
  · extract_lets x s1 s2
    have h1 : Canon s1 := canon_foldl h fun s l hs => by
      split
      · exact hs
      · exact canon_scrubFrame hs
    have h2 : Canon s2 := canon_dropTier h1 _
    split
    · exact h
    · exact canon_of_same h2 (mems_modCtx ..)
  · exact h

/-! ### Kernels (R246, R248) -/

theorem canon_pinImage (h : Canon s) {ctx pages} : Canon (pinImage s ctx pages).1 := by
  refine canon_foldl_fst (r := (s, [])) h fun r va hr => ?_
  split
  · exact hr
  · exact canon_setLeaf hr

theorem canon_loadKernel (h : Canon s) {ctx kimg hd} : Canon (loadKernel s ctx kimg hd) :=
  canon_of_same (canon_pinImage h) (mems_modCtx ..)

theorem canon_execKernelLoadRequest (h : Canon s) : OutAll Canon (execKernelLoadRequest s) := by
  unfold execKernelLoadRequest
  split
  · dsimp only
    split
    · simpa using h
    · split
      · simpa using h
      · split
        · simpa using h
        · split
          · simpa using h
          · split
            · simpa using h
            · exact canon_loadKernel h
  · exact h

@[simp] theorem mems_execKernelResetRequest : OutAll (Same s) (execKernelResetRequest s) := by
  unfold execKernelResetRequest
  repeat' split
  all_goals simp

theorem canon_execKernelRetireRequest (h : Canon s) : OutAll Canon (execKernelRetireRequest s) := by
  unfold execKernelRetireRequest
  split
  · split
    · split
      · simpa using canon_unpinImage h
      · simpa using h
    · simpa using h
  · exact h

/-! ### Requests to the monitor (R212, Table 11.1) -/

theorem canon_monitorAct (h : Canon s) {m} : Canon (monitorAct s m) := by
  unfold monitorAct
  dsimp only
  split
  · simpa using h
  · simpa using h
  · simpa using h
  · simpa using h
  · simpa using h
  · exact canon_startSweep h
  · simpa using h
  · simpa using h
  · split
    · exact h
    · exact canon_startSweep (canon_of_same h (mems_report ..))

theorem canon_execMonitorRequest (h : Canon s) : OutAll Canon (execMonitorRequest s) := by
  unfold execMonitorRequest
  split
  · split
    · exact h
    · exact canon_monitorAct h
  · exact h

/-! ### Replies (R226, R240) -/

@[simp] theorem mems_answer (q) : mems (answer s q).1 = mems s := by
  unfold answer; split <;> simp
@[simp] theorem mems_deliverReply (t n gen d holds v) : mems (deliverReply s t n gen d holds v) = mems s := by
  simp [deliverReply]

@[simp] theorem mems_execDispatcherReply : OutAll (Same s) (execDispatcherReply s) := by
  unfold execDispatcherReply
  dsimp only
  repeat' split
  all_goals simp

/-! ### `sys` (R226) -/

theorem canon_attestAt (h : Canon s) {t n a} : OkOr (ErrAll Canon) Canon (attestAt s t n a) := by
  have hr := mems_localRead (s := s) t n a.toNat 48
  unfold attestAt
  split
  · trivial
  · split
    · next he => exact (hr.of_error he).mono fun _ => canon_of_same h
    · next he => exact canon_engineWrite (canon_of_same h (hr.of_ok he))

@[simp] theorem mems_execSys (p k d a) : OutAll (Same s) (execSys p k d a s) :=
  mems_issue (by simp)
@[simp] theorem mems_replyShadow (t n d k x v) : mems (replyShadow s t n d k x v) = mems s := by
  unfold replyShadow; split <;> simp

theorem canon_execSysReply (h : Canon s) : OutAll Canon (execSysReply s) := by
  unfold execSysReply
  split
  · next t n gen d k x v b _ =>
    have ha := canon_attestAt h (t := t) (n := n) (a := x)
    dsimp only
    split
    · split
      · simpa using h
      · exact h
    · split
      · simpa using h
      · split
        · split
          · split
            · next he => simpa using ha.of_ok he
            · next he => simpa using ha.of_error he
            · simpa using h
          · simpa using h
        · simpa using h
  · exact h

/-! ### `trap`, `tret`, `kill`, `dbg` (R225, R227, R228) -/

@[simp] theorem mems_execTrap (p n) : OutAll (Same s) (execTrap p n s) :=
  mems_issue (by simp)
@[simp] theorem mems_execTret (p) : OutAll (Same s) (execTret p s) :=
  mems_issue (by simp)
@[simp] theorem mems_execKill (p c) : OutAll (Same s) (execKill p c s) :=
  mems_issue (by simp)
theorem canon_execKillCtx (h : Canon s) {p a c} : OutAll Canon (execKillCtx p a c s) :=
  canon_issue h (canon_startSweep h)
@[simp] theorem mems_execDbgRd (p d) : OutAll (Same s) (execDbgRd p d s) :=
  mems_issue (by simp)
@[simp] theorem mems_execDbgMark (p a v) : OutAll (Same s) (execDbgMark p a v s) :=
  mems_issue (by simp)
@[simp] theorem mems_execDbgBrk (p v) : OutAll (Same s) (execDbgBrk p v s) :=
  mems_issue (by simp)

/-! ### `ctxs` (R219, R224) -/

@[simp] theorem mems_execCtxsRd (p w d a) : OutAll (Same s) (execCtxsRd p w d a s) :=
  mems_issue (by simp)
@[simp] theorem mems_monForm (p len d srcs) {f} (hf : ∀ t n, mems (f s t n).1 = mems s) :
    OutAll (Same s) (monForm p len d srcs f s) := mems_issue (by simp [hf])
@[simp] theorem mems_execCtxsNew (p d a b) : OutAll (Same s) (execCtxsNew p d a b s) := by simp [execCtxsNew]
@[simp] theorem mems_execCtxsSeg (p a b) : OutAll (Same s) (execCtxsSeg p a b s) :=
  mems_issue (by simp)
@[simp] theorem mems_execCtxsGo (p d a) : OutAll (Same s) (execCtxsGo p d a s) := by simp [execCtxsGo]
@[simp] theorem mems_execCtxsSave (p d a) : OutAll (Same s) (execCtxsSave p d a s) := by simp [execCtxsSave]
@[simp] theorem mems_execCtxsRest (p d a) : OutAll (Same s) (execCtxsRest p d a s) := by simp [execCtxsRest]

/-! ### Energy, heat and test (R359 to R363) -/

@[simp] theorem mems_execReservoirTick : OutAll (Same s) (execReservoirTick s) := by
  unfold execReservoirTick
  dsimp only
  repeat' split
  all_goals simp

@[simp] theorem mems_dieForm (f p d a) : OutAll (Same s) (dieForm f p d a s) :=
  mems_issue (by simp)
@[simp] theorem mems_execEcntK (p w d a) : OutAll (Same s) (execEcntK p w d a s) :=
  mems_issue (by simp)
@[simp] theorem mems_execEcntRes (p d a) : OutAll (Same s) (execEcntRes p d a s) := by simp [execEcntRes]
@[simp] theorem mems_execEcntThm (p d a) : OutAll (Same s) (execEcntThm p d a s) := by simp [execEcntThm]
@[simp] theorem mems_execEcntTs (p k d a) : OutAll (Same s) (execEcntTs p k d a s) := by simp [execEcntTs]
@[simp] theorem mems_execEcntSet (p r a b) : OutAll (Same s) (execEcntSet p r a b s) :=
  mems_issue (by simp)
@[simp] theorem mems_execTstRd (p u d a) : OutAll (Same s) (execTstRd p u d a s) :=
  mems_issue (by simp)
@[simp] theorem mems_execTstReq (p d a) : OutAll (Same s) (execTstReq p d a s) := by simp [execTstReq]

/-! ### The ORPHAN check (R87, R96) -/

@[simp] theorem mems_execIdleWatchdogExpiry : OutAll (Same s) (execIdleWatchdogExpiry s) := by
  unfold execIdleWatchdogExpiry
  dsimp only
  repeat' split
  all_goals simp

/-! ### Degradations (R341) -/

@[simp] theorem mems_degrade (l kind) : mems (degrade s l kind) = mems s := by simp [degrade]

/-! ### Training and retraining (R336, R337) -/

@[simp] theorem mems_freeBit : mems (freeBit s).2 = mems s := by simp [freeBit]
@[simp] theorem mems_enterTraining (l step) : mems (enterTraining s l step) = mems s := by simp [enterTraining]
@[simp] theorem mems_requestStep (l step) : mems (requestStep s l step) = mems s := by simp [requestStep]
@[simp] theorem mems_closeLink (l) : mems (closeLink s l) = mems s := by simp [closeLink]
@[simp] theorem mems_shiftFlows (l n) : mems (shiftFlows s l n) = mems s := by simp [shiftFlows]
@[simp] theorem mems_losePackets (l) : mems (losePackets s l) = mems s := by simp [losePackets]
@[simp] theorem mems_loseFlits (l) : mems (loseFlits s l) = mems s := by simp [loseFlits]
@[simp] theorem mems_dieLost (l) : mems (dieLost s l) = mems s := by simp [dieLost]
@[simp] theorem mems_enterFailed (l) : mems (enterFailed s l) = mems s := by simp [enterFailed]

/-! ### Flits (R330 to R335, R340) -/

@[simp] theorem mems_sendFlit (l d dir f) : mems (sendFlit s l d dir f) = mems s := by simp [sendFlit]
@[simp] theorem mems_sendNull (l dir ack nak cvc crd) : mems (sendNull s l dir ack nak cvc crd) = mems s := by
  simp [sendNull]
@[simp] theorem mems_governor (l) : mems (governor s l) = mems s := by simp [governor]
@[simp] theorem mems_rewind (l dir) : mems (rewind s l dir) = mems s := by simp [rewind]
@[simp] theorem mems_flitSent (l dir f) : mems (flitSent s l dir f) = mems s := by simp [flitSent]
@[simp] theorem mems_flitEnters (l dir f) : mems (flitEnters s l dir f) = mems s := by simp [flitEnters]

@[simp] theorem mems_drainWait (l dir n) : mems (drainWait s l dir n) = mems s := by
  induction n generalizing s with
  | zero => rfl
  | succ n ih =>
    unfold drainWait
    dsimp only
    split
    · rfl
    · simp [ih]

@[simp] theorem mems_serveBars (l dir) : mems (serveBars s l dir) = mems s := by simp [serveBars]
@[simp] theorem mems_flitAcks (l dir f) : mems (flitAcks s l dir f) = mems s := by simp [flitAcks]
@[simp] theorem mems_sendNak (l dir) : mems (sendNak s l dir) = mems s := by simp [sendNak]
@[simp] theorem mems_flitTaken (l dir f) : mems (flitTaken s l dir f) = mems s := by simp [flitTaken]
@[simp] theorem mems_unknownFlit (f) : mems (unknownFlit s f).2 = mems s := by simp [unknownFlit]
@[simp] theorem mems_newFlit (l dir f) : mems (newFlit s l dir f) = mems s := by
  unfold newFlit; split <;> simp

@[simp] theorem mems_execFlitReceive : OutAll (Same s) (execFlitReceive s) := by
  unfold execFlitReceive
  dsimp only
  repeat' split
  all_goals simp

@[simp] theorem mems_execReplayTimeout : OutAll (Same s) (execReplayTimeout s) := by
  unfold execReplayTimeout
  dsimp only
  repeat' split
  all_goals simp

/-! ### The end of a training (R336, R337, R341) -/

@[simp] theorem mems_trained (l step) : mems (trained s l step) = mems s := by simp [trained]
@[simp] theorem mems_trainFails (l fails step) : mems (trainFails s l fails step) = mems s := by simp [trainFails]
@[simp] theorem mems_tryLanes (l) : mems (tryLanes s l) = mems s := by simp [tryLanes]

@[simp] theorem mems_execLinkTrainingDone : OutAll (Same s) (execLinkTrainingDone s) := by
  unfold execLinkTrainingDone
  dsimp only
  repeat' split
  all_goals simp

@[simp] theorem mems_execLinkRetrainDone : OutAll (Same s) (execLinkRetrainDone s) := by
  unfold execLinkRetrainDone
  dsimp only
  repeat' split
  all_goals simp

/-! ### Stepping with traffic (R339) and routes (R329) -/

@[simp] theorem mems_execAutoStepDown : OutAll (Same s) (execAutoStepDown s) := by
  unfold execAutoStepDown
  dsimp only
  repeat' split
  all_goals simp

@[simp] theorem mems_execAutoStepUp : OutAll (Same s) (execAutoStepUp s) := by
  unfold execAutoStepUp
  dsimp only
  repeat' split
  all_goals simp

@[simp] theorem mems_execRouteTableChange : OutAll (Same s) (execRouteTableChange s) := by
  unfold execRouteTableChange; split <;> simp

/-! ### Link forms (R343, R344, Tables 18.5 to 18.8) -/

@[simp] theorem mems_execLnkrd (p r d a) : OutAll (Same s) (execLnkrd p r d a s) :=
  mems_issue (by simp)
@[simp] theorem mems_lnkSet (L v) : mems (lnkSet s L v).1 = mems s := by simp [lnkSet]
@[simp] theorem mems_lnkUp (L) : mems (lnkUp s L).1 = mems s := by simp [lnkUp]
@[simp] theorem mems_lnkDown (L) : mems (lnkDown s L).1 = mems s := by simp [lnkDown]
@[simp] theorem mems_lnkRet (L n) : mems (lnkRet s L n).1 = mems s := by simp [lnkRet]
@[simp] theorem mems_execLnkset (p d a b) : OutAll (Same s) (execLnkset p d a b s) := by simp [execLnkset]
@[simp] theorem mems_execLnksetUp (p d a) : OutAll (Same s) (execLnksetUp p d a s) := by simp [execLnksetUp]
@[simp] theorem mems_execLnksetDown (p d a) : OutAll (Same s) (execLnksetDown p d a s) := by simp [execLnksetDown]
@[simp] theorem mems_execLnkret (p n d a) : OutAll (Same s) (execLnkret p n d a s) := by simp [execLnkret]

/-! ### The end of a cycle -/

@[simp] theorem mems_stepUps : mems (stepUps s) = mems s := by simp [stepUps]
@[simp] theorem mems_stepDowns : mems (stepDowns s) = mems s := by simp [stepDowns]
@[simp] theorem mems_tickLinks : mems (tickLinks s) = mems s := by simp [tickLinks]

/-! ### The scalar forms 0x00 to 0x1C -/

@[simp] theorem mems_execNop (p) : OutAll (Same s) (execNop p s) :=
  mems_issue (by simp)

/-! ### The forms of R61 and R99 -/

@[simp] theorem mems_aluNow (f p o) : OutAll (Same s) (aluNow f p o s) :=
  mems_issue (by simp)
@[simp] theorem mems_aluLate (lat f p o) : OutAll (Same s) (aluLate lat f p o s) :=
  mems_issue (by simp)
@[simp] theorem mems_execAdd (p o) : OutAll (Same s) (execAdd p o s) := by simp [execAdd]
@[simp] theorem mems_execSub (p o) : OutAll (Same s) (execSub p o s) := by simp [execSub]
@[simp] theorem mems_execMul (p o) : OutAll (Same s) (execMul p o s) := by simp [execMul]
@[simp] theorem mems_execMulh (p o) : OutAll (Same s) (execMulh p o s) := by simp [execMulh]
@[simp] theorem mems_execDiv (p o) : OutAll (Same s) (execDiv p o s) := by simp [execDiv]
@[simp] theorem mems_execRem (p o) : OutAll (Same s) (execRem p o s) := by simp [execRem]
@[simp] theorem mems_execAnd (p o) : OutAll (Same s) (execAnd p o s) := by simp [execAnd]
@[simp] theorem mems_execOr (p o) : OutAll (Same s) (execOr p o s) := by simp [execOr]
@[simp] theorem mems_execXor (p o) : OutAll (Same s) (execXor p o s) := by simp [execXor]
@[simp] theorem mems_execAndn (p o) : OutAll (Same s) (execAndn p o s) := by simp [execAndn]
@[simp] theorem mems_execShl (p o) : OutAll (Same s) (execShl p o s) := by simp [execShl]
@[simp] theorem mems_execShr (p o) : OutAll (Same s) (execShr p o s) := by simp [execShr]
@[simp] theorem mems_execSra (p o) : OutAll (Same s) (execSra p o s) := by simp [execSra]
@[simp] theorem mems_execRot (p o) : OutAll (Same s) (execRot p o s) := by simp [execRot]
@[simp] theorem mems_execMin (p o) : OutAll (Same s) (execMin p o s) := by simp [execMin]
@[simp] theorem mems_execMax (p o) : OutAll (Same s) (execMax p o s) := by simp [execMax]

/-! ### Other scalar forms (R100 to R102) -/

@[simp] theorem mems_execCmp (p cond d a b imm) : OutAll (Same s) (execCmp p cond d a b imm s) :=
  mems_issue (by simp)
@[simp] theorem mems_execSel (p d a b c neg) : OutAll (Same s) (execSel p d a b c neg s) :=
  mems_issue (by simp)
@[simp] theorem mems_unaryG (f p d a) : OutAll (Same s) (unaryG f p d a s) :=
  mems_issue (by simp)
@[simp] theorem mems_execBitcClz (p d a) : OutAll (Same s) (execBitcClz p d a s) := by simp [execBitcClz]
@[simp] theorem mems_execBitcCtz (p d a) : OutAll (Same s) (execBitcCtz p d a s) := by simp [execBitcCtz]
@[simp] theorem mems_execBitcPopc (p d a) : OutAll (Same s) (execBitcPopc p d a s) := by simp [execBitcPopc]
@[simp] theorem mems_execExt (p sx d a pos len) : OutAll (Same s) (execExt p sx d a pos len s) :=
  mems_issue (by simp)
@[simp] theorem mems_execIns (p d a pos len) : OutAll (Same s) (execIns p d a pos len s) :=
  mems_issue (by simp)
@[simp] theorem mems_execLi (p d v) : OutAll (Same s) (execLi p d v s) :=
  mems_issue (by simp)
@[simp] theorem mems_execLea (p sc d a b imm) : OutAll (Same s) (execLea p sc d a b imm s) :=
  mems_issue (by simp)
@[simp] theorem mems_execGtaIdx (p d a b) : OutAll (Same s) (execGtaIdx p d a b s) :=
  mems_issue (by simp)
@[simp] theorem mems_execGtaRel (p d b drow dcol) : OutAll (Same s) (execGtaRel p d b drow dcol s) :=
  mems_issue (by simp)
@[simp] theorem mems_execPlog (p tt d a b) : OutAll (Same s) (execPlog p tt d a b s) :=
  mems_issue (by simp)
@[simp] theorem mems_execAddc (p wd d a b pc) : OutAll (Same s) (execAddc p wd d a b pc s) :=
  mems_issue (by simp)

/-! ### Special registers (R90 to R92) -/

@[simp] theorem mems_specialWrite (t n r v) : mems (specialWrite s t n r v) = mems s := by
  unfold specialWrite; split <;> simp
@[simp] theorem mems_execMfs (p d r) : OutAll (Same s) (execMfs p d r s) := by
  refine mems_issue ?_; split <;> simp
@[simp] theorem mems_execMts (p a r) : OutAll (Same s) (execMts p a r s) :=
  mems_issue (by simp)

/-! ### Which strand issues (R86), and the fetch at its PC with checks 1 to 6 of R55 (R54, R88, R89) -/

@[simp] theorem mems_beginIssue (t n) : mems (beginIssue s t n) = mems s := by simp [beginIssue]

theorem mems_fetchAt_run {t pc i s'} (hf : fetchAt s t pc = .run i s') : mems s' = mems s := by
  unfold fetchAt at hf
  dsimp only at hf
  repeat' split at hf
  all_goals cases hf
  simp

theorem mems_fetchAt_stall {t pc w s'} (hf : fetchAt s t pc = .stall w s') : mems s' = mems s := by
  unfold fetchAt at hf
  dsimp only at hf
  repeat' split at hf
  all_goals cases hf
  · rfl
  · simp

@[simp] theorem mems_afterIssue (was t n) : mems (afterIssue was t n s) = mems s := by simp [afterIssue]

/-! ### Steps of the engines -/

@[simp] theorem mems_endIssue : mems (endIssue s) = mems s := by simp [endIssue]
@[simp] theorem mems_sluice : mems (sluice s) = mems s := by simp [sluice]

/-! ### Waits -/

@[simp] theorem mems_compareCounter (t n thr ct sub pf start tmo) : mems (compareCounter s t n thr ct sub pf start tmo) = mems s := by
  simp [compareCounter]
@[simp] theorem mems_comparePlanes (t n x k pf start tmo) : mems (comparePlanes s t n x k pf start tmo) = mems s := by
  simp [comparePlanes]

@[simp] theorem mems_tickStrand (t n) : mems (tickStrand s t n) = mems s := by
  unfold tickStrand
  dsimp only
  repeat' split
  all_goals simp

/-! ### Tiles -/

@[simp] theorem mems_watchdog (t) : mems (watchdog s t) = mems s := by simp [watchdog]
@[simp] theorem mems_drawEnergy (t) : mems (drawEnergy s t) = mems s := by simp [drawEnergy]

theorem canon_tickTile (h : Canon s) {t} : Canon (tickTile s t) := by
  unfold tickTile
  extract_lets s1 T s2 s3 s4
  have h1 : Canon s1 := canon_of_same h (mems_foldl fun s n => mems_tickStrand ..)
  have h2 : Canon s2 := canon_of_same (canon_drainTick (canon_of_same h1 (mems_noteReady ..))) (mems_dropDrains ..)
  split
  · exact h1
  · exact canon_of_same h2 (by simp [s4, s3])

@[simp] theorem mems_owedRaises (t) : mems (owedRaises s t) = mems s := by simp [owedRaises]

/-! ### The package -/

@[simp] theorem mems_periodic : mems (periodic s) = mems s := by simp [periodic]

theorem canon_endCycle (h : Canon s) : Canon (endCycle s) := by
  unfold endCycle
  extract_lets s1 s2 s3 s4 s5
  have h1 : Canon s1 := canon_foldl h fun _ _ hs => canon_tickTile hs
  have h3 : Canon s3 := canon_of_same h1 ((mems_foldl fun s e => mems_tickCluster ..).trans (mems_foldl fun s g => mems_tickGroup ..))
  have hserve : Canon ((List.range 32).foldl serveOffl s3) := canon_foldl h3 fun _ _ hs => canon_serveOffl hs
  have h4 : Canon s4 := canon_of_same hserve (by simp [s4])
  exact canon_of_same h4 (by simp [s5])

theorem canon_tick (h : Canon s) : Canon (tick s) := by
  unfold tick
  split
  · exact canon_of_same h (mems_sluice ..)
  · split
    · refine canon_of_same h (mems_foldl fun s e => ?_)
      split
      · rfl
      · exact mems_sendVotes ..
    · exact canon_endCycle h

theorem canon_of_frame (h : Canon s) {o : Host.Outcome State Fault Refusal} (ho : OutAll (Same s) o) : OutAll Canon o := by
  cases o with
  | next s' => exact canon_of_same h ho
  | fault r => trivial
  | refused r => trivial

/-! ### One step of the package -/

/-- Every instruction keeps the form: those that write memory by the lemma of their arm, the others since they leave it. -/
theorem canon_exec (h : Canon s) (i : Instr) : OutAll Canon (exec i s) := by
  cases i
  case st => exact canon_execSt h
  case stw => exact canon_execStw h
  case st4 => exact canon_execSt4 h
  case stu => exact canon_execStu h
  case deltaArrival => exact canon_execDeltaArrival h
  case foreshoreWriteArrival => exact canon_execForeshoreWriteArrival h
  case msgArrival => exact canon_execMsgArrival h
  case ovlDone => exact canon_execOvlDone h
  case nrmSt => exact canon_execNrmSt h
  case svarSt => exact canon_execSvarSt h
  case streamPieceFetched => exact canon_execStreamPieceFetched h
  case streamOutPiecePerformed => exact canon_execStreamOutPiecePerformed h
  case copyCmdPerformed => exact canon_execCopyCmdPerformed h
  case partialTileWritten => exact canon_execPartialTileWritten h
  case adderCmdPerformed => exact canon_execAdderCmdPerformed h
  case atbDone => exact canon_execAtbDone h
  case smplBatchDecision => exact canon_execSmplBatchDecision h
  case clusterWake => exact canon_execClusterWake h
  case clusterGate => exact canon_execClusterGate h
  case testStart => exact canon_execTestStart h
  case testDone => exact canon_execTestDone h
  case pageAccess => exact canon_execPageAccess h
  case offlCopyDone => exact canon_execOfflCopyDone h
  case retnCopyDone => exact canon_execRetnCopyDone h
  case pageTableWrite => exact canon_execPageTableWrite h
  case writebackDrain => exact canon_execWritebackDrain h
  case offl => exact canon_execOffl h
  case retn => exact canon_execRetn h
  case pin => exact canon_execPin h
  case pinClr => exact canon_execPinClr h
  case pinUns => exact canon_execPinUns h
  case collAllLaunched => exact canon_execCollAllLaunched h
  case planeLanded => exact canon_execPlaneLanded h
  case collConsumerDone => exact canon_execCollConsumerDone h
  case prdLa => exact canon_execPrdLa h
  case resultDelivery => exact canon_execResultDelivery h
  case decisionRelease => exact canon_execDecisionRelease h
  case releaseCommitAtTile => exact canon_execReleaseCommitAtTile h
  case releaseAbortAtTile => exact canon_execReleaseAbortAtTile h
  case groupStart => exact canon_execGroupStart h
  case foldTurnChange => exact canon_execFoldTurnChange h
  case reshapeDone => exact canon_execReshapeDone h
  case coldReset => exact canon_execColdReset h
  case monitorImageReceive => exact canon_execMonitorImageReceive h
  case saveComplete => exact canon_execSaveComplete h
  case sweepTokenAtTile => exact canon_execSweepTokenAtTile h
  case purgeConfirmed => exact canon_execPurgeConfirmed h
  case kernelLoadRequest => exact canon_execKernelLoadRequest h
  case kernelRetireRequest => exact canon_execKernelRetireRequest h
  case monitorRequest => exact canon_execMonitorRequest h
  case sysReply => exact canon_execSysReply h
  case killCtx => exact canon_execKillCtx h
  all_goals exact canon_of_frame h (by simp)

theorem canon_onNext {f : State → State} {o : Host.Outcome State Fault Refusal} (hf : ∀ s', Canon s' → Canon (f s'))
    (ho : OutAll Canon o) : OutAll Canon (onNext f o) := by
  cases o with
  | next s' => exact hf s' ho
  | fault r => trivial
  | refused r => trivial

theorem canon_eventStep (h : Canon s) (e : Ev) : OutAll Canon (eventStep s e) :=
  canon_onNext (fun _ hs => hs) (canon_exec (s := { s with ev := some e }) h _)

theorem canon_issueStep (h : Canon s) (t : TileId) (n : StrandNo) : OutAll Canon (issueStep s t n) := by
  have hb : Canon (beginIssue s t n) := canon_of_same h (mems_beginIssue ..)
  unfold issueStep
  dsimp only
  split
  · next hf =>
    exact canon_onNext (fun _ hs => canon_of_same hs (mems_afterIssue _ _ _))
      (canon_exec (canon_of_same hb (mems_fetchAt_run hf)) _)
  · exact canon_eventStep hb _
  · next hf => exact canon_of_same hb ((mems_passOn ..).trans (mems_fetchAt_stall hf))

theorem canon_cycleStep (h : Canon s) : OutAll Canon (cycleStep s) := by
  unfold cycleStep
  split
  · exact canon_issueStep h _ _
  · split
    · exact canon_of_same h (mems_endIssue ..)
    · exact canon_tick h

/-- A step of the package keeps every memory in its canonical form. -/
theorem canon_step (h : Canon s) : OutAll Canon (step s) := by
  unfold step
  split
  · exact canon_cycleStep h
  · split
    · next r _ _ => exact canon_eventStep (s := { s with agenda := r }) h _
    · exact canon_cycleStep h
end

/-- Settles O35: the step function's parts keep the form one by one; what writes memory does so by `Mem.store`, `Mem.write`, a
window or a filter of a memory in the form. -/
theorem memoryCanonical : Obligations.MemoryCanonical := by
  unfold Obligations.MemoryCanonical
  intro s s' h hs
  have hstep : OutAll Canon (step s) := canon_step (canon_iff.2 h)
  rw [hs] at hstep
  exact canon_iff.1 hstep

end Sys2Proof.Laws

/-! SUPPORT and O8. What cold reset leaves (Tables 4.5, 11.4, 12.4, 18.3, 18.6, 20.1). -/

namespace Sys2Proof.Laws
open Sys2Proof Sys2Proof.Machine

/-- No tile is listed at reset, so each is the one that the tables of reset values give. -/
@[simp] theorem tile_reset (t : TileId) : State.reset.tile t = {} := rfl

/-- Each of the tables' 32 strands is the same. -/
@[simp] theorem strand_reset (t : TileId) (n : StrandNo) : State.reset.strand t n = {} := by
  simp [State.strand]

@[simp] theorem ctx_reset (c : Nat) : State.reset.ctx c = {} := by
  by_cases hc : c < 32 <;> simp [State.ctx, State.reset, hc]

@[simp] theorem link_reset (l : Fin 64) : State.reset.links[l.val] = { cold := true } := by
  simp [State.reset]

@[simp] theorem die_reset (d : Fin 4) : State.reset.dies[d.val] = { enabled := fusedBitmap d.val } := by
  simp [State.reset]

/-- A die's fuses leave at least 960 positions enabled (R16). -/
theorem fusedBitmap_count (d : Nat) : 960 ≤ (List.range 1024).countP (fun i => (fusedBitmap d).getLsbD i) := by
  have hcount := fusedEnable_count d
  rw [← List.countP_eq_length_filter] at hcount
  rwa [List.countP_congr fun i hi => by rw [fusedBitmap_getLsbD d i (List.mem_range.1 hi)]]

/-- Settles O8: each part of the state at reset is a constant; the count of enabled positions is a fact of the fuses. -/
theorem resetState : Obligations.ResetState := by
  unfold Obligations.ResetState
  refine ⟨rfl, rfl, rfl, rfl, fun t => ?_, fun c => by simp, fun l => by simp, rfl, rfl, fun d => ?_, canon_reset⟩
  · simp
  · simpa using fusedBitmap_count d.val

end Sys2Proof.Laws

/-! SUPPORT and O41. The remote path: what a packet takes to its target, and the forms that send one (R21, R106 to R110). -/

namespace Sys2Proof.Laws
open Sys2Proof Sys2Proof.Machine

/-! ### The way of a packet -/

/-- One more path of a way: the link that the flow takes there, and when the packet has crossed it. -/
theorem legsOf_concat (s : State) (src dst : Nat) (ps : List (Nat × List Nat)) (p : Nat × List Nat) :
    legsOf s src dst (ps ++ [p]) = (legsOf s src dst ps).bind fun ls => (flowLink s src dst p.2).map fun l =>
      ls ++ [(l, p.1, max ((ls.getLast?.map (fun x => x.2.2)).getD s.cycle) (linkFrom s l) + 96)] := by
  unfold legsOf
  rw [List.foldl_append]
  generalize ps.foldl _ _ = r
  cases r with
  | none => rfl
  | some ls =>
    refine congrArg (Option.map · (flowLink s src dst p.2)) (funext fun l => ?_)
    simp only [max_def_lt]

/-- The legs of a way: one link of each path, each crossed in 96 cycles after the link's start and the leg before it. -/
theorem legsOf_spec {s : State} {src dst : Nat} {ps : List (Nat × List Nat)} {ls : List (Nat × Nat × Nat)}
    (h : legsOf s src dst ps = some ls) : ls.length = ps.length ∧
      ∀ i l f c, ls[i]? = some (l, f, c) → (∃ p, ps[i]? = some p ∧ f = p.1 ∧ flowLink s src dst p.2 = some l) ∧
        c = 96 + max (linkFrom s l) (if i = 0 then s.cycle else ((ls[i - 1]?).map (fun x => x.2.2)).getD 0) := by
  induction ps using List.reverseRecOn generalizing ls with
  | nil =>
    obtain rfl : [] = ls := Option.some.inj h
    simp
  | append_singleton ps p ih =>
    rw [legsOf_concat, Option.bind_eq_some_iff] at h
    obtain ⟨ls0, h0, hmap⟩ := h
    obtain ⟨l, hl, rfl⟩ := Option.map_eq_some_iff.1 hmap
    obtain ⟨hlen, hleg⟩ := ih h0
    refine ⟨by simp [hlen], fun i l' f c hi => ?_⟩
    rcases Nat.lt_trichotomy i ls0.length with hlt | rfl | hgt
    · rw [List.getElem?_append_left hlt] at hi
      rw [List.getElem?_append_left (hlen ▸ hlt), List.getElem?_append_left (by omega)]
      exact hleg i l' f c hi
    · simp only [List.getElem?_concat_length, Option.some.injEq, Prod.mk.injEq] at hi
      obtain ⟨rfl, rfl, rfl⟩ := hi
      refine ⟨⟨p, by simp [hlen], rfl, hl⟩, ?_⟩
      rw [Nat.add_comm, max_comm]
      cases ls0 using List.reverseRecOn with
      | nil => rfl
      | append_singleton ls1 x _ => simp
    · rw [List.getElem?_eq_none (by simp; omega)] at hi
      cases hi

/-- When a packet comes on the way that it finds: its arrival is scheduled, or it stays with its sender. -/
theorem sendFlow_agenda (s : State) (src a b : Nat) (group : Option Nat) (d : Nat) (e : Ev) :
    (s.sendFlow src a b group d e).agenda = (legsOf s src b (packetPaths s src a b)).elim s.agenda fun ls =>
      (s.post (d + meshHops a b + ((ls.getLast?.map (fun x => x.2.2)).getD s.cycle - s.cycle)) e).agenda := by
  unfold State.sendFlow
  cases legsOf s src b (packetPaths s src a b) with
  | none => rfl
  | some ls =>
    dsimp only
    split <;> rfl

theorem send_agenda (s : State) (a b : Nat) (engine : Bool) (own : TileId) (d : Nat) (e : Ev) :
    (s.send a b engine own d e).agenda =
      (legsOf s (2 * a + engine.toNat) b (packetPaths s (2 * a + engine.toNat) a b)).elim s.agenda fun ls =>
        (s.post (d + meshHops a b + ((ls.getLast?.map (fun x => x.2.2)).getD s.cycle - s.cycle)) e).agenda :=
  sendFlow_agenda ..

/-- What is sent changes no tile. -/
@[simp] theorem sendFlow_tiles (s : State) (src a b : Nat) (group : Option Nat) (d : Nat) (e : Ev) :
    (s.sendFlow src a b group d e).tiles = s.tiles := by
  unfold State.sendFlow
  split
  · rfl
  · dsimp only
    split <;> rfl

@[simp] theorem sendFlow_cur (s : State) (src a b : Nat) (group : Option Nat) (d : Nat) (e : Ev) :
    (s.sendFlow src a b group d e).cur = s.cur := by
  unfold State.sendFlow
  split
  · rfl
  · dsimp only
    split <;> rfl

/-- The way of a packet does not depend on the tiles. -/
theorem legsOf_modTile (s : State) (t : TileId) (f : Tile → Tile) (src dst : Nat) (ps : List (Nat × List Nat)) :
    legsOf (s.modTile t f) src dst ps = legsOf s src dst ps := rfl

theorem packetPaths_modTile (s : State) (t : TileId) (f : Tile → Tile) (src a b : Nat) :
    packetPaths (s.modTile t f) src a b = packetPaths s src a b := rfl

theorem send_agenda_modTile (s : State) (t : TileId) (f : Tile → Tile) (a b : Nat) (engine : Bool) (own : TileId) (d : Nat)
    (e : Ev) : ((s.modTile t f).send a b engine own d e).agenda = (s.send a b engine own d e).agenda := by
  rw [send_agenda, send_agenda, packetPaths_modTile, legsOf_modTile]
  rfl

theorem packetPaths_same_die (s : State) (src : Nat) {a b : Nat} (hb : b < 8192) (h : dieOf a = dieOf b) :
    packetPaths s src a b = [] := by
  rw [packetPaths, if_pos hb, pathsOf, if_pos h]

theorem sends : Spec.Sends := by
  intro s a b engine own d e hb
  have hhops : meshHops a b = absDiff (rowOf a) (rowOf b) + absDiff (colOf a) (colOf b) := if_pos hb
  refine ⟨fun hdie => ?_, fun hnone => ?_, fun ls hls => ?_⟩
  · simp [State.send, State.sendFlow, packetPaths_same_die s _ hb hdie, legsOf, hhops]
  · rw [State.send, State.sendFlow, hnone]
    exact ⟨rfl, _, rfl, rfl, rfl, rfl⟩
  · obtain ⟨hlen, hleg⟩ := legsOf_spec hls
    refine ⟨hlen, ?_, hleg⟩
    rw [send_agenda, hls, hhops]
    rfl

/-! ### Issue -/

section
variable {s s' : State} {p : Pred} {who : Who} {srcs : List Src} {dsts : List Dst} {len : Nat}
  {body : State → TileId → StrandNo → Act}

/-- An instruction that goes on to an effect which completes. -/
theorem issue_done (h : Ready s p who srcs dsts) (hb : body s s.cur.1 s.cur.2 = .done s') :
    issue p len who srcs dsts body s = .next (retired s s' len) := by
  rw [issue_ready h, hb, finishAct_done]

/-- An instruction that goes on to an effect which waits for an event. -/
theorem issue_block {w : Wait} (h : Ready s p who srcs dsts) (hb : body s s.cur.1 s.cur.2 = .block w s') :
    issue p len who srcs dsts body s = .next (blocked s s' len w) := by
  rw [issue_ready h, hb, finishAct_block]

end

/-! ### Remote stores, adds and messages -/

section
variable {s : State} {x : Word} {n : Nat}

/-- The state from which something is sent: the access is noted as outstanding. -/
def noted (s : State) (x : Word) (load : Bool) : State :=
  (bumpOp s s.cur.1).modStrand s.cur.1 s.cur.2 (fun S =>
    { S with ops := S.ops ++ [{ id := (here s).opNo, target := Spec.target s x, load := load }] })

theorem sent_eq (s : State) (x : Word) (load : Bool) (e : Ev) :
    Spec.sent s x load e = (noted s x load).send s.cur.1 (Spec.target s x) false s.cur.1 8 e := rfl

/-- Noting an access changes no tile's registers. -/
theorem noted_v (s : State) (x : Word) (load : Bool) (t : TileId) : ((noted s x load).tile t).v = (s.tile t).v := by
  rw [noted, tile_modStrand, bumpOp]
  by_cases h : t = s.cur.1
  · rw [if_pos h, h, modStrand_v, tile_modTile_self]
  · rw [if_neg h, tile_modTile_of_ne _ _ h]

/-- Whether an address names another chip's tile does not depend on the tiles. -/
theorem segAway_modTile (s : State) (t : TileId) (f : Tile → Tile) (c : Nat) (x : Word) :
    segAway (s.modTile t f) c x = segAway s c x := rfl

theorem sendPacket_near (hnear : segAway s (here s).ctx x = false) (hsingle : (here s).twin = none ∧ (here s).shadow = false)
    (b : Payload) :
    (sendPacket s s.cur.1 s.cur.2 (self s).pc x b false).1 = Spec.sent s x false (Spec.writeEv s x b) := by
  obtain ⟨htwin, hshadow⟩ := hsingle
  have hnote : noteItem s s.cur.1 2 x (Payload.data b) = s := by
    rw [noteItem, if_pos]
    exact Option.isNone_iff_eq_none.2 htwin
  have hdis : discards s s.cur.1 = false := hshadow
  have hn : segAway s (originOf s s.cur.1 s.cur.2 (self s).pc false).ctx x = false := hnear
  simp only [sendPacket, hnote, hdis, Bool.false_eq_true, if_false, bumpOp, State.modStrand, segAway_modTile, hn]
  rw [sent_eq, Spec.writeEv, Spec.foreTarget, ← noted_v s x false]
  rfl

/-- An address whose reserved bits are zero is legal (R18). -/
theorem not_eaBad (h : x.toNat / 2 ^ 21 % 2 ^ 23 = 0) : ¬ eaBad x = true := by
  rw [eaBad, decide_eq_true_eq, not_not]
  exact h

/-- A remote write or add that nothing holds back. -/
theorem remoteAct_sent (h : Spec.GlobalAccess s x n) (he : Spec.early s x) (b : Payload) :
    remoteAct s s.cur.1 s.cur.2 x n b = .done (Spec.sent s x false (Spec.writeEv s x b)) := by
  have hlate : lateWrite s s.cur.1 x = false := by
    rw [lateWrite, Bool.and_eq_false_iff, Bool.not_eq_false', beq_eq_false_iff_ne]
    exact he
  rw [remoteAct, if_neg (not_not.2 h.aligned), if_neg (not_eaBad h.legal), hlate]
  exact congrArg Act.done (sendPacket_near h.near h.single b)

theorem sendMsg_near (hnear : segAway s (here s).ctx x = false) (hsingle : (here s).twin = none ∧ (here s).shadow = false)
    (d : VWord) (ct : BitVec 4) : sendMsg s s.cur.1 s.cur.2 (self s).pc x n d ct =
      Spec.sent s x false (.msgArrival { src := Spec.origin s, ea := x, n := n, data := d, ct := ct }) := by
  obtain ⟨htwin, hshadow⟩ := hsingle
  have hnote : noteItem s s.cur.1 2 x (bytesOf n d.toNat) = s := by
    rw [noteItem, if_pos]
    exact Option.isNone_iff_eq_none.2 htwin
  have hdis : discards s s.cur.1 = false := hshadow
  have hn : segAway s (originOf s s.cur.1 s.cur.2 (self s).pc false).ctx x = false := hnear
  simp only [sendMsg, hnote, hdis, Bool.false_eq_true, if_false, bumpOp, State.modStrand, segAway_modTile, hn]
  rfl

end

/-! ### The own store's copy in the segment (R110) -/

section
variable {s : State} {y : Word} {n : Nat}

/-- The partitions follow one another. -/
theorem partLimit_le_partBase (w : Word) {j k : Nat} (h : j < k) : partLimit w j ≤ partBase w k := by
  induction k, h using Nat.le_induction with
  | base => simp [partLimit, partBase, List.range_succ, Nat.mul_add]
  | succ k _ ih => exact ih.trans (by simp [partBase, List.range_succ, Nat.mul_add])

/-- A range that is not empty lies in one partition at most. -/
theorem partOf_eq {w : Word} {k ofs len : Nat} (hk : k < 6) (hlen : 0 < len) (h : Spec.liesIn w k ofs len) :
    partOf w ofs len = some k := by
  obtain ⟨hbase, hlimit⟩ := h
  rw [partOf, List.find?_range_eq_some]
  refine ⟨by simp [hbase, hlimit, hlen], by simpa using hk, fun j hj => ?_⟩
  have := partLimit_le_partBase w hj
  simp only [Bool.not_eq_true', decide_eq_false_iff_not]
  omega

theorem dataOk_of_reachable {w : Word} {ofs len : Nat} (hlen : 0 < len) (h : Spec.reachable w ofs len) :
    dataOk w ofs len = true := by
  rcases h with h | h | h <;> rw [dataOk, partOf_eq (by decide) hlen h] <;> rfl

theorem bytesOfCode_pos (wd : BitVec 3) : 0 < Spec.bytesOfCode wd := by
  revert wd
  decide

/-- An `lb` access that R97 and R81 let pass. -/
theorem lbCheck_none (hn : 0 < n) (ha : y.toNat % n = 0) (hown : Spec.namesOwn s y) (ht : s.cur.1 ≠ monitorTile)
    (hr : Spec.reachable (here s).v.partw (Spec.ofsOf y) n) : lbCheck s s.cur.1 y n = none := by
  have hok : ownOk s s.cur.1 (eaOfs y) n = true := by
    rw [ownOk, if_neg ht]
    exact dataOk_of_reachable hn hr
  have hnames : namesOwn s.cur.1 y = true := by
    rw [namesOwn, decide_eq_true_eq]
    rcases hown with h | ⟨h1, h2, h3, h4⟩
    · exact .inl h
    · exact .inr ⟨h2, h3, h1, h4⟩
  rw [lbCheck, if_neg (not_not.2 ha), hok, hnames]
  rfl

/-- The global address of an offset of the own tile. -/
theorem ownEa_eq (s : State) (y : Word) :
    ownEa s s.cur.1 (eaOfs y) = (here s).v.idx ++ BitVec.ofNat 44 (Spec.ofsOf y) := by
  have hlt : eaOfs y < 2 ^ 44 := (Nat.mod_lt _ (by decide)).trans (by decide)
  have hz : BitVec.ofNat 64 (eaOfs y) = (BitVec.ofNat 44 (Spec.ofsOf y)).setWidth 64 := by
    apply BitVec.eq_of_toNat_eq
    simp only [BitVec.toNat_ofNat, BitVec.toNat_setWidth, Spec.ofsOf, eaOfs] at hlt ⊢
    omega
  rw [ownEa, hz]
  refine BitVec.eq_of_getLsbD_eq fun i hi => ?_
  rw [BitVec.getLsbD_append, BitVec.getLsbD_or, BitVec.getLsbD_shiftLeft, BitVec.getLsbD_setWidth, BitVec.getLsbD_setWidth]
  by_cases h : i < 44
  · simp [h, hi]
  · have hofs : (BitVec.ofNat 44 (Spec.ofsOf y)).getLsbD i = false := BitVec.getLsbD_of_ge _ _ (Nat.le_of_not_lt h)
    simp [h, hi, show i - 44 < 64 by omega, here, hofs]

end

/-! ### Loads -/

/-- The check of a segment entry reads no strand and no counter of a tile. -/
theorem segCheck_modTile (s : State) (t : TileId) {f : Tile → Tile} (hv : ∀ T, (f T).v = T.v) (hslot : ∀ T, (f T).slot = T.slot)
    (hslots : ∀ T, (f T).slots = T.slots) (hrun : ∀ T, (f T).running = T.running) (ctx : Nat) (x : Word) (kind n : Nat) :
    segCheck (s.modTile t f) ctx x kind n = segCheck s ctx x kind n := by
  have htile (u k) : ((s.modTile t f).tile u).running = (s.tile u).running ∧
      slotRegs ((s.modTile t f).tile u) k = slotRegs (s.tile u) k := by
    rw [tile_modTile]
    split
    · subst u
      exact ⟨hrun _, by rw [slotRegs, slotRegs, hv, hslot, hslots]⟩
    · exact ⟨rfl, rfl⟩
  have hloc : locate (s.modTile t f) ctx (eaIdx x) = locate s ctx (eaIdx x) := rfl
  rw [segCheck, segCheck, hloc]
  cases locate s ctx (eaIdx x) with
  | none => rfl
  | some h =>
    obtain ⟨g, u, k⟩ := h
    obtain ⟨hr, hs⟩ := htile u k
    simp only [hr, hs]
    rfl

theorem segCheck_bumpOp (s : State) (t : TileId) (ctx : Nat) (x : Word) (kind n : Nat) :
    segCheck (bumpOp s t) ctx x kind n = segCheck s ctx x kind n := by
  unfold bumpOp
  refine segCheck_modTile s t ?_ ?_ ?_ ?_ _ _ _ _
  all_goals exact fun _ => rfl

theorem segCheck_modStrand (s : State) (t : TileId) (m : StrandNo) (f : Strand → Strand) (ctx : Nat) (x : Word) (kind n : Nat) :
    segCheck (s.modStrand t m f) ctx x kind n = segCheck s ctx x kind n := by
  unfold State.modStrand
  refine segCheck_modTile s t ?_ ?_ ?_ ?_ _ _ _ _
  all_goals exact fun _ => rfl

section
variable {s : State} {x : Word} {n : Nat}

theorem segCheck_noted (load : Bool) (ctx : Nat) (kind : Nat) :
    segCheck (noted s x load) ctx x kind n = segCheck s ctx x kind n := by
  rw [noted, segCheck_modStrand, segCheck_bumpOp]

@[simp] theorem self_send (s : State) (a b : Nat) (engine : Bool) (own : TileId) (d : Nat) (e : Ev) :
    self (s.send a b engine own d e) = self s := by
  simp only [self, State.strand, State.tile, State.send, sendFlow_tiles, sendFlow_cur]

theorem self_modStrand (s : State) (f : Strand → Strand) : self (s.modStrand s.cur.1 s.cur.2 f) = f (self s) :=
  strand_modStrand_self ..

theorem self_noted (s : State) (x : Word) (load : Bool) : self (noted s x load) =
    { self s with ops := (self s).ops ++ [{ id := (here s).opNo, target := Spec.target s x, load := load }] } := by
  have hbump : self (bumpOp s s.cur.1) = self s := by
    rw [self, State.strand, bumpOp, modTile_cur, tile_modTile_self]
    rfl
  rw [noted, ← hbump]
  exact self_modStrand (bumpOp s s.cur.1) _

theorem noted_send_agenda (s : State) (x : Word) (load : Bool) (a b : Nat) (engine : Bool) (own : TileId) (d : Nat) (e : Ev) :
    ((noted s x load).send a b engine own d e).agenda = (s.send a b engine own d e).agenda := by
  rw [noted, State.modStrand, send_agenda_modTile, bumpOp, send_agenda_modTile]

/-- A load that its segment entry lets pass: it is sent, and its destination is empty. -/
theorem remoteLoad_sent (hnear : segAway s (here s).ctx x = false) (hseg : segCheck s (here s).ctx x segLoad n ≠ none)
    (wd : BitVec 3) (d : Dst) : ∃ s', remoteLoad s s.cur.1 s.cur.2 x n wd d = .done s' ∧
      s'.agenda = (Spec.sent s x true (.remoteLoadArrival { src := Spec.origin s, ea := x, n := n, wd := wd, dst := d })).agenda ∧
      self s' = (self (noted s x true)).markEmpty d := by
  have hn : segAway s (originOf s s.cur.1 s.cur.2 (s.strand s.cur.1 s.cur.2).pc false).ctx x = false := hnear
  have hsome : (segCheck (noted s x true) (here s).ctx x segLoad n).isSome = true := by
    rw [segCheck_noted, Option.isSome_iff_ne_none]
    exact hseg
  refine ⟨((noted s x true).modStrand s.cur.1 s.cur.2 (fun S => S.markEmpty d)).send s.cur.1 (Spec.target s x) false s.cur.1 8
    (.remoteLoadArrival { src := Spec.origin s, ea := x, n := n, wd := wd, dst := d }), ?_, ?_, ?_⟩
  · rw [remoteLoad]
    simp only [bumpOp, State.modStrand, segAway_modTile, hn, Bool.false_eq_true, if_false]
    exact if_pos hsome
  · rw [sent_eq, State.modStrand, send_agenda_modTile]
  · rw [self_send]
    exact self_modStrand (noted s x true) _

/-- A load that its segment entry does not let pass: the strand waits until PROT returns. -/
theorem remoteLoad_refused (hnear : segAway s (here s).ctx x = false) (hseg : segCheck s (here s).ctx x segLoad n = none)
    (wd : BitVec 3) (d : Dst) : ∃ s', remoteLoad s s.cur.1 s.cur.2 x n wd d = .block .rload s' ∧
      s'.agenda = (s.send s.cur.1 (Spec.target s x) false s.cur.1 (19 + hopsOf s (Spec.target s x) s.cur.1)
        (.remoteLoadReturn { src := Spec.origin s, ea := x, n := n, wd := wd, dst := d } 0 .refused)).agenda ∧
      self s' = self (noted s x true) := by
  have hn : segAway s (originOf s s.cur.1 s.cur.2 (s.strand s.cur.1 s.cur.2).pc false).ctx x = false := hnear
  have hnone : ¬ (segCheck (noted s x true) (here s).ctx x segLoad n).isSome = true := by
    rw [segCheck_noted, hseg]
    decide
  refine ⟨(noted s x true).send s.cur.1 (Spec.target s x) false s.cur.1 (19 + hopsOf s (Spec.target s x) s.cur.1)
    (.remoteLoadReturn { src := Spec.origin s, ea := x, n := n, wd := wd, dst := d } 0 .refused), ?_, ?_, ?_⟩
  · rw [remoteLoad]
    simp only [bumpOp, State.modStrand, segAway_modTile, hn, Bool.false_eq_true, if_false]
    exact if_neg hnone
  · rw [noted_send_agenda]
  · rw [self_send]

end

/-! What an empty mark changes of a strand. -/

section
variable (S : Strand) (d : Dst)

@[simp] theorem markEmpty_g : (S.markEmpty d).g = S.g := by
  cases d with
  | g r => rw [Strand.markEmpty]; split <;> rfl
  | _ => rfl

@[simp] theorem markEmpty_w : (S.markEmpty d).w = S.w := by
  cases d with
  | g r => rw [Strand.markEmpty]; split <;> rfl
  | _ => rfl

@[simp] theorem markEmpty_ops : (S.markEmpty d).ops = S.ops := by
  cases d with
  | g r => rw [Strand.markEmpty]; split <;> rfl
  | _ => rfl

theorem markEmpty_gdst {r : BitVec 5} (h : r ≠ 0) :
    S.markEmpty (gdst r) = { S with gE := S.gE ||| ((1 : BitVec 32) <<< r.toNat) } := by
  rw [gdst, if_neg h]
  exact if_neg h

theorem isEmpty_markEmpty_gdst (r : BitVec 5) : (S.markEmpty (gdst r)).isEmpty (.g r) = decide (r ≠ 0) := by
  by_cases h : r = 0
  · subst r
    rfl
  · rw [markEmpty_gdst S h]
    have hlt : r.toNat < 32 := r.isLt
    simp [Strand.isEmpty, bne, hlt, beq_eq_decide]

theorem isEmpty_markEmpty_gdst_of_ne {r k : BitVec 5} (hk : k ≠ r) :
    (S.markEmpty (gdst r)).isEmpty (.g k) = S.isEmpty (.g k) := by
  by_cases h : r = 0
  · subst r
    rfl
  · have hne : k.toNat ≠ r.toNat := fun he => hk (BitVec.eq_of_toNat_eq he)
    have hbit : ((1 : BitVec 32) <<< r.toNat).getLsbD k.toNat = false := by
      simp
      omega
    rw [markEmpty_gdst S h, Strand.isEmpty, BitVec.getLsbD_or, hbit, Bool.or_false]
    rfl

theorem isEmpty_markEmpty_w (r : BitVec 4) : (S.markEmpty (.w r)).isEmpty (.w r) = true := by
  have hlt : r.toNat < 16 := r.isLt
  simp [Strand.markEmpty, Strand.isEmpty, hlt]

end

/-! ### The forms -/

theorem remoteStores : Spec.RemoteStores := by
  refine ⟨fun p a wd r imm s hr h he => ?_, fun p a r imm s hr h he => ?_, fun p a b imm s hr h he => ?_,
    fun p a ty r imm s hr h he => ?_, fun p a r imm s hr h he => ?_, fun p wd a b imm s hr ha hown ht hreach h he => ?_⟩
  · rw [exec_stg, execStg]
    exact issue_done hr (remoteAct_sent h he _)
  · rw [exec_stg, execStg]
    exact issue_done hr (remoteAct_sent h he _)
  · rw [exec_st4G, execSt4G, ← BitVec.setWidth_eq_extractLsb' (by decide)]
    exact issue_done hr (remoteAct_sent h he _)
  · rw [exec_addd, execAddd]
    exact issue_done hr (remoteAct_sent h he _)
  · rw [exec_addd, execAddd]
    exact issue_done hr (remoteAct_sent h he _)
  · rw [exec_lbStore, execLbStore]
    refine issue_done hr ?_
    dsimp only
    rw [show lbCheck s s.cur.1 (eaOf s s.cur.1 s.cur.2 a imm) (widthBytes wd) = none from
      lbCheck_none (bytesOfCode_pos wd) ha hown ht hreach, ownEa_eq]
    exact remoteAct_sent h he _

theorem messages : Spec.Messages := by
  refine ⟨fun p ct a wd r imm s hr h => ?_, fun p ct a r imm s hr h => ?_, fun p ct a imm s hr h => ?_⟩
  · rw [exec_msg, execMsg]
    refine issue_done hr ((if_neg (not_not.2 h.aligned)).trans ((if_neg (not_eaBad h.legal)).trans ?_))
    exact congrArg Act.done (sendMsg_near h.near h.single _ ct)
  · rw [exec_msg, execMsg]
    refine issue_done hr ((if_neg (not_not.2 h.aligned)).trans ((if_neg (not_eaBad h.legal)).trans ?_))
    exact congrArg Act.done (sendMsg_near h.near h.single _ ct)
  · rw [exec_msgZ, execMsgZ]
    refine issue_done hr ((if_neg (not_eaBad h.legal)).trans ?_)
    exact congrArg Act.done (sendMsg_near h.near h.single _ ct)

theorem remoteLoads : Spec.RemoteLoads := by
  refine ⟨fun p wd d a imm s hr ha hl hnear => ⟨fun hseg => ?_, fun hseg => ?_⟩, fun p d a imm s hr ha hl hnear hseg => ?_,
    fun p wd d a imm s hr ha hown ht hreach hnear hseg => ?_⟩
  · obtain ⟨s', hact, hag, hself⟩ := remoteLoad_sent hnear hseg wd (gdst d)
    refine ⟨s', ?_, hag, ?_, fun k hk => ?_, ?_, ?_⟩
    · rw [exec_ldg, execLdg]
      exact issue_done hr ((if_neg (not_not.2 ha)).trans ((if_neg (not_eaBad hl)).trans hact))
    · rw [hself, isEmpty_markEmpty_gdst]
    · rw [hself, isEmpty_markEmpty_gdst_of_ne _ hk, self_noted]
      rfl
    · rw [hself, markEmpty_g, self_noted]
    · rw [hself, markEmpty_ops, self_noted]
  · obtain ⟨s', hact, hag, hself⟩ := remoteLoad_refused hnear hseg wd (gdst d)
    refine ⟨s', ?_, hag, ?_⟩
    · rw [exec_ldg, execLdg]
      exact issue_block hr ((if_neg (not_not.2 ha)).trans ((if_neg (not_eaBad hl)).trans hact))
    · rw [hself, self_noted]
  · obtain ⟨s', hact, hag, hself⟩ := remoteLoad_sent hnear hseg 0 (.w d)
    refine ⟨s', ?_, hag, ?_, ?_, ?_⟩
    · rw [exec_ldg, execLdg]
      exact issue_done hr ((if_neg (not_not.2 ha)).trans ((if_neg (not_eaBad hl)).trans hact))
    · rw [hself, isEmpty_markEmpty_w]
    · rw [hself, markEmpty_w, self_noted]
    · rw [hself, markEmpty_g, self_noted]
  · obtain ⟨s', hact, hag, hself⟩ := remoteLoad_sent hnear hseg wd (gdst d)
    refine ⟨s', ?_, hag, ?_⟩
    · rw [exec_lbLoad, execLbLoad]
      refine issue_done hr ?_
      dsimp only
      rw [show lbCheck s s.cur.1 (eaOf s s.cur.1 s.cur.2 a imm) (widthBytes wd) = none from
        lbCheck_none (bytesOfCode_pos wd) ha hown ht hreach, ownEa_eq]
      exact hact
    · rw [hself, markEmpty_g, self_noted]

/-- Settles O41: the way of a packet, and the issue of the forms that send one. -/
theorem remoteForms : Obligations.RemoteForms := ⟨sends, remoteStores, messages, remoteLoads⟩

end Sys2Proof.Laws

/-! SUPPORT and O56. Boot and attestation (R216, R217), the save (R221), the sweep of a context (R218, R222, R223). -/

namespace Sys2Proof.Laws
open Sys2Proof Sys2Proof.Machine

/-! ### The agenda -/

/-- What stands in the agenda after a step is scheduled. -/
theorem mem_agendaAdd {due : Nat} {e : Ev} {l : List (Nat × Ev)} {x : Nat × Ev} :
    x ∈ agendaAdd due e l ↔ x = (due, e) ∨ x ∈ l := by
  induction l with
  | nil => simp [agendaAdd]
  | cons h r ih =>
    unfold agendaAdd
    split
    · simp only [List.mem_cons, ih]
      tauto
    · simp only [List.mem_cons]

theorem mem_agenda_post {s : State} {d : Nat} {e : Ev} {x : Nat × Ev} :
    x ∈ (s.post d e).agenda ↔ x = (s.cycle + d, e) ∨ x ∈ s.agenda := mem_agendaAdd

/-- Scheduling one step for each element of a list. -/
def postEach {α : Type} (s : State) (d : Nat) (e : α → Ev) (l : List α) : State := l.foldl (fun s x => s.post d (e x)) s

section
variable {α : Type} {s : State} {d : Nat} {e : α → Ev} {l : List α}

/-- Only the agenda changes. -/
theorem postEach_eq : postEach s d e l = { s with agenda := (postEach s d e l).agenda } := by
  induction l generalizing s with
  | nil => rfl
  | cons x r ih => exact ih (s := s.post d (e x))

theorem mem_agenda_postEach {x : Nat × Ev} :
    x ∈ (postEach s d e l).agenda ↔ (∃ y ∈ l, x = (s.cycle + d, e y)) ∨ x ∈ s.agenda := by
  induction l generalizing s with
  | nil => simp [postEach]
  | cons y r ih =>
    refine (ih (s := s.post d (e y))).trans ?_
    rw [mem_agenda_post]
    simp only [post_cycle, List.mem_cons, exists_eq_or_imp]
    exact or_assoc.symm.trans (or_congr_left or_comm)
end

/-! ### What writes HBM only -/

/-- `s'` differs from `s` in HBM only. -/
def OnlyHbm (s s' : State) : Prop := s' = { s with hbm := s'.hbm }

theorem OnlyHbm.trans {s s1 s2 : State} (h : OnlyHbm s s1) (h' : OnlyHbm s1 s2) : OnlyHbm s s2 := by
  unfold OnlyHbm at h h' ⊢
  rw [h', h]

theorem onlyHbm_foldl {α : Type} {f : State → α → State} {l : List α} {s : State} (hf : ∀ s x, OnlyHbm s (f s x)) :
    OnlyHbm s (l.foldl f s) := by
  induction l generalizing s with
  | nil => rfl
  | cons x r ih => exact (hf s x).trans ih

theorem onlyHbm_foldl_fst {α β : Type} {f : State × β → α → State × β} {l : List α} {r : State × β}
    (hf : ∀ r x, OnlyHbm r.1 (f r x).1) : OnlyHbm r.1 (l.foldl f r).1 := by
  induction l generalizing r with
  | nil => rfl
  | cons x l ih => exact (hf r x).trans ih

section
variable (s : State)

theorem onlyHbm_frameStore (mode : BitVec 2) (dev frame ofs : Nat) (bs : List Byte) :
    OnlyHbm s (frameStore s mode dev frame ofs bs) := rfl

/-- Unfolded before it is applied, as in `canon_setLeaf`. -/
theorem onlyHbm_setLeaf (ctx : Nat) (l : Leaf) (e : Word) : OnlyHbm s (setLeaf s ctx l e) := by
  have hfun : setLeaf = setLeaf := rfl
  conv_rhs at hfun => delta setLeaf
  rw [hfun]
  dsimp only
  generalize frameDev (s.ctx ctx).mode l.2.1 = x
  cases x with
  | some d => exact onlyHbm_frameStore ..
  | none => rfl

/-- Unfolded before it is applied, as in `canon_setLeaf`. -/
theorem onlyHbm_scrubFrame (mode : BitVec 2) (frame n : Nat) : OnlyHbm s (scrubFrame s mode frame n) := by
  have hfun : scrubFrame = scrubFrame := rfl
  conv_rhs at hfun => delta scrubFrame
  rw [hfun]
  beta_reduce
  generalize frameDev mode frame = x
  cases x with
  | none => rfl
  | some d => rfl

theorem onlyHbm_writeHbm (ctx : Nat) (va : Word) (bs : List Byte) : OnlyHbm s (writeHbm s ctx va bs) := by
  refine onlyHbm_foldl_fst (r := (s, bs)) fun r p => ?_
  dsimp only
  split
  · split
    · rfl
    · split
      · exact onlyHbm_frameStore ..
      · rfl
  · rfl

theorem onlyHbm_unpinImage (ctx : Nat) (k : Kernel) : OnlyHbm s (unpinImage s ctx k) := by
  refine onlyHbm_foldl fun s p => ?_
  split
  · rfl
  · split
    · exact onlyHbm_setLeaf ..
    · rfl
end

/-! ### Boot and attestation (R216, R217) -/

@[simp] theorem length_beBytes (n x : Nat) : (beBytes n x).length = n := by simp [beBytes]

@[simp] theorem length_wide (x : BitVec 384) : (wide x).length = 48 := length_beBytes ..

/-- The memory of the monitor's tile holds its image from address 0. -/
theorem read_store_nil (img : List Byte) (i : Nat) (h : i < img.length) : (Mem.store [] 0 img).read i = img[i] := by
  rw [read_store]
  simp [h]

/-- What starts the monitor: its image in the memory of its tile, strand 0 ready at address 0. -/
theorem startMonitor_spec (s : State) (img : List Byte) : let s' := startMonitor s img
    s'.mon = s.mon ∧ (s'.strand monitorTile 0).st = .ready ∧ (s'.strand monitorTile 0).pc = 0 ∧
      (∀ i (h : i < img.length), (s'.tile monitorTile).mem.read i = img[i]) ∧
      (∀ t, t ≠ monitorTile → s'.tile t = s.tile t) := by
  refine ⟨rfl, by simp [startMonitor], by simp [startMonitor], fun i h => ?_, fun t ht => ?_⟩
  · simpa [startMonitor] using read_store_nil img i h
  · simp [startMonitor, tile_modStrand, tile_modTile, ht]

theorem monitorImageSteps (s : State) (img x y r q) :
    let s0 := Spec.on s (.monitorImageReceive img x y r q)
    let good := img.length ≤ 262144 ∧ sha384 (beBytes 48 x.toNat ++ beBytes 48 y.toNat) = Config.fusedKeyHash ∧
      ecdsaVerify (sha384 img) x y r q = true
    (s.mon.boot ≠ .waiting → execMonitorImageReceive s0 = .next s0) ∧
    (s.mon.boot = .waiting → ¬ good → execMonitorImageReceive s0 = .next (s0.report .imageRefused)) ∧
    (s.mon.boot = .waiting → good → execMonitorImageReceive s0 =
      .next (startMonitor { s0 with mon := { s.mon with boot := .monitor, m1 := sha384 img } } img)) :=
  ⟨fun h => if_pos h, fun h hg => (if_neg (not_not.2 h)).trans (if_neg hg), fun h hg => (if_neg (not_not.2 h)).trans (if_pos hg)⟩

/-- Where the parts of a report stand in it (R217): the nonce, three bytes, five of padding, two digests, the rest. -/
theorem reportParts {a p m1 m2 r : List Byte} (x y z : Byte) (ha : a.length = 48) (hp : p.length = 5) (h1 : m1.length = 48)
    (h2 : m2.length = 48) (hr : r.length = 360) : let b := a ++ ([x, y, z] ++ p ++ (m1 ++ (m2 ++ r)))
    b.length = 512 ∧ b.take 48 = a ∧ b.getD 48 0 = x ∧ b.getD 49 0 = y ∧ (b.drop 56).take 48 = m1 ∧
      (b.drop 104).take 48 = m2 := by
  have hd : (a ++ ([x, y, z] ++ p ++ (m1 ++ (m2 ++ r)))).drop 56 = m1 ++ (m2 ++ r) := by
    rw [← List.append_assoc]
    exact List.drop_left' (by simp [ha, hp])
  refine ⟨by simp [ha, hp, h1, h2, hr], List.take_left' ha, ?_, ?_, ?_, ?_⟩
  · simp [ha]
  · simp [List.getElem?_append, ha]
  · rw [hd]
    exact List.take_left' h1
  · rw [show 104 = 56 + 48 from rfl, ← List.drop_drop, hd, List.drop_left' h1]
    exact List.take_left' h2

theorem attestation_spec (s : State) (ctx : Nat) (n : BitVec 384) : let b := attestation s ctx (wide n)
    b.length = 512 ∧ b.take 48 = wide n ∧ b.getD 48 0 = s.chip ∧ b.getD 49 0 = BitVec.ofNat 8 ctx ∧
      (b.drop 56).take 48 = wide s.mon.m1 ∧ (b.drop 104).take 48 = wide s.mon.m2 := by
  unfold attestation
  extract_lets x body d sg b
  have hb : b = wide n ++ ([s.chip, BitVec.ofNat 8 ctx, if ctx = 0 then 0 else x.mode.setWidth 8] ++ List.replicate 5 0 ++
      (wide s.mon.m1 ++ (wide s.mon.m2 ++ (wide (if ctx = 0 then 0 else x.meas) ++ List.replicate 184 0 ++ wide sg.1 ++
        wide sg.2 ++ List.replicate 32 0)))) := by simp only [b, body, List.append_assoc]
  rw [hb]
  refine reportParts _ _ _ (length_wide _) List.length_replicate (length_wide _) (length_wide _) ?_
  simp only [List.length_append, length_wide, List.length_replicate]

theorem bootSteps : Spec.BootSteps := by
  refine ⟨fun _ => rfl, fun s img x y r q => ?_, fun s c => ?_, fun s img h => ?_, fun s img h => ?_, fun s ctx n => ?_⟩
  · obtain ⟨hrun, hbad, hgood⟩ := monitorImageSteps s img x y r q
    refine ⟨hrun, hbad, fun h hg => ⟨_, hgood h hg, ?_⟩⟩
    obtain ⟨hmon, hst, hpc, hmem, hother⟩ := startMonitor_spec
      { Spec.on s (.monitorImageReceive img x y r q) with mon := { s.mon with boot := .monitor, m1 := sha384 img } } img
    exact ⟨by rw [hmon], by rw [hmon], by rw [hmon], hst, hpc, hmem, hother⟩
  · simp only [exec_chipNumberAssign, execChipNumberAssign, Spec.on]
    split <;> rfl
  · exact ⟨_, congrArg Host.Outcome.next (if_pos h), rfl⟩
  · exact congrArg Host.Outcome.next (if_neg h)
  · refine ⟨fun h => congrArg Host.Outcome.next (if_pos h), fun h => ⟨_, congrArg Host.Outcome.next (if_neg h), ?_⟩⟩
    exact attestation_spec (Spec.on s (.attestationRequest ctx n)) ctx n

/-! ### The save and the sweep (R218, R221 to R223) -/

/-- Each tile that runs in a list of tiles is in another one too, with its context. -/
def KeepsHosts (l l' : List (Nat × Tile)) : Prop :=
  ∀ e ∈ l, ∃ e' ∈ l', e'.1 = e.1 ∧ e'.2.running = e.2.running ∧ e'.2.ctx = e.2.ctx

theorem KeepsHosts.refl (l : List (Nat × Tile)) : KeepsHosts l l := fun e he => ⟨e, he, rfl, rfl, rfl⟩

theorem KeepsHosts.trans {l l1 l2 : List (Nat × Tile)} (h : KeepsHosts l l1) (h' : KeepsHosts l1 l2) : KeepsHosts l l2 := by
  intro e he
  obtain ⟨e1, he1, hk1, hr1, hc1⟩ := h e he
  obtain ⟨e2, he2, hk2, hr2, hc2⟩ := h' e1 he1
  exact ⟨e2, he2, hk2.trans hk1, hr2.trans hr1, hc2.trans hc1⟩

/-- Setting the tile that stands under a key keeps what the key's tile says of its context. -/
theorem keepsHosts_assocSet (t : Nat) (l : List (Nat × Tile)) {x : Tile} (hr : x.running = (assocGet {} t l).running)
    (hc : x.ctx = (assocGet {} t l).ctx) : KeepsHosts l (assocSet t x l) := by
  induction l with
  | nil => simp [KeepsHosts]
  | cons a r ih =>
    intro e he
    unfold assocSet
    by_cases hat : a.1 = t
    · simp only [assocGet, hat, if_true] at hr hc ⊢
      rcases List.mem_cons.1 he with rfl | he
      · exact ⟨(t, x), by simp, hat.symm, hr, hc⟩
      · exact ⟨e, by simp [he], rfl, rfl, rfl⟩
    · simp only [assocGet, hat, if_false] at hr hc ⊢
      split
      · exact ⟨e, by simp [List.mem_cons.1 he], rfl, rfl, rfl⟩
      · rcases List.mem_cons.1 he with rfl | he
        · exact ⟨e, by simp, rfl, rfl, rfl⟩
        · obtain ⟨e', he', hk⟩ := ih hr hc e he
          exact ⟨e', by simp [he'], hk⟩

/-- What the steps of a sweep's begin keep of the state, each for itself. -/
structure SweepKeeps (s s' : State) : Prop where
  cycle : s'.cycle = s.cycle
  reports : s'.reports = s.reports
  hosts : KeepsHosts s.tiles s'.tiles
  kernels : ∀ c, (s'.ctx c).kernels = (s.ctx c).kernels

theorem SweepKeeps.refl (s : State) : SweepKeeps s s := ⟨rfl, rfl, .refl _, fun _ => rfl⟩

theorem SweepKeeps.trans {s s1 s2 : State} (h : SweepKeeps s s1) (h' : SweepKeeps s1 s2) : SweepKeeps s s2 :=
  ⟨h'.cycle.trans h.cycle, h'.reports.trans h.reports, h.hosts.trans h'.hosts, fun c => (h'.kernels c).trans (h.kernels c)⟩

theorem sweepKeeps_foldl {α : Type} {f : State → α → State} {l : List α} {s : State} (hf : ∀ s x, SweepKeeps s (f s x)) :
    SweepKeeps s (l.foldl f s) := by
  induction l generalizing s with
  | nil => exact .refl s
  | cons x r ih => exact (hf s x).trans ih

theorem sweepKeeps_modTile (s : State) (t : TileId) {f : Tile → Tile} (hr : (f (s.tile t)).running = (s.tile t).running)
    (hc : (f (s.tile t)).ctx = (s.tile t).ctx) : SweepKeeps s (s.modTile t f) :=
  ⟨rfl, rfl, keepsHosts_assocSet t s.tiles hr hc, fun _ => rfl⟩

theorem sweepKeeps_modSlot (s : State) (t : TileId) (k : Nat) (f : VRegs → VRegs) : SweepKeeps s (modSlot s t k f) := by
  unfold modSlot
  split
  · exact sweepKeeps_modTile s t rfl rfl
  · exact sweepKeeps_modTile s t rfl rfl

theorem sweepKeeps_raiseAll (s : State) (ctx : Nat) (cts : List (BitVec 20 × BitVec 4)) : SweepKeeps s (raiseAll s ctx cts) :=
  sweepKeeps_foldl fun s c => by
    unfold raiseV
    split
    · dsimp only
      split
      · exact (sweepKeeps_modSlot ..).trans (sweepKeeps_modSlot ..)
      · exact sweepKeeps_modSlot ..
    · exact .refl s

/-- A change of a context that leaves its kernels. -/
theorem sweepKeeps_modCtx (s : State) (c : Nat) {f : Ctx → Ctx} (hf : (f (s.ctx c)).kernels = (s.ctx c).kernels) :
    SweepKeeps s (s.modCtx c f) := by
  refine ⟨rfl, rfl, .refl _, fun k => ?_⟩
  by_cases hc : c < 32
  · rw [ctx_modCtx s k f hc]
    split
    · next hk => rw [hf, hk]
    · rfl
  · rw [State.modCtx, Vector.setIfInBounds_eq_of_size_le (by omega)]

theorem sweepKeeps_post (s : State) (d : Nat) (e : Ev) : SweepKeeps s (s.post d e) := ⟨rfl, rfl, .refl _, fun _ => rfl⟩

theorem sweepKeeps_endCheckpoint (s : State) (ctx st : Nat) : SweepKeeps s (endCheckpoint s ctx st) := by
  unfold endCheckpoint
  dsimp only
  split
  · refine (sweepKeeps_modCtx s ctx ?_).trans ((sweepKeeps_raiseAll ..).trans (sweepKeeps_foldl fun s l => ?_))
    · rfl
    · exact (sweepKeeps_modCtx s _ rfl).trans (sweepKeeps_post ..)
  · exact .refl s

theorem OnlyHbm.tiles {s s' : State} (h : OnlyHbm s s') : s'.tiles = s.tiles := by rw [h]

/-- A sweep makes RETIRED the kernels of a list, each with its image unpinned. -/
def retireKernels (s : State) (ctx : Nat) (l : List Kernel) : State :=
  l.foldl (fun s k =>
    (unpinImage s ctx k).modCtx ctx (fun x => x.modKernel k.kimg (fun k => { k with st := .retired, groups := 0 }))) s

theorem retireKernels_cons (s : State) (ctx : Nat) (k : Kernel) (l : List Kernel) :
    retireKernels s ctx (k :: l) = retireKernels ((unpinImage s ctx k).modCtx ctx
      (fun x => x.modKernel k.kimg (fun k => { k with st := .retired, groups := 0 }))) ctx l := rfl

/-- The kernels that are not in the list stay as they are; the others are RETIRED. -/
theorem retireKernels_spec {ctx : Nat} (hc : ctx < 32) (l : List Kernel) (s : State) : let s' := retireKernels s ctx l
    s'.cycle = s.cycle ∧ s'.reports = s.reports ∧ s'.tiles = s.tiles ∧
      ∀ j ∈ (s'.ctx ctx).kernels, j.st = .retired ∨ j ∈ (s.ctx ctx).kernels ∧ ∀ k ∈ l, k.kimg ≠ j.kimg := by
  induction l generalizing s with
  | nil => exact ⟨rfl, rfl, rfl, fun j hj => .inr ⟨hj, by simp⟩⟩
  | cons k r ih =>
    rw [retireKernels_cons]
    have hu := onlyHbm_unpinImage s ctx k
    generalize unpinImage s ctx k = s1 at hu
    have h1 : s1.cycle = s.cycle ∧ s1.reports = s.reports ∧ s1.tiles = s.tiles ∧ s1.ctx ctx = s.ctx ctx := by
      rw [hu]
      exact ⟨rfl, rfl, rfl, rfl⟩
    obtain ⟨hcy, hrep, htiles, hctx⟩ := h1
    obtain ⟨hcy', hrep', htiles', hk⟩ := ih (s1.modCtx ctx
      (fun x => x.modKernel k.kimg (fun k => { k with st := .retired, groups := 0 })))
    refine ⟨hcy'.trans hcy, hrep'.trans hrep, htiles'.trans htiles, fun j hj => ?_⟩
    rcases hk j hj with hst | ⟨hmem, hr⟩
    · exact .inl hst
    · rw [ctx_modCtx s1 ctx _ hc, if_pos rfl, hctx] at hmem
      obtain ⟨i, hi, rfl⟩ := List.mem_map.1 hmem
      split
      · exact .inl rfl
      · next hne =>
        rw [if_neg hne] at hr
        refine .inr ⟨hi, fun k' hk' => ?_⟩
        rcases List.mem_cons.1 hk' with rfl | hk'
        · exact Ne.symm hne
        · exact hr k' hk'

/-- All kernels of a context are RETIRED when those that were not are retired. -/
theorem retireKernels_all {ctx : Nat} (hc : ctx < 32) (s : State) {ks : List Kernel} (hks : (s.ctx ctx).kernels = ks) :
    ∀ j ∈ ((retireKernels s ctx (ks.filter (fun k => k.st != .retired))).ctx ctx).kernels, j.st = .retired := by
  intro j hj
  rcases (retireKernels_spec hc _ s).2.2.2 j hj with h | ⟨hmem, hne⟩
  · exact h
  · by_contra hst
    exact hne j (List.mem_filter.2 ⟨hks ▸ hmem, by simpa using hst⟩) rfl

/-- The token is under way to every tile of the list, and SWT is running. -/
theorem sendToken_agenda (s : State) (ctx : Nat) (ts : List TileId) :
    (s.cycle + 16448, .sweepSwtExpiry ctx) ∈ (sendToken s ctx ts).agenda ∧
      ∀ t ∈ ts, (s.cycle + 32, .sweepTokenAtTile ctx t) ∈ (sendToken s ctx ts).agenda := by
  have he : sendToken s ctx ts = (postEach s 32 (.sweepTokenAtTile ctx) ts).post 16448 (.sweepSwtExpiry ctx) := rfl
  have hcy : (postEach s 32 (.sweepTokenAtTile ctx) ts).cycle = s.cycle := by rw [postEach_eq]
  rw [he]
  refine ⟨mem_agenda_post.2 (.inl (by rw [hcy])), fun t ht => mem_agenda_post.2 (.inr (mem_agenda_postEach.2 (.inl ⟨t, ht, rfl⟩)))⟩

theorem sendToken_eq (s : State) (ctx : Nat) (ts : List TileId) :
    sendToken s ctx ts = { s with agenda := (sendToken s ctx ts).agenda } := by
  have he : sendToken s ctx ts = (postEach s 32 (.sweepTokenAtTile ctx) ts).post 16448 (.sweepSwtExpiry ctx) := rfl
  rw [he, postEach_eq]
  rfl

/-- What the beginning of a sweep leaves (R218, R222 step 1). -/
theorem startSweep_spec (s : State) {c : Nat} (r : Report) (hc : c < 32) (hf : (s.ctx c).st ≠ .free)
    (hs : (s.ctx c).st ≠ .sweeping) : let s' := startSweep s c r
    (s'.ctx c).st = .sweeping ∧ (s'.ctx c).seg = [] ∧
      (∀ q, ((s'.ctx c).queue q).msgs = [] ∧ ((s'.ctx c).queue q).open_ = false) ∧
      (∀ k ∈ (s'.ctx c).kernels, k.st = .retired) ∧ (∀ n ∈ s'.disp.pool, n.ctx ≠ c) ∧
      s'.reports = s.reports ++ [r] ∧ (s.cycle + 16448, .sweepSwtExpiry c) ∈ s'.agenda ∧
      (∀ e ∈ s.tiles, e.2.running = true → e.2.ctx = c → ∃ due, due ≤ s.cycle + 64 ∧ (due, .sweepTokenAtTile c e.1) ∈ s'.agenda) := by
  unfold startSweep
  extract_lets x nodes s1 s2 _ s3 s4 s5 s'
  have hk : SweepKeeps (s.report r) s1 := sweepKeeps_endCheckpoint ..
  obtain ⟨hcy, hrep, htiles, -⟩ := retireKernels_spec hc (x.kernels.filter (fun k => k.st != .retired)) s1
  have hret := retireKernels_all hc s1 (ks := x.kernels) (hk.kernels c)
  have h2 : s2 = retireKernels s1 c (x.kernels.filter (fun k => k.st != .retired)) := rfl
  rw [← h2] at hcy hrep htiles hret
  have h4 : s4.ctx c = _ := (ctx_modCtx s3 c _ hc).trans (if_pos rfl)
  have h5 : s5 = { s4 with agenda := s5.agenda } := postEach_eq (e := fun n => .nodeCompletion c n .cancelled)
  have hs' : s' = sendToken s5 c (ctxTiles s5 c) := if_neg (not_or.2 ⟨hf, hs⟩)
  have he' : s' = { s4 with agenda := s'.agenda } := by rw [hs', sendToken_eq, h5]
  obtain ⟨hswt, htok⟩ := sendToken_agenda s5 c (ctxTiles s5 c)
  have hctx : s'.ctx c = s4.ctx c := by rw [he']; rfl
  have hcy5 : s5.cycle = s.cycle := by rw [h5]; exact hcy.trans hk.cycle
  have htiles5 : s5.tiles = s1.tiles := by rw [h5]; exact htiles
  rw [← hs', hcy5] at hswt htok
  refine ⟨by rw [hctx, h4], by rw [hctx, h4], fun q => ?_, ?_, ?_, ?_, hswt, fun e he hr hec => ?_⟩
  · rw [hctx, h4]
    simp only [Ctx.queue, Vector.getElem?_map]
    cases (s3.ctx c).queues[q]? with
    | none => exact ⟨rfl, rfl⟩
    | some _ => exact ⟨rfl, rfl⟩
  · rw [hctx, h4]
    exact hret
  · rw [he']
    intro n hn
    simpa using (List.mem_filter.1 hn).2
  · rw [he']
    exact hrep.trans hk.reports
  · obtain ⟨e', he', hkey, hr', hc'⟩ := hk.hosts e he
    have hmem : e.1 ∈ ctxTiles s5 c :=
      List.mem_map.2 ⟨e', List.mem_filter.2 ⟨htiles5 ▸ he', by simp [hr', hr, hc', hec]⟩, hkey⟩
    exact ⟨_, by omega, htok _ hmem⟩

/-! The state in which a step is taken is the state before, but for the step. -/

@[simp] theorem on_ctx (s : State) (e : Ev) (k : Nat) : (Spec.on s e).ctx k = s.ctx k := rfl

theorem saveCompletes (s : State) (c : Nat) (hdone : savesDone s c = true)
    (hplace : imageBlocked (Spec.on s (.saveComplete c)) c [((s.ctx c).sab, 4096)] = none) (hc : c < 32) :
    ∃ s', execSaveComplete (Spec.on s (.saveComplete c)) = .next s' ∧ (s'.ctx c).st = .saved ∧ s'.tiles = s.tiles := by
  have hw := onlyHbm_writeHbm (Spec.on s (.saveComplete c)) c (s.ctx c).sab
  have hd : savesDone (Spec.on s (.saveComplete c)) c = true := hdone
  have hev : (Spec.on s (.saveComplete c)).ev = some (.saveComplete c) := rfl
  simp only [execSaveComplete, hev, hd, on_ctx, hplace, Bool.not_true, Bool.false_eq_true, if_false]
  exact ⟨_, rfl, by rw [ctx_modCtx _ _ _ hc, if_pos rfl], (hw _).tiles⟩

/-- What the token leaves of a tile that the context runs on (R222 steps 2 to 4, R223). -/
theorem sweepTokenTile (s : State) (c : Nat) (t : TileId) (hst : (s.ctx c).st = .sweeping) (hr : (s.tile t).running = true)
    (ht : (s.tile t).ctx = c) : ∃ s', execSweepTokenAtTile (Spec.on s (.sweepTokenAtTile c t)) = .next s' ∧
      s'.tile t = sweepTile (s.tile t) s.cycle ∧ (∀ u, u ≠ t → s'.tile u = s.tile u) ∧
      s'.agenda = s.agenda.filter (fun e => !packetOf c e.2) := by
  have hev : (Spec.on s (.sweepTokenAtTile c t)).ev = some (.sweepTokenAtTile c t) := rfl
  have htile (u) : (dropPackets (Spec.on s (.sweepTokenAtTile c t)) c).tile u = s.tile u := rfl
  have hcy : (dropPackets (Spec.on s (.sweepTokenAtTile c t)) c).cycle = s.cycle := rfl
  have hmine : ((s.tile t).ctx == c && (s.tile t).running) = true := by simp [hr, ht]
  simp only [execSweepTokenAtTile, hev, on_ctx, hst, ne_eq, not_true, if_false, htile, hmine, Bool.true_or, if_true]
  refine ⟨_, rfl, ?_, fun u hu => ?_, rfl⟩
  · rw [modCtx_tile, tile_modTile_self, htile, hcy]
  · rw [modCtx_tile, tile_modTile_of_ne _ _ hu, htile]

/-- The clusters of a group are released; no tile changes, and no step is scheduled. -/
theorem releaseClusters_eq (s : State) (g : Group) (keep : List TileId) :
    releaseClusters s g keep = { s with clusters := (releaseClusters s g keep).clusters } := by
  unfold releaseClusters
  generalize s.clusters.map (fun e => e.1) = l
  induction l generalizing s with
  | nil => rfl
  | cons c r ih =>
    simp only [List.foldl_cons]
    split
    · exact ih s
    · exact ih (s.modCluster c _)

theorem swtExpires (s : State) (c : Nat) (hst : (s.ctx c).st = .sweeping) :
    ∃ s' b, execSweepSwtExpiry (Spec.on s (.sweepSwtExpiry c)) = .next s' ∧
      (s.cycle + 64, .sweepCleanResult c b) ∈ s'.agenda ∧ s'.tiles = s.tiles ∧
      (b = true → ∀ t ∈ (s.ctx c).sweepTiles, (s.tile t).busyUntil ≤ s.cycle) := by
  have hrel (l : List Group) (s : State) : l.foldl (fun s g => releaseClusters s g []) s =
      { s with clusters := (l.foldl (fun s g => releaseClusters s g []) s).clusters } := by
    induction l generalizing s with
    | nil => rfl
    | cons g r ih =>
      rw [List.foldl_cons, ih, releaseClusters_eq]
  have hev : (Spec.on s (.sweepSwtExpiry c)).ev = some (.sweepSwtExpiry c) := rfl
  simp only [execSweepSwtExpiry, hev, on_ctx, hst, ne_eq, not_true, if_false]
  rw [hrel]
  refine ⟨_, _, rfl, mem_agenda_post.2 (.inl rfl), rfl, fun hb t ht => ?_⟩
  simp only [sweepClean, Bool.and_eq_true, List.all_eq_true, decide_eq_true_eq] at hb
  exact hb.1.2 t ht

/-! What the token leaves unchanged at the monitor's side. -/

theorem sendToken_ctx (s : State) (ctx : Nat) (ts : List TileId) (k : Nat) : (sendToken s ctx ts).ctx k = s.ctx k := by
  rw [sendToken_eq]
  rfl

theorem sendToken_mon (s : State) (ctx : Nat) (ts : List TileId) : (sendToken s ctx ts).mon = s.mon := by
  rw [sendToken_eq]

theorem cleanResults (s : State) (c : Nat) (hst : (s.ctx c).st = .sweeping) (hc : c < 32) :
    (∃ s', execSweepCleanResult (Spec.on s (.sweepCleanResult c true)) = .next s' ∧
      (s.cycle + 64, .purgeConfirmed c) ∈ s'.agenda ∧ s'.mon = s.mon) ∧
    ((s.ctx c).sweepRound = 1 → ∃ s', execSweepCleanResult (Spec.on s (.sweepCleanResult c false)) = .next s' ∧
      (s'.ctx c).sweepRound = 2 ∧ (s.cycle + 16448, .sweepSwtExpiry c) ∈ s'.agenda ∧ s'.mon = s.mon) ∧
    ((s.ctx c).sweepRound = 2 → ∃ s', execSweepCleanResult (Spec.on s (.sweepCleanResult c false)) = .next s' ∧
      s'.mon.dead = true ∧ .packageFatal ∈ s'.reports) := by
  refine ⟨⟨_, if_neg (not_not.2 hst), ?_⟩, fun h => ⟨_, (if_neg (not_not.2 hst)).trans (if_pos h), ?_⟩,
    fun h => ⟨_, (if_neg (not_not.2 hst)).trans (if_neg (ne_of_eq_of_ne h (by decide))), rfl, ?_⟩⟩
  · exact ⟨mem_agenda_post.2 (.inl rfl), rfl⟩
  · refine ⟨?_, (sendToken_agenda ..).1, sendToken_mon ..⟩
    rw [sendToken_ctx, ctx_modCtx _ _ _ hc, if_pos rfl]
  · exact List.mem_append_left _ (List.mem_append_right _ (List.mem_singleton.2 rfl))

/-- The end of the purge: the safe tier has nothing of the context, which is free (R223). -/
def freeCtx (s : State) (c : Nat) : State :=
  { s with tier := s.tier.filter (fun e => !decide (e.1 / 2 ^ 43 = c)) }.modCtx c (fun _ => {})

theorem tier_freeCtx {s : State} {c : Nat} {e : Host.Cell} (h : e ∈ (freeCtx s c).tier) : e.1 / 2 ^ 43 ≠ c := by
  simpa using (List.mem_filter.1 h).2

theorem tiles_freeCtx (s : State) (c : Nat) : (freeCtx s c).tiles = s.tiles := rfl

/-- The scrub of the pages that a list of leaves names changes HBM only. -/
theorem onlyHbm_scrubLeaves (s : State) (mode : BitVec 2) (ls : List (Word × Leaf)) :
    OnlyHbm s (ls.foldl (fun s l => if peHome l.2.1 ≠ s.chip ∨ (!l.2.2.2.2 && peState l.2.1 == 2) then s
      else scrubFrame s mode (peFrame l.2.1) (if l.2.2.2.2 then 2 ^ 27 else 32768)) s) := by
  refine onlyHbm_foldl fun s l => ?_
  split
  · rfl
  · exact onlyHbm_scrubFrame ..

theorem purgeFrees (s : State) (c : Nat) (hst : (s.ctx c).st = .sweeping) (hr : (s.ctx c).sweepRound = 3) (hc : c < 32) :
    ∃ s', execPurgeConfirmed (Spec.on s (.purgeConfirmed c)) = .next s' ∧ s'.ctx c = {} ∧
      (∀ e ∈ s'.tier, e.1 / 2 ^ 43 ≠ c) ∧ s'.tiles = s.tiles := by
  have hscrub := onlyHbm_scrubLeaves (Spec.on s (.purgeConfirmed c)) (s.ctx c).mode (leavesOf (Spec.on s (.purgeConfirmed c)) c)
  refine ⟨freeCtx _ c, if_neg (not_or.2 ⟨not_not.2 hst, not_not.2 hr⟩), ?_, fun e => tier_freeCtx, ?_⟩
  · rw [freeCtx, ctx_modCtx _ _ _ hc, if_pos rfl]
  · exact (tiles_freeCtx ..).trans hscrub.tiles

theorem sweepSteps : Spec.SweepSteps := by
  refine ⟨fun s m h => congrArg Host.Outcome.next (if_pos h), fun s c x hb h0 hc hf hs => ?_, saveCompletes,
    fun s c t hst hr ht => ?_, swtExpires, cleanResults, purgeFrees⟩
  · exact ⟨_, congrArg Host.Outcome.next (if_neg hb), startSweep_spec (Spec.on s _) (.killed c x) hc hf hs⟩
  · obtain ⟨s', he, htile, hother, hag⟩ := sweepTokenTile s c t hst hr ht
    have hstrand (n) : s'.strand t n = (sweepTile (s.tile t) s.cycle).strands[n.val] := by rw [State.strand, htile]
    refine ⟨s', he, ?_⟩
    rw [htile]
    refine ⟨rfl, rfl, rfl, rfl, rfl, rfl, rfl, rfl, rfl, rfl, rfl, rfl, fun n => ?_, fun e he => ?_, hother⟩
    · rw [hstrand]
      simp [sweepTile, freedTile]
    · rw [hag] at he
      simpa using (List.mem_filter.1 he).2

/-- Settles O56: the clauses of boot and attestation and those of the save and the sweep, each a lemma about its step. -/
theorem bootAndSweepSteps : Obligations.BootAndSweepSteps := ⟨bootSteps, sweepSteps⟩

end Sys2Proof.Laws

/-! SUPPORT and O20. Rounding a value that a format holds (R35 to R38, Table 2.1): a finite pattern is a significand at an
exponent of its format, and rounding packs these again. -/

namespace Sys2Proof.Laws
open Sys2Proof Sys2Proof.Machine

theorem floorLog2_one {n : Nat} (h : n ≠ 0) : floorLog2 n 1 = Nat.log2 n := by
  have hle : 2 ^ Nat.log2 n ≤ n := Nat.log2_self_le h
  have hlog : Nat.log2 1 = 0 := by decide
  unfold floorLog2 scale2
  simp only [hlog, Nat.cast_zero, sub_zero]
  split <;> rename_i hk
  · have : Nat.log2 n = 0 := by omega
    simp [this]; omega
  · simp
    omega

/-- A significand of the format at an exponent of the format is its own rounding: its bits are the packed ones. -/
theorem roundMag_exact {f : Fmt} {mode : BitVec 3} {u : BitVec 32} {neg : Bool} {n k : Nat} (hn : n ≠ 0)
    (hp : n < 2 ^ f.p) (hhid : k = 0 ∨ 2 ^ (f.p - 1) ≤ n) (hbits : k * 2 ^ (f.p - 1) + n ≤ f.maxBits)
    (hover : f.sat = true ∨ (Nat.log2 n : Int) + (f.emin + k) < 128) :
    roundMag f mode u neg n 1 (f.emin + k) = withSign f neg (k * 2 ^ (f.p - 1) + n) := by
  have hlt : Nat.log2 n < f.p := (Nat.log2_lt hn).2 hp
  have hulp : max ((Nat.log2 n : Int) + (f.emin + k) - ((f.p : Int) - 1)) f.emin = f.emin + k := by
    rcases hhid with rfl | h
    · omega
    · have : f.p - 1 ≤ Nat.log2 n := (Nat.le_log2 hn).2 h
      omega
  have hno : ¬ (¬ f.sat = true ∧ 128 ≤ (Nat.log2 n : Int) + (f.emin + k)) := by
    rintro ⟨h1, h2⟩
    rcases hover with h | h
    · exact h1 h
    · omega
  have hk : (f.emin + (k : Int) - f.emin).toNat = k := by omega
  have hbig : ¬ f.maxBits < k * 2 ^ (f.p - 1) + n := by omega
  simp only [roundMag, floorLog2_one hn, if_neg hno, hulp, sub_self, scale2, le_refl, if_true, Int.toNat_zero, pow_zero,
    mul_one, Nat.div_one, Nat.mod_one, ne_eq, not_true_eq_false, decide_false, Bool.false_and, Bool.false_eq_true, if_false,
    hk, ite_self, if_neg hbig]

/-- What a pattern of a format with specials decodes to, when it is finite. -/
theorem decodeFp_fin {f : Fmt} {x : Nat} {neg : Bool} {m : Nat} {e : Int} (hw : f.width ≠ 4) (hp : 1 ≤ f.p)
    (h : decodeFp f x = .fin neg m e) : ∃ k : Nat, x % 2 ^ (f.width - 1) ≤ f.maxBits ∧
      neg = (x / 2 ^ (f.width - 1) % 2 == 1) ∧ e = f.emin + k ∧ m < 2 ^ f.p ∧ (k = 0 ∨ 2 ^ (f.p - 1) ≤ m) ∧
      k * 2 ^ (f.p - 1) + m = x % 2 ^ (f.width - 1) := by
  have h2 : 2 ^ f.p = 2 * 2 ^ (f.p - 1) := by
    rw [← pow_succ', Nat.sub_add_cancel hp]
  have hmod : x % 2 ^ (f.width - 1) % 2 ^ (f.p - 1) < 2 ^ (f.p - 1) := Nat.mod_lt _ (by positivity)
  have hsplit := Nat.div_add_mod (x % 2 ^ (f.width - 1)) (2 ^ (f.p - 1))
  simp only [decodeFp, if_neg hw] at h
  split at h
  · cases h
  · split at h
    · cases h
    · rename_i hnan hinf
      have hmax : x % 2 ^ (f.width - 1) ≤ f.maxBits := by
        by_contra hc
        exact hnan ⟨by omega, hinf⟩
      split at h
      · rename_i hex
        obtain ⟨rfl, rfl, rfl⟩ := Val.fin.inj h
        rw [hex] at hsplit
        exact ⟨0, hmax, rfl, by simp, by omega, .inl rfl, by omega⟩
      · rename_i hex
        obtain ⟨rfl, rfl, rfl⟩ := Val.fin.inj h
        obtain ⟨k, hk⟩ := Nat.exists_eq_succ_of_ne_zero hex
        rw [hk, Nat.mul_succ, Nat.mul_comm] at hsplit
        exact ⟨k, hmax, rfl, by rw [hk]; push_cast; ring, by omega, .inr (by omega), by omega⟩

/-- The sign bit put back. -/
theorem withSign_decode {f : Fmt} {x : Nat} (hw : 1 ≤ f.width) (hx : x < 2 ^ f.width) :
    withSign f (x / 2 ^ (f.width - 1) % 2 == 1) (x % 2 ^ (f.width - 1)) = x := by
  have h2 : 2 ^ f.width = 2 * 2 ^ (f.width - 1) := by rw [← pow_succ', Nat.sub_add_cancel hw]
  have hsplit := Nat.div_add_mod x (2 ^ (f.width - 1))
  have hq : x / 2 ^ (f.width - 1) < 2 := Nat.div_lt_of_lt_mul (by omega)
  unfold withSign
  generalize x / 2 ^ (f.width - 1) = q at hsplit hq ⊢
  interval_cases q
  · simpa using hsplit
  · simpa [Nat.add_comm] using hsplit

/-- A format with specials whose finite values, where overflow does not saturate, lie below 2^128 (Table 2.1, R37). -/
structure Bounded (f : Fmt) : Prop where
  wide : f.width ≠ 4
  hidden : 1 ≤ f.p
  signed : 1 ≤ f.width
  below : f.sat = true ∨ f.emin + (f.p - 1 : Nat) + (f.maxBits / 2 ^ (f.p - 1) - 1 : Nat) < 128

theorem bounded_fmtOf {ty : BitVec 4} (h : ty ∈ ([8, 9, 10, 11] : List (BitVec 4))) : Bounded (fmtOf ty) := by
  fin_cases h <;> exact ⟨by decide, by decide, by decide, by decide⟩

theorem roundVal_decodeFp {f : Fmt} (hf : Bounded f) {mode : BitVec 3} {u : BitVec 32} {x : Nat} (hx : x < 2 ^ f.width)
    {neg : Bool} {m : Nat} {e : Int} (h : decodeFp f x = .fin neg m e) : roundVal f mode u (.fin neg m e) = x := by
  obtain ⟨k, hmax, rfl, rfl, hlt, hhid, hmag⟩ := decodeFp_fin hf.wide hf.hidden h
  refine Eq.trans ?_ (withSign_decode hf.signed hx)
  by_cases hm : m = 0
  · have hk : k = 0 := hhid.resolve_right (by have := Nat.two_pow_pos (f.p - 1); omega)
    rw [roundVal, if_pos hm, ← hmag, hm, hk, Nat.zero_mul]
  · rw [roundVal, if_neg hm, ← hmag]
    refine roundMag_exact hm hlt hhid (hmag ▸ hmax) (hf.below.imp_right fun hb => ?_)
    have hlog : Nat.log2 m < f.p := (Nat.log2_lt hm).2 hlt
    have hk : k ≤ f.maxBits / 2 ^ (f.p - 1) - 1 := by
      rcases hhid with rfl | hh
      · exact Nat.zero_le _
      · refine Nat.le_sub_one_of_lt ((Nat.le_div_iff_mul_le (Nat.two_pow_pos _)).2 ?_)
        rw [Nat.succ_mul]
        omega
    omega

/-- Settles O20: a finite pattern is a significand at an exponent of its format, which rounding packs again. -/
theorem roundingExact : Obligations.RoundingExact := by
  rintro ty hty rm u x - hx ⟨neg, m, e, h⟩
  rw [h]
  exact roundVal_decodeFp (bounded_fmtOf hty) hx h

end Sys2Proof.Laws

/-! SUPPORT and O21. Group sums (R39, R135, R136): where an element stands in a partial tile, its bit, and its terms. -/

namespace Sys2Proof.Laws
open Sys2Proof Sys2Proof.Machine

/-! ### Lists by their numbers -/

theorem zip_range_map {α : Type} (n : Nat) (f : Nat → α) :
    (List.range n).zip ((List.range n).map f) = (List.range n).map (fun i => (i, f i)) := by
  simpa using List.zip_map' (f := id) (g := f) (l := List.range n)

/-- Element j of row i, in a list of rows of m elements each. -/
theorem getElem?_flatMap_range {α : Type} {n m i j : Nat} (g : Nat → Nat → α) (hi : i < n) (hj : j < m) :
    ((List.range n).flatMap (fun i => (List.range m).map (g i)))[m * i + j]? = some (g i j) := by
  induction n with
  | zero => omega
  | succ n ih =>
    have hlen : ((List.range n).flatMap (fun i => (List.range m).map (g i))).length = m * n := by
      simp [List.length_flatMap, Nat.mul_comm]
    rw [List.range_succ, List.flatMap_append, List.flatMap_singleton]
    rcases Nat.lt_succ_iff_lt_or_eq.1 hi with h | rfl
    · have : m * (i + 1) ≤ m * n := Nat.mul_le_mul_left m h
      rw [Nat.mul_succ] at this
      rw [List.getElem?_append_left (by omega), ih h]
    · rw [List.getElem?_append_right (by omega), hlen, Nat.add_sub_cancel_left]
      simp [hj]

/-- A number put together from the bits that a test picks has these bits. -/
theorem testBit_foldl_two_pow (b : Nat → Bool) (n : Nat) :
    (List.range n).foldl (fun a e => if b e then a + 2 ^ e else a) 0 < 2 ^ n ∧
    ∀ i, i < n → ((List.range n).foldl (fun a e => if b e then a + 2 ^ e else a) 0).testBit i = b i := by
  induction n with
  | zero => simp
  | succ n ih =>
    rw [List.range_succ, List.foldl_concat]
    generalize (List.range n).foldl _ 0 = a at ih ⊢
    obtain ⟨hlt, hbit⟩ := ih
    have hpow : 2 ^ (n + 1) = 2 * 2 ^ n := pow_succ' 2 n
    refine ⟨by split <;> omega, fun i hi => ?_⟩
    rcases Nat.lt_succ_iff_lt_or_eq.1 hi with h | rfl
    · split
      · rw [Nat.add_comm, Nat.testBit_two_pow_add_gt h, hbit i h]
      · exact hbit i h
    · have htop : a.testBit i = false := Nat.testBit_lt_two_pow hlt
      cases hb : b i
      · simpa using htop
      · rw [if_pos rfl, Nat.add_comm, Nat.testBit_two_pow_add_eq, htop]
        rfl

/-! ### A partial tile from two units -/

/-- The products of an element: without weights each term has two factors (R135). -/
theorem products_rowVals (ta tb : BitVec 4) (ua ub : Unit_) (k0 kn i j : Nat) :
    (termFactors [] (rowVals ta ua k0 kn i) (rowVals tb ub k0 kn j)).map prodVal =
      (List.range kn).map (fun k => mulVal (unitVal ta ua i (k0 + k)) (unitVal tb ub j (k0 + k))) := by
  simp only [termFactors, rowVals, List.isEmpty_nil, if_true, List.zip_map', List.map_map]
  rfl

theorem groupTile_keep (ta tb : BitVec 4) (ua ub : Unit_) (k0 kn : Nat) (rows cols : BitVec 32) (w : List Val) {i j : Nat}
    (hi : i < 32) (hj : j < 32) : (groupTile ta tb ua ub k0 kn rows cols w).keep.getLsbD (32 * i + j) =
      (rows.getLsbD i && cols.getLsbD j) := by
  have hlt : 32 * i + j < 1024 := by omega
  rw [groupTile, BitVec.getLsbD_ofNat, decide_eq_true hlt, Bool.true_and,
    (testBit_foldl_two_pow (fun e => rows.getLsbD (e / 32) && cols.getLsbD (e % 32)) 1024).2 _ hlt,
    show (32 * i + j) / 32 = i by omega, show (32 * i + j) % 32 = j by omega]

theorem groupTile_vals (ta tb : BitVec 4) (ua ub : Unit_) (k0 kn : Nat) (rows cols : BitVec 32) (w : List Val) {i j : Nat}
    (hi : i < 32) (hj : j < 32) : (groupTile ta tb ua ub k0 kn rows cols w).vals.getD (32 * i + j) 0 =
      if rows.getLsbD i && cols.getLsbD j then
        groupSum (ta == 7) ((termFactors w (rowVals ta ua k0 kn i) (rowVals tb ub k0 kn j)).map prodVal)
      else 0 := by
  simp only [groupTile, zip_range_map, List.flatMap_map, List.map_map, Function.comp_def]
  rw [List.getD_eq_getElem?_getD, getElem?_flatMap_range _ hi hj, Option.getD_some]

/-- An element of a group without weights (R135, R136). -/
theorem groupTile_element (ta tb : BitVec 4) (ua ub : Unit_) (k0 kn : Nat) (rows cols : BitVec 32) {i j : Nat}
    (hi : i < 32) (hj : j < 32) :
    let terms := (List.range kn).map (fun k => mulVal (unitVal ta ua i (k0 + k)) (unitVal tb ub j (k0 + k)))
    (groupTile ta tb ua ub k0 kn rows cols []).vals.getD (32 * i + j) 0 =
      if rows.getLsbD i && cols.getLsbD j then
        (if ta = 7 then BitVec.ofInt 32 ((terms.map (scaledInt 0)).sum) else BitVec.ofNat 32 (exactThenRound fp32 0 0 terms))
      else 0 := by
  intro terms
  rw [groupTile_vals ta tb ua ub k0 kn rows cols [] hi hj, products_rowVals]
  simp only [groupSum, beq_iff_eq, terms]

/-- The groups of an `mma` are consecutive pieces of its index range, each of as many terms as its type gives (R135). -/
theorem mem_mmaGroups {ty : BitVec 4} {q : Nat × Nat × Nat} : q ∈ mmaGroups ty ↔
    ∃ g, g < (if ty = 10 ∨ ty = 11 then 2 else 1) ∧
      q = (g, g * (if ty = 9 then 128 else if ty = 12 then 512 else if ty = 10 ∨ ty = 11 then 128 else 256),
        if ty = 9 then 128 else if ty = 12 then 512 else if ty = 10 ∨ ty = 11 then 128 else 256) := by
  by_cases h8 : ty = 10 ∨ ty = 11
  · have h9 : ty ≠ 9 := by rcases h8 with rfl | rfl <;> decide
    have h12 : ty ≠ 12 := by rcases h8 with rfl | rfl <;> decide
    simp only [mmaGroups, if_pos h8, if_neg h9, if_neg h12, List.mem_cons, List.not_mem_nil, or_false]
    constructor
    · rintro (rfl | rfl)
      · exact ⟨0, by decide, rfl⟩
      · exact ⟨1, by decide, rfl⟩
    · rintro ⟨g, hg, rfl⟩
      interval_cases g <;> simp
  · simp only [mmaGroups, if_neg h8, rowElems, List.mem_singleton]
    constructor
    · rintro rfl
      exact ⟨0, by decide, by simp⟩
    · rintro ⟨g, hg, rfl⟩
      obtain rfl : g = 0 := by omega
      simp

/-- Settles O21: the tiles of an `mma` are those of its groups, and each element of a group's tile is its group sum. -/
theorem groupSums : Obligations.GroupSums := by
  intro ty x n ua ub rows cols per tb
  refine ⟨fun q hq => ?_, fun g hg => ?_⟩
  · obtain ⟨p, hp, rfl⟩ := List.mem_map.1 hq
    obtain ⟨g, hg, rfl⟩ := mem_mmaGroups.1 hp
    split at hg
    · rename_i h8
      interval_cases g
      · exact .inl rfl
      · exact .inr ⟨rfl, h8⟩
    · obtain rfl : g = 0 := by omega
      exact .inl rfl
  · exact ⟨_, List.mem_map.2 ⟨_, mem_mmaGroups.2 ⟨g, hg, rfl⟩, rfl⟩, fun i j hi hj =>
      ⟨groupTile_keep ty _ ua ub _ _ rows cols [] hi hj, groupTile_element ty _ ua ub _ _ rows cols hi hj⟩⟩

end Sys2Proof.Laws

/-! SUPPORT and O22. Long accumulators (R47 to R49): an addition is a fixed number for the limbs and a fixed set of flags,
whatever the element holds. -/

namespace Sys2Proof.Laws
open Sys2Proof Sys2Proof.Machine

/-! ### The fields of an element (R47, Table 2.4) -/

theorem laMake_eq (n : Int) (fl : BitVec 4) : laMake n fl = (fl ++ BitVec.ofInt 384 n : BitVec 388).setWidth 512 := rfl

theorem laMake_limbs_bits (n : Int) (fl : BitVec 4) : (laMake n fl).extractLsb' 0 384 = BitVec.ofInt 384 n := by
  refine BitVec.eq_of_getLsbD_eq fun i hi => ?_
  simp only [laMake_eq, BitVec.getLsbD_extractLsb', BitVec.getLsbD_setWidth, BitVec.getLsbD_append, Nat.zero_add, hi,
    show i < 512 by omega, decide_true, Bool.true_and, if_true]

@[simp] theorem laFlags_laMake (n : Int) (fl : BitVec 4) : laFlags (laMake n fl) = fl := by
  refine BitVec.eq_of_getLsbD_eq fun i hi => ?_
  simp only [laFlags, laMake_eq, BitVec.getLsbD_extractLsb', BitVec.getLsbD_setWidth, BitVec.getLsbD_append, hi,
    show 384 + i < 512 by omega, show ¬ 384 + i < 384 by omega, Nat.add_sub_cancel_left, decide_true, Bool.true_and, if_false]

theorem laMake_top (n : Int) (fl : BitVec 4) : (laMake n fl).extractLsb' 388 124 = 0 := by
  refine BitVec.eq_of_getLsbD_eq fun i hi => ?_
  have hge : (fl ++ BitVec.ofInt 384 n).getLsbD (388 + i) = false := BitVec.getLsbD_of_ge _ _ (by omega)
  simp only [laMake_eq, BitVec.getLsbD_extractLsb', BitVec.getLsbD_setWidth, hge, Bool.and_false]
  exact BitVec.getLsbD_zero.symm

theorem ofInt_laInt (e : BitVec 512) : BitVec.ofInt 384 (laInt e) = e.extractLsb' 0 384 := by
  rw [laInt, BitVec.ofInt_toInt, BitVec.setWidth_eq_extractLsb' (by decide)]

/-- N counts modulo 2^384. -/
theorem laMake_laInt_laMake (n x : Int) (fl fl' : BitVec 4) : laMake (laInt (laMake n fl) + x) fl' = laMake (n + x) fl' := by
  rw [laMake_eq, BitVec.ofInt_add, ofInt_laInt, laMake_limbs_bits, ← BitVec.ofInt_add, ← laMake_eq]

/-! ### An addition (R48) -/

/-- What an addend adds to the limbs, and the flags that it sets. -/
def laAddend : Val → Int × BitVec 4
  | .nan => (0, 4)
  | .inf neg => (0, if neg then 2 else 1)
  | .fin neg m ex =>
    let t := (scale2 m 1 (ex + 256)).1 / (scale2 m 1 (ex + 256)).2
    if 2 ^ 383 ≤ t then (0, if neg then 10 else 9) else (if neg then -(t : Int) else t, 0)

theorem addLa_eq (e : BitVec 512) (a : Val) :
    addLa e a = laMake (laInt e + (laAddend a).1) (laFlags e ||| (laAddend a).2) := by
  cases a with
  | nan => simp only [addLa, laAddend, add_zero]
  | inf neg => simp only [addLa, laAddend, add_zero]
  | fin neg m ex =>
    simp only [addLa, laAddend]
    split
    · cases neg <;> simp only [add_zero, BitVec.or_assoc] <;> rfl
    · rw [show laFlags e ||| 0 = laFlags e from BitVec.or_zero]

theorem addLa_limbs (e : BitVec 512) (a : Val) :
    (addLa e a).extractLsb' 0 384 = e.extractLsb' 0 384 + BitVec.ofInt 384 (laAddend a).1 := by
  rw [addLa_eq, laMake_limbs_bits, BitVec.ofInt_add, ofInt_laInt]

theorem addLa_flags (e : BitVec 512) (a : Val) :
    (addLa e a).extractLsb' 384 4 = e.extractLsb' 384 4 ||| (laAddend a).2 := by
  rw [addLa_eq]
  exact laFlags_laMake _ _

theorem addLa_top (e : BitVec 512) (a : Val) : (addLa e a).extractLsb' 388 124 = 0 := by
  rw [addLa_eq, laMake_top]

/-- Additions commute: the limbs are a sum modulo 2^384, the flags a union. -/
theorem addLa_comm (e : BitVec 512) (a b : Val) : addLa (addLa e a) b = addLa (addLa e b) a := by
  simp only [addLa_eq, laMake_laInt_laMake, laFlags_laMake]
  congr 1
  · ring
  · rw [BitVec.or_assoc, BitVec.or_assoc, BitVec.or_comm (laAddend a).2]

/-- An addend without flags. -/
theorem addLa_number {a : Val} {x : Int} (h : laAddend a = (x, 0)) (e : BitVec 512) :
    (addLa e a).extractLsb' 0 384 = e.extractLsb' 0 384 + BitVec.ofInt 384 x ∧
    (addLa e a).extractLsb' 384 4 = e.extractLsb' 384 4 ∧ (addLa e a).extractLsb' 388 124 = 0 := by
  refine ⟨by rw [addLa_limbs, h], ?_, addLa_top e a⟩
  rw [addLa_flags, h]
  exact BitVec.or_zero

/-- An addend that leaves the limbs. -/
theorem addLa_beyond {a : Val} {c : BitVec 4} (h : laAddend a = (0, c)) (e : BitVec 512) :
    (addLa e a).extractLsb' 0 384 = e.extractLsb' 0 384 ∧
    (addLa e a).extractLsb' 384 4 = e.extractLsb' 384 4 ||| c := by
  refine ⟨?_, by rw [addLa_flags, h]⟩
  rw [addLa_limbs, h]
  exact BitVec.add_zero _

/-- An addend that leaves the limbs sets its flags among the element's bits, below limb 7. -/
theorem addLa_special {a : Val} {c : BitVec 4} (h : laAddend a = (0, c)) {n : Nat} (hn : n = c.toNat * 2 ^ 384)
    (e : BitVec 512) : (addLa e a).extractLsb' 0 388 = (e ||| BitVec.ofNat 512 n).extractLsb' 0 388 := by
  refine BitVec.eq_of_getLsbD_eq fun i hi => ?_
  rw [addLa_eq, h, add_zero, laMake_eq, ofInt_laInt, hn]
  simp only [BitVec.getLsbD_extractLsb', BitVec.getLsbD_setWidth, BitVec.getLsbD_append, BitVec.getLsbD_or, laFlags, Nat.zero_add,
    BitVec.getLsbD_ofNat, Nat.testBit_mul_two_pow, hi, show i < 512 by omega, decide_true, Bool.true_and]
  by_cases hlow : i < 384
  · simp [hlow]
  · simp only [hlow, if_false, show 384 ≤ i by omega, decide_true, Bool.true_and, show i - 384 < 4 by omega,
      show 384 + (i - 384) = i by omega, BitVec.testBit_toNat]

/-! ### Finite addends: the multiple of 2^-256 that they truncate to -/

/-- The multiple of 2^-256, in those units, that a magnitude gives: below the unit it is truncated. -/
theorem laAddend_right (neg : Bool) (m k : Nat) : laAddend (.fin neg m (-256 - (k : Int))) =
    if 2 ^ 383 ≤ m / 2 ^ k then (0, if neg then 10 else 9)
    else (if neg then -((m / 2 ^ k : Nat) : Int) else (m / 2 ^ k : Nat), 0) := by
  have ht : (scale2 m 1 (-256 - (k : Int) + 256)).1 / (scale2 m 1 (-256 - (k : Int) + 256)).2 = m / 2 ^ k := by
    unfold scale2
    split
    · simp [show k = 0 by omega]
    · simp
  simp only [laAddend, ht]

theorem laAddend_left (neg : Bool) (m k : Nat) : laAddend (.fin neg m ((k : Int) - 256)) =
    if 2 ^ 383 ≤ m * 2 ^ k then (0, if neg then 10 else 9)
    else (if neg then -((m * 2 ^ k : Nat) : Int) else (m * 2 ^ k : Nat), 0) := by
  have ht : (scale2 m 1 ((k : Int) - 256 + 256)).1 / (scale2 m 1 ((k : Int) - 256 + 256)).2 = m * 2 ^ k := by
    simp [scale2]
  simp only [laAddend, ht]

/-! ### Readout (R49) -/

theorem readLa_nan {e : BitVec 512} (sg : Val) (rm : BitVec 3)
    (h : e.getLsbD 386 = true ∨ (e.getLsbD 384 = true ∧ e.getLsbD 385 = true)) : readLa e sg rm = 0x7FC00000 := by
  have hfl : ((laFlags e).getLsbD 2 || ((laFlags e).getLsbD 0 && (laFlags e).getLsbD 1)) = true := by
    simpa [laFlags] using h
  simp only [readLa, hfl, if_true, ite_self]
  rfl

/-- Settles O22: `laAddend` says what an addend does, whatever the element holds; the rest reads its cases off. -/
theorem longAccumulator : Obligations.LongAccumulator := by
  refine ⟨fun e neg m k h => ?_, fun e neg m k h => ?_, fun e neg m k h => ?_, fun e neg m k h => ?_, fun e => ⟨?_, ?_, ?_⟩,
    addLa_comm, fun e sg rm h => readLa_nan sg rm h⟩
  · exact addLa_number ((laAddend_right neg m k).trans (if_neg (Nat.not_le.2 h))) e
  · exact addLa_number ((laAddend_left neg m k).trans (if_neg (Nat.not_le.2 h))) e
  · exact addLa_beyond ((laAddend_left neg m k).trans (if_pos h)) e
  · exact addLa_beyond ((laAddend_right neg m k).trans (if_pos h)) e
  · exact addLa_special (c := 4) rfl (by rw [show (4 : BitVec 4).toNat = 4 from rfl]) e
  · exact addLa_special (c := 1) rfl (by rw [show (1 : BitVec 4).toNat = 1 from rfl, Nat.one_mul]) e
  · exact addLa_special (c := 2) rfl (by rw [show (2 : BitVec 4).toNat = 2 from rfl]) e

end Sys2Proof.Laws

/-! SUPPORT and O51. The array (R131 to R133): an `mma` at the head of the queue that starts, and the note of the partial
tile that a mismatch would name (R138), which O51 gives as 0 whatever the tile is. -/

namespace Sys2Proof.Laws
open Sys2Proof Sys2Proof.Machine

section
variable {s : State} {t : TileId}

/-- Each FIFO without held units gives its oldest complete one. -/
theorem takeUnits_units {u v : Unit_} {us vs : List Unit_} (ha : (s.tile t).fa.held = []) (hb : (s.tile t).fb.held = [])
    (hu : (s.tile t).fa.units = u :: us) (hv : (s.tile t).fb.units = v :: vs) :
    ∃ a b, takeUnits s t = some (s.modTile t (fun T => { T with fa := a, fb := b }), u, v) := by
  have take {q : Fifo} {w : Unit_} {ws : List Unit_} (hh : q.held = []) (hw : q.units = w :: ws) :
      ∃ q', q.freed.take = some (w, q') := by
    have hh' : q.freed.held = [] := hh
    have hw' : q.freed.units = w :: ws := hw
    exact ⟨_, by rw [Fifo.take, hh', hw']⟩
  obtain ⟨a, ha⟩ := take ha hu
  obtain ⟨b, hb⟩ := take hb hv
  exact ⟨a, b, by rw [takeUnits, ha, hb]⟩

/-- An `mma` that starts is under way with no mismatch, and notes as the place of one the partial tile that it names. -/
theorem startArr_mma {c : ArrCmd} {ty : BitVec 4} {x : Bool} {n : BitVec 2} {rows cols : BitVec 32} {u v : Unit_}
    {us vs : List Unit_} (hop : c.op = .mma ty x n rows cols) (herrs : (s.tile t).errs = []) (ha : (s.tile t).fa.held = [])
    (hb : (s.tile t).fb.held = []) (hu : (s.tile t).fa.units = u :: us) (hv : (s.tile t).fb.units = v :: vs)
    (hinj : (s.tile t).inja = false) : ((startArr s t c).tile t).arrFly = (s.tile t).arrFly ++
      [{ cmd := c, outs := mmaTiles ty x n.toNat u v rows cols, bad := false, badPt := n.toNat, due := s.cycle + 72 }] := by
  obtain ⟨a, b, htake⟩ := takeUnits_units ha hb hu hv
  simp [startArr, hop, htake, arrCheck, residueCheck, flyArr, popArr, herrs, hinj]

end

/-- A unit of zeros. -/
def zeroUnit : Unit_ := { rows := [], scales := [], ty := 0, bound := false, tap := false, sink := false }

/-- An `mma` into partial tile 1. -/
def mmaInto1 : ArrCmd := { op := .mma 9 false 1 0 0, seq := 1, strand := 0, pc := 0 }

/-- The package at reset, but for tile 0: its array is free, one unit stands in each FIFO, an `mma` heads its queue. -/
def mmaReady : State :=
  State.reset.setTile 0 { arrQ := [mmaInto1], fa := { units := [zeroUnit] }, fb := { units := [zeroUnit] } }

/-- Refutes O51: an `mma` into partial tile 1 starts at `mmaReady`, and its operation under way has `badPt` 1, not 0. -/
theorem not_arrayAndAdderSteps : ¬ Obligations.ArrayAndAdderSteps := by
  rintro ⟨⟨-, hmma, -⟩, -⟩
  have hmet : beforeMet mmaReady 0 mmaInto1.strand mmaInto1.after = true := by decide
  obtain ⟨s', hexec, -, -, -, -, hfly, -⟩ := hmma 0 mmaReady mmaInto1 [] 9 false 1 0 0 zeroUnit zeroUnit [] [] rfl rfl
    ⟨le_refl _, rfl⟩ hmet rfl rfl rfl rfl rfl rfl
  have hstart : execArrayOpStart (Spec.on mmaReady (.arrayOpStart 0)) =
      .next (startArr (Spec.on mmaReady (.arrayOpStart 0)) 0 mmaInto1) := by
    have h : arrStarts (Spec.on mmaReady (.arrayOpStart 0)) 0 = true := by decide
    exact congrArg Host.Outcome.next (if_pos h)
  rw [exec_arrayOpStart, hstart] at hexec
  obtain rfl := Host.Outcome.next.inj hexec
  rw [startArr_mma (n := 1) (u := zeroUnit) (v := zeroUnit) rfl rfl rfl rfl rfl rfl rfl] at hfly
  simpa using congrArg (List.map ArrFly.badPt) hfly

end Sys2Proof.Laws

/-! SUPPORT. Lanes of a register (R116): what stands in a lane of a register put together from lanes, and the numbers that a
lane holds (R33, R119). -/

namespace Sys2Proof.Laws
open Sys2Proof Sys2Proof.Machine

/-! ### Lanes read -/

section
variable {w i : Nat}

theorem lane_eq (w : Nat) (v : VWord) (i : Nat) : lane w v i = (Spec.laneOf w v i).toNat := by
  rw [lane, Spec.laneOf, BitVec.extractLsb'_toNat, Nat.shiftRight_eq_div_pow]

@[simp] theorem length_lanes (w : Nat) (v : VWord) : (lanes w v).length = 1024 / w := by
  simp [lanes]

theorem getElem?_lanes (v : VWord) (hi : i < 1024 / w) : (lanes w v)[i]? = some (Spec.laneOf w v i).toNat := by
  rw [lanes, List.getElem?_map, List.getElem?_range hi, Option.map_some, lane_eq]

/-- Lanes of a width lie within the register. -/
theorem lane_within (hi : i < 1024 / w) : w * i + w ≤ 1024 := by
  have hle : w * (i + 1) ≤ w * (1024 / w) := Nat.mul_le_mul_left w hi
  have hdiv : w * (1024 / w) ≤ 1024 := Nat.mul_div_le 1024 w
  rw [Nat.mul_succ] at hle
  omega

/-! ### Lanes put together -/

/-- A digit of the number that a list of lanes gives. -/
theorem digit_foldr {xs : List Nat} {x : Nat} (h : xs[i]? = some x) :
    xs.foldr (fun x a => x % 2 ^ w + a * 2 ^ w) 0 / 2 ^ (w * i) % 2 ^ w = x % 2 ^ w := by
  induction xs generalizing i with
  | nil => simp at h
  | cons y ys ih =>
    have hy : y % 2 ^ w < 2 ^ w := Nat.mod_lt _ (Nat.two_pow_pos w)
    rw [List.foldr_cons]
    cases i with
    | zero =>
      obtain rfl : y = x := by simpa using h
      rw [Nat.mul_zero, pow_zero, Nat.div_one, Nat.add_mul_mod_self_right, Nat.mod_mod]
    | succ i =>
      rw [Nat.mul_succ, Nat.add_comm (w * i), pow_add, ← Nat.div_div_eq_div_mul, Nat.add_mul_div_right _ _ (Nat.two_pow_pos w),
        Nat.div_eq_of_lt hy, Nat.zero_add]
      exact ih h

/-- Lane i of a register put together from lanes is the i-th of them. -/
theorem laneOf_joinLanes {xs : List Nat} {x : Nat} (hi : i < 1024 / w) (h : xs[i]? = some x) :
    Spec.laneOf w (joinLanes w xs) i = BitVec.ofNat w x := by
  apply BitVec.eq_of_toNat_eq
  have hpow : 2 ^ 1024 = 2 ^ (w * i) * 2 ^ w * 2 ^ (1024 - (w * i + w)) := by
    rw [← pow_add, ← pow_add, Nat.add_sub_cancel' (lane_within hi)]
  rw [Spec.laneOf, BitVec.extractLsb'_toNat, Nat.shiftRight_eq_div_pow, BitVec.toNat_ofNat, joinLanes, BitVec.toNat_ofNat, hpow,
    Nat.mul_assoc, Nat.mod_mul_right_div_self, Nat.mod_mul_right_mod]
  exact digit_foldr h

/-- A register whose lanes are a function of their numbers. -/
theorem laneOf_joinLanes_map (f : Nat → Nat) {n : Nat} (hi : i < 1024 / w) (hn : i < n) :
    Spec.laneOf w (joinLanes w ((List.range n).map f)) i = BitVec.ofNat w (f i) :=
  laneOf_joinLanes hi (by rw [List.getElem?_map, List.getElem?_range hn, Option.map_some])

theorem laneOf_joinLanes_replicate (x : Nat) {n : Nat} (hi : i < 1024 / w) (hn : i < n) :
    Spec.laneOf w (joinLanes w (List.replicate n x)) i = BitVec.ofNat w x :=
  laneOf_joinLanes hi (List.getElem?_replicate_of_lt hn)

/-- Each lane of one register changed. -/
theorem laneOf_mapLanes (f : Nat → Nat) (a : VWord) (hi : i < 1024 / w) :
    Spec.laneOf w (joinLanes w ((lanes w a).map f)) i = BitVec.ofNat w (f (Spec.laneOf w a i).toNat) :=
  laneOf_joinLanes hi (by rw [List.getElem?_map, getElem?_lanes a hi, Option.map_some])

/-- Two registers lane by lane. -/
theorem laneOf_lift2 (f : Nat → Nat → Nat) (a b : VWord) (hi : i < 1024 / w) :
    Spec.laneOf w (lift2 w f a b) i = BitVec.ofNat w (f (Spec.laneOf w a i).toNat (Spec.laneOf w b i).toNat) :=
  laneOf_joinLanes hi (by rw [List.getElem?_zipWith_eq_some.2 ⟨_, _, getElem?_lanes a hi, getElem?_lanes b hi, rfl⟩])

/-- Pairs of the lanes of two registers. -/
theorem getElem?_zip_lanes (a b : VWord) (hi : i < 1024 / w) :
    (List.zip (lanes w a) (lanes w b))[i]? = some ((Spec.laneOf w a i).toNat, (Spec.laneOf w b i).toNat) :=
  List.getElem?_zip_eq_some.2 ⟨getElem?_lanes a hi, getElem?_lanes b hi⟩

/-- Three registers lane by lane. -/
theorem laneOf_zipWith_zip (f : Nat × Nat → Nat → Nat) (a b c : VWord) (hi : i < 1024 / w) :
    Spec.laneOf w (joinLanes w (List.zipWith f (List.zip (lanes w a) (lanes w b)) (lanes w c))) i =
      BitVec.ofNat w (f ((Spec.laneOf w a i).toNat, (Spec.laneOf w b i).toNat) (Spec.laneOf w c i).toNat) :=
  laneOf_joinLanes hi
    (List.getElem?_zipWith_eq_some.2 ⟨_, _, getElem?_zip_lanes a b hi, getElem?_lanes c hi, rfl⟩)

/-- Two registers lane by lane, with the words of stochastic rounding. -/
theorem laneOf_zip3 (f : Nat → Nat → BitVec 32 → Nat) (a b : VWord) {us : List (BitVec 32)} {u : BitVec 32}
    (hi : i < 1024 / w) (hu : us[i]? = some u) :
    Spec.laneOf w (joinLanes w (zip3 f (lanes w a) (lanes w b) us)) i =
      BitVec.ofNat w (f (Spec.laneOf w a i).toNat (Spec.laneOf w b i).toNat u) :=
  laneOf_joinLanes hi (List.getElem?_zipWith_eq_some.2 ⟨_, _, getElem?_zip_lanes a b hi, hu, rfl⟩)

/-! ### Lanes replaced -/

/-- Lanes replaced from lane k on: these take the new values, the others stay. -/
theorem laneOf_putLanes (old : VWord) {k : Nat} {xs : List Nat} (hk : k + xs.length ≤ 1024 / w) (hi : i < 1024 / w) :
    Spec.laneOf w (putLanes w old k xs) i =
      if k ≤ i ∧ i < k + xs.length then BitVec.ofNat w (xs.getD (i - k) 0) else Spec.laneOf w old i := by
  have hlen : ((lanes w old).take k).length = k := by
    rw [List.length_take, length_lanes]
    omega
  have hold : BitVec.ofNat w (Spec.laneOf w old i).toNat = Spec.laneOf w old i := by
    rw [BitVec.ofNat_toNat, BitVec.setWidth_eq]
  rw [putLanes]
  by_cases hlow : i < k
  · rw [if_neg (by omega), ← hold]
    refine laneOf_joinLanes hi ?_
    rw [List.getElem?_append_left (by rw [List.length_append]; omega), List.getElem?_append_left (by omega),
      List.getElem?_take_of_lt hlow, getElem?_lanes old hi]
  · by_cases hmid : i < k + xs.length
    · rw [if_pos ⟨by omega, hmid⟩]
      refine laneOf_joinLanes hi ?_
      have hx : i - k < xs.length := by omega
      rw [List.getElem?_append_left (by rw [List.length_append]; omega), List.getElem?_append_right (by omega), hlen,
        List.getD_eq_getElem _ _ hx, List.getElem?_eq_getElem hx]
    · rw [if_neg (by omega), ← hold]
      refine laneOf_joinLanes hi ?_
      rw [List.getElem?_append_right (by rw [List.length_append]; omega), List.getElem?_drop, List.length_append, hlen,
        show k + xs.length + (i - (k + xs.length)) = i by omega, getElem?_lanes old hi]

theorem laneOf_putLanes_one (old : VWord) {k : Nat} (x : Nat) (hk : k < 1024 / w) (hi : i < 1024 / w) :
    Spec.laneOf w (putLanes w old k [x]) i = if i = k then BitVec.ofNat w x else Spec.laneOf w old i := by
  rw [laneOf_putLanes old (xs := [x]) hk hi]
  by_cases h : i = k
  · rw [if_pos h, if_pos (by simp; omega), h, Nat.sub_self]
    rfl
  · rw [if_neg h, if_neg (by simp; omega)]

end

/-! ### The numbers that lanes hold (R33, R119) -/

section
variable {w : Nat}

theorem ofNat_wrapInt (w : Nat) (x : Int) : BitVec.ofNat w (wrapInt w x) = BitVec.ofInt w x := by
  apply BitVec.eq_of_toNat_eq
  rw [wrapInt, BitVec.toNat_ofNat, BitVec.toNat_ofInt]
  have hpos : (0 : Int) < 2 ^ w := by positivity
  have hlt := Int.emod_lt_of_pos x hpos
  have hnn := Int.emod_nonneg x hpos.ne'
  push_cast
  rw [Nat.mod_eq_of_lt]
  zify [hnn]
  rwa [Int.toNat_of_nonneg hnn]

theorem readInt_toNat (sg : Bool) (x : BitVec w) : readInt sg w x.toNat = Spec.asInt sg x := by
  have hx : x.toNat % 2 ^ w = x.toNat := Nat.mod_eq_of_lt x.isLt
  cases sg with
  | false => simp [readInt, Spec.asInt, hx]
  | true =>
    have htop : (2 ^ (w - 1) ≤ x.toNat) = ¬ 2 * x.toNat < 2 ^ w := by
      have := x.isLt
      cases w with
      | zero => simp at this ⊢; omega
      | succ w => rw [Nat.add_sub_cancel, pow_succ']; simp
    simp only [readInt, Spec.asInt, hx, BitVec.toInt_eq_toNat_cond, Bool.true_and, decide_eq_true_eq, if_true, htop, ite_not]
    push_cast
    rfl

/-- The range of a type of lanes is not empty. -/
theorem ofNat_wrapInt_saturate (sg : Bool) (w : Nat) (r : Int) :
    BitVec.ofNat w (wrapInt w (saturate sg w r)) = Spec.intResult sg true w r := by
  have hpow : (0 : Int) < 2 ^ w := by positivity
  have hpow' : (0 : Int) < 2 ^ (w - 1) := by positivity
  rw [ofNat_wrapInt, saturate, Spec.intResult]
  congr 1
  cases sg <;> simp only [if_true, Bool.false_eq_true, if_false] <;> split_ifs <;> omega

theorem ofNat_wrapInt_result (sg sat : Bool) (w : Nat) (r : Int) :
    BitVec.ofNat w (wrapInt w (if sat then saturate sg w r else r)) = Spec.intResult sg sat w r := by
  cases sat with
  | true => exact ofNat_wrapInt_saturate sg w r
  | false => exact ofNat_wrapInt w r

end

@[simp] theorem isIntTy_eq (ty : BitVec 4) : isIntTy ty = Spec.intTy ty := by
  revert ty
  decide

theorem isSigned_eq {ty : BitVec 4} (h : Spec.intTy ty = true) : isSigned ty = Spec.signedTy ty := by
  revert ty
  decide

end Sys2Proof.Laws

/-! SUPPORT. The forms of the vector unit at issue (R116 to R121): one lemma per shape of form, and the lane functions. -/

namespace Sys2Proof.Laws
open Sys2Proof Sys2Proof.Machine

/-! ### Issue -/

section
variable {s : State} {p : Pred} {lat : Nat} {ok : Bool} {d : VReg} {a b c : VSrc}

/-- An instruction that goes on to an effect of its own which traps. -/
theorem issue_trap {who : Who} {srcs : List Src} {dsts : List Dst} {len : Nat} {body : State → TileId → StrandNo → Act}
    {cause : Cause} {info : BitVec 32} (h : Ready s p who srcs dsts) (hb : body s s.cur.1 s.cur.2 = .trap cause info) :
    issue p len who srcs dsts body s = .next (trapTaken s len cause info) := by
  rw [issue_ready h, hb, finishAct_trap]

theorem vec1_next {f : VWord → VWord} (h : Ready s p .tile [.v a] [vdst d]) (hok : ok = true) :
    vec1 lat ok f p d a s = .next (Spec.vectorDone s (Spec.take1 s a).1 d (f (Spec.take1 s a).2) lat) :=
  issue_done h (if_pos hok)

theorem vec1_trap {f : VWord → VWord} (h : Ready s p .tile [.v a] [vdst d]) (hok : ok = false) :
    vec1 lat ok f p d a s = .next (trapTaken s 8 .illegal 0) :=
  issue_trap h (if_neg (by simp [hok]))

theorem vec2_next {f : VWord → VWord → VWord} (h : Ready s p .tile [.v a, .v b] [vdst d]) (hok : ok = true) :
    vec2 lat ok f p d a b s =
      .next (Spec.vectorDone s (Spec.take2 s a b).1 d (f (Spec.take2 s a b).2.1 (Spec.take2 s a b).2.2) lat) :=
  issue_done h (if_pos hok)

theorem vec2_trap {f : VWord → VWord → VWord} (h : Ready s p .tile [.v a, .v b] [vdst d]) (hok : ok = false) :
    vec2 lat ok f p d a b s = .next (trapTaken s 8 .illegal 0) :=
  issue_trap h (if_neg (by simp [hok]))

theorem vec3_next {f : VWord → VWord → VWord → VWord} (h : Ready s p .tile [.v a, .v b, .v c] [vdst d]) (hok : ok = true) :
    vec3 lat ok f p d a b c s = .next (Spec.vectorDone s (Spec.take3 s a b c).1 d
      (f (Spec.take3 s a b c).2.1 (Spec.take3 s a b c).2.2.1 (Spec.take3 s a b c).2.2.2) lat) :=
  issue_done h (if_pos hok)

theorem vecG_next {f : VWord → Word} {d : BitVec 5} (h : Ready s p .tile [.v a] [.g d]) (hok : ok = true) :
    vecG lat ok f p d a s = .next (Spec.scalarDone s (Spec.take1 s a).1 d (f (Spec.take1 s a).2) lat) :=
  issue_done h (if_pos hok)

theorem vecG_trap {f : VWord → Word} {d : BitVec 5} (h : Ready s p .tile [.v a] [.g d]) (hok : ok = false) :
    vecG lat ok f p d a s = .next (trapTaken s 8 .illegal 0) :=
  issue_trap h (if_neg (by simp [hok]))

/-! ### The words of stochastic rounding (R120) -/

/-- Each lane has its word: there are 32 where a register gives them, which only `.f32` asks for, and else none is needed. -/
theorem getElem?_optWords (s : State) (c : Option WSrc) {i : Nat} (hi : i < 128) (hc : c.isSome = true → i < 32) :
    (optWords s s.cur.1 s.cur.2 c)[i]? = some (Spec.noise s c i) := by
  cases c with
  | none => exact List.getElem?_replicate_of_lt hi
  | some x =>
    rw [optWords, List.getElem?_map, List.getElem?_range (hc rfl)]
    rfl

end

/-! ### Lane functions -/

theorem laneBits_pos {ty : BitVec 4} (h : ty.toNat ≤ 12) : 0 < laneBits ty := by
  revert ty
  decide

/-- A register holds at most 128 lanes of a type of `vadd`. -/
theorem lane_lt_128 {ty : BitVec 4} (h : ty.toNat ≤ 11) {i : Nat} (hi : i < 1024 / laneBits ty) : i < 128 := by
  have hle : ∀ ty : BitVec 4, ty.toNat ≤ 11 → 1024 / laneBits ty ≤ 128 := by decide
  exact hi.trans_le (hle ty h)

theorem laneArith_toNat (k : Nat) (ty : BitVec 4) (sat : Bool) (rm : BitVec 3) (u : BitVec 32) (x y : BitVec (laneBits ty)) :
    BitVec.ofNat (laneBits ty) (laneArith k ty sat rm x.toNat y.toNat u) = Spec.arithLane k ty sat rm u x y := by
  rw [laneArith, Spec.arithLane, isIntTy_eq]
  by_cases hi : Spec.intTy ty = true
  · rw [if_pos hi, if_pos hi, isSigned_eq hi]
    simp only [readInt_toNat, ofNat_wrapInt_result]
  · rw [if_neg hi, if_neg hi]
    rfl

/-- `vmin` and `vmax` of integer lanes. -/
theorem laneMin_toNat (big : Bool) {ty : BitVec 4} (hi : Spec.intTy ty = true) (x y : BitVec (laneBits ty)) :
    BitVec.ofNat (laneBits ty) (laneMin big ty x.toNat y.toNat) =
      if Spec.asInt (Spec.signedTy ty) x ≤ Spec.asInt (Spec.signedTy ty) y then (if big then y else x)
      else (if big then x else y) := by
  rw [laneMin, isIntTy_eq, if_pos hi, isSigned_eq hi]
  simp only [readInt_toNat]
  by_cases hle : Spec.asInt (Spec.signedTy ty) x ≤ Spec.asInt (Spec.signedTy ty) y <;> cases big <;>
    simp [hle, BitVec.ofNat_toNat]

/-- A lane of truth values: all ones or zero. -/
theorem ofNat_mask (w : Nat) (c : Bool) : BitVec.ofNat w (if c then 2 ^ w - 1 else 0) = if c then BitVec.allOnes w else 0 := by
  cases c with
  | true => exact BitVec.eq_of_toNat_eq (by simp [BitVec.toNat_ofNat, BitVec.toNat_allOnes])
  | false => rfl

/-- A comparison of integer lanes. -/
theorem laneCmp_int (k : BitVec 4) {ty : BitVec 4} (hi : Spec.intTy ty = true) (x y : BitVec (laneBits ty)) :
    BitVec.ofNat (laneBits ty) (laneCmp k ty x.toNat y.toNat) =
      if vcmpInt k (Spec.asInt (Spec.signedTy ty) x) (Spec.asInt (Spec.signedTy ty) y) then BitVec.allOnes _ else 0 := by
  rw [laneCmp, isIntTy_eq, if_pos hi, isSigned_eq hi, readInt_toNat, readInt_toNat]
  exact ofNat_mask _ _

/-- A comparison of floating-point lanes. -/
theorem laneCmp_float (k : BitVec 4) {ty : BitVec 4} (hi : ¬ Spec.intTy ty = true) (x y : BitVec (laneBits ty)) :
    BitVec.ofNat (laneBits ty) (laneCmp k ty x.toNat y.toNat) =
      if vcmpFp k (Spec.valOf ty x) (Spec.valOf ty y) then BitVec.allOnes _ else 0 := by
  rw [laneCmp, isIntTy_eq, if_neg hi]
  exact ofNat_mask _ _

/-- A lane selected by whether another has a bit set (log entry 79). -/
theorem laneSel_toNat {w : Nat} (x y z : BitVec w) :
    BitVec.ofNat w (if z.toNat ≠ 0 then x.toNat else y.toNat) = if z ≠ 0 then x else y := by
  by_cases hz : z = 0
  · subst hz
    simp
  · have hne : z.toNat ≠ 0 := fun h => hz (BitVec.eq_of_toNat_eq h)
    rw [if_pos hz, if_pos hne, BitVec.ofNat_toNat, BitVec.setWidth_eq]

/-! ### The elementwise forms -/

section
variable {s : State} {p : Pred}

/-- `vadd`, `vsub` and `vmul`, whose stochastic words come with `.f32` alone. -/
theorem arith_spec (k lat : Nat) {sat : Bool} {o : VOps} {rm : BitVec 3} {c : Option WSrc} (hty : o.ty.toNat ≤ 11)
    (hc : c.isSome = true → o.ty = 8) (h : Ready s p .tile ([.v o.a, .v o.b] ++ optW c) [vdst o.d]) :
    (rm = 4 ∧ o.ty ≠ 8 → arith k lat p sat o rm c s = .next (trapTaken s 8 .illegal 0)) ∧
    (¬ (rm = 4 ∧ o.ty ≠ 8) → ∃ v,
      arith k lat p sat o rm c s = .next (Spec.vectorDone s (Spec.take2 s o.a o.b).1 o.d v lat) ∧
      Spec.lanesAre (laneBits o.ty) v (fun i => Spec.arithLane k o.ty sat rm (Spec.noise s c i)
        (Spec.laneOf _ (Spec.take2 s o.a o.b).2.1 i) (Spec.laneOf _ (Spec.take2 s o.a o.b).2.2 i))) := by
  refine ⟨fun hbad => issue_trap h (if_pos hbad), fun hok => ⟨_, issue_done h (if_neg hok), fun i hi => ?_⟩⟩
  have hu := getElem?_optWords s c (lane_lt_128 hty hi) (fun hs => by
    rw [hc hs] at hi
    exact hi)
  exact (laneOf_zip3 _ _ _ hi hu).trans (laneArith_toNat ..)

/-- What the field rules say of `vadd`, `vsub` and `vmul` here: a type of 64 bits or fewer with at most 128 lanes, and a register
of stochastic words with `.f32` alone. -/
theorem arith_fields {e : (Pred → Bool → VOps → BitVec 3 → Option WSrc → Instr) × Nat × Nat} (he : e ∈ Spec.arithForms)
    {sat : Bool} {o : VOps} {rm : BitVec 3} {c : Option WSrc} (hwf : wellFormed (e.1 p sat o rm c) = true) :
    o.ty.toNat ≤ 11 ∧ (c.isSome = true → o.ty = 8) := by
  have hfields : (o.ty == 8 || o.ty == 9 || o.ty == 1 || o.ty == 2 || o.ty == 3 || o.ty == 5 || o.ty == 6 || o.ty == 7) = true ∧
      (c.isSome == (rm == 4 && o.ty == 8)) = true := by
    fin_cases he <;>
    · rw [wellFormed, Bool.and_eq_true, Bool.and_eq_true, Bool.and_eq_true] at hwf
      exact ⟨hwf.1.1.1, hwf.2⟩
  obtain ⟨hty, hc⟩ := hfields
  refine ⟨?_, fun hs => ?_⟩
  · generalize o.ty = ty at hty
    revert ty
    decide
  · simp only [hs, beq_iff_eq] at hc
    simpa using (Bool.and_eq_true_iff.1 hc.symm).2

theorem vectorElementwise : Spec.VectorElementwise := by
  refine ⟨fun e he p sat o rm c s hwf h => ?_, fun p k rm o c s hwf hrm h => ?_, fun big p o s hi h => ?_,
    fun p k o s hwf h => ⟨fun hbad => ?_, fun hk hi => ?_⟩, fun p o c s hwf h => ?_⟩
  · obtain ⟨hty, hc⟩ := arith_fields he hwf
    fin_cases he
    · exact arith_spec 0 2 hty hc h
    · exact arith_spec 1 2 hty hc h
    · exact arith_spec 2 4 hty hc h
  · rw [exec_vfma, execVfma]
    exact ⟨_, vec3_next h (by simpa using hrm), fun i hi => laneOf_zipWith_zip _ _ _ _ hi⟩
  · cases big with
    | false => exact ⟨_, vec2_next h rfl, fun i hl => (laneOf_lift2 _ _ _ hl).trans (laneMin_toNat false hi ..)⟩
    | true => exact ⟨_, vec2_next h rfl, fun i hl => (laneOf_lift2 _ _ _ hl).trans (laneMin_toNat true hi ..)⟩
  · exact vec2_trap h (by simp [hbad])
  · exact ⟨_, vec2_next h (by simpa using Or.inl hk), fun i hl => (laneOf_lift2 _ _ _ hl).trans (laneCmp_int k hi ..)⟩
  · rw [exec_vsel, execVsel]
    exact ⟨_, vec3_next h rfl, fun i hi => (laneOf_zipWith_zip _ _ _ _ hi).trans (laneSel_toNat ..)⟩

end

end Sys2Proof.Laws

/-! SUPPORT and O44. The order of the numbers that floating-point lanes hold (R27, R119, R121): every value but NaN has a
place in a linear order, and the model's comparisons read it. -/

namespace Sys2Proof.Laws
open Sys2Proof Sys2Proof.Machine

/-! ### Values as numbers -/

/-- The rational number that a finite value is. -/
def ratOf (neg : Bool) (m : Nat) (e : Int) : ℚ := (if neg then -1 else 1) * (m * (2 : ℚ) ^ e)

/-- The place of a value in the order of the numbers, the infinities at the ends; NaN has none. -/
def rank : Val → WithBot (WithTop ℚ)
  | .nan => ⊥
  | .inf neg => if neg then ⊥ else ((⊤ : WithTop ℚ) : WithBot (WithTop ℚ))
  | .fin neg m e => ((ratOf neg m e : ℚ) : WithTop ℚ)

/-- The place of a value in the order of `vmin` and `vmax`, with -0 below +0. -/
def rankZ (x : Val) : WithBot (WithTop ℚ) ×ₗ Bool := toLex (rank x, !Spec.zeroOf true x)

theorem rank_fin_lt {a b : Bool} {m n : Nat} {e k : Int} :
    rank (.fin a m e) < rank (.fin b n k) ↔ ratOf a m e < ratOf b n k := by
  simp [rank]

theorem rank_fin_lt_inf (a : Bool) (m : Nat) (e : Int) : rank (.fin a m e) < rank (.inf false) :=
  WithBot.coe_lt_coe.2 (WithTop.coe_lt_top _)

theorem ratOf_eq_zero {a : Bool} {m : Nat} {e : Int} : ratOf a m e = 0 ↔ m = 0 := by
  have h2 : (2 : ℚ) ^ e ≠ 0 := zpow_ne_zero _ (by norm_num)
  cases a <;> simp [ratOf, h2]

/-- A finite value in units of 2^j, when the unit divides it. -/
theorem cast_scaledInt {a : Bool} {m : Nat} {e j : Int} (h : m = 0 ∨ j ≤ e) :
    ((scaledInt j (.fin a m e) : Int) : ℚ) = ratOf a m e * (2 : ℚ) ^ (-j) := by
  rcases h with rfl | h
  · simp [scaledInt, ratOf]
  · have hpow : (2 : ℚ) ^ (e - j).toNat = 2 ^ e * 2 ^ (-j) := by
      rw [← zpow_natCast, Int.toNat_of_nonneg (by omega), sub_eq_add_neg, zpow_add₀ (by norm_num)]
    simp only [scaledInt, ratOf]
    push_cast
    rw [hpow]
    cases a <;> simp <;> ring

theorem scaledInt_lt_iff {a b : Bool} {m n : Nat} {e k j : Int} (hm : m = 0 ∨ j ≤ e) (hn : n = 0 ∨ j ≤ k) :
    scaledInt j (.fin a m e) < scaledInt j (.fin b n k) ↔ ratOf a m e < ratOf b n k := by
  have hpos : (0 : ℚ) < 2 ^ (-j) := zpow_pos (by norm_num) _
  rw [← Int.cast_lt (R := ℚ), cast_scaledInt hm, cast_scaledInt hn, mul_lt_mul_iff_left₀ hpos]

/-- A value whose exponent the model's comparisons reach. -/
def Small (x : Val) : Prop := ∀ neg m e, x = .fin neg m e → e ≤ 4096

theorem minExp_pair (a b : Bool) (m n : Nat) {e k : Int} (_he : e ≤ 4096) (_hk : k ≤ 4096) :
    (m = 0 ∨ minExp [.fin a m e, .fin b n k] ≤ e) ∧ (n = 0 ∨ minExp [.fin a m e, .fin b n k] ≤ k) := by
  simp only [minExp, List.foldl_cons, List.foldl_nil]
  by_cases hm : m = 0 <;> by_cases hn : n = 0 <;> simp [hm, hn]

/-- The comparison of the statements reads the order of the numbers. -/
theorem less_iff {x y : Val} (hx : x ≠ .nan) (hy : y ≠ .nan) : Spec.less x y = true ↔ rank x < rank y := by
  cases x with
  | nan => exact absurd rfl hx
  | inf a =>
    cases y with
    | nan => exact absurd rfl hy
    | inf b => cases a <;> cases b <;> simp [Spec.less, rank]
    | fin b n k => cases a <;> simp [Spec.less, rank]
  | fin a m e =>
    cases y with
    | nan => exact absurd rfl hy
    | inf b =>
      cases b
      · simp [Spec.less, rank_fin_lt_inf]
      · simp [Spec.less, rank]
    | fin b n k =>
      rw [rank_fin_lt, ← scaledInt_lt_iff (j := min e k) (.inr (min_le_left e k)) (.inr (min_le_right e k))]
      simp only [Spec.less, scaledInt, decide_eq_true_eq]
      push_cast
      cases a <;> cases b <;> simp

/-- So does the model's own. -/
theorem ltVal_iff {x y : Val} (hx : x ≠ .nan) (hy : y ≠ .nan) (sx : Small x) (sy : Small y) :
    ltVal x y = true ↔ rank x < rank y := by
  cases x with
  | nan => exact absurd rfl hx
  | inf a =>
    cases y with
    | nan => exact absurd rfl hy
    | inf b => cases a <;> cases b <;> simp [ltVal, rank]
    | fin b n k => cases a <;> simp [ltVal, rank]
  | fin a m e =>
    cases y with
    | nan => exact absurd rfl hy
    | inf b =>
      cases b
      · simp [ltVal, rank_fin_lt_inf]
      · simp [ltVal, rank]
    | fin b n k =>
      obtain ⟨hm, hn⟩ := minExp_pair a b m n (sx _ _ _ rfl) (sy _ _ _ rfl)
      rw [rank_fin_lt, ← scaledInt_lt_iff hm hn]
      simp only [ltVal, decide_eq_true_eq]

theorem eqVal_iff {x y : Val} (hx : x ≠ .nan) (hy : y ≠ .nan) (sx : Small x) (sy : Small y) :
    eqVal x y = true ↔ rank x = rank y := by
  cases x with
  | nan => exact absurd rfl hx
  | inf a =>
    cases y with
    | nan => exact absurd rfl hy
    | inf b => cases a <;> cases b <;> simp [eqVal, rank]
    | fin b n k => cases a <;> simp [eqVal, rank]
  | fin a m e =>
    cases y with
    | nan => exact absurd rfl hy
    | inf b => cases b <;> simp [eqVal, rank]
    | fin b n k =>
      obtain ⟨hm, hn⟩ := minExp_pair a b m n (sx _ _ _ rfl) (sy _ _ _ rfl)
      have hpos : (2 : ℚ) ^ (-minExp [.fin a m e, .fin b n k]) ≠ 0 := zpow_ne_zero _ (by norm_num)
      simp only [eqVal, decide_eq_true_eq, rank]
      rw [← Int.cast_inj (α := ℚ), cast_scaledInt hm, cast_scaledInt hn, mul_left_inj' hpos]
      simp

theorem isZeroSigned_eq (neg : Bool) (x : Val) : isZeroSigned neg x = Spec.zeroOf neg x := by
  cases x <;> rfl

/-- The zeros are the values at the place of zero. -/
theorem rank_eq_zero {x : Val} : rank x = (((0 : ℚ) : WithTop ℚ) : WithBot (WithTop ℚ)) ↔
    Spec.zeroOf true x = true ∨ Spec.zeroOf false x = true := by
  cases x with
  | nan => simp [rank, Spec.zeroOf]
  | inf a =>
    have hne : rank (.inf a) ≠ (((0 : ℚ) : WithTop ℚ) : WithBot (WithTop ℚ)) := by
      cases a
      · exact WithBot.coe_injective.ne WithTop.top_ne_coe
      · exact WithBot.bot_ne_coe
    exact ⟨fun h => absurd h hne, fun h => by simp [Spec.zeroOf] at h⟩
  | fin a m e =>
    have h : rank (.fin a m e) = (((0 : ℚ) : WithTop ℚ) : WithBot (WithTop ℚ)) ↔ m = 0 := by
      rw [← ratOf_eq_zero (a := a) (e := e)]
      simp [rank]
    rw [h]
    cases a <;> simp [Spec.zeroOf]

theorem zeroOf_exclusive {x : Val} (h : Spec.zeroOf false x = true) : Spec.zeroOf true x = false := by
  cases x with
  | nan => rfl
  | inf => rfl
  | fin a m e => cases a <;> simp_all [Spec.zeroOf]

/-- The order of `vmin` and `vmax`. -/
theorem lessZ_iff {x y : Val} (hx : x ≠ .nan) (hy : y ≠ .nan) : Spec.lessZ x y = true ↔ rankZ x < rankZ y := by
  rw [Spec.lessZ, Bool.or_eq_true, Bool.and_eq_true, less_iff hx hy, rankZ, rankZ, Prod.Lex.toLex_lt_toLex]
  refine or_congr_right ⟨fun ⟨h1, h2⟩ => ?_, fun ⟨he, hlt⟩ => ?_⟩
  · exact ⟨(rank_eq_zero.2 (.inl h1)).trans (rank_eq_zero.2 (.inr h2)).symm, by simp [h1, zeroOf_exclusive h2]⟩
  · obtain ⟨h1, h2⟩ : Spec.zeroOf true x = true ∧ Spec.zeroOf true y = false := by simpa [Bool.lt_iff] using hlt
    exact ⟨h1, (rank_eq_zero.1 (he.symm.trans (rank_eq_zero.2 (.inl h1)))).resolve_left (by simp [h2])⟩

/-- Only numbers compare. -/
theorem lessZ_number {x y : Val} (h : Spec.lessZ x y = true) : x ≠ .nan ∧ y ≠ .nan := by
  constructor
  · rintro rfl
    simp [Spec.lessZ, Spec.less, Spec.zeroOf] at h
  · rintro rfl
    cases x <;> simp [Spec.lessZ, Spec.less, Spec.zeroOf] at h

/-! ### Smaller and larger patterns -/

/-- The exponents of the formats (Table 2.1) are far below those that the model's comparisons reach. -/
theorem exp_decodeFp_le {ty : BitVec 4} {x : Nat} {neg : Bool} {m : Nat} {e : Int}
    (h : decodeFp (fmtOf ty) x = .fin neg m e) : e ≤ 200 := by
  have hfmt : ∀ ty : BitVec 4, (fmtOf ty).width ≠ 4 → 1 ≤ (fmtOf ty).p ∧
      (fmtOf ty).emin + ((fmtOf ty).maxBits / 2 ^ ((fmtOf ty).p - 1) : Nat) ≤ 200 := by decide
  by_cases hw : (fmtOf ty).width = 4
  · have hlt : x % 2 ^ ((fmtOf ty).width - 1) < 2 ^ 3 := by
      rw [hw]
      exact Nat.mod_lt _ (by decide)
    simp only [decodeFp, if_pos hw] at h
    split at h
    · obtain ⟨-, -, rfl⟩ := Val.fin.inj h
      decide
    · obtain ⟨-, -, rfl⟩ := Val.fin.inj h
      omega
  · obtain ⟨hp, hbound⟩ := hfmt ty hw
    obtain ⟨k, hmax, -, rfl, -, -, hmag⟩ := decodeFp_fin hw hp h
    have hk : k ≤ (fmtOf ty).maxBits / 2 ^ ((fmtOf ty).p - 1) :=
      (Nat.le_div_iff_mul_le (Nat.two_pow_pos _)).2 (by omega)
    omega

theorem small_decodeFp (ty : BitVec 4) (x : Nat) : Small (decodeFp (fmtOf ty) x) :=
  fun _ _ _ h => (exp_decodeFp_le h).trans (by decide)

section
variable {ty : BitVec 4} {a b : Nat}

theorem minFp_nan (h : decodeFp (fmtOf ty) a = .nan ∨ decodeFp (fmtOf ty) b = .nan) :
    minFp (fmtOf ty) a b = (fmtOf ty).nanBits := by
  rw [minFp, if_pos (by simpa using h)]

theorem maxFp_nan (h : decodeFp (fmtOf ty) a = .nan ∨ decodeFp (fmtOf ty) b = .nan) :
    maxFp (fmtOf ty) a b = (fmtOf ty).nanBits := by
  rw [maxFp, if_pos (by simpa using h)]

variable (ha : decodeFp (fmtOf ty) a ≠ .nan) (hb : decodeFp (fmtOf ty) b ≠ .nan)
include ha hb

/-- Where neither number is smaller, they differ at most by the sign of zero. -/
theorem rankZ_le_of_not_lt (h : ¬ ltVal (decodeFp (fmtOf ty) a) (decodeFp (fmtOf ty) b) = true)
    (h' : ¬ ltVal (decodeFp (fmtOf ty) b) (decodeFp (fmtOf ty) a) = true) :
    if Spec.zeroOf true (decodeFp (fmtOf ty) a) then rankZ (decodeFp (fmtOf ty) a) ≤ rankZ (decodeFp (fmtOf ty) b)
    else rankZ (decodeFp (fmtOf ty) b) ≤ rankZ (decodeFp (fmtOf ty) a) := by
  rw [ltVal_iff ha hb (small_decodeFp ty a) (small_decodeFp ty b), not_lt] at h
  rw [ltVal_iff hb ha (small_decodeFp ty b) (small_decodeFp ty a), not_lt] at h'
  have he := le_antisymm h' h
  split
  · rename_i hz
    exact Prod.Lex.toLex_le_toLex.2 (.inr ⟨he, by simp [hz]⟩)
  · rename_i hz
    exact Prod.Lex.toLex_le_toLex.2 (.inr ⟨he.symm, by simp [hz, Bool.le_true]⟩)

theorem rankZ_le_of_lt (h : ltVal (decodeFp (fmtOf ty) a) (decodeFp (fmtOf ty) b) = true) :
    rankZ (decodeFp (fmtOf ty) a) ≤ rankZ (decodeFp (fmtOf ty) b) :=
  Prod.Lex.toLex_le_toLex.2 (.inl ((ltVal_iff ha hb (small_decodeFp ty a) (small_decodeFp ty b)).1 h))

/-- The smaller of two numbers is the one that comes first. -/
theorem minFp_cases :
    (minFp (fmtOf ty) a b = a ∧ rankZ (decodeFp (fmtOf ty) a) ≤ rankZ (decodeFp (fmtOf ty) b)) ∨
    (minFp (fmtOf ty) a b = b ∧ rankZ (decodeFp (fmtOf ty) b) ≤ rankZ (decodeFp (fmtOf ty) a)) := by
  rw [minFp, if_neg (by simp [ha, hb]), isZeroSigned_eq]
  by_cases h : ltVal (decodeFp (fmtOf ty) a) (decodeFp (fmtOf ty) b) = true
  · exact .inl ⟨if_pos h, rankZ_le_of_lt ha hb h⟩
  · by_cases h' : ltVal (decodeFp (fmtOf ty) b) (decodeFp (fmtOf ty) a) = true
    · exact .inr ⟨by rw [if_neg h, if_pos h'], rankZ_le_of_lt hb ha h'⟩
    · have hle := rankZ_le_of_not_lt ha hb h h'
      rw [if_neg h, if_neg h']
      split at hle
      · exact .inl ⟨if_pos ‹_›, hle⟩
      · exact .inr ⟨if_neg ‹_›, hle⟩

/-- The larger of two numbers is the one that comes last. -/
theorem maxFp_cases :
    (maxFp (fmtOf ty) a b = b ∧ rankZ (decodeFp (fmtOf ty) a) ≤ rankZ (decodeFp (fmtOf ty) b)) ∨
    (maxFp (fmtOf ty) a b = a ∧ rankZ (decodeFp (fmtOf ty) b) ≤ rankZ (decodeFp (fmtOf ty) a)) := by
  rw [maxFp, if_neg (by simp [ha, hb]), isZeroSigned_eq]
  by_cases h' : ltVal (decodeFp (fmtOf ty) b) (decodeFp (fmtOf ty) a) = true
  · exact .inr ⟨if_pos h', rankZ_le_of_lt hb ha h'⟩
  · by_cases h : ltVal (decodeFp (fmtOf ty) a) (decodeFp (fmtOf ty) b) = true
    · exact .inl ⟨by rw [if_neg h', if_pos h], rankZ_le_of_lt ha hb h⟩
    · have hle := rankZ_le_of_not_lt ha hb h h'
      rw [if_neg h', if_neg h]
      split at hle
      · exact .inl ⟨if_pos ‹_›, hle⟩
      · exact .inr ⟨if_neg ‹_›, hle⟩

end

/-! ### Comparisons of lanes (R121) -/

theorem vcmpFp_nan {k : BitVec 4} (hk : k.toNat < 7) {x y : Val} (h : x = .nan ∨ y = .nan) :
    vcmpFp k x y = decide (k = 1 ∨ k = 6) := by
  have hun : (x == .nan || y == .nan) = true := by simpa using h
  have hcases : ∀ k : BitVec 4, k.toNat < 7 → k = 0 ∨ k = 1 ∨ k = 2 ∨ k = 3 ∨ k = 4 ∨ k = 5 ∨ k = 6 := by decide
  rcases hcases k hk with rfl | rfl | rfl | rfl | rfl | rfl | rfl <;> simp [vcmpFp, hun]

/-- Between numbers, a comparison is one of the order. -/
theorem vcmpFp_number {k : BitVec 4} (hk : k.toNat < 7) {x y : Val} (hx : x ≠ .nan) (hy : y ≠ .nan) (sx : Small x) (sy : Small y) :
    vcmpFp k x y = match k.toNat with
      | 0 => !Spec.less x y && !Spec.less y x | 1 => Spec.less x y || Spec.less y x | 2 => Spec.less x y
      | 3 => !Spec.less y x | 4 => Spec.less y x | 5 => !Spec.less x y | _ => false := by
  have hun : (x == .nan || y == .nan) = false := by simp [hx, hy]
  have hlt : ltVal x y = Spec.less x y := Bool.eq_iff_iff.2 ((ltVal_iff hx hy sx sy).trans (less_iff hx hy).symm)
  have hgt : ltVal y x = Spec.less y x := Bool.eq_iff_iff.2 ((ltVal_iff hy hx sy sx).trans (less_iff hy hx).symm)
  have heq : eqVal x y = (!Spec.less x y && !Spec.less y x) := by
    rw [Bool.eq_iff_iff, eqVal_iff hx hy sx sy, Bool.and_eq_true, Bool.not_eq_true', Bool.not_eq_true', ← Bool.not_eq_true,
      ← Bool.not_eq_true, less_iff hx hy, less_iff hy hx, not_lt, not_lt]
    exact ⟨fun h => ⟨h.ge, h.le⟩, fun h => le_antisymm h.2 h.1⟩
  have hone : (Spec.less x y && Spec.less y x) = false := by
    rw [Bool.and_eq_false_iff, ← Bool.not_eq_true, ← Bool.not_eq_true, less_iff hx hy, less_iff hy hx, not_lt, not_lt]
    exact le_total _ _
  have hcases : ∀ k : BitVec 4, k.toNat < 7 → k = 0 ∨ k = 1 ∨ k = 2 ∨ k = 3 ∨ k = 4 ∨ k = 5 ∨ k = 6 := by decide
  simp only [vcmpFp, hun, hlt, hgt, heq]
  generalize Spec.less x y = lt at hone ⊢
  generalize Spec.less y x = gt at hone ⊢
  rcases hcases k hk with rfl | rfl | rfl | rfl | rfl | rfl | rfl <;> revert lt gt <;> decide

/-! ### `vmin`, `vmax`, `vcmp` on floating-point lanes -/

theorem intTy_float {ty : BitVec 4} (h : ty = 8 ∨ ty = 9) : Spec.intTy ty = false := by
  rcases h with rfl | rfl <;> rfl

/-- `vmin` or `vmax` of a floating-point lane. -/
theorem laneMin_float (big : Bool) {ty : BitVec 4} (h : ty = 8 ∨ ty = 9) (x y : Nat) :
    laneMin big ty x y = if big then maxFp (fmtOf ty) x y else minFp (fmtOf ty) x y := by
  rw [laneMin, isIntTy_eq, intTy_float h]
  rfl

/-- What `vmin` and `vmax` leave in a lane. -/
theorem laneMin_order (big : Bool) {ty : BitVec 4} (hty : ty = 8 ∨ ty = 9) (x y : BitVec (laneBits ty)) :
    let r := BitVec.ofNat (laneBits ty) (laneMin big ty x.toNat y.toNat)
    ((Spec.valOf ty x = .nan ∨ Spec.valOf ty y = .nan) → r = BitVec.ofNat _ (fmtOf ty).nanBits) ∧
    (Spec.valOf ty x ≠ .nan → Spec.valOf ty y ≠ .nan → r = x ∨ r = y) ∧
    (Spec.lessZ (Spec.valOf ty x) (Spec.valOf ty y) = true → r = if big then y else x) ∧
    (Spec.lessZ (Spec.valOf ty y) (Spec.valOf ty x) = true → r = if big then x else y) := by
  intro r
  have key (hx : Spec.valOf ty x ≠ .nan) (hy : Spec.valOf ty y ≠ .nan) :
      (r = (if big then y else x) ∧ rankZ (Spec.valOf ty x) ≤ rankZ (Spec.valOf ty y)) ∨
      (r = (if big then x else y) ∧ rankZ (Spec.valOf ty y) ≤ rankZ (Spec.valOf ty x)) := by
    have hself (z : BitVec (laneBits ty)) {n : Nat} (h : n = z.toNat) : BitVec.ofNat (laneBits ty) n = z := by
      rw [h, BitVec.ofNat_toNat, BitVec.setWidth_eq]
    simp only [r, laneMin_float big hty]
    cases big with
    | false => exact (minFp_cases hx hy).imp (And.imp_left (hself x)) (And.imp_left (hself y))
    | true => exact (maxFp_cases hx hy).imp (And.imp_left (hself y)) (And.imp_left (hself x))
  refine ⟨fun hnan => ?_, fun hx hy => ?_, fun hlt => ?_, fun hlt => ?_⟩
  · simp only [r, laneMin_float big hty]
    cases big with
    | false => exact congrArg _ (minFp_nan hnan)
    | true => exact congrArg _ (maxFp_nan hnan)
  · rcases key hx hy with ⟨hr, -⟩ | ⟨hr, -⟩ <;> cases big <;> simp [hr]
  · obtain ⟨hx, hy⟩ := lessZ_number hlt
    exact ((key hx hy).resolve_right fun h => ((lessZ_iff hx hy).1 hlt).not_ge h.2).1
  · obtain ⟨hy, hx⟩ := lessZ_number hlt
    exact ((key hx hy).resolve_left fun h => ((lessZ_iff hy hx).1 hlt).not_ge h.2).1

theorem vectorFloatOrder : Spec.VectorFloatOrder := by
  refine ⟨fun big p o s hty h => ?_, fun p k o s hwf hty h => ?_⟩
  · cases big with
    | false =>
      refine ⟨_, vec2_next h rfl, fun i hi => ?_⟩
      rw [laneOf_lift2 _ _ _ hi]
      exact laneMin_order false hty ..
    | true =>
      refine ⟨_, vec2_next h rfl, fun i hi => ?_⟩
      rw [laneOf_lift2 _ _ _ hi]
      exact laneMin_order true hty ..
  · obtain ⟨-, hk⟩ : o.ty.toNat ≤ 9 ∧ k.toNat < 7 := by simpa [wellFormed] using hwf
    have hint := intTy_float hty
    refine ⟨_, vec2_next h (by simp [hint]), fun i hi => ?_⟩
    rw [laneOf_lift2 _ _ _ hi, laneCmp_float k (by simp [hint])]
    refine ⟨fun hnan => ?_, fun hx hy => ?_⟩
    · simp only [vcmpFp_nan hk hnan, decide_eq_true_eq]
    · exact congrArg (fun c : Bool => if c then BitVec.allOnes _ else 0)
        (vcmpFp_number hk hx hy (small_decodeFp _ _) (small_decodeFp _ _))

/-- Settles O44: the elementwise forms lane by lane, and the order of floating-point lanes. -/
theorem vectorArithmetic : Obligations.VectorArithmetic := ⟨vectorElementwise, vectorFloatOrder⟩

end Sys2Proof.Laws

/-! SUPPORT. The forms that move, mask and shift lanes (R121, R122). -/

namespace Sys2Proof.Laws
open Sys2Proof Sys2Proof.Machine

/-! ### Bits and shifts of lanes -/

theorem ofNat_toNat_self {w : Nat} (x : BitVec w) : BitVec.ofNat w x.toNat = x := by
  rw [BitVec.ofNat_toNat, BitVec.setWidth_eq]

theorem getLsbD_ite_zero {w : Nat} (c : Bool) (x : BitVec w) (j : Nat) :
    (if c then x else 0).getLsbD j = (c && x.getLsbD j) := by
  cases c
  · exact BitVec.getLsbD_zero
  · rfl

/-- The bit of a truth table that two bits pick (Table 6.4). -/
theorem logicV_getLsbD (tt : BitVec 4) (a b : VWord) {j : Nat} (hj : j < 1024) :
    (logicV tt a b).getLsbD j = tt.getLsbD (2 * (a.getLsbD j).toNat + (b.getLsbD j).toNat) := by
  simp only [logicV, BitVec.getLsbD_or, getLsbD_ite_zero, BitVec.getLsbD_and, BitVec.getLsbD_not, hj, decide_true, Bool.true_and]
  cases a.getLsbD j <;> cases b.getLsbD j <;> simp

/-- The bits that a rotation brings round lie below those that it moves up. -/
theorem rotate_toNat {w n : Nat} (x : BitVec w) (hn : n < w) :
    BitVec.ofNat w ((x.toNat * 2 ^ n + x.toNat / 2 ^ (w - n)) % 2 ^ w) = x.rotateLeft n := by
  have hw : 2 ^ w = 2 ^ n * 2 ^ (w - n) := by rw [← pow_add, Nat.add_sub_cancel' hn.le]
  have hround : x.toNat / 2 ^ (w - n) < 2 ^ n := Nat.div_lt_of_lt_mul (by rw [mul_comm, ← hw]; exact x.isLt)
  have hup : x.toNat * 2 ^ n % 2 ^ w = 2 ^ n * (x.toNat % 2 ^ (w - n)) := by
    rw [hw, mul_comm, Nat.mul_mod_mul_left]
  have hsum : 2 ^ n * (x.toNat % 2 ^ (w - n)) + x.toNat / 2 ^ (w - n) < 2 ^ w := by
    have hlt : x.toNat % 2 ^ (w - n) + 1 ≤ 2 ^ (w - n) := Nat.mod_lt _ (Nat.two_pow_pos _)
    have hmul := Nat.mul_le_mul_left (2 ^ n) hlt
    rw [Nat.mul_succ, ← hw] at hmul
    omega
  apply BitVec.eq_of_toNat_eq
  rw [BitVec.toNat_ofNat, Nat.mod_mod, Nat.add_mod, hup,
    Nat.mod_eq_of_lt (hround.trans_le (hw ▸ Nat.le_mul_of_pos_right _ (Nat.two_pow_pos _))), Nat.mod_eq_of_lt hsum, Nat.two_pow_add_eq_or_of_lt hround, BitVec.rotateLeft, Nat.mod_eq_of_lt hn, BitVec.rotateLeftAux,
    BitVec.toNat_or, BitVec.toNat_shiftLeft, BitVec.toNat_ushiftRight, Nat.shiftLeft_eq, Nat.shiftRight_eq_div_pow, hup]

/-- A shift of a lane by a count modulo its width (Table 6.4). -/
theorem laneShift_toNat (k : BitVec 2) {w : Nat} (hw : 0 < w) (x : BitVec w) (y : Nat) :
    BitVec.ofNat w (laneShift k w x.toNat y) =
      match k.toNat with
      | 0 => x <<< (y % w) | 1 => x >>> (y % w) | 2 => x.sshiftRight (y % w) | _ => x.rotateLeft (y % w) := by
  have hcases : ∀ k : BitVec 2, k = 0 ∨ k = 1 ∨ k = 2 ∨ k = 3 := by decide
  rcases hcases k with rfl | rfl | rfl | rfl
  · exact BitVec.eq_of_toNat_eq (by simp [laneShift, BitVec.toNat_shiftLeft, Nat.shiftLeft_eq])
  · refine BitVec.eq_of_toNat_eq ?_
    have hlt : x.toNat / 2 ^ (y % w) < 2 ^ w := (Nat.div_le_self _ _).trans_lt x.isLt
    simp [laneShift, Nat.shiftRight_eq_div_pow, Nat.mod_eq_of_lt hlt]
  · have hread : readInt true w x.toNat = x.toInt := readInt_toNat true x
    simp only [laneShift]
    rw [show (2 : BitVec 2).toNat = 2 from rfl]
    simp only [hread]
    rw [ofNat_wrapInt, BitVec.sshiftRight, Int.shiftRight_eq_div_pow]
    push_cast
    rfl
  · exact rotate_toNat x (Nat.mod_lt y hw)

/-! ### Patterns of `vshuf` -/

theorem getElem?_interleave {p q : List Nat} (h : p.length = q.length) (i : Nat) :
    (List.zipWith (fun x y => [x, y]) p q).flatten[i]? = if i % 2 = 0 then p[i / 2]? else q[i / 2]? := by
  induction p generalizing q i with
  | nil =>
    obtain rfl : q = [] := List.length_eq_zero_iff.1 h.symm
    simp
  | cons x p ih =>
    cases q with
    | nil => simp at h
    | cons y q =>
      match i with
      | 0 => rfl
      | 1 => rfl
      | i + 2 =>
        have hdiv : (i + 2) / 2 = i / 2 + 1 := by omega
        have hmod : (i + 2) % 2 = i % 2 := by omega
        rw [hdiv, hmod]
        exact ih (by simpa using h) i

theorem getD_lanes {w j : Nat} (v : VWord) (hj : j < 1024 / w) : (lanes w v).getD j 0 = (Spec.laneOf w v j).toNat := by
  rw [List.getD_eq_getElem?_getD, getElem?_lanes v hj, Option.getD_some]

/-- Every other lane of a register, from the first or from the second on. -/
def pickLanes (w par : Nat) (v : VWord) : List Nat :=
  (List.range (1024 / w / 2)).map (fun i => (lanes w v).getD (2 * i + par) 0)

theorem getElem?_pickLanes {w par j : Nat} (v : VWord) (hp : par < 2) (hj : j < 1024 / w / 2) :
    (pickLanes w par v)[j]? = some (Spec.laneOf w v (2 * j + par)).toNat := by
  rw [pickLanes, List.getElem?_map, List.getElem?_range hj, Option.map_some, getD_lanes v (by omega)]

/-- The lanes that a pattern of `vshuf` lines up (R122). -/
theorem shufV_eq (pat : BitVec 4) (w : Nat) (a b : VWord) (sh : Nat) : shufV pat w a b sh = joinLanes w
    (match pat.toNat with
     | 0 => (List.zipWith (fun x y => [x, y]) ((lanes w a).take (1024 / w / 2)) ((lanes w b).take (1024 / w / 2))).flatten
     | 1 => (List.zipWith (fun x y => [x, y]) ((lanes w a).drop (1024 / w / 2)) ((lanes w b).drop (1024 / w / 2))).flatten
     | 2 => pickLanes w 0 a ++ pickLanes w 0 b
     | 3 => pickLanes w 1 a ++ pickLanes w 1 b
     | 4 => (lanes w a).reverse
     | _ => (lanes w a).drop sh ++ (lanes w a).take sh) := by
  simp only [shufV, length_lanes, pickLanes] <;> rfl

section
variable {w i : Nat} (a b : VWord) (hi : i < 1024 / w)
include hi

/-- Lanes of two registers in turn, from lane k of each on. -/
theorem interleave_lane {k : Nat} {p q : List Nat} (hlen : p.length = q.length)
    (hp : p[i / 2]? = some (Spec.laneOf w a (k + i / 2)).toNat) (hq : q[i / 2]? = some (Spec.laneOf w b (k + i / 2)).toNat) :
    Spec.laneOf w (joinLanes w (List.zipWith (fun x y => [x, y]) p q).flatten) i =
      if i % 2 = 0 then Spec.laneOf w a (k + i / 2) else Spec.laneOf w b (k + i / 2) := by
  by_cases h : i % 2 = 0
  · rw [if_pos h, laneOf_joinLanes hi (by rw [getElem?_interleave hlen, if_pos h, hp]), ofNat_toNat_self]
  · rw [if_neg h, laneOf_joinLanes hi (by rw [getElem?_interleave hlen, if_neg h, hq]), ofNat_toNat_self]

variable (heven : 1024 / w % 2 = 0)
include heven

/-- The lanes of one register that a pattern picks, and then those of the other. -/
theorem pickLanes_lane {par : Nat} (hp : par < 2) : Spec.laneOf w (joinLanes w (pickLanes w par a ++ pickLanes w par b)) i =
    if i < 1024 / w / 2 then Spec.laneOf w a (2 * i + par) else Spec.laneOf w b (2 * (i - 1024 / w / 2) + par) := by
  have hlen : (pickLanes w par a).length = 1024 / w / 2 := by simp [pickLanes]
  by_cases h : i < 1024 / w / 2
  · rw [if_pos h, laneOf_joinLanes hi (by rw [List.getElem?_append_left (by omega), getElem?_pickLanes a hp h]), ofNat_toNat_self]
  · rw [if_neg h, laneOf_joinLanes hi (by
      rw [List.getElem?_append_right (by omega), hlen, getElem?_pickLanes b hp (by omega)]), ofNat_toNat_self]

/-- The patterns of two registers (R122). -/
theorem shufV_two {pat : BitVec 4} (hpat : pat.toNat < 4) (sh : Nat) : Spec.laneOf w (shufV pat w a b sh) i =
    match pat.toNat with
    | 0 => if i % 2 = 0 then Spec.laneOf w a (i / 2) else Spec.laneOf w b (i / 2)
    | 1 => if i % 2 = 0 then Spec.laneOf w a (1024 / w / 2 + i / 2) else Spec.laneOf w b (1024 / w / 2 + i / 2)
    | 2 => if i < 1024 / w / 2 then Spec.laneOf w a (2 * i) else Spec.laneOf w b (2 * (i - 1024 / w / 2))
    | _ => if i < 1024 / w / 2 then Spec.laneOf w a (2 * i + 1) else Spec.laneOf w b (2 * (i - 1024 / w / 2) + 1) := by
  have hcases : ∀ k : BitVec 4, k.toNat < 4 → k = 0 ∨ k = 1 ∨ k = 2 ∨ k = 3 := by decide
  have hhalf : i / 2 < 1024 / w / 2 := by omega
  rw [shufV_eq]
  rcases hcases pat hpat with rfl | rfl | rfl | rfl
  · have hget (v : VWord) : ((lanes w v).take (1024 / w / 2))[i / 2]? = some (Spec.laneOf w v (0 + i / 2)).toNat := by
      rw [List.getElem?_take_of_lt hhalf, Nat.zero_add, getElem?_lanes v (by omega)]
    simpa using interleave_lane a b hi (by simp) (hget a) (hget b)
  · have hget (v : VWord) : ((lanes w v).drop (1024 / w / 2))[i / 2]? =
        some (Spec.laneOf w v (1024 / w / 2 + i / 2)).toNat := by
      rw [List.getElem?_drop, getElem?_lanes v (by omega)]
    exact interleave_lane a b hi (by simp) (hget a) (hget b)
  · exact pickLanes_lane a b hi heven (by decide)
  · exact pickLanes_lane a b hi heven (by decide)

omit heven

/-- The reversal of one register. -/
theorem shufV_reverse (sh : Nat) : Spec.laneOf w (shufV 4 w a b sh) i = Spec.laneOf w a (1024 / w - 1 - i) := by
  rw [shufV_eq]
  refine (laneOf_joinLanes hi ?_).trans (ofNat_toNat_self _)
  change (lanes w a).reverse[i]? = _
  rw [List.getElem?_reverse (by rw [length_lanes]; exact hi), length_lanes, getElem?_lanes a (by omega)]

/-- The rotation of one register by lanes. -/
theorem shufV_rotate {sh : Nat} (hsh : sh < 1024 / w) :
    Spec.laneOf w (shufV 5 w a b sh) i = Spec.laneOf w a ((i + sh) % (1024 / w)) := by
  rw [shufV_eq]
  refine (laneOf_joinLanes hi ?_).trans (ofNat_toNat_self _)
  change ((lanes w a).drop sh ++ (lanes w a).take sh)[i]? = _
  have hlen : ((lanes w a).drop sh).length = 1024 / w - sh := by simp
  by_cases h : i + sh < 1024 / w
  · rw [List.getElem?_append_left (by omega), List.getElem?_drop, Nat.add_comm, Nat.mod_eq_of_lt h, getElem?_lanes a h]
  · rw [List.getElem?_append_right (by omega), hlen, List.getElem?_take_of_lt (by omega), Nat.mod_eq_sub_mod (by omega),
      Nat.mod_eq_of_lt (by omega), show i - (1024 / w - sh) = i + sh - 1024 / w by omega, getElem?_lanes a (by omega)]

end

/-! ### The forms -/

theorem lanes_even {ty : BitVec 4} (h : ty.toNat ≤ 11) : 1024 / laneBits ty % 2 = 0 := by
  revert ty
  decide

theorem readInt_lane_get {w : Nat} (ty : BitVec 4) (x : BitVec w) :
    BitVec.ofInt 64 (readInt (isIntTy ty && isSigned ty) w x.toNat) =
      if Spec.intTy ty && Spec.signedTy ty then x.signExtend 64 else x.setWidth 64 := by
  have hsg : ∀ ty : BitVec 4, (isIntTy ty && isSigned ty) = (Spec.intTy ty && Spec.signedTy ty) := by decide
  rw [hsg, readInt_toNat]
  cases Spec.intTy ty && Spec.signedTy ty
  · exact BitVec.eq_of_toNat_eq (by simp [Spec.asInt])
  · rfl

theorem vectorMoves : Spec.VectorMoves := by
  refine ⟨fun p tt d a b s h => ?_, fun p k ty d a b s hwf h => ?_, fun p k ty d a m s hwf h => ?_, fun p o s hwf h => ?_,
    fun p pat ty d a b s hwf hpat h => ?_, fun p pat ty d a sh s hwf hpat h => ?_, fun p ty d a s hwf h => ?_,
    fun p ty d a k s hwf h => ⟨fun hk => ?_, fun hk => ?_⟩, fun p ty d a k s h hk => ?_, fun p ty d a k s h hk => ?_,
    fun p ty d a k s hwf h hk => ?_, fun p ty d a k s hwf h hk => ?_⟩
  · exact ⟨_, vec2_next h rfl, fun j hj => logicV_getLsbD tt _ _ hj⟩
  · have hty : ty.toNat ≤ 7 := by simpa [wellFormed] using hwf
    exact ⟨_, vec2_next h rfl, fun i hi => (laneOf_lift2 _ _ _ hi).trans (laneShift_toNat k (laneBits_pos (by omega)) _ _)⟩
  · have hty : ty.toNat ≤ 7 := by simpa [wellFormed] using hwf
    rw [exec_vshift, execVshift]
    exact ⟨_, vec1_next h rfl, fun i hi => (laneOf_mapLanes _ _ hi).trans (laneShift_toNat k (laneBits_pos (by omega)) _ _)⟩
  · rw [exec_vperm, execVperm]
    refine ⟨_, vec2_next h rfl, fun i hi => (laneOf_mapLanes _ _ hi).trans ?_⟩
    rw [lane_eq, ofNat_toNat_self]
    rfl
  · have hty : ty.toNat ≤ 11 := by
      simp only [wellFormed, Bool.and_eq_true, decide_eq_true_eq] at hwf
      exact hwf.1.1.1
    have hno : ¬ (pat = 5 ∧ lanesOf ty ≤ (0 : BitVec 7).toNat) := by
      rintro ⟨rfl, -⟩
      revert hpat
      decide
    rw [exec_vshuf, execVshuf]
    exact ⟨_, issue_done h (if_neg hno), fun i hi => shufV_two _ _ hi (lanes_even hty) hpat _⟩
  · rw [exec_vshuf, execVshuf]
    refine ⟨fun h5 hsh => issue_trap h (if_pos ⟨h5, hsh⟩), fun hok => ?_⟩
    have hno : ¬ (pat = 5 ∧ lanesOf ty ≤ sh.toNat) := by
      rintro ⟨rfl, hsh⟩
      exact hok.elim (by decide) fun h' => absurd h' (Nat.not_lt.2 hsh)
    refine ⟨_, issue_done h (if_neg hno), fun i hi => ?_⟩
    rcases hpat with rfl | rfl
    · exact shufV_reverse _ _ hi _
    · exact shufV_rotate _ _ hi (hok.resolve_left (by decide))
  · rw [exec_vbcast, execVbcast]
    exact ⟨_, issue_done h rfl, fun i hi => (laneOf_joinLanes_replicate _ hi hi).trans (BitVec.ofNat_toNat ..)⟩
  · rw [exec_vbcastLane, execVbcastLane]
    exact vec1_trap h (decide_eq_false (Nat.not_lt.2 hk))
  · rw [exec_vbcastLane, execVbcastLane]
    refine ⟨_, vec1_next h (decide_eq_true hk), fun i hi => (laneOf_joinLanes_replicate _ hi hi).trans ?_⟩
    rw [lane_eq, ofNat_toNat_self]
  · rw [exec_vmovgGet, execVmovgGet]
    exact vecG_trap h (decide_eq_false (Nat.not_lt.2 hk))
  · rw [exec_vmovgPut, execVmovgPut]
    exact issue_trap h (if_neg (Nat.not_lt.2 hk))
  · have hlane : decide (k.toNat < lanesOf ty) = true := decide_eq_true hk
    intro x
    rw [exec_vmovgGet, execVmovgGet, vecG_next h hlane, lane_eq, readInt_lane_get]
  · rw [exec_vmovgPut, execVmovgPut]
    refine ⟨_, issue_done h (if_pos hk), fun i hi => (laneOf_putLanes_one _ _ hk hi).trans ?_⟩
    rw [BitVec.ofNat_toNat]
    rfl

end Sys2Proof.Laws

/-! SUPPORT. Conversions of lanes (R41 to R44, R119, R124). -/

namespace Sys2Proof.Laws
open Sys2Proof Sys2Proof.Machine

/-! ### A lane converted (R41 to R43) -/

/-- An integer rounds to a format as the value that it is. -/
theorem intToFp_eq (f : Fmt) (rm : BitVec 3) (u : BitVec 32) (x : Int) :
    intToFp f rm u x = roundVal f rm u (.fin (decide (x < 0)) x.natAbs 0) := by
  by_cases hx : x = 0
  · subst hx
    rfl
  · rw [intToFp, if_neg hx, roundVal, if_neg (Int.natAbs_ne_zero.2 hx)]

/-- A magnitude as a quotient of natural numbers. -/
theorem scale2_one (m : Nat) (e : Int) : scale2 m 1 e = (m * 2 ^ e.toNat, 2 ^ (-e).toNat) := by
  unfold scale2
  split
  · rw [show (-e).toNat = 0 by omega, pow_zero]
  · rw [show e.toNat = 0 by omega, pow_zero, Nat.mul_one, Nat.one_mul]

/-- Which neighbour a rounding takes, without the order of the tests. -/
theorem roundsAway_eq (rm : BitVec 3) (neg odd : Bool) (r d : Nat) (u : BitVec 32) : roundsAway rm neg odd r d u =
    match rm.toNat with
    | 0 => decide (d < 2 * r) || (decide (2 * r = d) && odd)
    | 1 => false
    | 2 => !neg
    | 3 => neg
    | _ => decide (u.toNat < r * 2 ^ 32 / d) := by
  unfold roundsAway
  generalize rm.toNat = n
  rcases n with _ | _ | _ | _ | n
  · by_cases h : 2 * r = d <;> simp [h]
  all_goals rfl

/-- A value rounded to an integer type (R42). -/
theorem fpToInt_toInteger (rm : BitVec 3) (u : BitVec 32) (sg : Bool) (w : Nat) {v : Val}
    (hv : ∀ neg m e, v = .fin neg m e → e ≤ 200) :
    BitVec.ofNat w (wrapInt w (fpToInt rm u sg w v)) = Spec.toInteger rm u sg w v := by
  cases v with
  | nan => exact ofNat_wrapInt w 0
  | inf neg => exact ofNat_wrapInt_saturate sg w _
  | fin neg m e =>
    rw [fpToInt, min_eq_left (hv neg m e rfl), ofNat_wrapInt_saturate, roundInt, scale2_one]
    simp only [roundsAway_eq, Spec.toInteger]
    congr 1
    push_cast
    rfl

theorem laneCvt_toNat (ty tgt : BitVec 4) (rm : BitVec 3) (u : BitVec 32) (x : BitVec (laneBits ty)) :
    BitVec.ofNat (laneBits tgt) (laneCvt ty tgt rm x.toNat u) = Spec.cvtLane ty tgt rm u x (laneBits tgt) := by
  rw [laneCvt, Spec.cvtLane, isIntTy_eq, isIntTy_eq]
  by_cases hs : Spec.intTy ty = true <;> by_cases ht : Spec.intTy tgt = true
  · simp only [hs, ht, Bool.and_self, if_true, isSigned_eq hs, isSigned_eq ht, readInt_toNat]
    by_cases heq : laneBits ty = laneBits tgt
    · rw [if_pos heq, if_pos heq, BitVec.ofNat_toNat]
    · rw [if_neg heq, if_neg heq]
      by_cases hlt : laneBits tgt < laneBits ty
      · rw [if_pos hlt, decide_eq_true hlt, ofNat_wrapInt_saturate]
      · rw [if_neg hlt, decide_eq_false hlt, ofNat_wrapInt]
        rfl
  · simp only [hs, ht, Bool.and_false, Bool.false_eq_true, if_false, if_true, isSigned_eq hs, readInt_toNat, intToFp_eq]
  · simp only [hs, ht, Bool.false_and, Bool.false_eq_true, if_false, if_true, isSigned_eq ht]
    exact fpToInt_toInteger rm u _ _ fun _ _ _ h => exp_decodeFp_le h
  · simp only [hs, ht, Bool.false_and, Bool.false_eq_true, if_false]
    rfl

/-! ### The lanes of a conversion (R124) -/

/-- A list of values combined with words, each of which has one. -/
theorem zipWith_eq_map_range {α β γ : Type} (f : α → β → γ) {xs : List α} {us : List β} {n : Nat} {x : Nat → α} {u : Nat → β}
    (hlen : xs.length = n) (hx : ∀ j, j < n → xs[j]? = some (x j)) (hu : ∀ j, j < n → us[j]? = some (u j)) :
    List.zipWith f xs us = (List.range n).map (fun j => f (x j) (u j)) := by
  apply List.ext_getElem?
  intro j
  by_cases hj : j < n
  · rw [List.getElem?_map, List.getElem?_range hj, Option.map_some]
    exact List.getElem?_zipWith_eq_some.2 ⟨_, _, hx j hj, hu j hj, rfl⟩
  · rw [List.getElem?_eq_none (by rw [List.length_zipWith]; omega), List.getElem?_eq_none (by simpa using hj)]

/-- The lanes of part k lie within a register. -/
theorem part_fits {w v k : Nat} (hpos : 0 < w) (hk : k < v / w) : (k + 1) * (1024 / v) ≤ 1024 / w := by
  rw [Nat.le_div_iff_mul_le hpos]
  calc (k + 1) * (1024 / v) * w
      = ((k + 1) * w) * (1024 / v) := by ring
    _ ≤ v * (1024 / v) := Nat.mul_le_mul_right _ ((Nat.le_div_iff_mul_le hpos).1 hk)
    _ ≤ 1024 := Nat.mul_div_le _ _

section
variable {ty tgt : BitVec 4} {k : Nat} {rm : BitVec 3} {us : List (BitVec 32)} {old a b : VWord} {u : Nat → BitVec 32}
  (hs : ty.toNat ≤ 11) (ht : tgt.toNat ≤ 11)
include hs ht

/-- Conversions between types of lanes, without blocks. -/
theorem cvtV_plain : cvtV ty tgt k rm us old a b =
    let n := 1024 / max (laneBits ty) (laneBits tgt)
    let res := List.zipWith (laneCvt ty tgt rm)
      (if laneBits ty < laneBits tgt then ((lanes (laneBits ty) a).drop (k * n)).take n else (lanes (laneBits ty) a).take n) us
    if laneBits tgt < laneBits ty then putLanes (laneBits tgt) old (k * n) res else joinLanes (laneBits tgt) res := by
  have hne : ∀ ty : BitVec 4, ty.toNat ≤ 11 → ty ≠ 12 := by decide
  rw [cvtV, if_neg (hne tgt ht), if_neg (hne ty hs)]
  rfl

/-- Part k of the source, converted to lanes as wide or wider. -/
theorem cvtV_widen (hw : laneBits ty ≤ laneBits tgt) (hk : k < laneBits tgt / laneBits ty)
    (hu : ∀ j, j < 1024 / laneBits tgt → us[j]? = some (u j)) {i : Nat} (hi : i < 1024 / laneBits tgt) :
    Spec.laneOf (laneBits tgt) (cvtV ty tgt k rm us old a b) i =
      Spec.cvtLane ty tgt rm (u i) (Spec.laneOf (laneBits ty) a (k * (1024 / laneBits tgt) + i)) (laneBits tgt) := by
  have hpos := laneBits_pos (show ty.toNat ≤ 12 by omega)
  have hfit := part_fits hpos hk
  rw [Nat.succ_mul] at hfit
  have hsrc : (if laneBits ty < laneBits tgt then
      ((lanes (laneBits ty) a).drop (k * (1024 / laneBits tgt))).take (1024 / laneBits tgt)
      else (lanes (laneBits ty) a).take (1024 / laneBits tgt))[i]? =
        some (Spec.laneOf (laneBits ty) a (k * (1024 / laneBits tgt) + i)).toNat := by
    split
    · rw [List.getElem?_take_of_lt hi, List.getElem?_drop, getElem?_lanes a (by omega)]
    · have heq : laneBits ty = laneBits tgt := by omega
      have hk0 : k = 0 := by
        rw [heq, Nat.div_self (heq ▸ hpos)] at hk
        omega
      rw [List.getElem?_take_of_lt hi, hk0, Nat.zero_mul, Nat.zero_add, getElem?_lanes a (by rw [heq]; exact hi)]
  rw [cvtV_plain hs ht, max_eq_right hw]
  simp only [if_neg (Nat.not_lt.2 hw)]
  rw [laneOf_joinLanes hi (List.getElem?_zipWith_eq_some.2 ⟨_, _, hsrc, hu i hi, rfl⟩), laneCvt_toNat]

/-- All lanes of the source, converted to narrower lanes in part k of the destination, whose other lanes stay. -/
theorem cvtV_narrow (hw : laneBits tgt < laneBits ty) (hk : k < laneBits ty / laneBits tgt)
    (hu : ∀ j, j < 1024 / laneBits ty → us[j]? = some (u j)) {i : Nat} (hi : i < 1024 / laneBits tgt) :
    Spec.laneOf (laneBits tgt) (cvtV ty tgt k rm us old a b) i =
      if k * (1024 / laneBits ty) ≤ i ∧ i < (k + 1) * (1024 / laneBits ty) then
        Spec.cvtLane ty tgt rm (u (i - k * (1024 / laneBits ty)))
          (Spec.laneOf (laneBits ty) a (i - k * (1024 / laneBits ty))) (laneBits tgt)
      else Spec.laneOf (laneBits tgt) old i := by
  have hpos := laneBits_pos (show tgt.toNat ≤ 12 by omega)
  have hfit := part_fits hpos hk
  rw [Nat.succ_mul] at hfit ⊢
  have hres : List.zipWith (laneCvt ty tgt rm) ((lanes (laneBits ty) a).take (1024 / laneBits ty)) us =
      (List.range (1024 / laneBits ty)).map (fun j => laneCvt ty tgt rm (Spec.laneOf (laneBits ty) a j).toNat (u j)) :=
    zipWith_eq_map_range _ (by simp) (fun j hj => by rw [List.getElem?_take_of_lt hj, getElem?_lanes a hj]) hu
  rw [cvtV_plain hs ht, max_eq_left hw.le]
  simp only [if_pos hw, if_neg (Nat.not_lt.2 hw.le), hres]
  rw [laneOf_putLanes _ (by simpa using hfit) hi, List.length_map, List.length_range]
  split
  · have hj : i - k * (1024 / laneBits ty) < 1024 / laneBits ty := by omega
    rw [List.getD_eq_getElem?_getD, List.getElem?_map, List.getElem?_range hj, Option.map_some, Option.getD_some, laneCvt_toNat]
  · rfl

end

/-! ### The forms that convert lanes -/

section
variable {s : State} {p : Pred} {ty tgt : BitVec 4} {k rm : BitVec 3} {d : VReg} {a : VSrc} {b : Option VSrc} {c : Option WSrc}

theorem vcvt_next (h : Ready s p .tile ([.v a] ++ optV b ++ optW c) [vdst d]) (hpair : cvtPair ty tgt = true)
    (hpart : cvtPart ty tgt k = true) (hrm : ¬ (rm = 4 ∧ ty ≠ 8)) :
    exec (.vcvt p ty tgt k rm d a b c) s =
      .next (Spec.vectorDone s (takeOptV (Spec.take1 s a).1 s.cur.1 s.cur.2 b).1 d
        (cvtV ty tgt k.toNat rm (optWords s s.cur.1 s.cur.2 c) (oldV s s.cur.1 s.cur.2 d) (Spec.take1 s a).2
          (takeOptV (Spec.take1 s a).1 s.cur.1 s.cur.2 b).2) 4) := by
  rw [exec_vcvt, execVcvt]
  exact issue_done h (if_neg (by simpa [hpair, hpart] using hrm))

theorem vcvt_trap (h : Ready s p .tile ([.v a] ++ optV b ++ optW c) [vdst d])
    (hbad : cvtPair ty tgt = false ∨ cvtPart ty tgt k = false ∨ (rm = 4 ∧ ty ≠ 8)) :
    exec (.vcvt p ty tgt k rm d a b c) s = .next (trapTaken s 8 .illegal 0) := by
  rw [exec_vcvt, execVcvt]
  refine issue_trap h (if_pos ?_)
  rcases hbad with h | h | ⟨h1, h2⟩
  · simp [h]
  · simp [h]
  · simpa [h1] using Or.inr h2

theorem vcvtXs_next (h : Ready s p .tile ([.v a] ++ optW c) [vdst d]) :
    exec (.vcvtXs p 8 12 k rm d a c) s = .next (Spec.vectorDone s (Spec.take1 s a).1 d
      (putLanes 8 (oldV s s.cur.1 s.cur.2 d) k.toNat
        [(quantMx rm (optWords s s.cur.1 s.cur.2 c) (lanes 32 (Spec.take1 s a).2)).1.toNat]) 4) := by
  rw [exec_vcvtXs, execVcvtXs]
  exact issue_done h rfl

theorem vcvtXs_trap (h : Ready s p .tile ([.v a] ++ optW c) [vdst d]) (hbad : ¬ (ty = 8 ∧ tgt = 12)) :
    exec (.vcvtXs p ty tgt k rm d a c) s = .next (trapTaken s 8 .illegal 0) := by
  rw [exec_vcvtXs, execVcvtXs]
  exact issue_trap h (if_pos (by simpa [-not_and, not_and_or] using hbad))

end

theorem cvtPair_plain {ty tgt : BitVec 4} (hs : ty.toNat ≤ 11) (ht : tgt.toNat ≤ 11) : cvtPair ty tgt = true := by
  simp [cvtPair, hs, ht]

theorem cvtPair_blocks {ty tgt : BitVec 4} (h : 12 ≤ ty.toNat ∨ 12 ≤ tgt.toNat) (hq : ¬ (ty = 8 ∧ tgt = 12))
    (hd : ¬ (ty = 12 ∧ tgt = 8)) : cvtPair ty tgt = false := by
  revert ty tgt
  decide

/-- Stochastic words come with `.f32` alone, which has 32 lanes (R120). -/
theorem cvt_words (s : State) {ty : BitVec 4} {c : Option WSrc} {n : Nat} (hs : ty.toNat ≤ 11)
    (hc : c.isSome = true → ty = 8) (hn : n ≤ 1024 / laneBits ty) :
    ∀ j, j < n → (optWords s s.cur.1 s.cur.2 c)[j]? = some (Spec.noise s c j) := by
  intro j hj
  refine getElem?_optWords s c (lane_lt_128 hs (hj.trans_le hn)) fun hsome => ?_
  rw [hc hsome] at hn
  exact hj.trans_le hn

end Sys2Proof.Laws

/-! SUPPORT. Folds that pick an element: the largest or smallest of a list of numbers (R44, R119, R123). -/

namespace Sys2Proof.Laws
open Sys2Proof Sys2Proof.Machine

/-! ### Folds that pick the last of a list in an order -/

section
variable {α K : Type} [LinearOrder K] {op : α → α → α} {key : α → K} {P : α → Prop}

/-- An operation that picks, of two elements, one that no other of them comes after. -/
def Picks (op : α → α → α) (key : α → K) (P : α → Prop) : Prop :=
  ∀ a b, P a → P b → (op a b = a ∧ key b ≤ key a) ∨ (op a b = b ∧ key a ≤ key b)

/-- A fold that picks gives the start or an element, and none of these comes after it. -/
theorem foldl_picks (hop : Picks op key P) {xs : List α} {h : α} (hh : P h) (hxs : ∀ x ∈ xs, P x) :
    xs.foldl op h ∈ h :: xs ∧ ∀ x ∈ h :: xs, key x ≤ key (xs.foldl op h) := by
  induction xs generalizing h with
  | nil => simp
  | cons y ys ih =>
    rw [List.foldl_cons]
    have hy : P y := hxs y List.mem_cons_self
    have hys : ∀ x ∈ ys, P x := fun x hx => hxs x (List.mem_cons_of_mem _ hx)
    have hstep : P (op h y) ∧ op h y ∈ [h, y] ∧ key h ≤ key (op h y) ∧ key y ≤ key (op h y) := by
      rcases hop h y hh hy with ⟨he, hle⟩ | ⟨he, hle⟩
      · rw [he]
        exact ⟨hh, by simp, le_rfl, hle⟩
      · rw [he]
        exact ⟨hy, by simp, hle, le_rfl⟩
    obtain ⟨hP, hmem, hkh, hky⟩ := hstep
    obtain ⟨hin, hmax⟩ := ih hP hys
    have hfirst : key (op h y) ≤ key (ys.foldl op (op h y)) := hmax _ List.mem_cons_self
    refine ⟨?_, fun x hx => ?_⟩
    · rcases List.mem_cons.1 hin with hin | hin
      · rw [hin]
        simp only [List.mem_cons, List.not_mem_nil, or_false] at hmem ⊢
        exact hmem.imp_right .inl
      · exact List.mem_cons_of_mem _ (List.mem_cons_of_mem _ hin)
    · rcases List.mem_cons.1 hx with rfl | hx
      · exact hkh.trans hfirst
      · rcases List.mem_cons.1 hx with rfl | hx
        · exact hky.trans hfirst
        · exact hmax x (List.mem_cons_of_mem _ hx)

/-- A fold that picks, from an element of the list or from a start that only its equal does not come after, gives the
function's value at a number that no other comes after. -/
theorem foldl_picks_range (hop : Picks op key P) {f : Nat → α} {n : Nat} {h : α} (hn : 0 < n) (hh : P h)
    (hf : ∀ i, i < n → P (f i)) (hstart : h = f 0 ∨ ∀ i, i < n → key (f i) ≤ key h → f i = h) :
    ∃ m, m < n ∧ ((List.range n).map f).foldl op h = f m ∧ ∀ i, i < n → key (f i) ≤ key (f m) := by
  have hmem (i) (hi : i < n) : f i ∈ (List.range n).map f := List.mem_map.2 ⟨i, List.mem_range.2 hi, rfl⟩
  obtain ⟨hin, hmax⟩ := foldl_picks (xs := (List.range n).map f) hop hh (fun x hx => by
    obtain ⟨i, hi, rfl⟩ := List.mem_map.1 hx
    exact hf i (List.mem_range.1 hi))
  obtain ⟨m, hm, he⟩ : ∃ m, m < n ∧ ((List.range n).map f).foldl op h = f m := by
    rcases List.mem_cons.1 hin with he | hin
    · rcases hstart with h0 | hlow
      · exact ⟨0, hn, he.trans h0⟩
      · have h0 := hmax (f 0) (List.mem_cons_of_mem _ (hmem 0 hn))
        rw [he] at h0
        exact ⟨0, hn, he.trans (hlow 0 hn h0).symm⟩
    · obtain ⟨m, hm, he⟩ := List.mem_map.1 hin
      exact ⟨m, List.mem_range.1 hm, he.symm⟩
  exact ⟨m, hm, he, fun i hi => he ▸ hmax (f i) (List.mem_cons_of_mem _ (hmem i hi))⟩

end

/-! ### QuantMX (R44) -/

/-- A larger magnitude has no smaller binary exponent. -/
theorem log2_add_le {m n : Nat} {e k : Int} (hm : m ≠ 0) (h : ratOf false m e ≤ ratOf false n k) :
    (Nat.log2 m : Int) + e ≤ Nat.log2 n + k := by
  have hlow : (2 : ℚ) ^ ((Nat.log2 m : Int) + e) ≤ m * 2 ^ e := by
    rw [zpow_add₀ (by norm_num), zpow_natCast]
    gcongr
    exact_mod_cast Nat.log2_self_le hm
  have hhigh : (n : ℚ) * 2 ^ k < 2 ^ ((Nat.log2 n : Int) + 1 + k) := by
    rw [zpow_add₀ (by norm_num), ← Nat.cast_succ, zpow_natCast]
    have : (n : ℚ) < 2 ^ (Nat.log2 n + 1) := by exact_mod_cast Nat.lt_log2_self
    gcongr
  simp only [ratOf, Bool.false_eq_true, if_false, one_mul] at h
  have := (zpow_lt_zpow_iff_right₀ (by norm_num : (1 : ℚ) < 2)).1 (hlow.trans_lt (h.trans_lt hhigh))
  omega

theorem small_absVal {v : Val} (h : Small v) : Small (absVal v) := by
  cases v with
  | nan => intro _ _ _ hv; cases hv
  | inf => intro _ _ _ hv; cases hv
  | fin a m e =>
    rintro _ _ _ hv
    obtain ⟨-, -, rfl⟩ := Val.fin.inj hv
    exact h a m e rfl

theorem absVal_ne_nan {v : Val} (h : v ≠ .nan) : absVal v ≠ .nan := by
  cases v <;> simp_all [absVal]

/-- Picking the larger of two magnitudes, as QuantMX does. -/
theorem picks_ltVal : Picks (fun a v => if ltVal a v then v else a) rank (fun v => v ≠ .nan ∧ Small v) := by
  rintro a b ⟨ha, sa⟩ ⟨hb, sb⟩
  by_cases h : ltVal a b = true
  · exact .inr ⟨if_pos h, ((ltVal_iff ha hb sa sb).1 h).le⟩
  · exact .inl ⟨if_neg h, not_lt.1 fun hlt => h ((ltVal_iff ha hb sa sb).2 hlt)⟩

/-- The binary exponents of the values that are not zero. -/
def mxLogs (x : Nat → Val) : List Int :=
  (List.range 32).filterMap (fun j =>
    match x j with | .fin _ m e => if m = 0 then none else some ((Nat.log2 m : Int) + e) | _ => none)

theorem mem_mxLogs {x : Nat → Val} {l : Int} :
    l ∈ mxLogs x ↔ ∃ j, j < 32 ∧ ∃ a m e, x j = .fin a m e ∧ m ≠ 0 ∧ l = (Nat.log2 m : Int) + e := by
  rw [mxLogs, List.mem_filterMap]
  refine exists_congr fun j => and_congr List.mem_range ?_
  cases x j with
  | nan => simp
  | inf => simp
  | fin a m e =>
    by_cases hm : m = 0
    · simp [hm]
    · simp [hm, eq_comm]

/-- A block with a value that is not finite has no exponent. -/
theorem mxExp_none {x : Nat → Val} (h : ∃ j, j < 32 ∧ isFin (x j) = false) : Spec.mxExp x = none := by
  obtain ⟨j, hj, hv⟩ := h
  rw [Spec.mxExp, if_pos]
  refine List.any_eq_true.2 ⟨j, List.mem_range.2 hj, ?_⟩
  cases hx : x j <;> simp_all [isFin]

theorem mxExp_some {x : Nat → Val} (hfin : ∀ j, j < 32 → isFin (x j) = true) :
    Spec.mxExp x = some (match (mxLogs x).max? with | none => -127 | some l => max (-127) (min (l - 2) 127)) := by
  refine (if_neg ?_).trans rfl
  rw [List.any_eq_true]
  rintro ⟨j, hj, hv⟩
  have := hfin j (List.mem_range.1 hj)
  cases hx : x j <;> simp_all [isFin]

/-- The magnitude that QuantMX picks gives the exponent (R44). -/
theorem mxExp_fold {x : Nat → Val} (hfin : ∀ j, j < 32 → isFin (x j) = true) (hsmall : ∀ j, j < 32 → Small (x j)) :
    Spec.mxExp x = some (match ((List.range 32).map x).foldl (fun a v => if ltVal a (absVal v) then absVal v else a)
        (.fin false 0 0) with
      | .fin _ m e => if m = 0 then -127 else max (-127) (min (Nat.log2 m + e - 2) 127)
      | _ => -127) := by
  have habs (j) (hj : j < 32) : ∃ a m e, x j = .fin a m e ∧ absVal (x j) = .fin false m e := by
    have := hfin j hj
    cases hx : x j with
    | nan => simp [hx, isFin] at this
    | inf => simp [hx, isFin] at this
    | fin a m e => exact ⟨a, m, e, rfl, rfl⟩
  have hzero : (Val.fin false 0 0) ≠ .nan ∧ Small (.fin false 0 0) := by
    refine ⟨by simp, fun _ _ _ h => ?_⟩
    obtain ⟨-, -, rfl⟩ := Val.fin.inj h
    decide
  obtain ⟨hin, hmax⟩ := foldl_picks (xs := (List.range 32).map (fun j => absVal (x j))) picks_ltVal hzero (fun v hv => by
    obtain ⟨j, hj, rfl⟩ := List.mem_map.1 hv
    have hj := List.mem_range.1 hj
    obtain ⟨a, m, e, -, h⟩ := habs j hj
    exact ⟨by simp [h], small_absVal (hsmall j hj)⟩)
  rw [mxExp_some hfin, List.foldl_map]
  rw [List.foldl_map] at hin hmax
  generalize (List.range 32).foldl _ (Val.fin false 0 0) = r at hin hmax ⊢
  have hle (j) (hj : j < 32) : rank (absVal (x j)) ≤ rank r :=
    hmax _ (List.mem_cons_of_mem _ (List.mem_map.2 ⟨j, List.mem_range.2 hj, rfl⟩))
  obtain ⟨m, e, rfl, hm⟩ : ∃ m e, r = .fin false m e ∧ (m ≠ 0 → (Nat.log2 m : Int) + e ∈ mxLogs x) := by
    rcases List.mem_cons.1 hin with rfl | hin
    · exact ⟨0, 0, rfl, fun h => absurd rfl h⟩
    · obtain ⟨j, hj, rfl⟩ := List.mem_map.1 hin
      obtain ⟨a, m, e, hx, h⟩ := habs j (List.mem_range.1 hj)
      exact ⟨m, e, h, fun hm => mem_mxLogs.2 ⟨j, List.mem_range.1 hj, a, m, e, hx, hm, rfl⟩⟩
  have hratio {l : Int} (hl : l ∈ mxLogs x) : ∃ n k, n ≠ 0 ∧ l = (Nat.log2 n : Int) + k ∧ ratOf false n k ≤ ratOf false m e := by
    obtain ⟨j, hj, a, n, k, hx, hn, rfl⟩ := mem_mxLogs.1 hl
    have h := hle j hj
    rw [hx] at h
    exact ⟨n, k, hn, rfl, not_lt.1 fun hlt => h.not_gt (rank_fin_lt.2 hlt)⟩
  congr 1
  by_cases h0 : m = 0
  · subst h0
    have hnil : mxLogs x = [] := by
      refine List.eq_nil_iff_forall_not_mem.2 fun l hl => ?_
      obtain ⟨n, k, hn, -, h⟩ := hratio hl
      have hz : ratOf false 0 e = 0 := ratOf_eq_zero.2 rfl
      have hpos : 0 ≤ ratOf false n k := by
        simp only [ratOf, Bool.false_eq_true, if_false, one_mul]
        positivity
      exact hn (ratOf_eq_zero.1 (le_antisymm (h.trans hz.le) hpos))
    rw [hnil]
    rfl
  · have hmaxlog : (mxLogs x).max? = some ((Nat.log2 m : Int) + e) := by
      refine List.max?_eq_some_iff.2 ⟨hm h0, fun l hl => ?_⟩
      obtain ⟨n, k, hn, rfl, h⟩ := hratio hl
      exact log2_add_le hn h
    rw [hmaxlog]
    exact (if_neg h0).symm

/-- QuantMX of 32 lanes: the scale and the elements that R44 gives. -/
theorem quantMx_lanes (rm : BitVec 3) (a : VWord) {us : List (BitVec 32)} {u : Nat → BitVec 32}
    (hu : ∀ j, j < 32 → us[j]? = some (u j)) :
    let x (j : Nat) : Val := Spec.valOf 8 (Spec.laneOf 32 a j)
    quantMx rm us (lanes 32 a) = (Spec.mxScale x, (List.range 32).map (fun j => Spec.mxElem rm (u j) x j)) := by
  intro x
  have hvs : (lanes 32 a).map (decodeFp fp32) = (List.range 32).map x := by
    rw [lanes, List.map_map]
    refine List.map_congr_left fun j hj => ?_
    rw [Function.comp_apply, lane_eq]
    rfl
  have hsmall (j : Nat) : Small (x j) := small_decodeFp 8 _
  have hany : ((List.range 32).map x).any (fun v => !isFin v) = true ↔ ∃ j, j < 32 ∧ isFin (x j) = false := by
    simp [List.any_map, Function.comp_def]
  rw [quantMx, hvs]
  by_cases h : ∃ j, j < 32 ∧ isFin (x j) = false
  · rw [if_pos (hany.2 h), Spec.mxScale, mxExp_none h, lanes]
    refine congrArg₂ Prod.mk rfl (List.map_map.trans (List.map_congr_left (l := List.range 32) fun j _ => ?_))
    rw [Spec.mxElem, mxExp_none h]
    rfl
  · have hfin (j) (hj : j < 32) : isFin (x j) = true := by
      by_contra hc
      exact h ⟨j, hj, by simpa using hc⟩
    have hzip : List.zip ((List.range 32).map x) us = (List.range 32).map (fun j => (x j, u j)) :=
      zipWith_eq_map_range Prod.mk (by simp) (fun j hj => by rw [List.getElem?_map, List.getElem?_range hj, Option.map_some]) hu
    rw [if_neg fun hc => h (hany.1 hc), hzip, Spec.mxScale, mxExp_fold hfin fun j _ => hsmall j]
    refine congrArg₂ Prod.mk rfl (List.map_map.trans (List.map_congr_left fun j _ => ?_))
    rw [Function.comp_apply, Spec.mxElem, mxExp_fold hfin fun j _ => hsmall j]
    cases x j <;> rfl

end Sys2Proof.Laws

/-! SUPPORT. Reductions of lanes to a number (R123). -/

namespace Sys2Proof.Laws
open Sys2Proof Sys2Proof.Machine

/-! ### Integer lanes -/

section
variable {ty : BitVec 4}

theorem lanes_eq_map (w : Nat) (a : VWord) :
    lanes w a = (List.range (1024 / w)).map fun i => (Spec.laneOf w a i).toNat :=
  List.map_congr_left fun i _ => lane_eq w a i

theorem lanes_readInt (sg : Bool) (w : Nat) (a : VWord) :
    (lanes w a).map (readInt sg w) = (List.range (1024 / w)).map (fun i => Spec.asInt sg (Spec.laneOf w a i)) := by
  rw [lanes_eq_map, List.map_map]
  exact List.map_congr_left fun i _ => readInt_toNat sg _

/-- Every type of a reduction has a lane. -/
theorem lanes_pos (h : Spec.intTy ty = true ∨ ty = 8 ∨ ty = 9) : 0 < 1024 / laneBits ty := by
  revert ty
  decide

theorem headD_map_range {α : Type} {f : Nat → α} {n : Nat} {d : α} (hn : 0 < n) : ((List.range n).map f).headD d = f 0 := by
  rw [List.headD_eq_head?_getD, List.head?_map, List.head?_range, if_neg hn.ne']
  rfl

theorem picks_min : Picks (fun x y : Int => if x ≤ y then x else y) OrderDual.toDual (fun _ => True) := by
  intro a b _ _
  by_cases h : a ≤ b
  · exact .inl ⟨if_pos h, h⟩
  · exact .inr ⟨if_neg h, (not_le.1 h).le⟩

theorem picks_max : Picks (fun x y : Int => if x ≤ y then y else x) id (fun _ => True) := by
  intro a b _ _
  by_cases h : a ≤ b
  · exact .inr ⟨if_pos h, h⟩
  · exact .inl ⟨if_neg h, (not_le.1 h).le⟩

theorem picks_natAbs : Picks (fun x y : Nat => if x < y then y else x) id (fun _ => True) := by
  intro a b _ _
  by_cases h : a < b
  · exact .inr ⟨if_pos h, h.le⟩
  · exact .inl ⟨if_neg h, not_lt.1 h⟩

section
variable (hi : Spec.intTy ty = true) (rm : BitVec 3) (a : VWord)
include hi

theorem redV_sum_int : redV 0 ty rm a = BitVec.ofInt 64
    ((List.range (1024 / laneBits ty)).map fun i => Spec.asInt (Spec.signedTy ty) (Spec.laneOf (laneBits ty) a i)).sum := by
  simp only [redV, isIntTy_eq, if_pos hi, isSigned_eq hi, lanes_readInt, List.sum_eq_foldl]

theorem redV_min_int : let x (i : Nat) : Int := Spec.asInt (Spec.signedTy ty) (Spec.laneOf (laneBits ty) a i)
    ∃ m, (∀ i, i < 1024 / laneBits ty → x m ≤ x i) ∧ m < 1024 / laneBits ty ∧ redV 1 ty rm a = BitVec.ofInt 64 (x m) := by
  intro x
  have hpos := lanes_pos (.inl hi)
  obtain ⟨m, hm, he, hle⟩ := foldl_picks_range (f := x) (h := x 0) picks_min hpos trivial (fun _ _ => trivial) (.inl rfl)
  refine ⟨m, hle, hm, ?_⟩
  simp only [redV, isIntTy_eq, if_pos hi, isSigned_eq hi, lanes_readInt]
  rw [← he, headD_map_range hpos]

theorem redV_max_int : let x (i : Nat) : Int := Spec.asInt (Spec.signedTy ty) (Spec.laneOf (laneBits ty) a i)
    ∃ m, (∀ i, i < 1024 / laneBits ty → x i ≤ x m) ∧ m < 1024 / laneBits ty ∧ redV 2 ty rm a = BitVec.ofInt 64 (x m) := by
  intro x
  have hpos := lanes_pos (.inl hi)
  obtain ⟨m, hm, he, hle⟩ := foldl_picks_range (f := x) (h := x 0) picks_max hpos trivial (fun _ _ => trivial) (.inl rfl)
  refine ⟨m, hle, hm, ?_⟩
  simp only [redV, isIntTy_eq, if_pos hi, isSigned_eq hi, lanes_readInt]
  rw [← he, headD_map_range hpos]

theorem redV_amax_int : let x (i : Nat) : Int := Spec.asInt (Spec.signedTy ty) (Spec.laneOf (laneBits ty) a i)
    ∃ m, (∀ i, i < 1024 / laneBits ty → (x i).natAbs ≤ (x m).natAbs) ∧ m < 1024 / laneBits ty ∧
      redV 3 ty rm a = BitVec.ofNat 64 (x m).natAbs := by
  intro x
  obtain ⟨m, hm, he, hle⟩ := foldl_picks_range (f := fun i => (x i).natAbs) (h := 0) picks_natAbs (lanes_pos (.inl hi)) trivial
    (fun _ _ => trivial) (.inr fun _ _ h => Nat.le_zero.1 h)
  refine ⟨m, hle, hm, ?_⟩
  simp only [redV, isIntTy_eq, if_pos hi, isSigned_eq hi, lanes_readInt]
  rw [← he, List.foldl_map, List.foldl_map]
  rfl

end
end

/-! ### Floating-point lanes -/

/-- An operation that gives the canonical NaN for a NaN gives it for a list that holds one. -/
theorem foldl_nan {f : Fmt} {op : Nat → Nat → Nat}
    (hop : ∀ a b, decodeFp f a = .nan ∨ decodeFp f b = .nan → op a b = f.nanBits) (hn : decodeFp f f.nanBits = .nan)
    {xs : List Nat} (hx : ∃ x ∈ xs, decodeFp f x = .nan) (h : Nat) : xs.foldl op h = f.nanBits := by
  have hstay (ys : List Nat) : ys.foldl op f.nanBits = f.nanBits := by
    induction ys with
    | nil => rfl
    | cons y ys ih => rw [List.foldl_cons, hop _ _ (.inl hn), ih]
  induction xs generalizing h with
  | nil => simp at hx
  | cons y ys ih =>
    rw [List.foldl_cons]
    by_cases hy : decodeFp f y = .nan
    · rw [hop _ _ (.inr hy), hstay]
    · obtain ⟨x, hmem, hx⟩ := hx
      exact ih ⟨x, (List.mem_cons.1 hmem).resolve_left (fun he => hy (he ▸ hx)), hx⟩ _

/-- A pattern without its sign bit is the magnitude. -/
theorem decodeFp_magnitude {f : Fmt} (hw : f.width ≠ 4) (x : Nat) :
    decodeFp f (x % 2 ^ (f.width - 1)) = absVal (decodeFp f x) := by
  have hsign : x % 2 ^ (f.width - 1) / 2 ^ (f.width - 1) = 0 := Nat.div_eq_of_lt (Nat.mod_lt _ (Nat.two_pow_pos _))
  simp only [decodeFp, if_neg hw, hsign, Nat.mod_mod]
  split_ifs <;> rfl

theorem picks_minFp (ty : BitVec 4) : Picks (minFp (fmtOf ty)) (fun x => OrderDual.toDual (rankZ (decodeFp (fmtOf ty) x)))
    (fun x => decodeFp (fmtOf ty) x ≠ .nan) :=
  fun _ _ ha hb => minFp_cases ha hb

theorem picks_maxFp (ty : BitVec 4) : Picks (maxFp (fmtOf ty)) (fun x => rankZ (decodeFp (fmtOf ty) x))
    (fun x => decodeFp (fmtOf ty) x ≠ .nan) :=
  fun _ _ ha hb => (maxFp_cases ha hb).symm

section
variable {ty : BitVec 4} (hty : ty = 8 ∨ ty = 9)
include hty

theorem float_fmt : (fmtOf ty).width ≠ 4 ∧ 1 ≤ (fmtOf ty).p ∧ (fmtOf ty).width = laneBits ty ∧
    decodeFp (fmtOf ty) (fmtOf ty).nanBits = .nan := by
  rcases hty with rfl | rfl <;> decide

/-- A magnitude that does not come after zero is the pattern 0. -/
theorem magnitude_eq_zero {x : Nat} (hx : decodeFp (fmtOf ty) x ≠ .nan)
    (h : rankZ (decodeFp (fmtOf ty) (x % 2 ^ (laneBits ty - 1))) ≤ rankZ (decodeFp (fmtOf ty) 0)) :
    x % 2 ^ (laneBits ty - 1) = 0 := by
  obtain ⟨hw, hp, hlen, -⟩ := float_fmt hty
  rw [← hlen] at h ⊢
  have hzero : ∃ e, decodeFp (fmtOf ty) 0 = .fin false 0 e := by
    rcases hty with rfl | rfl <;> exact ⟨_, rfl⟩
  obtain ⟨e0, h0⟩ := hzero
  rw [decodeFp_magnitude hw, h0] at h
  have hle : rank (absVal (decodeFp (fmtOf ty) x)) ≤ rank (.fin false 0 e0) :=
    (Prod.Lex.toLex_le_toLex.1 h).elim le_of_lt fun h => h.1.le
  cases hv : decodeFp (fmtOf ty) x with
  | nan => exact absurd hv hx
  | inf neg =>
    rw [hv] at hle
    exact absurd (rank_fin_lt_inf false 0 e0) hle.not_gt
  | fin neg m e =>
    obtain ⟨k, -, -, -, -, hhid, hmag⟩ := decodeFp_fin hw hp hv
    have hm : m = 0 := by
      by_contra hm
      rw [hv] at hle
      refine hle.not_gt (rank_fin_lt.2 ?_)
      have h2 : (0 : ℚ) < 2 ^ e := zpow_pos (by norm_num) _
      have hmpos : (0 : ℚ) < m := by exact_mod_cast Nat.pos_of_ne_zero hm
      rw [ratOf_eq_zero.2 rfl]
      simp only [ratOf, Bool.false_eq_true, if_false, one_mul]
      positivity
    have hk : k = 0 := hhid.resolve_right (by have := Nat.two_pow_pos ((fmtOf ty).p - 1); omega)
    rw [← hmag, hm, hk, Nat.zero_mul]

section
variable (rm : BitVec 3) (a : VWord)

theorem redV_sum_float : redV 0 ty rm a = BitVec.ofNat 64 (exactThenRound (fmtOf ty) rm 0
    ((List.range (1024 / laneBits ty)).map fun i => Spec.valOf ty (Spec.laneOf (laneBits ty) a i))) := by
  simp only [redV, isIntTy_eq, intTy_float hty, Bool.false_eq_true, if_false, lanes_eq_map, List.map_map]
  rfl

theorem redV_min_fold : redV 1 ty rm a = BitVec.ofNat 64
    (((List.range (1024 / laneBits ty)).map fun i => (Spec.laneOf (laneBits ty) a i).toNat).foldl (minFp (fmtOf ty))
      (Spec.laneOf (laneBits ty) a 0).toNat) := by
  simp only [redV, isIntTy_eq, intTy_float hty, Bool.false_eq_true, if_false, lanes_eq_map, headD_map_range (lanes_pos (.inr hty))]

theorem redV_max_fold : redV 2 ty rm a = BitVec.ofNat 64
    (((List.range (1024 / laneBits ty)).map fun i => (Spec.laneOf (laneBits ty) a i).toNat).foldl (maxFp (fmtOf ty))
      (Spec.laneOf (laneBits ty) a 0).toNat) := by
  simp only [redV, isIntTy_eq, intTy_float hty, Bool.false_eq_true, if_false, lanes_eq_map, headD_map_range (lanes_pos (.inr hty))]

theorem redV_amax_fold : redV 3 ty rm a = BitVec.ofNat 64
    (((List.range (1024 / laneBits ty)).map fun i =>
      if Spec.valOf ty (Spec.laneOf (laneBits ty) a i) = .nan then (fmtOf ty).nanBits
      else (Spec.laneOf (laneBits ty) a i).toNat % 2 ^ (laneBits ty - 1)).foldl (maxFp (fmtOf ty)) 0) := by
  simp only [redV, isIntTy_eq, intTy_float hty, Bool.false_eq_true, if_false, lanes_eq_map, List.map_map]
  rfl

/-- A NaN lane makes each of the three the canonical NaN. -/
theorem redV_float_nan (h : ∃ j, j < 1024 / laneBits ty ∧ Spec.valOf ty (Spec.laneOf (laneBits ty) a j) = .nan) :
    redV 1 ty rm a = BitVec.ofNat 64 (fmtOf ty).nanBits ∧ redV 2 ty rm a = BitVec.ofNat 64 (fmtOf ty).nanBits ∧
    redV 3 ty rm a = BitVec.ofNat 64 (fmtOf ty).nanBits := by
  obtain ⟨j, hj, hnan⟩ := h
  obtain ⟨-, -, -, hn⟩ := float_fmt hty
  have hmem (f : Nat → Nat) : f j ∈ (List.range (1024 / laneBits ty)).map f :=
    List.mem_map_of_mem (List.mem_range.2 hj)
  refine ⟨?_, ?_, ?_⟩
  · rw [redV_min_fold hty, foldl_nan (fun _ _ => minFp_nan) hn ⟨_, hmem fun i => (Spec.laneOf _ a i).toNat, hnan⟩]
  · rw [redV_max_fold hty, foldl_nan (fun _ _ => maxFp_nan) hn ⟨_, hmem fun i => (Spec.laneOf _ a i).toNat, hnan⟩]
  · rw [redV_amax_fold hty, foldl_nan (fun _ _ => maxFp_nan) hn ⟨_, hmem _, by rw [if_pos hnan, hn]⟩]

variable (hy : ∀ j, j < 1024 / laneBits ty → Spec.valOf ty (Spec.laneOf (laneBits ty) a j) ≠ .nan)
include hy

theorem redV_min_float : ∃ m, m < 1024 / laneBits ty ∧
    (∀ j, j < 1024 / laneBits ty → Spec.lessZ (Spec.valOf ty (Spec.laneOf (laneBits ty) a j))
      (Spec.valOf ty (Spec.laneOf (laneBits ty) a m)) = false) ∧
    redV 1 ty rm a = BitVec.ofNat 64 (Spec.laneOf (laneBits ty) a m).toNat := by
  have hpos := lanes_pos (.inr hty)
  obtain ⟨m, hm, he, hle⟩ := foldl_picks_range (f := fun i => (Spec.laneOf (laneBits ty) a i).toNat)
    (picks_minFp ty) hpos (hy 0 hpos) hy (.inl rfl)
  refine ⟨m, hm, fun j hj => ?_, by rw [redV_min_fold hty, he]⟩
  rw [← Bool.not_eq_true, lessZ_iff (hy j hj) (hy m hm)]
  exact not_lt.2 (hle j hj)

theorem redV_max_float : ∃ m, m < 1024 / laneBits ty ∧
    (∀ j, j < 1024 / laneBits ty → Spec.lessZ (Spec.valOf ty (Spec.laneOf (laneBits ty) a m))
      (Spec.valOf ty (Spec.laneOf (laneBits ty) a j)) = false) ∧
    redV 2 ty rm a = BitVec.ofNat 64 (Spec.laneOf (laneBits ty) a m).toNat := by
  have hpos := lanes_pos (.inr hty)
  obtain ⟨m, hm, he, hle⟩ := foldl_picks_range (f := fun i => (Spec.laneOf (laneBits ty) a i).toNat)
    (picks_maxFp ty) hpos (hy 0 hpos) hy (.inl rfl)
  refine ⟨m, hm, fun j hj => ?_, by rw [redV_max_fold hty, he]⟩
  rw [← Bool.not_eq_true, lessZ_iff (hy m hm) (hy j hj)]
  exact not_lt.2 (hle j hj)

theorem redV_amax_float : ∃ m, m < 1024 / laneBits ty ∧
    (∀ j, j < 1024 / laneBits ty → Spec.less (absVal (Spec.valOf ty (Spec.laneOf (laneBits ty) a m)))
      (absVal (Spec.valOf ty (Spec.laneOf (laneBits ty) a j))) = false) ∧
    redV 3 ty rm a = BitVec.ofNat 64 ((Spec.laneOf (laneBits ty) a m).toNat % 2 ^ (laneBits ty - 1)) := by
  obtain ⟨hw, -, hlen, -⟩ := float_fmt hty
  have habs (j : Nat) : decodeFp (fmtOf ty) ((Spec.laneOf (laneBits ty) a j).toNat % 2 ^ (laneBits ty - 1)) =
      absVal (Spec.valOf ty (Spec.laneOf (laneBits ty) a j)) := by
    rw [← hlen]
    exact decodeFp_magnitude hw _
  have hmag (j) (hj : j < 1024 / laneBits ty) := absVal_ne_nan (hy j hj)
  have hzero : decodeFp (fmtOf ty) 0 ≠ .nan := by
    rcases hty with rfl | rfl <;> decide
  obtain ⟨m, hm, he, hle⟩ := foldl_picks_range
    (f := fun i => (Spec.laneOf (laneBits ty) a i).toNat % 2 ^ (laneBits ty - 1)) (picks_maxFp ty) (lanes_pos (.inr hty)) hzero
    (fun j hj => by rw [habs]; exact hmag j hj) (.inr fun j hj h => magnitude_eq_zero hty (hy j hj) h)
  refine ⟨m, hm, fun j hj => ?_, ?_⟩
  · rw [← Bool.not_eq_true, less_iff (hmag m hm) (hmag j hj), not_lt]
    have h := hle j hj
    rw [habs, habs] at h
    exact (Prod.Lex.toLex_le_toLex.1 h).elim le_of_lt fun h => h.1.le
  · rw [redV_amax_fold hty, ← he, List.map_congr_left fun j hj => if_neg (hy j (List.mem_range.1 hj))]

end
end

end Sys2Proof.Laws

/-! SUPPORT and O45. Roots, conversions with blocks, quantisation, random words (R40 to R45, R123 to R126), and the forms of the
vector unit that give them. -/

namespace Sys2Proof.Laws
open Sys2Proof Sys2Proof.Machine

/-! ### Quotients and functions of one lane -/

section
variable {s : State} {p : Pred} {rm : BitVec 3}

/-- A form that maps FP32 lanes. -/
theorem lift1_spec {d : VReg} {a : VSrc} (lat : Nat) (f : Nat → Nat) (hrm : rm ≠ 4) (h : Ready s p .tile [.v a] [vdst d]) :
    ∃ v, vec1 lat (rm != 4) (lift1 f) p d a s = .next (Spec.vectorDone s (Spec.take1 s a).1 d v lat) ∧
      Spec.lanesAre 32 v (fun i => BitVec.ofNat 32 (f (Spec.laneOf 32 (Spec.take1 s a).2 i).toNat)) :=
  ⟨_, vec1_next h (by simpa using hrm), fun _ hi => laneOf_mapLanes _ _ hi⟩

theorem vdiv_spec {o : VOps} (hrm : rm ≠ 4) (h : Ready s p .tile [.v o.a, .v o.b] [vdst o.d]) : ∃ v,
    exec (.vdiv p rm o) s = .next (Spec.vectorDone s (Spec.take2 s o.a o.b).1 o.d v 16) ∧
    Spec.lanesAre 32 v (fun i => BitVec.ofNat 32 (divFp fp32 rm 0
      (Spec.valOf 8 (Spec.laneOf 32 (Spec.take2 s o.a o.b).2.1 i)) (Spec.valOf 8 (Spec.laneOf 32 (Spec.take2 s o.a o.b).2.2 i)))) := by
  rw [exec_vdiv, execVdiv]
  exact ⟨_, vec2_next h (by simpa using hrm), fun i hi => laneOf_lift2 _ _ _ hi⟩

end

/-! ### Conversions -/

/-- Conversions between types of lanes: an illegal part or mode traps, and else each lane is converted (R124). -/
theorem vcvt_spec {s : State} {p : Pred} {ty tgt : BitVec 4} {k rm : BitVec 3} {d : VReg} {a : VSrc} {c : Option WSrc}
    (hs : ty.toNat ≤ 11) (ht : tgt.toNat ≤ 11) (hwf : wellFormed (.vcvt p ty tgt k rm d a none c) = true)
    (h : Ready s p .tile ([.v a] ++ optW c) [vdst d]) :
    let ws := laneBits ty
    let wt := laneBits tgt
    let n := 1024 / max ws wt
    let x := (Spec.take1 s a).2
    let i := Instr.vcvt p ty tgt k rm d a none c
    (max ws wt / min ws wt ≤ k.toNat ∨ (rm = 4 ∧ ty ≠ 8) → exec i s = .next (trapTaken s 8 .illegal 0)) ∧
    (k.toNat < max ws wt / min ws wt → ¬ (rm = 4 ∧ ty ≠ 8) → ∃ v,
      exec i s = .next (Spec.vectorDone s (Spec.take1 s a).1 d v 4) ∧
      (ws ≤ wt → ∀ j, j < n → Spec.laneOf wt v j = Spec.cvtLane ty tgt rm (Spec.noise s c j) (Spec.laneOf ws x (k.toNat * n + j)) wt) ∧
      (wt < ws → ∀ j, j < n → Spec.laneOf wt v (k.toNat * n + j) = Spec.cvtLane ty tgt rm (Spec.noise s c j) (Spec.laneOf ws x j) wt) ∧
      (wt < ws → ∀ j r, d = .w r → (j < k.toNat * n ∨ (k.toNat + 1) * n ≤ j) → j < 1024 / wt →
        Spec.laneOf wt v j = Spec.laneOf wt ((self s).rw r) j)) := by
  dsimp only
  have hc : c.isSome = true → ty = 8 := fun hsome => by
    simp only [wellFormed, Bool.and_eq_true, hsome, beq_iff_eq] at hwf
    simpa using (Bool.and_eq_true_iff.1 hwf.2.symm).2
  have hpos : 0 < laneBits ty := laneBits_pos (by omega)
  have hpos' : 0 < laneBits tgt := laneBits_pos (by omega)
  have hu := cvt_words s hs hc (n := 1024 / max (laneBits ty) (laneBits tgt)) (Nat.div_le_div_left (le_max_left ..) hpos)
  refine ⟨fun hbad => vcvt_trap h (.inr (hbad.imp_left fun hk => decide_eq_false (Nat.not_lt.2 hk))), fun hk hrm =>
    ⟨_, vcvt_next h (cvtPair_plain hs ht) (decide_eq_true hk) hrm, fun hw => ?_, fun hw j => ?_, fun hw j r hd hj hlt => ?_⟩⟩
  · rw [max_eq_right hw] at hu ⊢
    rw [max_eq_right hw, min_eq_left hw] at hk
    exact fun j hj => cvtV_widen hs ht hw hk hu hj
  · rw [max_eq_left hw.le] at hu ⊢
    rw [max_eq_left hw.le, min_eq_right hw.le] at hk
    intro hj
    have hfit := part_fits hpos' hk
    rw [Nat.succ_mul] at hfit
    rw [cvtV_narrow hs ht hw hk hu (by omega), Nat.succ_mul, if_pos (by omega), Nat.add_sub_cancel_left]
  · rw [max_eq_left hw.le] at hu hj
    rw [max_eq_left hw.le, min_eq_right hw.le] at hk
    subst hd
    rw [cvtV_narrow hs ht hw hk hu hlt, if_neg (by omega)]
    rfl

/-! ### Blocks (R44, R124) -/

section
variable {s : State} {p : Pred} {k rm : BitVec 3} {a : VSrc} {c : Option WSrc}

/-- The words of a quantisation, 32 of them (R120). -/
theorem block_words (s : State) (c : Option WSrc) : ∀ j, j < 32 → (optWords s s.cur.1 s.cur.2 c)[j]? = some (Spec.noise s c j) :=
  fun _ hj => getElem?_optWords s c (hj.trans (by decide)) fun _ => hj

/-- To a block: its elements stand in part k, the other lanes stay. -/
theorem vcvt_toBlock {d : BitVec 4} (h : Ready s p .tile ([.v a] ++ optW c) [.w d]) :
    let x (j : Nat) : Val := Spec.valOf 8 (Spec.laneOf 32 (Spec.take1 s a).2 j)
    ∃ v, exec (.vcvt p 8 12 k rm (.w d) a none c) s = .next (Spec.vectorDone s (Spec.take1 s a).1 (.w d) v 4) ∧
      Spec.lanesAre 4 v (fun j => if 32 * k.toNat ≤ j ∧ j < 32 * k.toNat + 32 then
          Spec.mxElem rm (Spec.noise s c (j - 32 * k.toNat)) x (j - 32 * k.toNat)
        else Spec.laneOf 4 ((self s).rw d) j) := by
  intro x
  have hpart : cvtPart 8 12 k = true := by revert k; decide
  refine ⟨_, vcvt_next h rfl hpart (by simp), fun j hj => ?_⟩
  have hk : k.toNat < 8 := k.isLt
  rw [cvtV, if_pos rfl, quantMx_lanes rm _ (block_words s c)]
  dsimp only
  rw [laneOf_putLanes _ (by simp; omega) hj, List.map_map, List.length_map, List.length_range]
  split
  · have hlt : j - 32 * k.toNat < 32 := by omega
    rw [List.getD_eq_getElem?_getD, List.getElem?_map, List.getElem?_range hlt, Option.map_some, Option.getD_some,
      Function.comp_apply, ofNat_toNat_self]
  · rfl

/-- The scale byte of a block alone. -/
theorem vcvtXs_toBlock {d : BitVec 4} (h : Ready s p .tile ([.v a] ++ optW c) [.w d]) :
    let x (j : Nat) : Val := Spec.valOf 8 (Spec.laneOf 32 (Spec.take1 s a).2 j)
    ∃ v, exec (.vcvtXs p 8 12 k rm (.w d) a c) s = .next (Spec.vectorDone s (Spec.take1 s a).1 (.w d) v 4) ∧
      Spec.lanesAre 8 v (fun j => if j = k.toNat then Spec.mxScale x else Spec.laneOf 8 ((self s).rw d) j) := by
  intro x
  have hk : k.toNat < 8 := k.isLt
  refine ⟨_, vcvtXs_next h, fun j hj => ?_⟩
  rw [quantMx_lanes rm _ (block_words s c), laneOf_putLanes_one _ _ (by omega) hj, ofNat_toNat_self]
  rfl

/-- Every pattern of E2M1 is a number. -/
theorem decodeFp_e2m1 (x : Nat) : ∃ neg m e, decodeFp e2m1 x = .fin neg m e := by
  simp only [decodeFp, if_pos (show e2m1.width = 4 from rfl)]
  split <;> exact ⟨_, _, _, rfl⟩

/-- An element of a block with its scale. -/
theorem scaled_element (sc : BitVec 8) (x : BitVec 4) : BitVec.ofNat 32 (roundVal fp32 rm 0 (scaleE8 sc (decodeFp e2m1 x.toNat))) =
    match Spec.valOf 12 x with
    | .fin neg m e =>
      BitVec.ofNat 32 (if sc = 0xFF then fp32.nanBits else roundVal fp32 rm 0 (.fin neg m (e + sc.toNat - 127)))
    | _ => BitVec.ofNat 32 fp32.nanBits := by
  obtain ⟨neg, m, e, hx⟩ := decodeFp_e2m1 x.toNat
  rw [Spec.valOf, show fmtOf 12 = e2m1 from rfl, hx, scaleE8]
  split <;> rfl

/-- From a block. -/
theorem vcvt_ofBlock {d : VReg} {b : VSrc} (h : Ready s p .tile [.v a, .v b] [vdst d]) (hrm : rm ≠ 4) : ∃ v,
    exec (.vcvt p 12 8 k rm d a (some b) none) s = .next (Spec.vectorDone s (Spec.take2 s a b).1 d v 4) ∧
    let sc := Spec.laneOf 8 (Spec.take2 s a b).2.2 k.toNat
    Spec.lanesAre 32 v (fun j =>
      match Spec.valOf 12 (Spec.laneOf 4 (Spec.take2 s a b).2.1 (32 * k.toNat + j)) with
      | .fin neg m e =>
        BitVec.ofNat 32 (if sc = 0xFF then fp32.nanBits else roundVal fp32 rm 0 (.fin neg m (e + sc.toNat - 127)))
      | _ => BitVec.ofNat 32 fp32.nanBits) := by
  have hpart : cvtPart 12 8 k = true := by revert k; decide
  refine ⟨_, vcvt_next h rfl hpart (fun hbad => hrm hbad.1), fun j hj => ?_⟩
  rw [cvtV, if_neg (by decide), if_pos rfl]
  simp only [lane_eq, ofNat_toNat_self]
  exact (laneOf_joinLanes_map _ hj hj).trans (scaled_element _ _)

end

/-! ### Quantisation (R45, R125) -/

section
variable {s : State} {p : Pred} {a : WSrc}

/-- The 128 lanes of the four registers of `vqnt`. -/
theorem qntRead_eq (s : State) (a : WSrc) : qntRead s s.cur.1 s.cur.2 a = (List.range 128).map (fun j =>
    (Spec.laneOf 32 ((self s).rw (a.r + BitVec.ofNat 4 (j / 32))) (j % 32)).toNat) := by
  apply List.ext_getElem?
  intro j
  rw [qntRead, qntLanes, List.flatMap_map]
  simp only [lanes_eq_map]
  by_cases hj : j < 128
  · rw [List.getElem?_map, List.getElem?_range hj, Option.map_some]
    have := getElem?_flatMap_range (n := 4) (m := 32) (i := j / 32) (j := j % 32)
      (fun i l => (Spec.laneOf 32 ((self s).rw (a.r + BitVec.ofNat 4 i)) l).toNat) (by omega) (by omega)
    rwa [Nat.div_add_mod] at this
  · rw [List.getElem?_eq_none (by simp [List.length_flatMap]; omega), List.getElem?_eq_none (by simpa using hj)]

theorem length_quantE4m3 (xs : List Nat) : (quantE4m3 xs).2.length = xs.length := by
  rw [quantE4m3]
  split <;> simp

theorem vqnt_trap {d : VReg} (hbad : a.r.toNat % 4 ≠ 0) (h : Ready s p .tile [.w a] [vdst d]) :
    exec (.vqnt p d a) s = .next (trapTaken s 8 .illegal 0) := by
  have hok : qntOk a.r = false := by simpa [qntOk] using hbad
  rw [exec_vqnt, execVqnt, qntSrcs, if_neg (by simp [hok])]
  exact issue_trap h (if_neg (by simp [hok]))

section
variable (hgrp : a.r.toNat % 4 = 0)
include hgrp

theorem vqnt_spec {d : VReg} (h : Ready s p .tile ((List.range 4).map (fun i => .w ⟨a.r + BitVec.ofNat 4 i, a.e⟩)) [vdst d]) :
    ∃ v, exec (.vqnt p d a) s = .next (Spec.vectorDone s s d v 8) ∧
      let q := quantE4m3 ((List.range 128).map (fun j =>
        (Spec.laneOf 32 ((self s).rw (a.r + BitVec.ofNat 4 (j / 32))) (j % 32)).toNat))
      Spec.lanesAre 8 v (fun j => BitVec.ofNat 8 (q.2.getD j 0)) := by
  have hok : qntOk a.r = true := by simpa [qntOk] using hgrp
  rw [exec_vqnt, execVqnt, qntSrcs, if_pos hok]
  refine ⟨_, issue_done h (if_pos hok), fun j hj => laneOf_joinLanes hj ?_⟩
  rw [qntRead_eq]
  have hlen : j < (quantE4m3 ((List.range 128).map (fun j =>
      (Spec.laneOf 32 ((self s).rw (a.r + BitVec.ofNat 4 (j / 32))) (j % 32)).toNat))).2.length := by
    simpa [length_quantE4m3] using hj
  rw [List.getD_eq_getElem _ _ hlen, List.getElem?_eq_getElem hlen]

theorem vqntS_spec {d : BitVec 5} (h : Ready s p .tile ((List.range 4).map (fun i => .w ⟨a.r + BitVec.ofNat 4 i, a.e⟩)) [.g d]) :
    let q := quantE4m3 ((List.range 128).map (fun j =>
      (Spec.laneOf 32 ((self s).rw (a.r + BitVec.ofNat 4 (j / 32))) (j % 32)).toNat))
    exec (.vqntS p d a) s = .next (Spec.scalarDone s s d (BitVec.ofNat 64 q.1) 8) := by
  have hok : qntOk a.r = true := by simpa [qntOk] using hgrp
  rw [exec_vqntS, execVqntS, qntSrcs, if_pos hok, ← qntRead_eq]
  exact issue_done h (if_pos hok)

end

theorem vdq_spec {d : VReg} {a : VSrc} {b : GSrc} {k : BitVec 2} (h : Ready s p .tile [.v a, .g b] [vdst d]) : ∃ v,
    exec (.vdq p d a b k) s = .next (Spec.vectorDone s (Spec.take1 s a).1 d v 4) ∧
    Spec.lanesAre 32 v (fun i => BitVec.ofNat 32 (dequant ((gOf s b).toNat % 2 ^ 32)
      (Spec.laneOf 8 (Spec.take1 s a).2 (32 * k.toNat + i)).toNat)) := by
  rw [exec_vdq, execVdq]
  refine ⟨_, issue_done h rfl, fun i hi => (laneOf_joinLanes_map _ hi hi).trans ?_⟩
  rw [lane_eq]
  rfl

end

/-! ### Random words (R126) -/

/-- A counter pair begins at an even register from g2 on. -/
theorem pairOk_iff {b : BitVec 5} : pairOk b = true ↔ b.toNat % 2 = 0 ∧ 2 ≤ b.toNat := by
  revert b
  decide

/-- The counter that was written, read again: the registers of a pair differ and neither is g0. -/
theorem pairRead_pairWrite (S : Strand) {b : BitVec 5} (hb : b.toNat % 2 = 0 ∧ 2 ≤ b.toNat) (c : BitVec 128) :
    pairRead (pairWrite S b c) b = c := by
  have hne : ∀ b : BitVec 5, b.toNat % 2 = 0 ∧ 2 ≤ b.toNat → b ≠ 0 ∧ b + 1 ≠ 0 ∧ b ≠ b + 1 := by decide
  obtain ⟨h0, h1, hd⟩ := hne b hb
  rw [pairRead, pairWrite, rg_wg, if_neg h1, if_pos rfl, rg_wg, if_neg h0, if_neg hd, rg_wg, if_neg h0, if_pos rfl]
  exact BitVec.extractLsb'_append_extractLsb'_eq_extractLsb' (by decide) |>.trans BitVec.extractLsb'_eq_self

theorem rg_pairWrite (S : Strand) {b r : BitVec 5} (c : BitVec 128) (h : r ≠ b) (h' : r ≠ b + 1) :
    (pairWrite S b c).rg r = S.rg r := by
  rw [pairWrite, rg_wg, rg_wg, if_neg h, if_neg h', Strand.rg]
  split <;> rfl

theorem length_philoxWords (n : Nat) (ctr : BitVec 128) (key : Word) : (philoxWords n ctr key).length = 4 * n := by
  simp [philoxWords, philox, List.length_flatMap, Nat.mul_comm]

theorem laneOf_rngV (key : Word) (ctr : BitVec 128) {i : Nat} (hi : i < 1024 / 32) :
    Spec.laneOf 32 (rngV key ctr) i = (philoxWords 8 ctr key).getD i 0 := by
  have hlen : i < (philoxWords 8 ctr key).length := by
    rw [length_philoxWords]
    exact hi
  rw [rngV, laneOf_joinLanes hi (by rw [List.getElem?_map, List.getElem?_eq_getElem hlen, Option.map_some]), ofNat_toNat_self,
    List.getD_eq_getElem _ _ hlen]

section
variable {s : State} {p : Pred} {nx : Bool} {d : VReg} {a b : GSrc}

theorem vrng_trap (hbad : b.r.toNat % 2 = 1 ∨ b.r.toNat < 2) (h : Ready s p .tile [.g a, .g b] [vdst d]) :
    exec (.vrng p nx d a b) s = .next (trapTaken s 8 .illegal 0) := by
  have hok : ¬ pairOk b.r = true := by
    rw [pairOk_iff]
    omega
  rw [exec_vrng, execVrng, pairSrcs, if_neg hok]
  exact issue_trap h (if_pos (by simp [hok]))

/-- The counter goes up by 8 unless `.nx` is set. -/
def rngState (nx : Bool) (b : BitVec 5) (s : State) : State :=
  if nx then s else s.modStrand s.cur.1 s.cur.2 fun S => pairWrite S b (pairRead (self s) b + 8)

theorem vrng_next (hb : b.r.toNat % 2 = 0 ∧ 2 ≤ b.r.toNat)
    (h : Ready s p .tile [.g a, .g b, .g ⟨b.r + 1, b.e⟩] [vdst d]) :
    exec (.vrng p nx d a b) s =
      .next (Spec.vectorDone s (rngState nx b.r s) d (rngV (gOf s a) (pairRead (self s) b.r)) 4) := by
  have hok : pairOk b.r = true := pairOk_iff.2 hb
  rw [exec_vrng, execVrng, pairSrcs, if_pos hok]
  exact issue_done h (if_neg (by simp [hok]))

theorem rngState_cur (nx : Bool) (b : BitVec 5) (s : State) : (rngState nx b s).cur = s.cur := by
  cases nx <;> rfl

theorem self_rngState (nx : Bool) (b : BitVec 5) (s : State) : self (rngState nx b s) =
    if nx then self s else pairWrite (self s) b (pairRead (self s) b + 8) := by
  cases nx with
  | true => rfl
  | false => exact self_modStrand s _

theorem pairRead_rngState (nx : Bool) {b : BitVec 5} (hb : b.toNat % 2 = 0 ∧ 2 ≤ b.toNat) (s : State) :
    pairRead (self (rngState nx b s)) b = if nx then pairRead (self s) b else pairRead (self s) b + 8 := by
  rw [self_rngState]
  split
  · rfl
  · exact pairRead_pairWrite _ hb _

theorem rg_rngState (nx : Bool) {b r : BitVec 5} (h : r ≠ b) (h' : r ≠ b + 1) (s : State) :
    (self (rngState nx b s)).rg r = (self s).rg r := by
  rw [self_rngState]
  split
  · rfl
  · exact rg_pairWrite _ _ h h'

end

/-! ### Reductions (R123) -/

section
variable {s : State} {p : Pred} {ty : BitVec 4} {rm : BitVec 3} {d : BitVec 5} {a : VSrc} {r : Word}
  (h : Ready s p .tile [.v a] [.g d])
include h

theorem vredSum_gives (hrm : rm ≠ 4) (hr : redV 0 ty rm (Spec.take1 s a).2 = r) :
    exec (.vredSum p ty rm d a) s = .next (Spec.scalarDone s (Spec.take1 s a).1 d r 8) :=
  hr ▸ vecG_next h (by simpa using hrm)

theorem vredMin_gives (hr : redV 1 ty 0 (Spec.take1 s a).2 = r) :
    exec (.vredMin p ty d a) s = .next (Spec.scalarDone s (Spec.take1 s a).1 d r 8) :=
  hr ▸ vecG_next h rfl

theorem vredMax_gives (hr : redV 2 ty 0 (Spec.take1 s a).2 = r) :
    exec (.vredMax p ty d a) s = .next (Spec.scalarDone s (Spec.take1 s a).1 d r 8) :=
  hr ▸ vecG_next h rfl

theorem vredAmax_gives (hr : redV 3 ty 0 (Spec.take1 s a).2 = r) :
    exec (.vredAmax p ty d a) s = .next (Spec.scalarDone s (Spec.take1 s a).1 d r 8) :=
  hr ▸ vecG_next h rfl

end

/-! ### The forms together -/

theorem vectorFunctions : Spec.VectorFunctions := by
  refine ⟨fun p rm o s _ hrm h => vdiv_spec hrm h, fun e he p rm d a s hrm h => ?_,
    fun p ty tgt k rm d a c s hs ht hwf h => vcvt_spec hs ht hwf h,
    fun p ty tgt k rm d a b c s hty hq hd h => vcvt_trap h (.inl (cvtPair_blocks hty hq hd)),
    fun p ty tgt k rm d a c s hbad h => vcvtXs_trap h hbad,
    fun p k rm d a c s h => ⟨vcvt_toBlock h, vcvtXs_toBlock h⟩,
    fun p k rm d a b s h hrm => vcvt_ofBlock h hrm, fun p d a s hbad h => vqnt_trap hbad h,
    fun p d a s hgrp h => vqnt_spec hgrp h, fun p d a s hgrp h => vqntS_spec hgrp h, fun p d a b k s h => vdq_spec h,
    fun p ty d a s hi h => ?_, fun p ty rm d a s hty h => ?_, fun p nx d a b s hbad h => vrng_trap hbad h,
    fun p nx d a b s heven htwo h => ?_⟩
  · fin_cases he
    · exact lift1_spec 16 _ hrm h
    · exact lift1_spec 16 _ hrm h
    · exact lift1_spec 16 _ hrm h
    · exact lift1_spec 16 _ hrm h
  · obtain ⟨i, hi_le, hi_lt, hmin⟩ := redV_min_int hi 0 (Spec.take1 s a).2
    obtain ⟨j, hj_le, hj_lt, hmax⟩ := redV_max_int hi 0 (Spec.take1 s a).2
    obtain ⟨k, hk_le, hk_lt, hamax⟩ := redV_amax_int hi 0 (Spec.take1 s a).2
    exact ⟨vredSum_gives h (by decide) (redV_sum_int hi ..), ⟨i, hi_le, hi_lt, vredMin_gives h hmin⟩,
      ⟨j, hj_le, hj_lt, vredMax_gives h hmax⟩, ⟨k, hk_le, hk_lt, vredAmax_gives h hamax⟩⟩
  · refine ⟨fun hrm => vecG_trap h (by simp [hrm]), fun hrm => vredSum_gives h hrm (redV_sum_float hty ..), fun hnan => ?_,
      fun hy => ?_⟩
    · obtain ⟨hmin, hmax, hamax⟩ := redV_float_nan hty 0 _ hnan
      exact ⟨vredMin_gives h hmin, vredMax_gives h hmax, vredAmax_gives h hamax⟩
    · obtain ⟨i, hi, hi_le, hmin⟩ := redV_min_float hty 0 _ hy
      obtain ⟨j, hj, hj_le, hmax⟩ := redV_max_float hty 0 _ hy
      obtain ⟨k, hk, hk_le, hamax⟩ := redV_amax_float hty 0 _ hy
      exact ⟨⟨i, hi, hi_le, vredMin_gives h hmin⟩, ⟨j, hj, hj_le, vredMax_gives h hmax⟩,
        ⟨k, hk, hk_le, vredAmax_gives h hamax⟩⟩
  · exact ⟨_, _, vrng_next ⟨heven, htwo⟩ h, fun i hi => laneOf_rngV _ _ hi, rngState_cur nx b.r s,
      pairRead_rngState nx ⟨heven, htwo⟩ s, fun r hr hr' => rg_rngState nx hr hr' s⟩

/-- Settles O45: each form is issued as its shape says, and its lane function is the one that the statement names. -/
theorem vectorOther : Obligations.VectorOther := ⟨vectorMoves, vectorFunctions⟩

end Sys2Proof.Laws

/-! SUPPORT and O17. Instructions and their words (R53 to R68): the fields of an instruction fit the layout of its opcode, a
layout's word gives back the fields that fit it, and the bytes of a word the word. -/

namespace Sys2Proof.Laws

open Sys2Proof

/-! ### Fields that a layout holds (Table 3.2) -/

/-- A value with no bit from `k` on. -/
def Within {w : Nat} (k : Nat) (x : BitVec w) : Prop := x.toNat < 2 ^ k

/-- The fields that a layout has no place for are zero, and IMM and SUB no wider than their places (R57, Table 3.2). -/
def Fits : Layout → Fields → Prop
  | .i64, f => f.c = 0 ∧ f.ec = false ∧ f.rm = 0 ∧ f.ty = 0 ∧ f.ct = 0 ∧ f.fl = 0 ∧ f.sub = 0 ∧ Within 26 f.imm
  | .t64, f => f.ct = 0 ∧ f.fl = 0 ∧ f.imm = 0
  | .w96, f => f.sub = 0 ∧ Within 36 f.imm
  | .l128, f => f.fl = 0 ∧ Within 8 f.sub

theorem within_zero {w k : Nat} : Within k (0#w) := by simp [Within]

theorem within_setWidth {n w k : Nat} (x : BitVec n) (h : n ≤ k) : Within k (x.setWidth w) := by
  rw [Within, BitVec.toNat_setWidth]
  exact (Nat.mod_le ..).trans_lt (x.isLt.trans_le (Nat.pow_le_pow_right (by decide) h))

theorem within_or {w k : Nat} {x y : BitVec w} : Within k (x ||| y) ↔ Within k x ∧ Within k y := by
  simp only [Within, BitVec.toNat_or]
  exact ⟨fun h => ⟨Nat.left_le_or.trans_lt h, Nat.right_le_or.trans_lt h⟩, fun h => Nat.or_lt_two_pow h.1 h.2⟩

theorem within_setWidth_shiftLeft {n w k j : Nat} (x : BitVec n) (h : n + j ≤ k) : Within k (x.setWidth w <<< j) := by
  rw [Within, BitVec.toNat_shiftLeft, Nat.shiftLeft_eq]
  calc _ ≤ (x.setWidth w).toNat * 2 ^ j := Nat.mod_le ..
    _ < 2 ^ n * 2 ^ j := Nat.mul_lt_mul_of_pos_right (within_setWidth x le_rfl) (Nat.two_pow_pos j)
    _ = 2 ^ (n + j) := (pow_add ..).symm
    _ ≤ 2 ^ k := Nat.pow_le_pow_right (by decide) h

theorem within_aluImm (o : AluOps) : Within 26 (aluImm o) := by
  unfold aluImm; split
  · exact within_zero
  · exact within_setWidth _ le_rfl

/-- The fields of every instruction fit the layout of its opcode. -/
theorem toFields_fits {i : Instr} {f : Fields} (hf : toFields i = some f) : ∃ l, layoutOf f.op = some l ∧ Fits l f := by
  cases i <;> cases hf <;> refine ⟨_, rfl, ?_⟩
  all_goals
    simp [Fits, bit12, bit64, within_zero, within_setWidth, within_or, within_setWidth_shiftLeft, within_aluImm]

/-- A hardware step has no fields and is not well formed; every instruction form has its fields. -/
theorem toFields_of_wellFormed {i : Instr} (h : wellFormed i = true) : ∃ f, toFields i = some f := by
  cases hf : toFields i with
  | some f => exact ⟨f, rfl⟩
  | none => cases i <;> cases hf <;> cases h

/-! ### Reading a word -/

/-- The low bits of a value within a width give it back. -/
theorem setWidth_extractLsb'_of_within {w k : Nat} {x : BitVec w} (h : Within k x) : (x.extractLsb' 0 k).setWidth w = x := by
  apply BitVec.eq_of_toNat_eq
  rw [BitVec.toNat_setWidth, BitVec.extractLsb'_toNat, Nat.shiftRight_zero, Nat.mod_eq_of_lt h, Nat.mod_eq_of_lt x.isLt]

theorem getLsbD_append_low {v w i : Nat} {x : BitVec v} {y : BitVec w} (h : i < w) : (x ++ y).getLsbD i = y.getLsbD i := by
  rw [BitVec.getLsbD_append, if_pos h]

theorem getLsbD_append_high {v w i : Nat} {x : BitVec v} {y : BitVec w} (h : w ≤ i) :
    (x ++ y).getLsbD i = x.getLsbD (i - w) := by
  rw [BitVec.getLsbD_append, if_neg (by omega)]

theorem getLsbD_setWidth_of_lt {w u i : Nat} {x : BitVec w} (h : i < u) : (x.setWidth u).getLsbD i = x.getLsbD i := by
  simp [h]

/-- Reading the fields of a word in its layout gives back those it was packed from. -/
theorem unpackWord_packWord {l : Layout} {f : Fields} (h : Fits l f) : unpackWord l (packWord l f) = f := by
  obtain ⟨⟩ := f
  cases l
  all_goals
    simp only [Fits] at h
    simp (disch := decide) only [unpackWord, packWord, packLow, packMid, getLsbD_append_low, getLsbD_append_high,
      getLsbD_setWidth_of_lt, BitVec.extractLsb'_append_eq_of_add_le, BitVec.extractLsb'_append_eq_of_le,
      BitVec.extractLsb'_setWidth_of_le, -Nat.reduceAdd]
    simp [setWidth_extractLsb'_of_within, h]

theorem packWord_len (l : Layout) (f : Fields) : (packWord l f).extractLsb' 0 2 = l.len := by
  have low {n : Nat} (hi : BitVec n) : (hi ++ packLow l.len f).extractLsb' 0 2 = l.len :=
    (BitVec.extractLsb'_append_eq_of_add_le (by decide)).trans BitVec.extractLsb'_append_eq_right
  cases l with
  | i64 => exact (BitVec.extractLsb'_setWidth_of_le (by decide)).trans (low _)
  | t64 => exact (BitVec.extractLsb'_setWidth_of_le (by decide)).trans (low _)
  | w96 => exact (BitVec.extractLsb'_setWidth_of_le (by decide)).trans (low _)
  | l128 => exact low _

theorem packWord_lt (l : Layout) (f : Fields) : Within (8 * l.bytes) (packWord l f) := by
  cases l with
  | i64 => exact within_setWidth _ le_rfl
  | t64 => exact within_setWidth _ le_rfl
  | w96 => exact within_setWidth _ le_rfl
  | l128 => exact (packWord .l128 f).isLt

/-- Reading the fields of a well-formed instruction gives it back, whatever its form. -/
theorem ofFields_toFields (i : Instr) : RoundTrip.Statement i := by
  open RoundTrip in
  exact i.rec (motive := Statement)
    nop add sub mul mulh div rem and or xor andn shl shr sra rot cmp sel min max bitcClz bitcCtz bitcPopc ext ins li lea gtaIdx
    gtaRel plog mfs mts addc br jmp call callR ret loop halt yield waitc ovlLoc ovlHbm ld st ldg stg st4 st4G ldl stu addd ldw
    stw fence lbLoad lbStore msg msgZ wptSet wptClr wptRd vadd vsub vmul vfma vmin vmax vdiv vsqrt vrsq vexp2 vlog2 vcmp vsel
    vcvt vcvtXs vqnt vqntS vdq vredSum vredMin vredMax vredAmax vperm vshuf vbcast vbcastLane vlogic vshift vmovgGet vmovgPut
    vrng vla vlaP vlard mma mmam saa acc lard lazero drain ptmovSt ptmovLd ptmovGet mrepA mrepB rchkRd rchkClr rchkInj mwaitArr
    mwaitAdd mwaitAll nrmCur nrmSt nrmLd atb smp smpl svarUp svarRd svarInv svarSt svarLd sclrVar sclrErr sclrAll sdraw sbindIn
    sbindOut sbindFa sbindFb sunbind sunbindFa sunbindFb sunbindPos sunbindPosa sunbindPosb cpy cpym sxwSet sxwClr sxwRd cntSet
    cntAdd cntRd sgtSet sgtGo sgtRd sgtFlt engSt engFlt engCrc engQ bar barv bara baraN waitb vabort bcfg bred bredCfg bredSt
    glchk coll waitp pcan prdF32 prdLa cstat cstatPc start hstop hstopAll enq ccnt ccntQ cancel vtidShape vtidOrd vtidIdx
    vtidHost offer offerRd imp offl retn pstat pstatDev pin pinClr pinUns ckptGo ckptRd lnkrd lnkset lnksetUp lnksetDown lnkret
    trap tret sys ctxsRd ctxsNew ctxsSeg ctxsGo ctxsSave ctxsRest kill killCtx idleRd idleSet tstReq tstRd ecntK ecntRes
    ecntThm ecntTs ecntSet dbgRd dbgMark dbgBrk deferredTrap resultDelivery remoteLoadArrival remoteLoadReturn deltaArrival
    foreshoreWriteArrival msgArrival ackArrival lockGrant ovlDone idleWatchdogExpiry waitcTimeout waitpTimeout fifoUnitComplete
    arrayOpStart partialTileWritten adderCmdStart adderCmdPerformed drainStart drainSourceReadDone atbBuildStart atbDone
    smpAtHead smplBatchDecision smplDone streamPieceFetched streamOutPiecePerformed copyCmdStart copyCmdPerformed
    copyAccessRefused cpymFollowon gatherRefused sluiceTermFire arriveSend barrierNodeArrive arriveAtDecision abortAtDecision
    barrierTimeout decisionRelease parkAssert parkWithdraw bcfgControlArrival glchkReply releaseCommitAtTile releaseAbortAtTile
    groupStart clusterStartGateOpen giveUpRequest moveRequest reshapeDone foldTurnChange launchMessageOffer poolIntake
    admissionStep nodeCompletion cancelAtDispatcher dispatcherReply clusterWake clusterUsable clusterRetain clusterGate
    testStart testDone coldReset monitorImageReceive monitorRequest attestationRequest kernelLoadRequest kernelResetRequest
    kernelRetireRequest sysReply saveComplete sweepTokenAtTile sweepSwtExpiry sweepCleanResult purgeConfirmed pageAccess
    offlCopyDone retnCopyDone writebackDrain pageTableWrite faultRefuse checkpointDone collAllLaunched collSourceRead
    adderDigitEmit planeLanded collDeadlineExpiry contributionAccepted collConsumerDone flitReceive replayTimeout
    linkTrainingDone linkRetrainDone autoStepDown autoStepUp reservoirTick backgroundScrubRead trapRecordArrival
    rowCollectorForward trapUnitDeliver fetchFault softError freeListFill tableBaseWrite chipNumberAssign runtimeImageLoad
    collNodeInput routeTableChange

/-- The word of a well-formed instruction decodes to it: no check of R55 refuses what `packWord` makes. -/
theorem decodeWord_packWord {i : Instr} {f : Fields} {l : Layout} (hwf : wellFormed i = true) (hf : toFields i = some f)
    (hl : layoutOf f.op = some l) (hfits : Fits l f) : decodeWord (packWord l f) = .ok (i, l.bytes) := by
  have hlen : ¬ l.len = 0 := by cases l <;> decide
  have hread : ofFields (unpackWord l (packWord l f)) = some i := by
    rw [unpackWord_packWord hfits]; exact ofFields_toFields i f hwf hf
  simp only [decodeWord, packWord_len, packWord_op, hl, hread, hf, hwf, bne_self_eq_false, beq_self_eq_true, beq_iff_eq, hlen,
    Bool.and_self, if_true, if_false, Bool.false_eq_true]

/-! ### The bytes of a word (R3, R53) -/

theorem length_leBytes (n v : Nat) : (leBytes n v).length = n := by
  induction n generalizing v with
  | zero => rfl
  | succ n ih => simp [leBytes, ih]

theorem leNat_leBytes (n v : Nat) : leNat (leBytes n v) = v % 256 ^ n := by
  induction n generalizing v with
  | zero => simp [leBytes, leNat, Nat.mod_one]
  | succ n ih => rw [leBytes, leNat, ih, BitVec.toNat_ofNat, pow_succ' 256, Nat.mod_mul (a := 256)]

/-- The first byte of a word holds its LEN code. -/
theorem leBytes_head {n : Nat} (hn : 0 < n) (w : BitVec 128) :
    ∃ b r, leBytes n w.toNat = b :: r ∧ b.setWidth 2 = w.extractLsb' 0 2 := by
  obtain ⟨m, rfl⟩ : ∃ m, n = m + 1 := ⟨n - 1, by omega⟩
  refine ⟨_, _, rfl, BitVec.eq_of_toNat_eq ?_⟩
  rw [BitVec.toNat_setWidth, BitVec.toNat_ofNat, BitVec.extractLsb'_toNat, Nat.shiftRight_zero]
  exact Nat.mod_mod_of_dvd _ (by decide)

/-- Bytes that begin with those of a word decode as the word does, where the LEN code of the word is that many bytes'. -/
theorem decode_leBytes {w : BitVec 128} {n : Nat} (rest : List Byte) (hn : 0 < n) (hlen : lenBytes (w.extractLsb' 0 2) = n)
    (hw : Within (8 * n) w) : decode (leBytes n w.toNat ++ rest) = decodeWord w := by
  obtain ⟨b, r, hb, hb2⟩ := leBytes_head hn w
  have htake : (leBytes n w.toNat ++ rest).take n = leBytes n w.toNat := List.take_left' (length_leBytes ..)
  have hnum : leNat (leBytes n w.toNat) = w.toNat := by
    rw [leNat_leBytes, Nat.mod_eq_of_lt]; rwa [Within, pow_mul] at hw
  have hlong : ¬ (leBytes n w.toNat ++ rest).length < n := by simp [length_leBytes]
  have hb' : lenBytes (b.setWidth 2) = n := by rw [hb2, hlen]
  have h0 : ¬ n = 0 := by omega
  rw [hb] at htake hlong hnum ⊢
  simp only [List.cons_append] at htake hlong ⊢
  simp only [decode, hb', htake, hnum, beq_iff_eq, h0, hlong, if_false, BitVec.ofNat_toNat, BitVec.setWidth_eq]

/-- Settles O17: the fields fit the opcode's layout, the layout's word gives the fields back, and the word's bytes the word. -/
theorem decodeEncode : Obligations.DecodeEncode := by
  intro i rest hwf
  obtain ⟨f, hf⟩ := toFields_of_wellFormed hwf
  obtain ⟨l, hl, hfits⟩ := toFields_fits hf
  have hbytes : encodeBytes i = leBytes l.bytes (packWord l f).toNat := by rw [encodeBytes, encode_of_toFields hf hl]
  have hlen : lenBytes ((packWord l f).extractLsb' 0 2) = l.bytes := by rw [packWord_len]; cases l <;> rfl
  rw [hbytes, length_leBytes, decode_leBytes rest (by cases l <;> decide) hlen (packWord_lt l f)]
  exact decodeWord_packWord hwf hf hl hfits

end Sys2Proof.Laws

/-! SUPPORT, O11, O12 and O13. Every instruction form is issued with the operands of its row, so what the checks of the issue
come to (R55 checks 7 to 9, R63 to R65, R174), every form comes to. -/

namespace Sys2Proof.Laws

open Sys2Proof Sys2Proof.Machine

/-! ### The row of a form -/

/-- An outcome is that of an issue with the operands of a row. -/
def Issued (o : Pred × Nat × Who × List Src × List Dst) (s : State) (r : Host.Outcome State Fault Refusal) : Prop :=
  ∃ body, r = issue o.1 o.2.1 o.2.2.1 o.2.2.2.1 o.2.2.2.2 body s

section
variable {s : State} {p : Pred} {lat : Nat} {ok : Bool}

theorem issued_aluNow {f o} : Issued (p, 8, .any, aluSrcs o, [.g o.d]) s (aluNow f p o s) := ⟨_, rfl⟩
theorem issued_aluLate {f o} : Issued (p, 8, .any, aluSrcs o, [.g o.d]) s (aluLate lat f p o s) := ⟨_, rfl⟩
theorem issued_unaryG {f d a} : Issued (p, 8, .any, [.g a], [.g d]) s (unaryG f p d a s) := ⟨_, rfl⟩
theorem issued_arith {w r sat o rm c} :
    Issued (p, 8, .tile, [.v o.a, .v o.b] ++ optW c, [vdst o.d]) s (arith w r p sat o rm c s) := ⟨_, rfl⟩
theorem issued_vec1 {f d a} : Issued (p, 8, .tile, [.v a], [vdst d]) s (vec1 lat ok f p d a s) := ⟨_, rfl⟩
theorem issued_vec2 {f d a b} : Issued (p, 8, .tile, [.v a, .v b], [vdst d]) s (vec2 lat ok f p d a b s) := ⟨_, rfl⟩
theorem issued_vec3 {f d a b c} : Issued (p, 8, .tile, [.v a, .v b, .v c], [vdst d]) s (vec3 lat ok f p d a b c s) := ⟨_, rfl⟩
theorem issued_vecG {f d a} : Issued (p, 8, .tile, [.v a], [.g d]) s (vecG lat ok f p d a s) := ⟨_, rfl⟩
theorem issued_monForm {len f d srcs} :
    Issued (p, len, .monitor, srcs.map (fun a => .g a), [.g d]) s (monForm p len d srcs f s) := ⟨_, rfl⟩
theorem issued_dieForm {f d a} : Issued (p, 8, .any, [.g a], [.g d]) s (dieForm f p d a s) := ⟨_, rfl⟩

end

/-- Every instruction form is issued with the operands of its row. -/
theorem exec_issued {i : Instr} {o : Pred × Nat × Who × List Src × List Dst} (h : Spec.operands i = some o) (s : State) :
    Issued o s (exec i s) := by
  cases i
  all_goals
    dsimp only [exec, Spec.operands, execVfma, execVsel, execVperm, execVbcastLane, execVshift, execVmovgGet, execLdg, execAddd,
      execMmam] at h ⊢
  case ldg d _ _ => cases d <;> cases h <;> exact ⟨_, rfl⟩
  case addd b _ => cases b <;> cases h <;> exact ⟨_, rfl⟩
  case mmam m => cases m <;> cases h <;> exact ⟨_, rfl⟩
  case vshift b =>
    cases b with
    | reg b => cases h; exact issued_vec2
    | imm k => cases h; exact issued_vec1
  all_goals cases h
  case add | sub | and | or | xor | andn | shl | shr | sra | rot | min | max => exact issued_aluNow
  case mul | mulh | div | rem => exact issued_aluLate
  case bitcClz | bitcCtz | bitcPopc => exact issued_unaryG
  case vadd | vsub | vmul => exact issued_arith
  case vsqrt | vrsq | vexp2 | vlog2 | vbcastLane => exact issued_vec1
  case vmin | vmax | vdiv | vcmp | vperm | vlogic => exact issued_vec2
  case vfma | vsel => exact issued_vec3
  case vredSum | vredMin | vredMax | vredAmax | vmovgGet => exact issued_vecG
  case lnkset | lnksetUp | lnksetDown | lnkret | ctxsNew | ctxsGo | ctxsSave | ctxsRest | tstReq => exact issued_monForm
  case ecntRes | ecntThm | ecntTs => exact issued_dieForm
  all_goals exact ⟨_, rfl⟩

/-- The row of a form holds the predicate of its fields and the length of its opcode's layout. -/
theorem operands_of_toFields {i : Instr} {f : Fields} (hf : toFields i = some f) : ∃ l who srcs dsts,
    layoutOf f.op = some l ∧ Spec.operands i = some (⟨f.pr, f.pn⟩, l.bytes, who, srcs, dsts) := by
  cases i
  case ldg d _ _ => cases d <;> cases hf <;> exact ⟨_, _, _, _, rfl, rfl⟩
  case addd b _ => cases b <;> cases hf <;> exact ⟨_, _, _, _, rfl, rfl⟩
  case mmam m => cases m <;> cases hf <;> exact ⟨_, _, _, _, rfl, rfl⟩
  case vshift b => cases b <;> cases hf <;> exact ⟨_, _, _, _, rfl, rfl⟩
  all_goals cases hf <;> exact ⟨_, _, _, _, rfl, rfl⟩

theorem operands_isSome (i : Instr) : (Spec.operands i).isSome = (toFields i).isSome := by
  cases i
  case ldg d _ _ => cases d <;> rfl
  case addd b _ => cases b <;> rfl
  case mmam m => cases m <;> rfl
  case vshift b => cases b <;> rfl
  all_goals rfl

/-- The privileged forms are the monitor's. -/
theorem operands_of_privileged {i : Instr} {p : Pred} {len : Nat} (h : Spec.privileged i = some (p, len)) :
    ∃ srcs dsts, Spec.operands i = some (p, len, .monitor, srcs, dsts) := by
  cases i
  case ctxsRd a =>
    dsimp only [Spec.privileged, Spec.operands] at h ⊢
    split at h
    · cases h
    next ha => cases h; rw [if_neg ha]; exact ⟨_, _, rfl⟩
  all_goals cases h <;> exact ⟨_, _, rfl⟩

/-- The forms of strand 0 are so in their rows. -/
theorem operands_of_controlOnly {i : Instr} {p : Pred} {len : Nat} (h : Spec.controlOnly i = some (p, len)) :
    ∃ srcs dsts, Spec.operands i = some (p, len, .control, srcs, dsts) := by
  cases i <;> cases h <;> exact ⟨_, _, rfl⟩

/-! ### What the checks of an issue come to -/

section
variable {s : State} {t : TileId} {n : StrandNo} {p : Pred} {who : Who} {srcs : List Src} {dsts : List Dst}

/-- R63: a false predicate. -/
theorem checkIssue_predFalse (h : predTrue (s.strand t n) p = false) : checkIssue s t n p who srcs dsts = some (.done s) := by
  simp only [State.strand] at h
  simp [checkIssue, h]

/-- The checks behind the predicate, in their order. -/
theorem checkIssue_predTrue (h : predTrue (s.strand t n) p = true) : checkIssue s t n p who srcs dsts =
    if (who = .monitor ∧ t ≠ monitorTile) ∨ ((who = .control ∨ who = .zero) ∧ n.val ≠ 0) then some (.trap .priv 0)
    else if ∃ x ∈ srcs, x.e = true ∧ srcEmpty (s.strand t n) srcs x = true then some (.trap .empty 0)
    else if ∃ x ∈ srcs, srcEmpty (s.strand t n) srcs x = true then some (.wait (emptyWait (s.strand t n) srcs))
    else
      match streamTrap (s.strand t n) srcs dsts with
      | some x => some (.trap x.1 x.2)
      | none =>
        if ∃ d ∈ dsts, (s.strand t n).isEmpty d = true then some (.wait (.regs (dsts.filter (s.strand t n).isEmpty)))
        else
          match fullQ (s.strand t n) dsts with
          | some k => some (.wait (.stream ⟨k.toNat, by omega⟩ 0 true))
          | none => if lateQ (s.tile t) (s.strand t n) dsts then some (.wait .release) else none := by
  simp only [State.strand] at h
  simp only [checkIssue, State.strand, h, List.any_eq_true, Bool.and_eq_true, Bool.not_true, Bool.false_eq_true, if_false]
  rfl

/-- R55 check 8: a right denied. -/
theorem checkIssue_priv (h : predTrue (s.strand t n) p = true)
    (hw : (who = .monitor ∧ t ≠ monitorTile) ∨ ((who = .control ∨ who = .zero) ∧ n.val ≠ 0)) :
    checkIssue s t n p who srcs dsts = some (.trap .priv 0) := by
  rw [checkIssue_predTrue h, if_pos hw]

section
variable (h : predTrue (s.strand t n) p = true) (hm : who = .monitor → t = monitorTile)
  (hz : who = .control ∨ who = .zero → n.val = 0)
include h hm hz

/-- R64: an empty source whose empty bit is 1. -/
theorem checkIssue_empty (he : ∃ x ∈ srcs, x.e = true ∧ srcEmpty (s.strand t n) srcs x = true) :
    checkIssue s t n p who srcs dsts = some (.trap .empty 0) := by
  rw [checkIssue_predTrue h, if_neg (by tauto), if_pos he]

/-- R64: an empty source, none of those that trap. -/
theorem checkIssue_waitSource (he : ∀ x ∈ srcs, x.e = true → ¬ srcEmpty (s.strand t n) srcs x = true)
    (hx : ∃ x ∈ srcs, srcEmpty (s.strand t n) srcs x = true) :
    checkIssue s t n p who srcs dsts = some (.wait (emptyWait (s.strand t n) srcs)) := by
  rw [checkIssue_predTrue h, if_neg (by tauto), if_neg (by simpa using he), if_pos hx]

section
variable (he : ∀ x ∈ srcs, ¬ srcEmpty (s.strand t n) srcs x = true) (hs : streamTrap (s.strand t n) srcs dsts = none)
include he hs

/-- R65: an empty destination register. -/
theorem checkIssue_waitDst (hd : ∃ d ∈ dsts, (s.strand t n).isEmpty d = true) :
    checkIssue s t n p who srcs dsts = some (.wait (.regs (dsts.filter (s.strand t n).isEmpty))) := by
  rw [checkIssue_predTrue h, if_neg (by tauto), if_neg (fun ⟨x, hx, _, hx'⟩ => he x hx hx'),
    if_neg (fun ⟨x, hx, hx'⟩ => he x hx hx'), hs]
  exact if_pos hd

/-- R65, R174: a destination stream that is full. -/
theorem checkIssue_waitFull (hd : ∀ d ∈ dsts, (s.strand t n).isEmpty d = false) {k : BitVec 3}
    (hf : fullQ (s.strand t n) dsts = some k) :
    checkIssue s t n p who srcs dsts = some (.wait (.stream ⟨k.toNat, by omega⟩ 0 true)) := by
  rw [checkIssue_predTrue h, if_neg (by tauto), if_neg (fun ⟨x, hx, _, hx'⟩ => he x hx hx'),
    if_neg (fun ⟨x, hx, hx'⟩ => he x hx hx'), hs]
  simp only [hf, if_neg (show ¬ ∃ d ∈ dsts, (s.strand t n).isEmpty d = true by simpa using hd)]

end
end
end

/-- What a check comes to, the form comes to. -/
theorem exec_of_checkIssue {i : Instr} {p : Pred} {len : Nat} {who : Who} {srcs : List Src} {dsts : List Dst} {s : State}
    {a : Act} (h : Spec.operands i = some (p, len, who, srcs, dsts))
    (hc : checkIssue s s.cur.1 s.cur.2 p who srcs dsts = some a) : exec i s = .next (finishAct s s.cur.1 s.cur.2 len a) := by
  obtain ⟨body, hb⟩ := exec_issued h s
  rw [hb, issue]
  simp only [hc]

/-! ### False predicates (R63) -/

theorem predTrue_eq (S : Strand) (pr : BitVec 3) (pn : Bool) :
    predTrue S ⟨pr, pn⟩ = (if pn then !(pr == 0 || S.p.getLsbD pr.toNat) else (pr == 0 || S.p.getLsbD pr.toNat)) := by
  cases pn <;> simp [predTrue, Strand.rp]

/-- Settles O11: a false predicate ends the checks of every form's issue. -/
theorem predicatedOff : Obligations.PredicatedOff := by
  refine ⟨fun i f s hf hp => ?_, predTrue_eq⟩
  obtain ⟨l, who, srcs, dsts, hl, ho⟩ := operands_of_toFields hf
  exact ⟨l, hl, exec_of_checkIssue ho (checkIssue_predFalse hp)⟩

/-! ### Rights (R55 check 8) -/

/-- Settles O13: the rows of the privileged forms are the monitor's, those of the forms of strand 0 its own. -/
theorem privileges : Obligations.Privileges := by
  refine ⟨fun i p len s h hp hm => ?_, fun i p len s h hp hz => ?_⟩
  · obtain ⟨srcs, dsts, ho⟩ := operands_of_privileged h
    exact exec_of_checkIssue ho (checkIssue_priv hp (.inl ⟨rfl, hm⟩))
  · obtain ⟨srcs, dsts, ho⟩ := operands_of_controlOnly h
    exact exec_of_checkIssue ho (checkIssue_priv hp (.inr ⟨.inl rfl, hz⟩))

/-! ### Empty registers and streams (R64, R65, R174) -/

/-- The names of the empty sources. -/
def emptyNames (S : Strand) (srcs : List Src) : List Dst := (srcs.filter (srcEmpty S srcs)).map Src.dst

/-- An empty source's name is that of an empty register or of a stream. -/
theorem reg_or_stream {S : Strand} {srcs : List Src} {d : Dst} (hd : d ∈ emptyNames S srcs) :
    (S.isEmpty d = true ∧ ∀ k, d ≠ .q k) ∨ ∃ k, d = .q k := by
  obtain ⟨x, hx, rfl⟩ := List.mem_map.1 hd
  have he : srcEmpty S srcs x = true := (List.mem_filter.1 hx).2
  match x with
  | .g r => exact .inl ⟨he, by simp [Src.dst]⟩
  | .w r => exact .inl ⟨he, by simp [Src.dst]⟩
  | .v ⟨.w r, e⟩ => exact .inl ⟨he, by simp [Src.dst]⟩
  | .v ⟨.q k, e⟩ => exact .inr ⟨k, rfl⟩

/-- R64: the strand waits for the empty registers among its sources. -/
theorem emptyWait_regs {S : Strand} {srcs : List Src} (h : (emptyNames S srcs).filter (fun d => S.isEmpty d) ≠ []) :
    emptyWait S srcs = .regs ((emptyNames S srcs).filter (fun d => S.isEmpty d)) := by
  have hregs : (emptyNames S srcs).filter (fun d => S.isEmpty d) =
      (emptyNames S srcs).filter (fun d => match d with | .q _ => false | _ => true) := by
    refine List.filter_congr fun d hd => ?_
    rcases reg_or_stream hd with ⟨he, hk⟩ | ⟨k, rfl⟩
    · rw [he]; cases d with
      | q k => exact absurd rfl (hk k)
      | g r => rfl
      | w r => rfl
      | none => rfl
    · rfl
  rw [hregs] at h ⊢
  unfold emptyWait
  dsimp only
  split
  · next hr _ => exact absurd hr h
  · rfl

/-- R64: where no register is empty, it waits for a stream. -/
theorem emptyWait_stream {S : Strand} {srcs : List Src} (h : (emptyNames S srcs).filter (fun d => S.isEmpty d) = [])
    (hx : ∃ x ∈ srcs, srcEmpty S srcs x = true) :
    ∃ k : Fin 8, emptyWait S srcs = .stream k (qNeed (BitVec.ofFin k) srcs) false := by
  have hstream : ∀ d ∈ emptyNames S srcs, ∃ k, d = .q k := fun d hd =>
    (reg_or_stream hd).resolve_left fun ⟨he, _⟩ => List.filter_eq_nil_iff.1 h d hd he
  obtain ⟨x, hx, he⟩ := hx
  have hmem : x.dst ∈ emptyNames S srcs := List.mem_map_of_mem (List.mem_filter.2 ⟨hx, he⟩)
  obtain ⟨d, ds, hds⟩ := List.exists_cons_of_ne_nil (List.ne_nil_of_mem hmem)
  obtain ⟨k, rfl⟩ := hstream d (hds ▸ List.mem_cons_self)
  unfold emptyWait
  dsimp only
  split
  · next k _ _ _ => exact ⟨k.toFin, rfl⟩
  · next hno =>
    refine (hno k ds (List.filter_eq_nil_iff.2 fun d hd => ?_) hds).elim
    obtain ⟨k, rfl⟩ := hstream d hd
    simp

/-- A stream among the sources is empty while it holds fewer pieces than the form takes and will still give them (R64, R174). -/
theorem srcEmpty_q (S : Strand) (srcs : List Src) (k : Fin 8) (e : Bool) :
    srcEmpty S srcs (.v ⟨.q (BitVec.ofFin k), e⟩) = true ↔
      S.q[k].have_.length < qNeed (BitVec.ofFin k) srcs ∧ S.q[k].valid = true ∧ S.q[k].out = false ∧ S.q[k].stopped = false ∧
        S.q[k].next + qNeed (BitVec.ofFin k) srcs ≤ recPieces S.q[k].rcd := by
  simp only [srcEmpty, qGives, Bool.and_eq_true, Bool.not_eq_true', decide_eq_true_eq, BitVec.toNat_ofFin]
  tauto

theorem fullQ_single {S : Strand} {k : Fin 8} (h : 4 ≤ S.q[k].pend.length) :
    fullQ S [.q (BitVec.ofFin k)] = some (BitVec.ofFin k) := by
  simpa [fullQ] using h

/-- Settles O12: the checks behind the predicate and the right, one by one. -/
theorem emptyRegisters : Obligations.EmptyRegisters := by
  refine ⟨operands_isSome, fun i p len who srcs dsts s ho hp hm hz => ?_,
    fun S srcs r w e v k => ⟨rfl, rfl, rfl, srcEmpty_q S srcs k e⟩⟩
  refine ⟨fun he => exec_of_checkIssue ho (checkIssue_empty hp hm hz he), fun he hx => ⟨fun hr => ?_, fun hr => ?_⟩,
    fun he hs => ⟨fun ds hds hne => ?_, fun hd k hk hf => ?_⟩⟩
  · change exec i s = .next (finishAct s s.cur.1 s.cur.2 len (.wait (.regs ((emptyNames (self s) srcs).filter _))))
    rw [← emptyWait_regs hr]
    exact exec_of_checkIssue ho (checkIssue_waitSource hp hm hz he hx)
  · obtain ⟨k, hk⟩ := emptyWait_stream hr hx
    change ∃ k, exec i s = .next (finishAct s s.cur.1 s.cur.2 len (.wait (.stream k _ false)))
    exact ⟨k, hk ▸ exec_of_checkIssue ho (checkIssue_waitSource hp hm hz he hx)⟩
  · subst hds
    have hd : ∃ d ∈ dsts, (self s).isEmpty d = true := by simpa using hne
    exact exec_of_checkIssue ho (checkIssue_waitDst hp hm hz he hs hd)
  · subst hk
    exact exec_of_checkIssue ho (checkIssue_waitFull hp hm hz he hs hd (fullQ_single hf))

end Sys2Proof.Laws

/-! SUPPORT, O1 and O9. The registers of the strand that issues (R58), and a step that issues an instruction (R54, R86). -/

namespace Sys2Proof.Laws

open Sys2Proof Sys2Proof.Machine

/-! ### Registers of the strand that issues (R58) -/

/-- A change of the strand that issues leaves every other tile as it was. -/
theorem tile_modStrand_of_ne (s : State) {t u : TileId} (n : StrandNo) (f : Strand → Strand) (h : u ≠ t) :
    (s.modStrand t n f).tile u = s.tile u := by
  rw [tile_modStrand, if_neg h]

/-- Settles O1: a write to a register changes the strand's registers, and of them one. -/
theorem registerFile : Obligations.RegisterFile := by
  intro s d k v
  refine ⟨?_, fun t ht => tile_modStrand_of_ne s _ _ ht, fun t => mem_modStrand .., fun n hn => ?_, rfl, rfl⟩
  · have hself : self (putG s d v) = (self s).wg d v := strand_modStrand_self ..
    rw [hself, rg_wg]
  · exact strand_modStrand_of_ne s _ (.inr hn)

/-! ### A step that issues an instruction (R54, R86) -/

/-- With no step of the hardware due, a step is the cycle's next instruction or its end. -/
theorem step_of_quiet {s : State} (h : Spec.quiet s) : step s = cycleStep s := by
  unfold step
  split
  · rfl
  next e r hag => rw [if_neg]; have := h e (by simp [hag]); omega

theorem cycleStep_of_nextIssue {s : State} {t : TileId} {n : StrandNo} (h : nextIssue s = some (t, n)) :
    cycleStep s = issueStep s t n := by
  rw [cycleStep, h]

/-- A read of sound words gives their value. -/
theorem eccRead_of_sound {s : State} {t : TileId} (h : (s.tile t).errs = []) (fresh : Bool) (a len : Nat) :
    eccRead s t fresh a len = (s, true) := by
  simp [eccRead, h]

/-- A fetch below XB, outside a range being loaded and of sound words, runs what the bytes decode to (R54, R88, R89). -/
theorem fetchAt_run {s : State} {t : TileId} {pc : BitVec 21} {i : Instr} {len : Nat} (hx : pc.toNat < xbOf s t)
    (h4 : pc.toNat % 4 = 0) (h28 : pc.toNat % 32 ≠ 28)
    (hovl : ∀ o ∈ (s.tile t).ovls, pc.toNat < o.base ∨ o.base + o.len ≤ pc.toNat) (herr : (s.tile t).errs = [])
    (hdec : decode ((s.tile t).mem.bytes pc.toNat (if 32 - pc.toNat % 32 < 16 then 32 - pc.toNat % 32 else 16)) = .ok (i, len)) :
    fetchAt s t pc = .run i s := by
  have hload : ((s.tile t).ovls.any fun o => decide (o.base ≤ pc.toNat ∧ pc.toNat < o.base + o.len)) = false := by
    rw [List.any_eq_false]
    intro o ho
    have := hovl o ho
    simp only [decide_eq_true_eq]
    omega
  simp only [fetchAt, hload, hdec, eccRead_of_sound herr, if_neg (show ¬ xbOf s t ≤ pc.toNat by omega),
    if_neg (show ¬ (pc.toNat % 4 ≠ 0 ∨ pc.toNat % 32 = 28) by omega), Bool.false_eq_true, if_false, if_true]

/-- Settles O9: with nothing due the step is an issue, whose fetch succeeds. -/
theorem stepRunsDecoded : Obligations.StepRunsDecoded := by
  intro s t n i len hq hn pc hx h4 h28 hovl herr hdec
  have hfetch : fetchAt (beginIssue s t n) t ((beginIssue s t n).strand t n).pc = .run i (beginIssue s t n) :=
    fetchAt_run hx h4 h28 hovl herr hdec
  rw [step_of_quiet hq, cycleStep_of_nextIssue hn, issueStep]
  simp only [hfetch]
  rfl

end Sys2Proof.Laws

/-! SUPPORT and O2. Control flow (R54, R103, Table 5.6): targets as numbers, and each form where its checks pass. -/

namespace Sys2Proof.Laws

open Sys2Proof Sys2Proof.Machine

/-! ### Targets (R103) -/

/-- The low bits of a number do not depend on the width that it was taken at. -/
theorem setWidth_ofInt {w v : Nat} (h : w ≤ v) (z : Int) : (BitVec.ofInt v z).setWidth w = BitVec.ofInt w z := by
  apply BitVec.eq_of_toNat_eq
  have hdvd : (2 ^ w : Int) ∣ 2 ^ v := pow_dvd_pow 2 h
  have hv : (0 : Int) ≤ z % 2 ^ v := Int.emod_nonneg _ (by positivity)
  have hw : (0 : Int) ≤ z % 2 ^ w := Int.emod_nonneg _ (by positivity)
  rw [BitVec.toNat_setWidth, BitVec.toNat_ofInt, BitVec.toNat_ofInt]
  push_cast
  zify
  rw [Int.toNat_of_nonneg hv, Int.toNat_of_nonneg hw, Int.emod_emod_of_dvd _ hdvd]

/-- The target of a branch is PC + 4 * IMM26, modulo 2^21. -/
theorem branchTarget_eq (pc : BitVec 21) (imm : BitVec 26) : branchTarget pc imm = BitVec.ofInt 21 (pc.toNat + 4 * imm.toInt) := by
  have hoff : imm.signExtend 64 <<< (2 : Nat) = BitVec.ofInt 64 (4 * imm.toInt) := by
    rw [BitVec.shiftLeft_eq_mul_twoPow, mul_comm, BitVec.ofInt_mul]; rfl
  rw [branchTarget, hoff, setWidth_ofInt (by decide), BitVec.ofInt_add, BitVec.ofInt_natCast, BitVec.ofNat_toNat,
    BitVec.setWidth_eq]

/-- The target of a jump is g[A] + IMM26, modulo 2^21. -/
theorem jumpTarget_eq (a : Word) (imm : BitVec 26) : (a + imm.signExtend 64).setWidth 21 = BitVec.ofInt 21 (a.toNat + imm.toInt) := by
  have ha : a + imm.signExtend 64 = BitVec.ofInt 64 (a.toNat + imm.toInt) := by
    rw [BitVec.ofInt_add, BitVec.ofInt_natCast, BitVec.ofNat_toNat, BitVec.setWidth_eq]; rfl
  rw [ha, setWidth_ofInt (by decide)]

/-- A jump to a register's value alone. -/
theorem jumpTarget_zero (a : Word) : (a + (0 : BitVec 26).signExtend 64).setWidth 21 = a.setWidth 21 := by simp

/-- A helper is live exactly when a strand other than 0 is (R93). -/
theorem helperLive_iff (T : Tile) : helperLive T = true ↔ ∃ n : StrandNo, n.val ≠ 0 ∧ liveSt T.strands[n.val].st = true := by
  simp only [helperLive, List.any_eq_true, List.mem_iff_getElem]
  constructor
  · rintro ⟨S, ⟨i, hi, rfl⟩, hS⟩
    simp only [List.length_drop, Vector.length_toList] at hi
    exact ⟨⟨i + 1, by omega⟩, by simp, by simpa [Nat.add_comm] using hS⟩
  · rintro ⟨n, hn, hS⟩
    refine ⟨_, ⟨n.val - 1, by simp; omega, rfl⟩, ?_⟩
    simpa [Nat.sub_add_cancel (Nat.pos_of_ne_zero hn)] using hS

theorem liveSt_iff (x : StrandSt) : liveSt x = true ↔ x ∈ [StrandSt.started, .ready, .waiting] := by cases x <;> decide

/-! ### The forms (Table 5.6) -/

section
variable {s : State} {p : Pred}

/-- A jump to a register, behind a change of the strand. -/
theorem finishAct_jumpAct (s' : State) (a : Word) (imm : BitVec 26) :
    (.next (finishAct s s.cur.1 s.cur.2 8 (jumpAct s' a imm)) : Host.Outcome State Fault Refusal) =
      if a.toNat < 2 ^ 21 then .next (wentTo s s' ((a + imm.signExtend 64).setWidth 21)) else .next (trapTaken s 8 .prot 0) := by
  unfold jumpAct
  split
  · rw [finishAct_goto]
  · rw [finishAct_trap]

theorem jmp_next {a : GSrc} (imm : BitVec 26) (h : Ready s p .any [.g a] []) : exec (.jmp p a imm) s =
    if (gOf s a).toNat < 2 ^ 21 then .next (wentTo s s (BitVec.ofInt 21 ((gOf s a).toNat + imm.toInt)))
    else .next (trapTaken s 8 .prot 0) := by
  rw [← jumpTarget_eq, exec_jmp, execJmp, issue_ready h, finishAct_jumpAct]; rfl

theorem callR_next {d : BitVec 5} {a : GSrc} (h : Ready s p .any [.g a] [.g d]) : exec (.callR p d a) s =
    if (gOf s a).toNat < 2 ^ 21 then
      .next (wentTo s (putG s d ((successor (self s).pc 8).setWidth 64)) ((gOf s a).setWidth 21))
    else .next (trapTaken s 8 .prot 0) := by
  rw [← jumpTarget_zero, exec_callR, execCallR, issue_ready h, finishAct_jumpAct]; rfl

theorem ret_next {a : GSrc} (h : Ready s p .any [.g a] []) : exec (.ret p a) s =
    if (gOf s a).toNat < 2 ^ 21 then .next (wentTo s s ((gOf s a).setWidth 21)) else .next (trapTaken s 8 .prot 0) := by
  rw [← jumpTarget_zero, exec_ret, execRet, issue_ready h, finishAct_jumpAct]; rfl

theorem br_next (imm : BitVec 26) (h : Ready s p .any [] []) :
    exec (.br p imm) s = .next (wentTo s s (BitVec.ofInt 21 ((self s).pc.toNat + 4 * imm.toInt))) := by
  rw [← branchTarget_eq, exec_br, execBr, issue_ready h]; rfl

theorem call_next {d : BitVec 5} (imm : BitVec 26) (h : Ready s p .any [] [.g d]) : exec (.call p d imm) s =
    .next (wentTo s (putG s d ((successor (self s).pc 8).setWidth 64)) (BitVec.ofInt 21 ((self s).pc.toNat + 4 * imm.toInt))) := by
  rw [← branchTarget_eq, exec_call, execCall, issue_ready h]; rfl

/-- R103: g0 traps; a register that reaches zero lets the strand go on. -/
theorem loop_next {d : BitVec 5} (imm : BitVec 26) (h : Ready s p .any [] [.g d]) : exec (.loop p d imm) s =
    let v := (self s).rg d - 1
    if d = 0 then .next (trapTaken s 8 .illegal 0)
    else if v = 0 then .next (retired s (putG s d v) 8)
    else .next (wentTo s (putG s d v) (BitVec.ofInt 21 ((self s).pc.toNat + 4 * imm.toInt))) := by
  rw [← branchTarget_eq, exec_loop, execLoop, issue_ready h]
  dsimp only
  split
  · rw [finishAct_trap]
  · change Host.Outcome.next (finishAct s s.cur.1 s.cur.2 8 (if (self s).rg d - 1 = 0 then _ else _)) = _
    split
    · rw [finishAct_done]; rfl
    · rw [finishAct_goto]; rfl

/-- Table 5.1: strand 0 does not halt before its helpers. -/
theorem halt_next (h : Ready s p .any [] []) : exec (.halt p) s =
    if s.cur.2.val = 0 ∧ ∃ n : StrandNo, n.val ≠ 0 ∧ (s.strand s.cur.1 n).st ∈ [.started, .ready, .waiting] then
      .next (trapTaken s 8 .haltlive 0)
    else .next (retired s (modSelf s (fun S => { S with st := .halted, wait := .idle })) 8) := by
  have hiff : helperLive (s.tile s.cur.1) = true ↔
      ∃ n : StrandNo, n.val ≠ 0 ∧ (s.strand s.cur.1 n).st ∈ [.started, .ready, .waiting] := by
    simp only [← liveSt_iff]; exact helperLive_iff _
  rw [exec_halt, execHalt, issue_ready h]
  simp only [hiff]
  split
  · rw [finishAct_trap]
  · rw [finishAct_done]; rfl

end

/-- Settles O2, form by form: where the checks pass, its body is the form's effect. -/
theorem controlFlow : Obligations.ControlFlow :=
  ⟨fun p s h => (exec_nop p s).trans (issue_ready h), fun _ imm _ => br_next imm, fun _ _ imm _ => jmp_next imm,
    fun _ _ imm _ => call_next imm, fun _ _ _ _ => callR_next, fun _ _ _ => ret_next, fun _ _ imm _ => loop_next imm,
    fun _ _ => halt_next, fun p s h => (exec_yield p s).trans (issue_ready h)⟩

end Sys2Proof.Laws

/-! SUPPORT and O37. Predicates, carries, counts, bit fields and tile addresses (R63, R100 to R102): the model's functions in
the words of bit vectors, and each form where its checks pass. -/

namespace Sys2Proof.Laws

open Sys2Proof Sys2Proof.Machine

/-! ### Conditions (R101) -/

theorem compare_eq (c : BitVec 4) (x y : Word) : Spec.compare c x y = cmpCond c x y := by
  unfold Spec.compare cmpCond
  generalize c.toNat = k
  match k with
  | 0 => rfl
  | 1 => exact (decide_not ..).trans rfl
  | 2 | 3 | 4 | 5 => simp [BitVec.slt_eq_decide, ← decide_not]
  | 6 | 7 | 8 => simp [BitVec.ult_eq_decide, ← decide_not]
  | k + 9 => simp [BitVec.ult_eq_decide]

theorem truth_eq (tt : BitVec 4) (a b : Bool) : truth tt a b = tt.getLsbD (2 * a.toNat + b.toNat) := by
  cases a <;> cases b <;> rfl

/-! ### Numbers of a width (R33, R99, R100) -/

/-- The bits of a number read at a width, extended to a word. -/
theorem ofInt_readInt (sg : Bool) (w x : Nat) : BitVec.ofInt 64 (readInt sg w x) =
    if sg then (BitVec.ofNat w x).signExtend 64 else (BitVec.ofNat w x).setWidth 64 := by
  have hx : readInt sg w x = readInt sg w (BitVec.ofNat w x).toNat := by simp [readInt]
  rw [hx, readInt_toNat]
  cases sg
  · exact (BitVec.ofInt_natCast ..).trans (BitVec.ofNat_toNat ..)
  · rfl

/-- The signedness of a width code (R61). -/
theorem signed_eq (wd : BitVec 3) : decide (4 ≤ wd.toNat) = wd.getLsbD 2 := by revert wd; decide

/-! ### Counts (R101) -/

theorem clz64_spec (x : Word) : clz64 x ≤ 64 ∧ (∀ i, i < clz64 x → x.getLsbD (63 - i) = false) ∧
    (clz64 x < 64 → x.getLsbD (63 - clz64 x) = true) := by
  unfold clz64
  split
  next h => simp [h]
  next h =>
    have hx : x.toNat ≠ 0 := fun e => h (BitVec.eq_of_toNat_eq e)
    have hlow := Nat.log2_self_le hx
    have hhigh := @Nat.lt_log2_self x.toNat
    have h63 : x.toNat.log2 ≤ 63 := by have := (Nat.log2_lt hx).2 x.isLt; omega
    refine ⟨by omega, fun i hi => ?_, fun _ => ?_⟩
    · exact Nat.testBit_lt_two_pow (hhigh.trans_le (Nat.pow_le_pow_right (by decide) (by omega)))
    · rw [show 63 - (63 - x.toNat.log2) = x.toNat.log2 by omega]
      have hone : x.toNat / 2 ^ x.toNat.log2 = 1 := by
        rw [pow_succ] at hhigh
        exact (Nat.div_eq_iff (Nat.two_pow_pos _)).2 (by omega)
      rw [BitVec.getLsbD, Nat.testBit_eq_decide_div_mod_eq, hone]; rfl

theorem ctz64_spec (x : Word) : ctz64 x ≤ 64 ∧ (∀ i, i < ctz64 x → x.getLsbD i = false) ∧
    (ctz64 x < 64 → x.getLsbD (ctz64 x) = true) := by
  unfold ctz64
  cases h : (List.range 64).find? (fun i => x.getLsbD i) with
  | none =>
    rw [List.find?_range_eq_none] at h
    exact ⟨le_rfl, fun i hi => by simpa using h i hi, fun hlt => absurd hlt (lt_irrefl _)⟩
  | some k =>
    obtain ⟨hk, hmem, hlow⟩ := List.find?_range_eq_some.1 h
    have := List.mem_range.1 hmem
    exact ⟨by simp; omega, fun i hi => by simpa using hlow i hi, fun _ => hk⟩

theorem popc64_eq (x : Word) : popc64 x = (List.range 64).countP (fun i => x.getLsbD i) := List.countP_eq_length_filter.symm

/-! ### Bit fields (R101) -/

theorem extBits_eq (sx : Bool) (x : Word) (pos len : Nat) : extBits sx x pos len =
    if sx then (x.extractLsb' pos len).signExtend 64 else (x.extractLsb' pos len).setWidth 64 := by
  rw [extBits, ofInt_readInt, ← Nat.shiftRight_eq_div_pow]; rfl

theorem insBits_bit (old x : Word) {pos len i : Nat} (hi : i < 64) : (insBits old x pos len).getLsbD i =
    if pos ≤ i ∧ i < pos + len then x.getLsbD (i - pos) else old.getLsbD i := by
  have hmask : (BitVec.ofNat 64 ((2 ^ len - 1) * 2 ^ pos)).getLsbD i = decide (pos ≤ i ∧ i < pos + len) := by
    rw [BitVec.getLsbD_ofNat, Nat.testBit_mul_two_pow, Nat.testBit_two_pow_sub_one]
    simp only [hi, decide_true, Bool.true_and, ← Bool.decide_and, decide_eq_decide]
    omega
  have hfield : (BitVec.ofNat 64 (x.toNat * 2 ^ pos)).getLsbD i = (decide (pos ≤ i) && x.getLsbD (i - pos)) := by
    rw [BitVec.getLsbD_ofNat, Nat.testBit_mul_two_pow, decide_eq_true hi]
    rfl
  simp only [insBits, BitVec.getLsbD_or, BitVec.getLsbD_and, BitVec.getLsbD_not, hmask, hfield, hi, decide_true, Bool.true_and]
  by_cases h : pos ≤ i ∧ i < pos + len
  · simp [h]
  · simp [h]

/-! ### Addresses (R101, R102) -/

theorem shiftLeft_eq_mul (x : Word) (k : Nat) : x <<< k = x * BitVec.ofNat 64 (2 ^ k) := by
  rw [BitVec.shiftLeft_eq_mul_twoPow]
  congr 1
  exact BitVec.eq_of_toNat_eq (by rw [BitVec.toNat_twoPow, BitVec.toNat_ofNat])

theorem gtaOf_eq (idx : BitVec 20) (ofs : Word) : gtaOf idx ofs = BitVec.ofNat 64 (idx.toNat * 2 ^ 44 + ofs.toNat % 2 ^ 21) := by
  have hlow : ofs.toNat % 2 ^ 21 < 2 ^ 44 := by omega
  apply BitVec.eq_of_toNat_eq
  have hmask : (ofs &&& 0x1FFFFF).toNat = ofs.toNat % 2 ^ 21 := by
    rw [BitVec.toNat_and]; exact Nat.and_two_pow_sub_one_eq_mod ofs.toNat 21
  have hidx : (idx.setWidth 64 <<< (44 : Nat)).toNat = idx.toNat <<< 44 := by
    have := idx.isLt
    simp only [BitVec.toNat_shiftLeft, BitVec.toNat_setWidth, Nat.shiftLeft_eq]
    omega
  rw [gtaOf, BitVec.toNat_or, hidx, hmask, ← Nat.shiftLeft_add_eq_or_of_lt hlow, BitVec.toNat_ofNat, Nat.shiftLeft_eq]
  have := idx.isLt
  omega

theorem toNat_gtaRelIdx (v : BitVec 20) (drow dcol : BitVec 5) : (gtaRelIdx v drow dcol).toNat =
    v.toNat / 1024 * 1024 + (v.toNat / 32 % 32 + drow.toNat) % 32 * 32 + (v.toNat % 32 + dcol.toNat) % 32 := by
  have hv := v.isLt
  simp only [gtaRelIdx, BitVec.toNat_append, BitVec.toNat_add, BitVec.extractLsb'_toNat, Nat.shiftRight_eq_div_pow]
  rw [← Nat.shiftLeft_add_eq_or_of_lt (by omega), ← Nat.shiftLeft_add_eq_or_of_lt (by omega)]
  simp only [Nat.shiftLeft_eq]
  omega

/-! ### The forms -/

section
variable {s : State} {p : Pred}

/-- A predicate after a write to one (R63). -/
theorem rp_putP (d k : BitVec 3) (b : Bool) :
    (self (putP s d b)).rp k = if k = 0 then true else if k = d then b else (self s).rp k := by
  have hself : self (putP s d b) = (self s).wp d b := strand_modStrand_self ..
  rw [hself, rp_wp]

theorem predicateForms : Spec.PredicateForms := by
  refine ⟨fun p cond d a b imm s h => ?_, fun p tt d a b s h => ?_, fun p d a b c neg s h => ?_, fun s d k b => rp_putP d k b⟩
  · rw [compare_eq]; exact (exec_cmp ..).trans (issue_ready h)
  · rw [← truth_eq]; exact (exec_plog ..).trans (issue_ready h)
  · exact (exec_sel ..).trans (issue_ready h)

/-- A form with one g source where its checks pass. -/
theorem unaryG_next (f : Word → Word) {d : BitVec 5} {a : GSrc} (h : Ready s p .any [.g a] [.g d]) :
    unaryG f p d a s = .next (retired s (putG s d (f (gOf s a))) 8) := issue_ready h

/-- `addc` at a width that is that of its code (R100). -/
theorem addc_next {wd : BitVec 3} {d : BitVec 5} {a b : GSrc} {pc : BitVec 3} {w : Nat} (hw : 8 * widthBytes wd = w)
    (h : Ready s p .any [.g a, .g b] [.g d]) :
    let sum := (gOf s a).toNat % 2 ^ w + (gOf s b).toNat % 2 ^ w + (if pc ≠ 0 ∧ (self s).rp pc = true then 1 else 0)
    let r := BitVec.ofNat w sum
    exec (.addc p wd d a b pc) s =
      .next (retired s (putP (putG s d (if wd.getLsbD 2 then r.signExtend 64 else r.setWidth 64)) pc (decide (2 ^ w ≤ sum))) 8) := by
  subst hw
  dsimp only
  rw [← signed_eq, ← ofInt_readInt]
  exact (exec_addc ..).trans (issue_ready h)

theorem addWithCarry : Spec.AddWithCarry := by
  intro p wd d a b pc s h
  exact addc_next (by revert wd; decide) h

/-- `ext` where its checks pass. -/
theorem ext_next {d : BitVec 5} {a : GSrc} (sx : Bool) (pos : BitVec 6) (len : BitVec 7) (h : Ready s p .any [.g a] [.g d]) :
    exec (.ext p sx d a pos len) s =
      if 1 ≤ len.toNat ∧ len.toNat ≤ 64 ∧ pos.toNat + len.toNat ≤ 64 then
        .next (retired s (putG s d (extBits sx (gOf s a) pos.toNat len.toNat)) 8)
      else .next (trapTaken s 8 .illegal 0) := by
  rw [exec_ext, execExt, issue_ready h]
  simp only [rangeOk, decide_eq_true_eq]
  split
  · rw [finishAct_done]; rfl
  · rw [finishAct_trap]

/-- `ins` where its checks pass. -/
theorem ins_next {d : BitVec 5} {a : GSrc} (pos : BitVec 6) (len : BitVec 7) (h : Ready s p .any [.g a] [.g d]) :
    exec (.ins p d a pos len) s =
      if 1 ≤ len.toNat ∧ len.toNat ≤ 64 ∧ pos.toNat + len.toNat ≤ 64 then
        .next (retired s (putG s d (insBits ((self s).rg d) (gOf s a) pos.toNat len.toNat)) 8)
      else .next (trapTaken s 8 .illegal 0) := by
  rw [exec_ins, execIns, issue_ready h]
  simp only [rangeOk, decide_eq_true_eq]
  split
  · rw [finishAct_done]; rfl
  · rw [finishAct_trap]

end

theorem bitAndAddressForms : Spec.BitAndAddressForms := by
  refine ⟨fun p d a s h => ?_, fun p d a s h => ?_, fun p d a s h => ?_, fun p sx d a pos len s h => ?_,
    fun p d a pos len s h => ?_, fun p d v s h => ?_, fun p sc d a b imm s h => ?_, fun p d a b s h => ?_,
    fun p d b drow dcol s h => ?_⟩
  · obtain ⟨hle, hzero, hone⟩ := clz64_spec (gOf s a)
    exact ⟨_, hle, hzero, hone, (exec_bitcClz ..).trans (unaryG_next (fun x => BitVec.ofNat 64 (clz64 x)) h)⟩
  · obtain ⟨hle, hzero, hone⟩ := ctz64_spec (gOf s a)
    exact ⟨_, hle, hzero, hone, (exec_bitcCtz ..).trans (unaryG_next (fun x => BitVec.ofNat 64 (ctz64 x)) h)⟩
  · rw [← popc64_eq]; exact (exec_bitcPopc ..).trans (unaryG_next (fun x => BitVec.ofNat 64 (popc64 x)) h)
  · rw [ext_next sx pos len h, extBits_eq]
  · rw [ins_next pos len h]
    split
    · exact ⟨_, fun i hi => insBits_bit _ _ hi, rfl⟩
    · rfl
  · exact (exec_li ..).trans (issue_ready h)
  · rw [← shiftLeft_eq_mul]; exact (exec_lea ..).trans (issue_ready h)
  · rw [← BitVec.toNat_setWidth, ← gtaOf_eq]; exact (exec_gtaIdx ..).trans (issue_ready h)
  · dsimp only
    rw [← toNat_gtaRelIdx, ← gtaOf_eq]; exact (exec_gtaRel ..).trans (issue_ready h)

/-- Settles O37: each form is issued as its row says, and its function is the one that the statement names. -/
theorem predicateAndBitForms : Obligations.PredicateAndBitForms := ⟨predicateForms, addWithCarry, bitAndAddressForms⟩

end Sys2Proof.Laws

/-! SUPPORT and O32. What a scalar form leaves (R58, R61, R95, R99 to R104): the frame `Spec.Keeps` is kept by the updates that
scalar forms are made of, and so by the ends of an instruction and by its traps. -/

namespace Sys2Proof.Laws

open Sys2Proof Sys2Proof.Machine

/-! ### Registers of a strand -/

/-- What a change of a strand leaves that writes no more than the named g and p registers. -/
structure RegsKept (gs : List (BitVec 5)) (ps : List (BitVec 3)) (S S' : Strand) : Prop where
  g : ∀ r, r ∉ gs → S'.rg r = S.rg r ∧ S'.isEmpty (.g r) = S.isEmpty (.g r)
  w : ∀ r, S'.rw r = S.rw r ∧ S'.isEmpty (.w r) = S.isEmpty (.w r)
  p : ∀ r, r ∉ ps → S'.rp r = S.rp r
  q : S'.q = S.q

/-- The trap registers of a strand. -/
def TrapRegsKept (S S' : Strand) : Prop := S'.tcause = S.tcause ∧ S'.trappc = S.trappc

section
variable {gs : List (BitVec 5)} {ps : List (BitVec 3)} {S S' S'' : Strand}

/-- A change of a strand beside its registers. -/
theorem regsKept_of_eq (hg : S'.g = S.g) (hgE : S'.gE = S.gE) (hw : S'.w = S.w) (hwE : S'.wE = S.wE) (hp : S'.p = S.p)
    (hq : S'.q = S.q) : RegsKept gs ps S S' where
  g r _ := by simp only [Strand.rg, Strand.isEmpty, hg, hgE, and_self]
  w r := by simp only [Strand.rw, Strand.isEmpty, hw, hwE, and_self]
  p r _ := by simp only [Strand.rp, hp]
  q := hq

theorem regsKept_wg {d : BitVec 5} (hd : d ∈ gs) (v : Word) : RegsKept gs ps S (S.wg d v) where
  g r hr := by
    have hne : r ≠ d := fun e => hr (e ▸ hd)
    refine ⟨?_, ?_⟩
    · rw [rg_wg, if_neg hne]; split
      next h0 => rw [h0]; rfl
      next => rfl
    · unfold Strand.wg; split <;> rfl
  w r := by unfold Strand.wg; split <;> exact ⟨rfl, rfl⟩
  p r _ := wg_rp ..
  q := by unfold Strand.wg; split <;> rfl

theorem regsKept_wp {d : BitVec 3} (hd : d ∈ ps) (b : Bool) : RegsKept gs ps S (S.wp d b) where
  g r _ := by unfold Strand.wp; split <;> exact ⟨rfl, rfl⟩
  w r := by unfold Strand.wp; split <;> exact ⟨rfl, rfl⟩
  p r hr := by
    have hne : r ≠ d := fun e => hr (e ▸ hd)
    rw [rp_wp, if_neg hne]; split
    next h0 => rw [h0]; rfl
    next => rfl
  q := by unfold Strand.wp; split <;> rfl

theorem regsKept_markEmpty {d : BitVec 5} (hd : d ∈ gs) : RegsKept gs ps S (S.markEmpty (.g d)) where
  g r hr := by
    have hne : r.toNat ≠ d.toNat := fun e => hr (BitVec.eq_of_toNat_eq e ▸ hd)
    unfold Strand.markEmpty
    dsimp only
    split
    · exact ⟨rfl, rfl⟩
    · refine ⟨rfl, ?_⟩
      have hbit : ((1 : BitVec 32) <<< d.toNat).getLsbD r.toNat = false := by
        simp only [BitVec.getLsbD_shiftLeft, BitVec.ofNat_eq_ofNat, BitVec.getLsbD_one]
        simp; omega
      simp only [Strand.isEmpty, BitVec.getLsbD_or, hbit, Bool.or_false]
  w r := by unfold Strand.markEmpty; dsimp only; split <;> exact ⟨rfl, rfl⟩
  p r _ := by unfold Strand.markEmpty; dsimp only; split <;> rfl
  q := by unfold Strand.markEmpty; dsimp only; split <;> rfl

end

/-! ### The frame through updates -/

section
variable {s a : State} {gs : List (BitVec 5)} {ps : List (BitVec 3)}

/-- The frame of an instruction that did not trap. -/
structure Kept (s : State) (gs : List (BitVec 5)) (ps : List (BitVec 3)) (a : State) : Prop where
  keeps : Spec.Keeps s a gs [] ps []
  trapRegs : TrapRegsKept (self s) (self a)

theorem kept_refl : Kept s gs ps s where
  keeps :=
    { machine := rfl, others := fun _ _ => rfl, memory := fun _ _ => rfl, tile := rfl, counters := fun _ => rfl
      strands := fun _ _ => rfl, g := fun _ _ => ⟨rfl, rfl⟩, w := fun _ _ => ⟨rfl, rfl⟩, p := fun _ _ => rfl
      q := fun _ _ => rfl, trap := .inl ⟨rfl, rfl⟩ }
  trapRegs := ⟨rfl, rfl⟩

theorem Keeps.cur (h : Spec.Keeps s a gs [] ps []) : a.cur = s.cur := by
  have := congrArg State.cur h.machine; exact this

/-- A step put into the agenda. -/
theorem Keeps.post (h : Spec.Keeps s a gs [] ps []) (d : Nat) (e : Ev) : Spec.Keeps s (a.post d e) gs [] ps [] :=
  { h with machine := h.machine }

/-- A change of the tile that issues, in its strands, its causes to vote or what an issue notes. -/
theorem Keeps.modTile (h : Spec.Keeps s a gs [] ps []) {f : Tile → Tile} (hmem : (f (here a)).mem = (here a).mem)
    (hbare : Spec.bare (f (here a)) = Spec.bare (here a)) (hc : (f (here a)).v.c = (here a).v.c)
    (hothers : ∀ n : StrandNo, n ≠ s.cur.2 → (f (here a)).strands[n.val] = (here a).strands[n.val])
    (hr : RegsKept gs ps (self a) (f (here a)).strands[s.cur.2.val])
    (ht : TrapRegsKept (self s) (f (here a)).strands[s.cur.2.val] ∨ (f (here a)).strands[s.cur.2.val].inHandler = true ∨
      (f (here a)).strands[s.cur.2.val].st = .trapped) :
    Spec.Keeps s (a.modTile s.cur.1 f) gs [] ps [] := by
  have hcur := Keeps.cur h
  have hhere : here (a.modTile s.cur.1 f) = f (here a) := by
    simp only [here, modTile_cur, hcur, tile_modTile_self]
  have hself : self (a.modTile s.cur.1 f) = (f (here a)).strands[s.cur.2.val] := by
    simp only [self, here, State.strand, modTile_cur, hcur, tile_modTile_self]
  refine ⟨h.machine, fun t ht => ?_, fun t x => ?_, ?_, fun hq => ?_, fun n hn => ?_, fun r hrg => ?_, fun r _ => ?_,
    fun r hrp => ?_, fun k _ => ?_, ?_⟩
  · rw [tile_modTile_of_ne _ _ ht, h.others t ht]
  · rw [← h.memory t x, tile_modTile]
    split
    next ht => rw [ht]; simp only [here, hcur] at hmem; rw [hmem]
    next => rfl
  · rw [hhere, hbare, h.tile]
  · rw [hhere, hc, h.counters hq]
  · rw [← h.strands n hn]
    have := hothers n hn
    simp only [here, hcur] at this
    simp only [State.strand, tile_modTile_self, this]
  · rw [hself]; exact ⟨(hr.g r hrg).1.trans (h.g r hrg).1, (hr.g r hrg).2.trans (h.g r hrg).2⟩
  · rw [hself]; exact ⟨(hr.w r).1.trans (h.w r (by simp)).1, (hr.w r).2.trans (h.w r (by simp)).2⟩
  · rw [hself]; exact (hr.p r hrp).trans (h.p r hrp)
  · rw [hself, hr.q]; exact h.q k (by simp)
  · rw [hself]; exact ht

/-- A change of the tile beside its strands. -/
theorem Keeps.modTileRest (h : Spec.Keeps s a gs [] ps []) {f : Tile → Tile} (hmem : (f (here a)).mem = (here a).mem)
    (hbare : Spec.bare (f (here a)) = Spec.bare (here a)) (hc : (f (here a)).v.c = (here a).v.c)
    (hstr : (f (here a)).strands = (here a).strands) : Spec.Keeps s (a.modTile s.cur.1 f) gs [] ps [] := by
  have hself : (f (here a)).strands[s.cur.2.val] = self a := by
    rw [hstr]; simp only [self, State.strand, here, Keeps.cur h]
  refine Keeps.modTile h hmem hbare hc (fun n _ => by simp only [hstr]) ?_ ?_
  · rw [hself]; exact regsKept_of_eq rfl rfl rfl rfl rfl rfl
  · rw [hself]; exact h.trap

/-- A change of the strand's registers among the named ones, or of what is no register. -/
theorem Keeps.modSelf (h : Spec.Keeps s a gs [] ps []) {f : Strand → Strand} (hr : RegsKept gs ps (self a) (f (self a)))
    (ht : TrapRegsKept (self s) (f (self a)) ∨ (f (self a)).inHandler = true ∨ (f (self a)).st = .trapped) :
    Spec.Keeps s (a.modStrand s.cur.1 s.cur.2 f) gs [] ps [] := by
  have hself : ((here a).modStrand s.cur.2 f).strands[s.cur.2.val] = f (self a) := by
    simp only [Tile.modStrand, Vector.getElem_set_self, self, State.strand, here, Keeps.cur h]
  refine Keeps.modTile h rfl rfl rfl (fun n hn => ?_) ?_ ?_
  · exact Vector.getElem_set_ne s.cur.2.isLt n.isLt (fun e => hn (Fin.ext e.symm))
  · rwa [hself]
  · rwa [hself]

/-! ### What a body may leave -/

theorem Kept.modSelf (h : Kept s gs ps a) {f : Strand → Strand} (hr : RegsKept gs ps (self a) (f (self a)))
    (ht : TrapRegsKept (self a) (f (self a))) : Kept s gs ps (a.modStrand s.cur.1 s.cur.2 f) := by
  have htrap : TrapRegsKept (self s) (f (self a)) := ⟨ht.1.trans h.trapRegs.1, ht.2.trans h.trapRegs.2⟩
  have hself : self (a.modStrand s.cur.1 s.cur.2 f) = f (self a) := by
    simp only [self, modStrand_cur, Keeps.cur h.keeps, strand_modStrand_self]
  exact ⟨Keeps.modSelf h.keeps hr (.inl htrap), by rwa [hself]⟩

theorem Kept.modTileRest (h : Kept s gs ps a) {f : Tile → Tile} (hmem : (f (here a)).mem = (here a).mem)
    (hbare : Spec.bare (f (here a)) = Spec.bare (here a)) (hc : (f (here a)).v.c = (here a).v.c)
    (hstr : (f (here a)).strands = (here a).strands) : Kept s gs ps (a.modTile s.cur.1 f) := by
  have hself : self (a.modTile s.cur.1 f) = self a := by
    simp only [here, Keeps.cur h.keeps] at hstr
    simp only [self, State.strand, modTile_cur, Keeps.cur h.keeps, tile_modTile_self, hstr]
  exact ⟨Keeps.modTileRest h.keeps hmem hbare hc hstr, by rw [hself]; exact h.trapRegs⟩

theorem Kept.post (h : Kept s gs ps a) (d : Nat) (e : Ev) : Kept s gs ps (a.post d e) := ⟨Keeps.post h.keeps d e, h.trapRegs⟩

theorem Kept.setG (h : Kept s gs ps a) {d : BitVec 5} (hd : d ∈ gs) (v : Word) :
    Kept s gs ps (setG a s.cur.1 s.cur.2 d v) :=
  h.modSelf (regsKept_wg hd v) (by unfold Strand.wg; split <;> exact ⟨rfl, rfl⟩)

theorem Kept.setP (h : Kept s gs ps a) {d : BitVec 3} (hd : d ∈ ps) (b : Bool) :
    Kept s gs ps (setP a s.cur.1 s.cur.2 d b) :=
  h.modSelf (regsKept_wp hd b) (by unfold Strand.wp; split <;> exact ⟨rfl, rfl⟩)

theorem Kept.markEmpty (h : Kept s gs ps a) {d : BitVec 5} (hd : d ∈ gs) :
    Kept s gs ps (a.modStrand s.cur.1 s.cur.2 (fun S => S.markEmpty (.g d))) :=
  h.modSelf (regsKept_markEmpty hd) (by unfold Strand.markEmpty; dsimp only; split <;> exact ⟨rfl, rfl⟩)

theorem Kept.laterG (h : Kept s gs ps a) {d : BitVec 5} (hd : d ∈ gs) (v : Word) (lat : Nat) :
    Kept s gs ps (laterG a s.cur.1 s.cur.2 d v lat) := by
  unfold Machine.laterG; split
  · exact h
  · exact (h.markEmpty hd).post _ _

/-- A request makes its register empty, awaits its reply and is posted, if at all (R240). -/
theorem Kept.ask (h : Kept s gs ps a) {d : BitVec 5} (hd : d ∈ gs) (q : DispQuery) :
    Kept s gs ps (ask a s.cur.1 s.cur.2 d q) := by
  have hbase := (h.markEmpty hd).modTileRest (f := fun T =>
    { T with acks := if queryHolds q then T.acks ++ [(s.cur.2, (a.strand s.cur.1 s.cur.2).gen)] else T.acks }) rfl rfl rfl rfl
  unfold Machine.ask
  dsimp only
  generalize (a.modStrand s.cur.1 s.cur.2 _).modTile s.cur.1 _ = b at hbase ⊢
  split
  · split
    · exact hbase
    · exact hbase.post _ _
  · exact hbase.post _ _

theorem actAll_jumpAct (h : Kept s gs ps a) (x : Word) (imm : BitVec 26) : ActAll (Kept s gs ps) (jumpAct a x imm) := by
  unfold jumpAct; split
  · exact h
  · trivial

theorem actAll_mapForm {d : BitVec 5} (hd : d ∈ gs) (f : Group → Word) :
    ActAll (Kept s gs ps) (mapForm s s.cur.1 s.cur.2 d f) := by
  unfold mapForm; split
  · exact kept_refl.setG hd _
  · exact kept_refl

/-! ### The ends of an instruction and its traps -/

theorem Kept.took (h : Kept s gs ps a) : Kept s gs ps (took a s.cur.1 s.cur.2) := h.modTileRest rfl rfl rfl rfl

/-- A change of what is no register, after the body. -/
theorem Kept.modSelfRest (h : Kept s gs ps a) {f : Strand → Strand} (hr : RegsKept [] [] (self a) (f (self a)))
    (ht : TrapRegsKept (self a) (f (self a))) : Spec.Keeps s (a.modStrand s.cur.1 s.cur.2 f) gs [] ps [] :=
  (h.modSelf ⟨fun r _ => hr.g r (by simp), hr.w, fun r _ => hr.p r (by simp), hr.q⟩ ht).keeps

theorem Keeps.vote (h : Spec.Keeps s a gs [] ps []) (c : Cause) (n : Nat) (pc : BitVec 21) (i : BitVec 32) :
    Spec.Keeps s (vote a s.cur.1 c n pc i) gs [] ps [] := by
  rcases vote_cases a s.cur.1 c n pc i with hv | hv
  · rwa [hv]
  · rw [hv]; exact Keeps.modTileRest h rfl rfl rfl rfl

/-- Taking a trap keeps the registers (R347, R348). -/
theorem Kept.takeTrap (h : Kept s gs ps a) (c : Cause) (i : BitVec 32) (pc succ : BitVec 21) :
    Spec.Keeps s (takeTrap a s.cur.1 s.cur.2 c i pc succ) gs [] ps [] := by
  have hself : a.strand s.cur.1 s.cur.2 = self a := by rw [self, Keeps.cur h.keeps]
  have hcases := takeTrap_cases a s.cur.1 s.cur.2 c i pc succ
  rw [hself] at hcases
  rcases hcases with ⟨-, -, e⟩ | ⟨-, -, e⟩ | ⟨-, c', e⟩
  · rw [e]; exact Keeps.vote (Keeps.modSelf h.keeps (regsKept_of_eq rfl rfl rfl rfl rfl rfl) (.inr (.inl rfl))) ..
  · rw [e]; exact Keeps.modSelf h.keeps (regsKept_of_eq rfl rfl rfl rfl rfl rfl) (.inr (.inl rfl))
  · rw [e]
    exact Keeps.vote (Keeps.post (Keeps.modSelf h.keeps (regsKept_of_eq rfl rfl rfl rfl rfl rfl) (.inr (.inr rfl))) ..) ..

/-- The strand passes the issue slot on (R65). -/
theorem keeps_passOn (len : Nat) (w : Wait) : Spec.Keeps s (passOn s s.cur.1 s.cur.2 len w) gs [] ps [] := by
  have h : Kept s gs ps { s with issued := s.cur.1 } :=
    { kept_refl (s := s) (gs := gs) (ps := ps) with keeps := { kept_refl.keeps with machine := rfl } }
  exact h.modSelfRest (regsKept_of_eq rfl rfl rfl rfl rfl rfl) ⟨rfl, rfl⟩

/-- What a body keeps, its instruction keeps. -/
theorem keeps_finishAct {len : Nat} {x : Act} (hx : ActAll (Kept s gs ps) x) :
    Spec.Keeps s (finishAct s s.cur.1 s.cur.2 len x) gs [] ps [] := by
  cases x with
  | done s' => exact (Kept.took hx).modSelfRest (regsKept_of_eq rfl rfl rfl rfl rfl rfl) ⟨rfl, rfl⟩
  | goto pc s' => exact (Kept.took hx).modSelfRest (regsKept_of_eq rfl rfl rfl rfl rfl rfl) ⟨rfl, rfl⟩
  | trap c i => exact kept_refl.took.takeTrap ..
  | wait w => exact keeps_passOn len w
  | block w s' => exact (Kept.took hx).modSelfRest (regsKept_of_eq rfl rfl rfl rfl rfl rfl) ⟨rfl, rfl⟩
  | stop s' => exact (Kept.took hx).keeps

/-- The frame of a form from that of its body: whether it has its effect, waits or traps. -/
theorem keeps_issue {p : Pred} {len : Nat} {who : Who} {srcs : List Src} {dsts : List Dst}
    {body : State → TileId → StrandNo → Act} {s' : State} (h : issue p len who srcs dsts body s = .next s')
    (hb : ActAll (Kept s gs ps) (body s s.cur.1 s.cur.2)) : Spec.Keeps s s' gs [] ps [] := by
  rcases issue_cases h with ⟨x, hx, e⟩ | ⟨-, -, -, e⟩ | ⟨-, e⟩
  · cases e; exact keeps_finishAct (checkIssue_all kept_refl hx)
  · cases e
  · cases e; exact keeps_finishAct hb

/-! ### Bodies that forms share -/

theorem keeps_aluNow {f : Nat → Int → Int → Int} {p : Pred} {o : AluOps} {s' : State} (hd : o.d ∈ gs)
    (h : aluNow f p o s = .next s') : Spec.Keeps s s' gs [] ps [] := keeps_issue h (kept_refl.setG hd _)

theorem keeps_aluLate {lat : Nat} {f : Nat → Int → Int → Int} {p : Pred} {o : AluOps} {s' : State} (hd : o.d ∈ gs)
    (h : aluLate lat f p o s = .next s') : Spec.Keeps s s' gs [] ps [] := keeps_issue h (kept_refl.laterG hd _ _)

theorem keeps_unaryG {f : Word → Word} {p : Pred} {d : BitVec 5} {x : GSrc} {s' : State} (hd : d ∈ gs)
    (h : unaryG f p d x s = .next s') : Spec.Keeps s s' gs [] ps [] := keeps_issue h (kept_refl.setG hd _)

theorem keeps_dieForm {f : Die → Word} {p : Pred} {d : BitVec 5} {x : GSrc} {s' : State} (hd : d ∈ gs)
    (h : dieForm f p d x s = .next s') : Spec.Keeps s s' gs [] ps [] := keeps_issue h (kept_refl.setG hd _)

/-- A form that writes one g register in its issue cycle. -/
theorem keeps_issue_setG {p : Pred} {len : Nat} {who : Who} {srcs : List Src} {dsts : List Dst} {d : BitVec 5}
    {f : State → TileId → StrandNo → Word} {s' : State} (hd : d ∈ gs)
    (h : issue p len who srcs dsts (fun s t n => .done (setG s t n d (f s t n))) s = .next s') :
    Spec.Keeps s s' gs [] ps [] := keeps_issue h (kept_refl.setG hd _)

/-- A form that asks for its value (R240). -/
theorem keeps_issue_ask {p : Pred} {len : Nat} {who : Who} {srcs : List Src} {dsts : List Dst} {d : BitVec 5}
    {f : State → TileId → StrandNo → DispQuery} {s' : State} (hd : d ∈ gs)
    (h : issue p len who srcs dsts (fun s t n => .done (ask s t n d (f s t n))) s = .next s') :
    Spec.Keeps s s' gs [] ps [] := keeps_issue h (kept_refl.ask hd _)

end

/-- Settles O32: each form's body writes its destinations alone, so the instruction keeps the rest. -/
theorem scalarFrames : Obligations.ScalarFrames := by
  unfold Obligations.ScalarFrames
  intro i gs ps s s' hdst h
  cases i
  all_goals dsimp only [exec, Spec.scalarDst] at h hdst
  case add | sub | and | or | xor | andn | shl | shr | sra | rot | min | max => cases hdst; exact keeps_aluNow (by simp) h
  case mul | mulh | div | rem => cases hdst; exact keeps_aluLate (by simp) h
  case bitcClz | bitcCtz | bitcPopc => cases hdst; exact keeps_unaryG (by simp) h
  case ecntRes | ecntThm | ecntTs => cases hdst; exact keeps_dieForm (by simp) h
  case sel | li | lea | gtaIdx | gtaRel | wptRd | cntRd | sxwRd | engSt | engCrc | sunbindPos | rchkRd | bred | bredCfg | bredSt |
      cstat | cstatPc | lnkrd | ctxsRd =>
    cases hdst; exact keeps_issue_setG (by simp) h
  case pstat | pstatDev | ckptRd | idleRd | ecntK | tstRd => cases hdst; exact keeps_issue_ask (by simp) h
  case vtidShape | vtidOrd | vtidIdx | vtidHost | offerRd => cases hdst; exact keeps_issue h (actAll_mapForm (by simp) _)
  case nop | br | waitc | waitb => cases hdst; exact keeps_issue h kept_refl
  case trap => cases hdst; exact keeps_issue h trivial
  case cmp | plog => cases hdst; exact keeps_issue h (kept_refl.setP (by simp) _)
  case addc => cases hdst; exact keeps_issue h ((kept_refl.setG (by simp) _).setP (by simp) _)
  case call => cases hdst; exact keeps_issue h (kept_refl.setG (by simp) _)
  case jmp | ret => cases hdst; exact keeps_issue h (actAll_jumpAct kept_refl ..)
  case callR => cases hdst; exact keeps_issue h (actAll_jumpAct (kept_refl.setG (by simp) _) ..)
  case ext | ins | mfs =>
    cases hdst
    refine keeps_issue h ?_
    split
    · exact kept_refl.setG (by simp) _
    · trivial
  case sgtRd =>
    cases hdst
    refine keeps_issue h ?_
    split
    · trivial
    · exact kept_refl.setG (by simp) _
  case loop =>
    cases hdst
    refine keeps_issue h ?_
    dsimp only; split
    · trivial
    · split
      · exact kept_refl.setG (by simp) _
      · exact kept_refl.setG (by simp) _
  case waitp =>
    cases hdst
    refine keeps_issue h ?_
    dsimp only; split
    · trivial
    · split
      · trivial
      · exact kept_refl
  case yield => cases hdst; exact keeps_issue h (kept_refl.modSelf (regsKept_of_eq rfl rfl rfl rfl rfl rfl) ⟨rfl, rfl⟩)
  case tret =>
    cases hdst
    refine keeps_issue h ?_
    dsimp only; split
    · trivial
    · exact kept_refl.modSelf (regsKept_of_eq rfl rfl rfl rfl rfl rfl) ⟨rfl, rfl⟩
  case glchk =>
    cases hdst
    refine keeps_issue h ?_
    dsimp only; split
    · exact kept_refl
    · exact (kept_refl.markEmpty (by simp)).post ..
  case ccnt | ccntQ =>
    cases hdst
    refine keeps_issue h ?_
    split
    · exact kept_refl.ask (by simp) _
    · exact kept_refl.ask (by simp) _
  all_goals cases hdst

end Sys2Proof.Laws

/-! SUPPORT and O57. Replies, the ORPHAN check, the tick of the dies, trap records on their way and the background read (R87, R96,
R226, R351 to R354, R359, R361). -/

namespace Sys2Proof.Laws

open Sys2Proof Sys2Proof.Machine

/-! ### The strand that has waited longest (R96) -/

section
variable {T : Tile} {n : StrandNo}

/-- The choice between the oldest strand so far and the next one. -/
def olderWait (T : Tile) (r : Option StrandNo) (n : StrandNo) : Option StrandNo :=
  match r with
  | none => some n
  | some m => if (T.strands[n.val]).since < (T.strands[m.val]).since then some n else some m

theorem oldestWait_eq_foldl (T : Tile) (ns : List StrandNo) : oldestWait T ns = ns.foldl (olderWait T) none := rfl

theorem olderWait_cases (T : Tile) (r : Option StrandNo) (n : StrandNo) :
    olderWait T r n = some n ∨ olderWait T r n = r := by
  unfold olderWait; split
  · exact .inl rfl
  · split
    · exact .inl rfl
    · exact .inr rfl

/-- Strands that began to wait later do not lead to an earlier one. -/
theorem foldl_olderWait_later {l : List StrandNo} {r : Option StrandNo} (hr : ∀ m ∈ r, T.strands[n.val].since < T.strands[m.val].since)
    (hl : ∀ m ∈ l, T.strands[n.val].since < T.strands[m.val].since) :
    ∀ m ∈ l.foldl (olderWait T) r, T.strands[n.val].since < T.strands[m.val].since := by
  induction l generalizing r with
  | nil => exact hr
  | cons x l ih =>
    refine ih (fun m hm => ?_) (fun m hm => hl m (List.mem_cons_of_mem _ hm))
    rcases olderWait_cases T r x with e | e <;> rw [e] at hm
    · cases hm; exact hl x List.mem_cons_self
    · exact hr m hm

/-- A strand that waits longer than those found so far replaces them. -/
theorem olderWait_of_later {r : Option StrandNo} (hr : ∀ m ∈ r, T.strands[n.val].since < T.strands[m.val].since) :
    olderWait T r n = some n := by
  cases r with
  | none => rfl
  | some m => exact if_pos (hr m rfl)

/-- A strand stays the oldest through those that began to wait no earlier. -/
theorem foldl_olderWait_stays {l : List StrandNo} (hl : ∀ m ∈ l, T.strands[n.val].since ≤ T.strands[m.val].since) :
    l.foldl (olderWait T) (some n) = some n := by
  induction l with
  | nil => rfl
  | cons x l ih =>
    have hx : olderWait T (some n) x = some n := if_neg (Nat.not_lt.mpr (hl x List.mem_cons_self))
    rw [List.foldl_cons, hx]
    exact ih fun m hm => hl m (List.mem_cons_of_mem _ hm)

/-- Of strands in order the first that has waited longest is chosen. -/
theorem oldestWait_eq {ns : List StrandNo} (hsorted : ns.Pairwise (· < ·)) (hn : n ∈ ns)
    (hle : ∀ m ∈ ns, T.strands[n.val].since ≤ T.strands[m.val].since)
    (hlt : ∀ m ∈ ns, m < n → T.strands[n.val].since < T.strands[m.val].since) : oldestWait T ns = some n := by
  obtain ⟨a, b, rfl⟩ := List.append_of_mem hn
  have hbefore : ∀ m ∈ a, m < n := fun m hm => (List.pairwise_append.mp hsorted).2.2 m hm n List.mem_cons_self
  rw [oldestWait_eq_foldl, List.foldl_append, List.foldl_cons, olderWait_of_later, foldl_olderWait_stays]
  · exact fun m hm => hle m (List.mem_append_right _ (List.mem_cons_of_mem _ hm))
  · refine foldl_olderWait_later (by simp) fun m hm => hlt m (List.mem_append_left _ hm) (hbefore m hm)

end

/-! ### The tick of a die (R359, R361) -/

theorem maxTemp_ge (a b : BitVec 16) : a.toInt ≤ (maxTemp a b).toInt ∧ b.toInt ≤ (maxTemp a b).toInt := by
  unfold maxTemp; split
  next h => exact ⟨h.le, le_rfl⟩
  next h => exact ⟨le_rfl, not_lt.mp h⟩

/-- The largest of readings is no less than any of them, and than what it begins with. -/
theorem foldl_maxTemp_ge (l : List (BitVec 16)) (a : BitVec 16) :
    a.toInt ≤ (l.foldl maxTemp a).toInt ∧ ∀ x ∈ l, x.toInt ≤ (l.foldl maxTemp a).toInt := by
  induction l generalizing a with
  | nil => exact ⟨le_rfl, by simp⟩
  | cons y l ih =>
    obtain ⟨hacc, hmem⟩ := ih (maxTemp a y)
    refine ⟨(maxTemp_ge a y).1.trans hacc, fun x hx => ?_⟩
    rcases List.mem_cons.mp hx with rfl | hx
    · exact (maxTemp_ge a x).2.trans hacc
    · exact hmem x hx

theorem reservoirNext_eq (plim : Nat) (level : Int) (draw : Nat) :
    reservoirNext plim level draw =
      max (-((plim : Int) * 10000000)) (min ((plim : Int) * 10000000) (level + plim * 1000 - draw)) := by
  unfold reservoirNext
  dsimp only
  split
  · omega
  · split <;> omega

theorem limit_eq (d : Die) : (d.limit : Int) = if d.plim = 0 then 1 else (d.plim.toNat : Int) := by
  unfold Die.limit; split <;> rfl

/-- A die at the end of a µs with its draw and its readings: what its tiles have counted starts anew. -/
def ticked (D : Die) (e temps : Nat) : Die := { dieTick D ((D.drawn + e) / 1000) temps with drawn := 0 }

/-- The readings of a tick lie below its TMAX. -/
theorem ticked_ets_le (D : Die) (e temps k : Nat) (h : k < 16) :
    ((ticked D e temps).ets[k]).toInt ≤ (ticked D e temps).tmax.toInt := by
  unfold ticked dieTick
  dsimp only
  generalize (Vector.ofFn fun i : Fin 16 => BitVec.ofNat 16 (temps / 2 ^ (16 * i.val))) = ets
  have htop : (ets[k]).toInt ≤ (ets.foldl maxTemp 0x8000).toInt := by
    rw [← Vector.foldl_toList]
    exact (foldl_maxTemp_ge ets.toList _).2 _ (by simp)
  refine htop.trans ((foldl_maxTemp_ge _ _).2 _ ?_)
  rw [List.take_succ_cons]
  exact List.mem_cons_self

/-- The reservoir after a tick, within ±10 ms of the limit. -/
theorem ticked_eres (D : Die) (e temps : Nat) :
    let L : Int := if (ticked D e temps).plim = 0 then 1 else (ticked D e temps).plim.toNat
    (ticked D e temps).eres =
      max (-(L * 10000000)) (min (L * 10000000) (D.eres + L * 1000 - ((D.drawn + e) / 1000 : Nat))) := by
  intro L
  unfold L
  unfold ticked dieTick
  dsimp only
  rw [reservoirNext_eq, limit_eq]

theorem ticked_head (D : Die) (e temps : Nat) : (ticked D e temps).head =
    BitVec.ofNat 16 (((ticked D e temps).tlim.toNat : Int) - (ticked D e temps).tmax.toInt).toNat := by
  unfold ticked dieTick
  dsimp only

theorem ticked_peaks_length (D : Die) (e temps : Nat) : (ticked D e temps).peaks.length ≤ 100 := by
  unfold ticked dieTick
  exact List.length_take_le ..

/-- The step of the tick at one die. -/
def tickStep (s : State) (d : Nat) : State :=
  let e := s.freshNat
  let h := e.2.freshNat
  h.2.modDie d (fun D => ticked D e.1 h.1)

theorem execReservoirTick_on (s : State) : exec .reservoirTick (Spec.on s .reservoirTick) =
    .next ((List.range 4).foldl tickStep (Spec.on s .reservoirTick)) := by
  rw [exec_reservoirTick]
  unfold execReservoirTick
  dsimp only [Spec.on]
  rfl

theorem tickStep_tiles (s : State) (d : Nat) : (tickStep s d).tiles = s.tiles := rfl

theorem die_tickStep (s : State) {d : Nat} (hd : d < 4) (k : Nat) :
    ∃ e temps, (tickStep s d).die k = if k = d then ticked (s.die d) e temps else s.die k :=
  ⟨_, _, die_modDie _ k _ hd⟩

theorem foldl_tickStep_tiles (l : List Nat) (s : State) : (l.foldl tickStep s).tiles = s.tiles := by
  induction l generalizing s with
  | nil => rfl
  | cons d l ih => exact (ih _).trans (tickStep_tiles s d)

/-- Each die of a list is ticked once. -/
theorem die_foldl_tickStep {l : List Nat} (hl : l.Nodup) (h4 : ∀ d ∈ l, d < 4) (s : State) (k : Nat) :
    ∃ e temps, (l.foldl tickStep s).die k = if k ∈ l then ticked (s.die k) e temps else s.die k := by
  induction l generalizing s with
  | nil => exact ⟨0, 0, by simp⟩
  | cons d l ih =>
    obtain ⟨hd, hl⟩ := List.nodup_cons.mp hl
    obtain ⟨e, temps, h⟩ := ih hl (fun x hx => h4 x (List.mem_cons_of_mem _ hx)) (tickStep s d)
    obtain ⟨e', temps', h'⟩ := die_tickStep s (h4 d List.mem_cons_self) k
    by_cases hk : k = d
    · subst k
      exact ⟨e', temps', by rw [List.foldl_cons, h, h', if_neg hd, if_pos rfl, if_pos List.mem_cons_self]⟩
    · refine ⟨e, temps, ?_⟩
      rw [if_neg hk] at h'
      rw [List.foldl_cons, h, h']
      simp only [List.mem_cons, hk, false_or]

/-! ### The bytes of a record (Table 19.2) -/

theorem toNat_append_eq {m n : Nat} (x : BitVec m) (y : BitVec n) : (x ++ y).toNat = x.toNat * 2 ^ n + y.toNat := by
  rw [BitVec.toNat_append, ← Nat.shiftLeft_add_eq_or_of_lt y.isLt, Nat.shiftLeft_eq]

/-- A byte of a word's bytes. -/
theorem getD_bytesOf_toNat {w n i : Nat} (x : BitVec w) (hi : i < n) :
    (bytesOf n x.toNat).getD i 0 = x.extractLsb' (8 * i) 8 := by
  apply BitVec.eq_of_toNat_eq
  simp [bytesOf, hi, Nat.shiftRight_eq_div_pow, pow_mul]

/-- The low bytes of a number, then those of the rest. -/
theorem bytesOf_add {m n x y : Nat} (hx : x < 2 ^ (8 * m)) :
    bytesOf (m + n) (y * 2 ^ (8 * m) + x) = bytesOf m x ++ bytesOf n y := by
  induction m generalizing x with
  | zero => simp at hx; simp [bytesOf, hx]
  | succ m ih =>
    have hpow : (2 : Nat) ^ (8 * (m + 1)) = 2 ^ (8 * m) * 256 := by rw [Nat.mul_succ, pow_add]; rfl
    rw [hpow] at hx ⊢
    have hhead : BitVec.ofNat 8 (y * (2 ^ (8 * m) * 256) + x) = BitVec.ofNat 8 x := by
      apply BitVec.eq_of_toNat_eq
      simp only [BitVec.toNat_ofNat]
      rw [← mul_assoc]; omega
    have htail : (y * (2 ^ (8 * m) * 256) + x) / 256 = y * 2 ^ (8 * m) + x / 256 := by
      rw [← mul_assoc]; omega
    rw [Nat.add_right_comm, bytesOf_succ, bytesOf_succ, hhead, htail, ih (by omega), List.cons_append]

/-- The bytes of a word whose lowest limb is given. -/
theorem bytesOf_append_limb {w n : Nat} (x : BitVec w) (z : BitVec 64) :
    bytesOf (8 + n) (x ++ z).toNat = bytesOf 8 z.toNat ++ bytesOf n x.toNat := by
  rw [toNat_append_eq]; exact bytesOf_add z.isLt

/-- The bytes of four limbs, the lowest one first. -/
theorem bytesOf_limbs (a b c d : BitVec 64) : bytesOf 32 (a ++ b ++ c ++ d).toNat =
    bytesOf 8 d.toNat ++ (bytesOf 8 c.toNat ++ (bytesOf 8 b.toNat ++ bytesOf 8 a.toNat)) := by
  rw [← bytesOf_append_limb, ← bytesOf_append_limb, ← bytesOf_append_limb]

/-- The bytes of Table 19.2 are those of its word. -/
theorem recBytes_eq (r : TrapRec) : recBytes r = bytesOf 32 (Spec.recordBits r).toNat := by
  refine Eq.trans ?_ (bytesOf_limbs (r.info ++ r.colmap) (r.phys ++ r.vidx ++ (0 : BitVec 3) ++ r.pc)
    (r.ss ++ (0 : BitVec 12) ++ r.strand) (r.code ++ r.cls ++ BitVec.ofBool r.defer ++ r.ctx ++ r.att ++ (0 : BitVec 43))).symm
  unfold recBytes
  have h0 : r.code.toNat * 2 ^ 56 + r.cls.toNat * 2 ^ 53 + (if r.defer then 2 ^ 52 else 0) + r.ctx.toNat * 2 ^ 47 +
      r.att.toNat * 2 ^ 43 = (r.code ++ r.cls ++ BitVec.ofBool r.defer ++ r.ctx ++ r.att ++ (0 : BitVec 43)).toNat := by
    simp only [toNat_append_eq, BitVec.toNat_ofBool, BitVec.ofNat_eq_ofNat, BitVec.toNat_zero]
    cases r.defer
    · simp only [Bool.toNat_false, Bool.false_eq_true, if_false]; omega
    · simp only [Bool.toNat_true, if_true]; omega
  have h1 : r.ss.toNat * 2 ^ 16 + r.strand.toNat = (r.ss ++ (0 : BitVec 12) ++ r.strand).toNat := by
    simp only [toNat_append_eq, BitVec.ofNat_eq_ofNat, BitVec.toNat_zero]; ring
  have h2 : r.phys.toNat * 2 ^ 44 + r.vidx.toNat * 2 ^ 24 + r.pc.toNat =
      (r.phys ++ r.vidx ++ (0 : BitVec 3) ++ r.pc).toNat := by
    simp only [toNat_append_eq, BitVec.ofNat_eq_ofNat, BitVec.toNat_zero]; ring
  have h3 : r.info.toNat * 2 ^ 32 + r.colmap.toNat = (r.info ++ r.colmap).toNat := (toNat_append_eq ..).symm
  rw [h0, h1, h2, h3, List.append_assoc, List.append_assoc]

/-- What the trap unit sends: the record's 32 bytes, then the 128 bytes of the reporters (R353). -/
theorem getD_delivery (r : TrapRec) (bitmap : BitVec 1024) {i : Nat} (hi : i < 160) :
    (recBytes r ++ bytesOf 128 bitmap.toNat).getD i 0 =
      if i < 32 then (Spec.recordBits r).extractLsb' (8 * i) 8 else bitmap.extractLsb' (8 * (i - 32)) 8 := by
  rw [recBytes_eq]
  split
  next h => rw [List.getD_append _ _ _ _ (by simpa using h), getD_bytesOf_toNat _ h]
  next h =>
    rw [List.getD_append_right _ _ _ _ (by simpa using h), length_bytesOf, getD_bytesOf_toNat _ (by omega)]

/-! ### Replies (R226) and the ORPHAN check (R96) -/

section
variable {s : State} {t : TileId} {n : StrandNo} {gen : Nat} {d : BitVec 5} {k : BitVec 16} {x v : Word} {b : Before}

/-- A reply fills its register in this cycle, and the arrival no longer waits for it. -/
theorem deliverReply_holds (s : State) (v : Word) :
    (s.cycle, .resultDelivery t n gen (.g d) (v.setWidth 1024)) ∈ (deliverReply s t n gen d true v).agenda ∧
      ((deliverReply s t n gen d true v).tile t).acks = (s.tile t).acks.erase (n, gen) := by
  refine ⟨mem_agenda_post.mpr (.inl rfl), ?_⟩
  unfold deliverReply
  rw [post_tile, tile_modTile_self, if_pos rfl]

/-- A request that still stands. -/
theorem acks_contains (e : Ev) (h : (n, gen) ∈ (s.tile t).acks) :
    ¬ (!((Spec.on s e).tile t).acks.contains (n, gen)) = true := by
  have hmem : (n, gen) ∈ ((Spec.on s e).tile t).acks := h
  simpa using hmem

theorem sysReply_waits (hack : (n, gen) ∈ (s.tile t).acks)
    (hb : beforeMet (Spec.on s (.sysReply t n gen d k x v b)) t n b = false) :
    exec .sysReply (Spec.on s (.sysReply t n gen d k x v b)) =
      .next ((Spec.on s (.sysReply t n gen d k x v b)).post 1 (.sysReply t n gen d k x v b)) := by
  have hearly : (!beforeMet (Spec.on s (.sysReply t n gen d k x v b)) t n b) = true := by rw [hb]; rfl
  rw [exec_sysReply]
  unfold execSysReply
  exact (if_neg (acks_contains _ hack)).trans (if_pos hearly)

/-- The runtime's answer (R226). -/
theorem sysReply_answers (hack : (n, gen) ∈ (s.tile t).acks) (hshadow : shadowOf s t = none)
    (hb : beforeMet (Spec.on s (.sysReply t n gen d k x v b)) t n b = true) (hk : k.toNat < 0x8000) :
    exec .sysReply (Spec.on s (.sysReply t n gen d k x v b)) =
      .next (deliverReply (Spec.on s (.sysReply t n gen d k x v b)) t n gen d true v) := by
  have hmet : ¬ (!beforeMet (Spec.on s (.sysReply t n gen d k x v b)) t n b) = true := by rw [hb]; decide
  have hnone : shadowOf (deliverReply (Spec.on s (.sysReply t n gen d k x v b)) t n gen d true v) t = none := by
    unfold shadowOf at hshadow ⊢
    unfold deliverReply
    rwa [post_tile, tile_modTile_self]
  have hown : replyShadow (deliverReply (Spec.on s (.sysReply t n gen d k x v b)) t n gen d true v) t n d k x v =
      deliverReply (Spec.on s (.sysReply t n gen d k x v b)) t n gen d true v := by
    rw [replyShadow, hnone]
  rw [exec_sysReply]
  unfold execSysReply
  exact (if_neg (acks_contains _ hack)).trans ((if_neg hmet).trans ((if_neg (by omega)).trans (congrArg _ hown)))

/-- The monitor's other services answer all ones. -/
theorem sysReply_refuses (hack : (n, gen) ∈ (s.tile t).acks)
    (hb : beforeMet (Spec.on s (.sysReply t n gen d k x v b)) t n b = true) (hk : 0x8000 < k.toNat) :
    exec .sysReply (Spec.on s (.sysReply t n gen d k x v b)) =
      .next (deliverReply (Spec.on s (.sysReply t n gen d k x v b)) t n gen d true (BitVec.allOnes 64)) := by
  have hmet : ¬ (!beforeMet (Spec.on s (.sysReply t n gen d k x v b)) t n b) = true := by rw [hb]; decide
  have hne : k ≠ 0x8000 := by rintro rfl; exact absurd hk (by decide)
  rw [exec_sysReply]
  unfold execSysReply
  exact (if_neg (acks_contains _ hack)).trans ((if_neg hmet).trans ((if_pos hk.le).trans (if_neg hne)))

end

/-- The watchdog leaves a tile alone of which a live strand can go on (R96). -/
theorem idleWatchdog_idle {s : State} {t : TileId}
    (h : ∃ n ∈ (List.finRange 11).filter (fun n => liveSt (s.strand t n).st), canProceed (Spec.on s (.idleWatchdogExpiry t)) t n = true) :
    exec .idleWatchdogExpiry (Spec.on s (.idleWatchdogExpiry t)) = .next (Spec.on s (.idleWatchdogExpiry t)) := by
  have hany := List.any_eq_true.mpr h
  rw [exec_idleWatchdogExpiry]
  unfold execIdleWatchdogExpiry
  exact if_pos (Bool.or_eq_true_iff.mpr (.inr hany))

/-- When none can, the strand that has waited longest takes ORPHAN. -/
theorem idleWatchdog_orphan {s : State} {t : TileId} {n : StrandNo} (hrun : (s.tile t).running = true)
    (hstuck : ∀ m ∈ (List.finRange 11).filter (fun n => liveSt (s.strand t n).st),
      canProceed (Spec.on s (.idleWatchdogExpiry t)) t m = false)
    (hold : oldestWait (s.tile t) ((List.finRange 11).filter fun n => liveSt (s.strand t n).st) = some n)
    (hdef : (s.strand t n).deferred = none) :
    exec .idleWatchdogExpiry (Spec.on s (.idleWatchdogExpiry t)) =
      .next (takeTrap (Spec.on s (.idleWatchdogExpiry t)) t n .orphan 0 (s.strand t n).pc
        (successor (s.strand t n).pc (s.strand t n).wlen)) := by
  have hany : ((List.finRange 11).filter fun n => liveSt (s.strand t n).st).any
      (canProceed (Spec.on s (.idleWatchdogExpiry t)) t) = false := by
    rw [List.any_eq_false]; intro m hm; rw [hstuck m hm]; decide
  have hgoes : ¬ (!(s.tile t).running || ((List.finRange 11).filter fun n => liveSt (s.strand t n).st).any
      (canProceed (Spec.on s (.idleWatchdogExpiry t)) t)) = true := by
    rw [hrun, hany]; decide
  rw [exec_idleWatchdogExpiry]
  unfold execIdleWatchdogExpiry
  refine (if_neg hgoes).trans ?_
  have hold' : oldestWait ((Spec.on s (.idleWatchdogExpiry t)).tile t) ((List.finRange 11).filter fun n =>
      liveSt (((Spec.on s (.idleWatchdogExpiry t)).tile t).strands[n.val]).st) = some n := hold
  rw [hold']
  dsimp only
  have hdef' : ((Spec.on s (.idleWatchdogExpiry t)).strand t n).deferred = none := hdef
  rw [takePrecise, hdef']
  rfl

/-! ### Records on their way (R352, R353) -/

section
variable {s : State}

/-- A record of no entry's row opens one. -/
theorem trapRecordArrival_new {r : TrapRec} (h : ∀ e ∈ s.rows, ¬ (e.die = recDie r ∧ e.row = recRow r)) :
    exec .trapRecordArrival (Spec.on s (.trapRecordArrival r)) =
      .next (({ Spec.on s (.trapRecordArrival r) with
        rows := s.rows ++ [{ die := recDie r, row := recRow r, rcd := { r with colmap := r.colmap ||| (1 <<< recCol r) },
                             at_ := s.cycle }] } : State).post 256 (.rowCollectorForward (recDie r) (recRow r))) := by
  have hany : ¬ (s.rows.any fun e => (e.die == recDie r && e.row == recRow r) && recMeets e.rcd r) = true := by
    rw [Bool.not_eq_true, List.any_eq_false]; intro e he; simpa using fun h1 h2 => absurd ⟨h1, h2⟩ (h e he)
  have hroom : (s.rows.filter fun e => e.die == recDie r && e.row == recRow r).length < 4 := by
    rw [List.filter_eq_nil_iff.mpr]
    · decide
    · intro e he; simpa using fun h1 h2 => h e he ⟨h1, h2⟩
  rw [exec_trapRecordArrival]
  unfold execTrapRecordArrival
  exact (if_neg hany).trans (if_pos hroom)

/-- A record that meets an entry of its row adds its column to it. -/
theorem trapRecordArrival_joins {r : TrapRec}
    (h : ∃ e ∈ s.rows, (e.die = recDie r ∧ e.row = recRow r) ∧ recMeets e.rcd r = true) :
    exec .trapRecordArrival (Spec.on s (.trapRecordArrival r)) =
      .next { Spec.on s (.trapRecordArrival r) with rows := s.rows.map fun (e : RowEntry) =>
        if (e.die == recDie r && e.row == recRow r) && recMeets e.rcd r then
          { e with rcd := ({ e.rcd with colmap := e.rcd.colmap ||| (1 <<< recCol r) } : TrapRec) } else e } := by
  obtain ⟨e, he, ⟨hdie, hrow⟩, hmeets⟩ := h
  have hany : (s.rows.any fun e => (e.die == recDie r && e.row == recRow r) && recMeets e.rcd r) = true :=
    List.any_eq_true.mpr ⟨e, he, by simp [hdie, hrow, hmeets]⟩
  rw [exec_trapRecordArrival]
  unfold execTrapRecordArrival
  exact if_pos hany

theorem takeFirst_cons_of_pos {α : Type} {p : α → Bool} {x : α} (r : List α) (h : p x = true) :
    takeFirst p (x :: r) = some (x, r) := if_pos h

/-- The record that opens an entry of a trap unit that holds none. -/
theorem unitTakes_first {die : Nat} (row : Nat) (r : TrapRec) (h : ∀ u ∈ s.units, u.die ≠ die) :
    unitTakes s die row r =
      ({ s with units := s.units ++ [{ die := die, rcd := r, bitmap := (r.colmap.setWidth 1024) <<< (32 * row), at_ := s.cycle
                                       group := (locate s r.ctx.toNat r.vidx).map (fun x => x.1.id) }] } : State).post 4096
        (.trapUnitDeliver die) := by
  have hany : (s.units.any fun u => u.die == die && recMeets u.rcd r) = false := by
    rw [List.any_eq_false]; intro u hu; simp [h u hu]
  have hfilter : s.units.filter (fun u => u.die == die) = [] := by
    rw [List.filter_eq_nil_iff]; intro u hu; simp [h u hu]
  unfold unitTakes
  dsimp only
  rw [hany, hfilter]
  rfl

/-- The oldest entry of the row collectors goes to its trap unit. -/
theorem rowCollectorForward_eq {e : RowEntry} {rest : List RowEntry} (hrows : s.rows = e :: rest) (hdue : e.at_ + 256 ≤ s.cycle) :
    exec .rowCollectorForward (Spec.on s (.rowCollectorForward e.die e.row)) =
      .next (unitTakes { Spec.on s (.rowCollectorForward e.die e.row) with rows := rest } e.die e.row e.rcd) := by
  rw [exec_rowCollectorForward]
  unfold execRowCollectorForward
  dsimp only [Spec.on]
  rw [hrows, takeFirst_cons_of_pos _ (by simp [hdue])]

/-- The oldest entry of the trap units is delivered. -/
theorem trapUnitDeliver_eq {u : UnitEntry} {rest : List UnitEntry} (hunits : s.units = u :: rest) (hdue : u.at_ + 4096 ≤ s.cycle) :
    exec .trapUnitDeliver (Spec.on s (.trapUnitDeliver u.die)) =
      .next (deliver { Spec.on s (.trapUnitDeliver u.die) with units := rest } u) := by
  rw [exec_trapUnitDeliver]
  unfold execTrapUnitDeliver
  dsimp only [Spec.on]
  rw [hunits, takeFirst_cons_of_pos _ (by simp [hdue])]

/-! ### The background read (R354) -/

/-- Reporting a corrected error leaves the errors, the memory and the votes. -/
theorem tile_correctable (s : State) (t : TileId) :
    ((correctable s t).tile t).errs = (s.tile t).errs ∧ ((correctable s t).tile t).mem = (s.tile t).mem ∧
      ((correctable s t).tile t).v = (s.tile t).v := by
  unfold correctable; split
  · exact ⟨rfl, rfl, rfl⟩
  · rw [sendRecord, post_tile, tile_modTile_self]; exact ⟨rfl, rfl, rfl⟩

/-- A read of a word whose only error is correctable (R354). -/
theorem eccRead_corrects {t : TileId} {o : Nat} (fresh : Bool) (h : (s.tile t).errs = [{ place := .pool o, due := false }]) :
    eccRead s t fresh (o / 8 * 8) 8 = (correctable (s.modTile t (fun T => { T with errs := [] })) t, true) := by
  have hin : errIn (o / 8 * 8) 8 { place := .pool o, due := false } = true := by
    simp only [errIn, decide_eq_true_eq]; omega
  have hmod : s.modTile t (fun T => { T with errs := T.errs.filter fun e => !(errIn (o / 8 * 8) 8 e && !e.due) }) =
      s.modTile t (fun T => { T with errs := [] }) := by
    simp only [State.modTile, h, List.filter_cons, hin]; rfl
  unfold eccRead
  simp only [h, List.filter_cons, hin, hmod]
  rfl

/-- A read leaves an idle tile alone. -/
theorem backgroundScrubRead_idle {t : TileId} (h : (s.tile t).running = false) :
    exec .backgroundScrubRead (Spec.on s (.backgroundScrubRead t)) = .next (Spec.on s (.backgroundScrubRead t)) := by
  have hrun : ((Spec.on s (.backgroundScrubRead t)).tile t).running = false := h
  have hidle : (!((Spec.on s (.backgroundScrubRead t)).tile t).running) = true := by rw [hrun]; rfl
  rw [exec_backgroundScrubRead]
  unfold execBackgroundScrubRead
  exact if_pos hidle

/-- It reads the word of a tile's only error. -/
theorem backgroundScrubRead_pool {t : TileId} {o : Nat} (hrun : (s.tile t).running = true)
    (herrs : (s.tile t).errs = [{ place := .pool o, due := false }]) (hgalley : (s.tile t).galley = [])
    (hused : o < poolUsed (s.tile t)) :
    exec .backgroundScrubRead (Spec.on s (.backgroundScrubRead t)) =
      .next (eccRead (Spec.on s (.backgroundScrubRead t)) t false (o / 8 * 8) 8).1 := by
  generalize hs : Spec.on s (.backgroundScrubRead t) = s0
  have hev : s0.ev = some (.backgroundScrubRead t) := by rw [← hs]; rfl
  have htile : s0.tile t = s.tile t := by rw [← hs]; rfl
  rw [exec_backgroundScrubRead]
  unfold execBackgroundScrubRead
  rw [hev]
  dsimp only
  rw [htile, hrun, herrs, hgalley]
  exact congrArg Host.Outcome.next (if_pos hused)

end

/-! ### The clauses of the statement -/

theorem systemSteps : Spec.SystemSteps := by
  refine ⟨fun s c => ⟨_, rfl, rfl⟩, fun s t n gen d k x v b hack hb => sysReply_waits hack hb,
    fun s t n gen d k x v b hack hshadow hb => ⟨fun hk => ?_, fun hk => ?_⟩,
    fun s t hrun => ⟨idleWatchdog_idle, fun n hstuck hn hle hlt hdef => ?_⟩, fun s => ?_⟩
  · exact ⟨_, sysReply_answers hack hshadow hb hk, deliverReply_holds ..⟩
  · exact ⟨_, sysReply_refuses hack hb hk, deliverReply_holds ..⟩
  · exact idleWatchdog_orphan hrun hstuck
      (oldestWait_eq ((List.pairwise_lt_finRange 11).sublist List.filter_sublist) hn hle hlt) hdef
  · refine ⟨_, execReservoirTick_on s, foldl_tickStep_tiles .., fun d hd => ?_⟩
    obtain ⟨e, temps, h⟩ := die_foldl_tickStep (List.nodup_range (n := 4)) (by simp) (Spec.on s .reservoirTick) d
    rw [if_pos (List.mem_range.mpr hd)] at h
    refine ⟨((s.die d).drawn + e) / 1000, ?_⟩
    dsimp only
    rw [h]
    exact ⟨rfl, rfl, rfl, rfl, Nat.div_le_div_right (Nat.le_add_right ..), rfl, ticked_head .., ticked_eres .., ticked_ets_le _ e temps,
      ticked_peaks_length .., rfl⟩

theorem recordSteps : Spec.RecordSteps := by
  refine ⟨fun s r => ⟨fun h => ?_, fun h => ?_⟩, fun s e rest hrows hdue hunits => ?_, fun s u rest hunits hdue => ?_,
    fun s t hrun => ?_, fun s t o hrun herrs hgalley hused => ?_⟩
  · exact ⟨_, trapRecordArrival_new h, rfl, mem_agenda_post.mpr (.inl rfl)⟩
  · exact ⟨_, trapRecordArrival_joins h, List.length_map .., rfl, rfl⟩
  · exact ⟨_, _, (rowCollectorForward_eq hrows hdue).trans (congrArg _ (unitTakes_first _ _ hunits)), rfl, rfl, rfl, rfl, rfl, rfl,
      mem_agenda_post.mpr (.inl rfl)⟩
  · refine ⟨_, trapUnitDeliver_eq hunits hdue, rfl, _, rfl, ?_, fun i hi => getD_delivery _ _ hi⟩
    rw [List.length_append, recBytes_eq, length_bytesOf, length_bytesOf]
  · exact backgroundScrubRead_idle hrun
  · have hread := backgroundScrubRead_pool hrun herrs hgalley hused
    rw [eccRead_corrects (s := Spec.on s (.backgroundScrubRead t)) false herrs] at hread
    refine ⟨_, hread, ?_⟩
    obtain ⟨he, hm, hv⟩ := tile_correctable ((Spec.on s (.backgroundScrubRead t)).modTile t fun T => { T with errs := [] }) t
    rw [he, hm, hv, tile_modTile_self]
    exact ⟨rfl, rfl, rfl⟩

/-- Settles O57: each step by the lemma that says what it comes to. -/
theorem monitorSteps : Obligations.MonitorSteps := ⟨systemSteps, recordSteps⟩

end Sys2Proof.Laws

/-! O19. The words that the spec writes out (R89, R92, R104, R224, R344). -/

namespace Sys2Proof.Laws

open Sys2Proof Sys2Proof.Machine

/-- Settles O19: each word is decoded. -/
theorem specWords : Obligations.SpecWords :=
  ⟨by decide, by decide, by decide, by decide, by decide, by decide, by decide, by decide, by decide, by decide⟩

end Sys2Proof.Laws

/-! SUPPORT and O4. The accesses of local space that trap MISALIGN or PROT (R81, R97): where the address is placed, and the forms
that place it. -/

namespace Sys2Proof.Laws

open Sys2Proof Sys2Proof.Machine

/-! ### Places of local space (R81, R97) -/

/-- Data lies in the partitions of Table 4.2 alone. -/
theorem reachable_of_dataOk {w : Word} {ofs len : Nat} (h : dataOk w ofs len = true) : Spec.reachable w ofs len := by
  unfold dataOk at h
  cases hk : partOf w ofs len with
  | none => simp [hk] at h
  | some k =>
    simp only [hk, Bool.or_eq_true, beq_iff_eq] at h
    have hin := List.find?_some hk
    simp only [decide_eq_true_eq] at hin
    obtain ⟨hbase, hlimit, -⟩ := hin
    rcases h with (rfl | rfl) | rfl
    · exact .inl ⟨hbase, hlimit⟩
    · exact .inr (.inl ⟨hbase, hlimit⟩)
    · exact .inr (.inr ⟨hbase, hlimit⟩)

/-- An address of local space that no tile's strand may use: it names neither the own store nor the window, or a range of the own
store that no partition of Table 4.2 holds. -/
def Forbidden (s : State) (x : Word) (len : Nat) : Prop :=
  Spec.namesNothing x ∨
    (s.cur.1 ≠ monitorTile ∧ Spec.namesOwn s x ∧ ¬ Spec.reachable (here s).v.partw (Spec.ofsOf x) len)

section
variable {s : State} {x : Word} {len : Nat} (wr : Bool)

theorem localPlace_misaligned (h : x.toNat % len ≠ 0) :
    localPlace s s.cur.1 s.cur.2 x len wr = .error (.trap .misalign 0) := if_pos h

theorem ownPlace_unreachable {ofs : Nat} (ht : s.cur.1 ≠ monitorTile) (h : ¬ Spec.reachable (here s).v.partw ofs len) :
    ownPlace s s.cur.1 s.cur.2 ofs len wr = .error (.trap .prot 0) := by
  have hok : ownOk s s.cur.1 ofs len = false := by
    rw [ownOk, if_neg ht, Bool.eq_false_iff]
    exact fun hd => h (reachable_of_dataOk hd)
  unfold ownPlace
  exact if_pos (by rw [hok]; rfl)

theorem localPlace_forbidden (ha : x.toNat % len = 0) (h : Forbidden s x len) :
    localPlace s s.cur.1 s.cur.2 x len wr = .error (.trap .prot 0) := by
  unfold localPlace
  dsimp only
  rw [if_neg (not_not.2 ha)]
  rcases h with ⟨hlow, hout⟩ | ⟨ht, hown, hr⟩
  · rw [if_neg (by omega), if_pos (by tauto)]
  · have hplace := ownPlace_unreachable wr ht hr
    by_cases hlow : x.toNat < 2 ^ 21
    · rw [if_pos hlow]; exact hplace
    · obtain ⟨-, hge, hlt, hpos⟩ := hown.resolve_left hlow
      rw [if_neg hlow, if_neg (not_or.2 ⟨by omega, not_or.2 ⟨by omega, ht⟩⟩), if_pos hpos]
      exact hplace

end

/-! ### Loads and stores whose place is refused -/

section
variable {s : State} {t : TileId} {n : StrandNo} {x : Word} {len : Nat} {a : Act}

theorem loadAct_of_refused (k : State → Nat → Nat → State) (h : localPlace s t n x len false = .error a) :
    loadAct s t n x len k = a := by
  rw [loadAct, h]

theorem storeAct_of_refused (k : WKind) {data : List Byte} (hlen : data.length = len)
    (h : localPlace s t n x len true = .error a) : storeAct s t n x k data = a := by
  rw [storeAct, hlen, h]

end

section
variable {s : State} {p : Pred} {a b : GSrc} {imm : BitVec 26} {c : Cause} {i : BitVec 32}

theorem ld_trap {wd : BitVec 3} {d : BitVec 5} (h : Ready s p .any [.g a] [.g d])
    (hp : localPlace s s.cur.1 s.cur.2 (Spec.ea s a imm) (Spec.bytesOfCode wd) false = .error (.trap c i)) :
    exec (.ld p wd d a imm) s = .next (trapTaken s 8 c i) :=
  (exec_ld ..).trans (issue_trap h (loadAct_of_refused _ hp))

theorem ldw_trap {w : BitVec 4} (h : Ready s p .any [.g a] [.w w])
    (hp : localPlace s s.cur.1 s.cur.2 (Spec.ea s a imm) 128 false = .error (.trap c i)) :
    exec (.ldw p w a imm) s = .next (trapTaken s 8 c i) :=
  (exec_ldw ..).trans (issue_trap h (loadAct_of_refused _ hp))

theorem st_trap {wd : BitVec 3} (h : Ready s p .any [.g a, .g b] [])
    (hp : localPlace s s.cur.1 s.cur.2 (Spec.ea s a imm) (Spec.bytesOfCode wd) true = .error (.trap c i)) :
    exec (.st p wd a b imm) s = .next (trapTaken s 8 c i) :=
  (exec_st ..).trans (issue_trap h (storeAct_of_refused _ (length_bytesOf ..) hp))

theorem st4_trap (h : Ready s p .any [.g a, .g b] [])
    (hp : localPlace s s.cur.1 s.cur.2 (Spec.ea s a imm) 1 true = .error (.trap c i)) :
    exec (.st4 p a b imm) s = .next (trapTaken s 8 c i) :=
  (exec_st4 ..).trans (issue_trap h (storeAct_of_refused _ rfl hp))

theorem stw_trap {w : WSrc} (h : Ready s p .any [.g a, .w w] [])
    (hp : localPlace s s.cur.1 s.cur.2 (Spec.ea s a imm) 128 true = .error (.trap c i)) :
    exec (.stw p a w imm) s = .next (trapTaken s 8 c i) :=
  (exec_stw ..).trans (issue_trap h (storeAct_of_refused _ (length_bytesOf ..) hp))

end

/-- Settles O4: each form places its address first, and a place that is refused is its trap. -/
theorem localAccessTraps : Obligations.LocalAccessTraps := by
  intro p wd d a b imm s n x bad
  exact ⟨fun h hx => ld_trap h (localPlace_misaligned _ hx), fun h ⟨ha, hf⟩ => ld_trap h (localPlace_forbidden _ ha hf),
    fun h hx => st_trap h (localPlace_misaligned _ hx), fun h ⟨ha, hf⟩ => st_trap h (localPlace_forbidden _ ha hf),
    fun h ⟨ha, hf⟩ => st4_trap h (localPlace_forbidden _ ha hf),
    fun _ h hx => ldw_trap h (localPlace_misaligned _ hx), fun _ h ⟨ha, hf⟩ => ldw_trap h (localPlace_forbidden _ ha hf),
    fun _ h hx => stw_trap h (localPlace_misaligned _ hx), fun _ h ⟨ha, hf⟩ => stw_trap h (localPlace_forbidden _ ha hf)⟩

end Sys2Proof.Laws

/-! SUPPORT and O38. The special registers (R90 to R92, Tables 4.4, 4.5): which numbers are assigned, what each reads, what a write
to it leaves. -/

namespace Sys2Proof.Laws

open Sys2Proof Sys2Proof.Machine

/-! ### Reads -/

/-- The numbers of Table 4.4 that are assigned. -/
def AssignedReg (r : Nat) : Prop :=
  r < 0x00E ∨ (0x010 ≤ r ∧ r < 0x016) ∨ r = 0x020 ∨ (0x040 ≤ r ∧ r < 0x04B) ∨ (0x100 ≤ r ∧ r < 0x140)

section
variable (s : State) (t : TileId) (n : StrandNo)

/-- The registers that stand in rows of their own in Table 4.4 but for a run of numbers: PBND, SST, ENBL. -/
theorem specialRead_run {r : Nat} (h : 0x00E ≤ r) (h20 : r ≠ 0x020) : specialRead s t n r =
    if 0x010 ≤ r ∧ r ≤ 0x015 then some (pbndOf (s.tile t).v.partw (r - 0x010))
    else if h : 0x040 ≤ r ∧ r ≤ 0x04A then some (sstOf s t n 8 ⟨r - 0x040, by omega⟩)
    else if 0x100 ≤ r ∧ r ≤ 0x13F then
      some ((enableMap s (s.tile t).ctx ((r - 0x100) / 16)).extractLsb' (64 * (r % 16)) 64)
    else none := by
  unfold specialRead
  split
  case h_16 => rfl
  all_goals omega

theorem specialRead_pbnd {k : Nat} (hk : k < 6) :
    specialRead s t n (0x010 + k) = some (pbndOf (s.tile t).v.partw k) := by
  rw [specialRead_run s t n (by omega) (by omega), if_pos (by omega), Nat.add_sub_cancel_left]

theorem specialRead_sst (m : StrandNo) : specialRead s t n (0x040 + m.val) = some (sstOf s t n 8 m) := by
  have hm := m.isLt
  rw [specialRead_run s t n (by omega) (by omega), if_neg (by omega), dif_pos (by omega)]
  simp only [Nat.add_sub_cancel_left]

theorem specialRead_enable {d w : Nat} (hd : d < 4) (hw : w < 16) :
    specialRead s t n (0x100 + 16 * d + w) = some ((enableMap s (s.tile t).ctx d).extractLsb' (64 * w) 64) := by
  rw [specialRead_run s t n (by omega) (by omega), if_neg (by omega), dif_neg (by omega), if_pos (by omega),
    show (0x100 + 16 * d + w - 0x100) / 16 = d by omega, show (0x100 + 16 * d + w) % 16 = w by omega]

theorem specialRead_none {r : Nat} (h : ¬ AssignedReg r) : specialRead s t n r = none := by
  unfold AssignedReg at h
  rw [specialRead_run s t n (by omega) (by omega), if_neg (by omega), dif_neg (by omega), if_neg (by omega)]

theorem specialRead_isSome {r : Nat} (h : AssignedReg r) : (specialRead s t n r).isSome = true := by
  unfold AssignedReg at h
  by_cases hrun : 0x00E ≤ r ∧ r ≠ 0x020
  · obtain ⟨hlow, h20⟩ := hrun
    rw [specialRead_run s t n hlow h20]
    split_ifs
    · rfl
    · rfl
    · rfl
    · omega
  · obtain hlow | rfl : r < 0x00E ∨ r = 0x020 := by omega
    · interval_cases r <;> rfl
    · rfl

end

/-- XB of a tile is the end of its code partition (R75). -/
theorem xbOf_tile {s : State} {t : TileId} (h : t ≠ monitorTile) :
    xbOf s t = 16384 * ((s.tile t).v.partw.toNat % 128) := by
  simp [xbOf, h, partLimit, partBase, granOf]

/-! ### SST (Table 4.5) -/

theorem stCode_lt (x : StrandSt) : stCode x < 16 := by cases x <;> decide

theorem waitCode_lt (w : Wait) : waitCode w < 16 := by cases w <;> simp [waitCode]

/-- The fields of a number with a part below 2^21, four bits from bit 24 and four from bit 28. -/
theorem fields_add {a b c : Nat} (ha : a < 16) (hb : b < 16) (hc : c < 2 ^ 21) : let x := a * 2 ^ 28 + b * 2 ^ 24 + c
    x % 2 ^ 21 = c ∧ x / 2 ^ 21 % 2 ^ 3 = 0 ∧ x / 2 ^ 32 % 2 ^ 32 = 0 ∧ x / 2 ^ 28 % 2 ^ 4 = a ∧ x < 2 ^ 64 := by
  intro x
  refine ⟨?_, ?_, ?_, ?_, ?_⟩
  all_goals omega

/-- The fields of SST; bits 63 to 32 and 23 to 21 are reserved. -/
theorem sstOf_fields (s : State) (t : TileId) (n : StrandNo) (len : Nat) (m : StrandNo) : let v := sstOf s t n len m
    v.extractLsb' 0 21 = (if m = n then successor (s.strand t m).pc len else (s.strand t m).pc) ∧
    v.extractLsb' 21 3 = 0 ∧ v.extractLsb' 32 32 = 0 ∧ (v.extractLsb' 28 4).toNat = stCode (s.strand t m).st := by
  unfold sstOf
  dsimp only
  generalize (if m = n then successor (s.strand t m).pc len else (s.strand t m).pc) = pc
  obtain ⟨hpc, hlow, hhigh, hst, hlt⟩ := fields_add (stCode_lt (s.strand t m).st) (waitCode_lt (s.strand t m).wait) pc.isLt
  have hfield (lo w : Nat) := BitVec.extractLsb'_toNat lo w
    (BitVec.ofNat 64 (stCode (s.strand t m).st * 2 ^ 28 + waitCode (s.strand t m).wait * 2 ^ 24 + pc.toNat))
  simp only [BitVec.toNat_ofNat, Nat.mod_eq_of_lt hlt, Nat.shiftRight_eq_div_pow] at hfield
  exact ⟨BitVec.eq_of_toNat_eq ((hfield 0 21).trans (by rw [pow_zero, Nat.div_one]; exact hpc)),
    BitVec.eq_of_toNat_eq ((hfield 21 3).trans hlow), BitVec.eq_of_toNat_eq ((hfield 32 32).trans hhigh),
    (hfield 28 4).trans hst⟩

/-! ### mfs -/

section
variable {s : State} {p : Pred} {d : BitVec 5} {r : BitVec 12}

theorem mfs_next {v : Word} (h : Ready s p .any [] [.g d]) (hv : specialRead s s.cur.1 s.cur.2 r.toNat = some v) :
    exec (.mfs p d r) s = .next (retired s (putG s d v) 8) := by
  refine (exec_mfs ..).trans (issue_done h ?_)
  simp only [hv]
  rfl

theorem mfs_illegal (h : Ready s p .any [] [.g d]) (hr : ¬ AssignedReg r.toNat) :
    exec (.mfs p d r) s = .next (trapTaken s 8 .illegal 0) := by
  refine (exec_mfs ..).trans (issue_trap h ?_)
  simp only [specialRead_none _ _ _ hr]

end

/-- `mfs` of an SST: the own one by either of its numbers, or that of a strand of the tile. -/
theorem mfs_sst {s : State} {p : Pred} {d : BitVec 5} {r : BitVec 12} {m : StrandNo} (h : Ready s p .any [] [.g d])
    (hm : (r = 0x020 ∧ m = s.cur.2) ∨ r.toNat = 0x040 + m.val) :
    exec (.mfs p d r) s = .next (retired s (putG s d (sstOf s s.cur.1 s.cur.2 8 m)) 8) := by
  refine mfs_next h ?_
  rcases hm with ⟨rfl, rfl⟩ | hr
  · rfl
  · rw [hr, specialRead_sst]

theorem specialRegisterReads : Spec.SpecialRegisterReads := by
  intro p d r s h reads T S
  refine ⟨?_, ?_, ?_, ?_, ?_, ?_, ?_, ?_, ?_, ?_, ?_, ?_, ?_, ?_, ?_, ?_, ?_, ?_⟩
  case refine_5 =>
    rintro rfl ht
    exact mfs_next h (congrArg (fun x => some (BitVec.ofNat 64 x)) (xbOf_tile ht))
  case refine_15 =>
    intro m hm
    obtain ⟨hpc, hlow, hhigh, hst⟩ := sstOf_fields s s.cur.1 s.cur.2 8 m
    refine ⟨_, mfs_sst h hm, ?_, hlow, hhigh, hst⟩
    rw [hpc]
    split
    next hself => subst m; rfl
    next => rfl
  case refine_16 =>
    intro k w hk hw hr
    exact mfs_next h (hr ▸ specialRead_enable _ _ _ hk hw)
  case refine_17 =>
    intro k hk hr
    exact mfs_next h (hr ▸ specialRead_pbnd _ _ _ hk)
  case refine_18 =>
    intro hr
    exact mfs_illegal h (by unfold AssignedReg; omega)
  all_goals
    rintro rfl
    exact mfs_next h rfl

/-! ### mts -/

/-- R92: a write to a register that is wholly read-only has no effect. -/
theorem specialWrite_readOnly (s : State) (t : TileId) (n : StrandNo) {r : Nat} (v : Word)
    (h : r ≠ 5 ∧ r ≠ 6 ∧ r ≠ 7 ∧ r ≠ 8 ∧ r ≠ 0xC) : specialWrite s t n r v = s := by
  unfold specialWrite
  split
  case h_6 => rfl
  all_goals omega

section
variable {s : State} {p : Pred} {a : GSrc} {r : BitVec 12}

/-- A register that is strand 0's asks for no more than the checks of any form and the strand's number. -/
theorem ready_mts (h : Ready s p .any [.g a] []) (hz : mtsWho r.toNat = .zero → s.cur.2.val = 0) :
    Ready s p (mtsWho r.toNat) [.g a] [] := by
  obtain ⟨hp, -, hfull, hstr, hfree, hroom, hearly⟩ := h
  refine ⟨hp, ?_, hfull, hstr, hfree, hroom, hearly⟩
  unfold mtsWho at hz ⊢
  split
  next hr => exact hz (if_pos hr)
  next => trivial

/-- Is a value a code address (R92)? -/
def CodeAddr (s : State) (v : Word) : Prop := v.toNat % 4 = 0 ∧ v.toNat % 2 ^ 21 < xbOf s s.cur.1

theorem mts_next (h : Ready s p (mtsWho r.toNat) [.g a] []) (hr : AssignedReg r.toNat)
    (hcode : r.toNat = 5 ∨ r.toNat = 6 ∨ r.toNat = 8 → CodeAddr s (gOf s a)) :
    exec (.mts p a r) s = .next (retired s (specialWrite s s.cur.1 s.cur.2 r.toNat (gOf s a)) 8) := by
  have hsome := specialRead_isSome s s.cur.1 s.cur.2 hr
  refine (exec_mts ..).trans (issue_done h ?_)
  refine (if_neg ?_).trans (if_neg fun ⟨hk, hbad⟩ => ?_)
  · rw [Option.isNone_iff_eq_none, ← Option.not_isSome_iff_eq_none, not_not]
    exact hsome
  · obtain ⟨h4, hx⟩ := hcode hk
    exact hbad.elim (fun hne => hne h4) (fun hle => absurd hx (Nat.not_lt.2 hle))

/-- A register that takes code addresses only, with another value. -/
theorem mts_prot (h : Ready s p (mtsWho r.toNat) [.g a] []) (hr : r.toNat = 5 ∨ r.toNat = 6 ∨ r.toNat = 8)
    (hcode : ¬ CodeAddr s (gOf s a)) : exec (.mts p a r) s = .next (trapTaken s 8 .prot 0) := by
  have hsome := specialRead_isSome s s.cur.1 s.cur.2 (show AssignedReg r.toNat from .inl (by omega))
  refine (exec_mts ..).trans (issue_trap h ?_)
  refine (if_neg ?_).trans (if_pos ⟨hr, ?_⟩)
  · rw [Option.isNone_iff_eq_none, ← Option.not_isSome_iff_eq_none, not_not]
    exact hsome
  · rw [CodeAddr, not_and_or, Nat.not_lt] at hcode
    exact hcode

/-- R55 check 8: OVB, TVEC and IDLW are strand 0's. -/
theorem mts_priv (hr : mtsWho r.toNat = .zero) (hz : s.cur.2.val ≠ 0) (hp : predTrue (self s) p = true) :
    exec (.mts p a r) s = .next (trapTaken s 8 .priv 0) := by
  have ho : Spec.operands (.mts p a r) = some (p, 8, mtsWho r.toNat, [.g a], []) := rfl
  exact exec_of_checkIssue ho (checkIssue_priv hp (.inr ⟨.inr hr, hz⟩))

end

theorem specialRegisterWrites : Spec.SpecialRegisterWrites := by
  refine ⟨fun p a r s hr hz hp => mts_priv ?_ hz hp, ?_⟩
  · rcases hr with rfl | rfl | rfl <;> rfl
  intro p a r s h v leaves code
  refine ⟨?_, ?_, ?_, ?_, ?_, fun hr hcode => ?_, fun hr => ?_⟩
  · rintro rfl hz hc
    exact mts_next (ready_mts h fun _ => hz) (.inl (by decide)) fun _ => hc
  · rintro rfl hz hc
    exact mts_next (ready_mts h fun _ => hz) (.inl (by decide)) fun _ => hc
  · rintro rfl
    exact mts_next (ready_mts h fun hk => absurd hk (by decide)) (.inl (by decide)) fun hk => absurd hk (by decide)
  · rintro rfl hc
    exact mts_next (ready_mts h fun hk => absurd hk (by decide)) (.inl (by decide)) fun _ => hc
  · rintro rfl hz
    exact mts_next (ready_mts h fun _ => hz) (.inl (by decide)) fun hk => absurd hk (by decide)
  · rcases hr with rfl | ⟨rfl | rfl, hz⟩
    · exact mts_prot (ready_mts h fun hk => absurd hk (by decide)) (by decide) hcode
    · exact mts_prot (ready_mts h fun _ => hz) (by decide) hcode
    · exact mts_prot (ready_mts h fun _ => hz) (by decide) hcode
  · have hnum : AssignedReg r.toNat ∧ r.toNat ≠ 5 ∧ r.toNat ≠ 6 ∧ r.toNat ≠ 7 ∧ r.toNat ≠ 8 ∧ r.toNat ≠ 0xC := by
      simp only [← BitVec.toNat_inj, BitVec.ofNat_eq_ofNat, BitVec.toNat_ofNat] at hr
      unfold AssignedReg
      omega
    obtain ⟨hass, hro⟩ := hnum
    have hany : mtsWho r.toNat = .any := if_neg (by omega)
    have hnext := mts_next (ready_mts h (by simp [hany])) hass (by omega)
    rwa [specialWrite_readOnly _ _ _ _ hro] at hnext

/-- Settles O38: a read answers the register's row of Table 4.5, a write keeps the writable bits. -/
theorem specialRegisters : Obligations.SpecialRegisters := ⟨specialRegisterReads, specialRegisterWrites⟩

end Sys2Proof.Laws

/-! SUPPORT and O43. Helpers (R82, R114, R115, Table 5.1) and overlay loads (R89). -/

namespace Sys2Proof.Laws

open Sys2Proof Sys2Proof.Machine

/-! ### Strands through updates of their tile -/

/-- A change of a tile that leaves its strands leaves every strand. -/
theorem strand_modTile (s : State) (t u : TileId) (m : StrandNo) {f : Tile → Tile}
    (hf : (f (s.tile t)).strands = (s.tile t).strands) : (s.modTile t f).strand u m = s.strand u m := by
  simp only [State.strand, tile_modTile]
  split
  · subst u; simp only [hf]
  · rfl

/-- A fold of steps that leave a strand leaves it. -/
theorem strand_foldl {α : Type} {f : State → α → State} {u : TileId} {m : StrandNo}
    (hf : ∀ s x, (f s x).strand u m = s.strand u m) (l : List α) (s : State) :
    (l.foldl f s).strand u m = s.strand u m := by
  induction l generalizing s with
  | nil => rfl
  | cons x l ih => exact (ih (f s x)).trans (hf s x)

theorem strand_clearLock (s : State) (t u : TileId) (m : StrandNo) (h : BitVec 8) :
    (clearLock s t h).strand u m = s.strand u m := by
  unfold clearLock
  dsimp only
  split
  · rw [post_strand, strand_modTile _ _ _ _ rfl]
  · rw [strand_modTile _ _ _ _ rfl]

theorem strand_dropLocks (s : State) (t u : TileId) (n m : StrandNo) :
    (dropLocks s t n).strand u m = s.strand u m :=
  strand_foldl (fun s _ => strand_foldl (fun s _ => strand_clearLock s _ u m _) _ s) _ s

theorem strand_forgetOwed (s : State) (t u : TileId) (n m : StrandNo) :
    (forgetOwed s t n).strand u m = s.strand u m := strand_modTile _ _ _ _ rfl

/-! ### `start` (R114) -/

/-- A helper's number is one of 1 to 10. -/
theorem helperNo_eq {k : StrandNo} {h : BitVec 6} (hk : k.val = h.toNat) : Fin.ofNat 11 h.toNat = k :=
  Fin.ext (hk ▸ Nat.mod_eq_of_lt k.isLt)

theorem strandExists_iff (s : State) (t : TileId) (k : StrandNo) :
    strandExists s t k.val = true ↔ 4096 * (k.val + 1) ≤ granOf (s.tile t).v.partw 1 * 16384 := by
  simp [strandExists]

/-- A helper after `start`: its argument in g1, every other register zero and full, no stream bound. -/
theorem startedStrand_spec (S : Strand) (pc : BitVec 21) (arg : Word) (nb : Nat) : let S' := startedStrand S pc arg nb
    S'.st = .started ∧ S'.pc = pc ∧ S'.notBefore = nb ∧ (∀ r, S'.rg r = if r = 1 then arg else 0) ∧ (∀ r, S'.rw r = 0) ∧
      (∀ r, r ≠ 0 → S'.rp r = false) ∧ (∀ d, S'.isEmpty d = false) ∧ (∀ i : Fin 8, S'.q[i].valid = false) ∧
      S'.inHandler = false := by
  refine ⟨rfl, rfl, rfl, fun r => ?_, fun r => ?_, fun r hr => ?_, fun d => ?_, fun i => ?_, rfl⟩
  · by_cases h1 : r = 1
    · subst r; rfl
    · have hne : (1 : Nat) ≠ r.toNat := fun he => h1 (BitVec.eq_of_toNat_eq he.symm)
      rw [if_neg h1]
      simp [Strand.rg, startedStrand, Vector.getElem_set_ne _ _ hne]
  · simp [Strand.rw, startedStrand]
  · rw [Strand.rp, beq_false_of_ne hr]
    exact BitVec.getLsbD_zero
  · cases d <;> simp [Strand.isEmpty, startedStrand]
  · simp [startedStrand]

section
variable {s : State} {p : Pred} {h : BitVec 6} {a : GSrc} {imm : BitVec 26} {k : StrandNo}

theorem start_illegal (hr : Ready s p .control [.g a] []) (hh : h.toNat = 0 ∨ 10 < h.toNat) :
    exec (.start p h a imm) s = .next (trapTaken s 8 .illegal 0) :=
  (exec_start ..).trans (issue_trap hr (if_pos hh))

/-- The number of a strand but 0 is that of a helper. -/
theorem helperNo_legal (hk : k.val = h.toNat) (h0 : k.val ≠ 0) : ¬ (h.toNat = 0 ∨ 10 < h.toNat) := by
  have := k.isLt
  omega

theorem start_prot (hr : Ready s p .control [.g a] []) (hk : k.val = h.toNat) (h0 : k.val ≠ 0)
    (hno : granOf (here s).v.partw 1 * 16384 < 4096 * (k.val + 1) ∨
      ((s.strand s.cur.1 k).st ≠ .free ∧ (s.strand s.cur.1 k).st ≠ .halted)) :
    exec (.start p h a imm) s = .next (trapTaken s 8 .prot 0) := by
  refine (exec_start ..).trans (issue_trap hr ((if_neg (helperNo_legal hk h0)).trans (if_pos ?_)))
  rw [helperNo_eq hk, ← hk, Bool.not_eq_true', ← Bool.not_eq_true, strandExists_iff, Nat.not_le]
  exact hno

theorem start_started (hr : Ready s p .control [.g a] []) (hk : k.val = h.toNat) (h0 : k.val ≠ 0)
    (hex : 4096 * (k.val + 1) ≤ granOf (here s).v.partw 1 * 16384)
    (hst : (s.strand s.cur.1 k).st = .free ∨ (s.strand s.cur.1 k).st = .halted) :
    exec (.start p h a imm) s = .next (retired s ((Spec.fetchesDropped s s.cur.1 k).modStrand s.cur.1 k fun S =>
      startedStrand S (branchTarget (self s).pc imm) (gOf s a) (s.cycle + 2)) 8) := by
  refine (exec_start ..).trans (issue_done hr ((if_neg (helperNo_legal hk h0)).trans ((if_neg ?_).trans ?_)))
  · rw [helperNo_eq hk, ← hk, Bool.not_eq_true', ← Bool.not_eq_true, strandExists_iff]
    exact not_or.2 ⟨not_not.2 hex, fun ⟨hfree, hhalt⟩ => hst.elim hfree hhalt⟩
  · rw [helperNo_eq hk]
    rfl

/-! ### `hstop` (R115) -/

theorem stopHelper_idle (hst : (s.strand s.cur.1 k).st = .free ∨ (s.strand s.cur.1 k).st = .halted) :
    stopHelper s s.cur.1 k = s := if_pos hst

theorem hstop_next (hr : Ready s p .control [] []) (hk : k.val = h.toNat) (h0 : k.val ≠ 0) :
    exec (.hstop p h) s = .next (retired s (stopHelper s s.cur.1 k) 8) := by
  refine (exec_hstop ..).trans (issue_done hr ((if_neg (helperNo_legal hk h0)).trans ?_))
  rw [helperNo_eq hk]

end

section
variable (s : State) (t : TileId) (k : StrandNo)

/-- Stopping a helper leaves the tile's other strands. -/
theorem strand_stopHelper_of_ne {m : StrandNo} (hm : m ≠ k) : (stopHelper s t k).strand t m = s.strand t m := by
  unfold stopHelper
  dsimp only
  split
  · rfl
  · rw [strand_dropLocks, strand_forgetOwed, strand_modStrand_of_ne _ _ (.inr hm)]

/-- A helper after `hstop`: HALTED, or FREE as it was. -/
theorem strand_stopHelper_self : ((stopHelper s t k).strand t k).st = .halted ∨
    ((stopHelper s t k).strand t k = s.strand t k ∧ (s.strand t k).st = .free) := by
  unfold stopHelper
  dsimp only
  split
  next hst => exact hst.elim (fun hfree => .inr ⟨rfl, hfree⟩) .inl
  next =>
    left
    rw [strand_dropLocks, strand_forgetOwed, strand_modStrand_self]

end

/-- `hstop` at one strand of a tile, strand 0 left out. -/
def stopStep (t : TileId) (s : State) (k : StrandNo) : State := if k.val = 0 then s else stopHelper s t k

section
variable {t : TileId} {k : StrandNo}

theorem strand_stopStep_of_ne (s : State) {m : StrandNo} (hm : m ≠ k ∨ k.val = 0) :
    (stopStep t s k).strand t m = s.strand t m := by
  unfold stopStep
  split
  · rfl
  next h0 => exact strand_stopHelper_of_ne s t k (hm.resolve_right h0)

/-- Strands that are not in the list stay as they are. -/
theorem strand_foldl_stopStep {l : List StrandNo} (hl : k ∉ l ∨ k.val = 0) (s : State) :
    (l.foldl (stopStep t) s).strand t k = s.strand t k := by
  induction l generalizing s with
  | nil => rfl
  | cons x l ih =>
    refine (ih (hl.imp_left fun h hx => h (List.mem_cons_of_mem _ hx)) _).trans (strand_stopStep_of_ne s ?_)
    by_cases hx : k = x
    · exact .inr (hx ▸ hl.resolve_left fun h => h (hx ▸ List.mem_cons_self))
    · exact .inl hx

/-- Each strand of a list but strand 0 is stopped. -/
theorem foldl_stopStep_stopped {l : List StrandNo} (hl : l.Nodup) (hk : k ∈ l) (h0 : k.val ≠ 0) (s : State) :
    ((l.foldl (stopStep t) s).strand t k).st = .halted ∨
      ((l.foldl (stopStep t) s).strand t k = s.strand t k ∧ (s.strand t k).st = .free) := by
  induction l generalizing s with
  | nil => cases hk
  | cons x l ih =>
    obtain ⟨hx, hl⟩ := List.nodup_cons.1 hl
    rw [List.foldl_cons]
    by_cases hkx : k = x
    · subst k
      rw [strand_foldl_stopStep (.inl hx), stopStep, if_neg h0]
      exact strand_stopHelper_self s t x
    · have hrest := ih hl ((List.mem_cons.1 hk).resolve_left hkx) (stopStep t s x)
      rwa [strand_stopStep_of_ne s (.inl hkx)] at hrest

end

theorem hstopAll_next {s : State} {p : Pred} (hr : Ready s p .control [] []) :
    exec (.hstopAll p) s = .next (retired s ((List.finRange 11).foldl (stopStep s.cur.1) s) 8) :=
  (exec_hstopAll ..).trans (issue_done hr rfl)

theorem helpers : Spec.Helpers := by
  refine ⟨fun p h a imm s hr => ⟨start_illegal hr, fun k hk h0 => ⟨start_prot hr hk h0, fun hex hst => ?_⟩⟩,
    fun p h s hr k hk h0 => ⟨fun hst => ?_, fun hfree hhalt => ?_⟩, fun p s hr => ⟨_, hstopAll_next hr, fun k h0 => ?_, ?_⟩⟩
  · refine ⟨_, start_started hr hk h0 hex hst, ?_⟩
    rw [← branchTarget_eq]
    exact startedStrand_spec _ _ _ _
  · rw [hstop_next hr hk h0, stopHelper_idle hst]
  · rw [hstop_next hr hk h0]
    exact congrArg (fun x => Host.Outcome.next (retired s x 8)) (if_neg (not_or.2 ⟨hfree, hhalt⟩))
  · exact foldl_stopStep_stopped (List.nodup_finRange 11) (List.mem_finRange k) h0 s
  · exact strand_foldl_stopStep (.inr rfl) s

/-! ### The issue of an overlay load (R89) -/

section
variable {s : State} {hbm : Bool} {src len : Word} {ct : BitVec 4} {base : Nat}

theorem ovlAct_illegal (h : base % 32 ≠ 0 ∨ 2 ^ 21 ≤ base) : ovlAct s s.cur.1 s.cur.2 hbm src len ct base = .trap .illegal 0 :=
  if_pos h

theorem ovlAct_prot (h32 : base % 32 = 0) (h21 : base < 2 ^ 21)
    (h : len.toNat = 0 ∨ len.toNat % 32 ≠ 0 ∨ xbOf s s.cur.1 < base + len.toNat) :
    ovlAct s s.cur.1 s.cur.2 hbm src len ct base = .trap .prot 0 :=
  (if_neg (by omega)).trans (if_pos h)

/-- The tile after an overlay load has been taken, its completion due after a cycle for each 256 bytes. -/
def ovlTaken (s : State) (hbm : Bool) (src len : Word) (ct : BitVec 4) (base : Nat) : State :=
  (s.modTile s.cur.1 (fun T => { T with
    ovls := T.ovls ++ [{ id := (here s).ovlNo, base := base, len := len.toNat, src := src, hbm := hbm, ct := ct,
                         strand := s.cur.2, pc := (self s).pc, slot := (here s).slot }]
    ovlNo := T.ovlNo + 1 })).post ((len.toNat + 255) / 256) (.ovlDone s.cur.1 (here s).ovlNo)

/-- A load whose range meets no other one is not held up. -/
theorem ovlMeets_false {T : Tile} {l : Nat} (h : ∀ o ∈ T.ovls, o.base + o.len ≤ base ∨ base + l ≤ o.base) :
    ovlMeets T base l = false := by
  rw [ovlMeets, List.any_eq_false]
  intro o ho
  have := h o ho
  rw [meets, decide_eq_true_eq]
  omega

/-- A load of a legal range of the code partition from a legal source. -/
theorem ovlAct_taken (h32 : base % 32 = 0) (h21 : base < 2 ^ 21) (hpos : 0 < len.toNat) (hl32 : len.toNat % 32 = 0)
    (hxb : base + len.toNat ≤ xbOf s s.cur.1)
    (hsrc : if hbm then src.toNat < 2 ^ 51 else src.toNat < 2 ^ 21 ∧ ownOk s s.cur.1 src.toNat len.toNat = true)
    (hmeet : ∀ o ∈ (here s).ovls, o.base + o.len ≤ base ∨ base + len.toNat ≤ o.base) (htwo : (here s).ovls.length < 2) :
    ovlAct s s.cur.1 s.cur.2 hbm src len ct base = .done (ovlTaken s hbm src len ct base) := by
  have hfree : ¬ (ovlMeets (s.tile s.cur.1) base len.toNat = true ∨ 2 ≤ (s.tile s.cur.1).ovls.length) := by
    rw [show ovlMeets (s.tile s.cur.1) base len.toNat = false from ovlMeets_false hmeet]
    exact not_or.2 ⟨Bool.false_ne_true, Nat.not_le.2 htwo⟩
  unfold ovlAct
  dsimp only
  rw [if_neg (by omega), if_neg (by omega)]
  cases hbm with
  | false =>
    obtain ⟨hlow, hok⟩ := hsrc
    rw [decide_eq_true hlow, hok, if_neg (by simp), if_neg (by simp), if_neg hfree]
    rfl
  | true =>
    have hlow : src.toNat < 2 ^ 51 := hsrc
    rw [if_neg (by simp), if_neg (by simpa using hlow), if_neg hfree]
    rfl

end

/-- A source in the own store that R81 lets pass. -/
theorem ownOk_of_reachable {s : State} {ofs len : Nat} (ht : s.cur.1 ≠ monitorTile) (hlen : 0 < len)
    (h : Spec.reachable (here s).v.partw ofs len) : ownOk s s.cur.1 ofs len = true := by
  rw [ownOk, if_neg ht]
  exact dataOk_of_reachable hlen h

/-! ### OVL_DONE (R89) -/

/-- What a write by another agent notes of watchpoints changes the watchpoints alone. -/
theorem watchRecord_eq (v : VRegs) (ofs len src : Nat) (id : BitVec 20) (strand : Nat) :
    ∃ w k, watchRecord v ofs len src id strand = { v with wpt := w, wptNew := k } := by
  unfold watchRecord
  generalize List.range 4 = l
  induction l generalizing v with
  | nil => exact ⟨_, _, rfl⟩
  | cons x l ih =>
    rw [List.foldl_cons]
    obtain ⟨w, k, h⟩ := ih _
    refine ⟨w, k, h.trans ?_⟩
    split
    · split
      · rfl
      · rfl
    · rfl

@[simp] theorem watchRecord_c (v : VRegs) (ofs len src : Nat) (id : BitVec 20) (strand : Nat) :
    (watchRecord v ofs len src id strand).c = v.c := by
  obtain ⟨w, k, h⟩ := watchRecord_eq v ofs len src id strand
  rw [h]

/-- A write to sound words leaves the soft errors as they are. -/
theorem eccWrite_of_sound {s : State} {t : TileId} (h : (s.tile t).errs = []) (a len : Nat) :
    eccWrite s t a len = (s, true) := by
  simp [eccWrite, h]

/-- Waking strands leaves a tile's memory, its registers and its overlay loads. -/
theorem wakeOvl_keeps (s : State) (t : TileId) : ((wakeOvl s t).tile t).mem = (s.tile t).mem ∧
    ((wakeOvl s t).tile t).v = (s.tile t).v ∧ ((wakeOvl s t).tile t).ovls = (s.tile t).ovls := by
  unfold wakeOvl
  generalize List.finRange 11 = l
  induction l generalizing s with
  | nil => exact ⟨rfl, rfl, rfl⟩
  | cons x l ih =>
    rw [List.foldl_cons]
    obtain ⟨hmem, hv, hovls⟩ := ih _
    refine ⟨hmem.trans ?_, hv.trans ?_, hovls.trans ?_⟩
    all_goals
      dsimp only
      split
      · rw [wake, tile_modStrand_self]; rfl
      · rfl

/-- An overlay load that lands in a store without soft errors, in the resident slot. -/
theorem landOvl_spec {s : State} {t : TileId} {o : Ovl} (bs : List Byte) (herr : (s.tile t).errs = [])
    (hslot : o.slot = (s.tile t).slot) : let s' := landOvl s t o bs
    (s'.tile t).mem = (s.tile t).mem.store o.base bs ∧
      (s'.tile t).v.c[o.ct.toNat] = (s.tile t).v.c[o.ct.toNat] + 1 ∧
      (s'.tile t).ovls = (s.tile t).ovls.filter (fun x => x.id != o.id) := by
  intro s'
  obtain ⟨hmem, hv, hovls⟩ := wakeOvl_keeps ((modSlot (s.modTile t (fun T =>
    { T with mem := T.mem.store o.base bs, v := watchRecord T.v o.base o.len 1 (BitVec.ofNat 20 (posOf t)) o.strand.val }))
    t o.slot (fun v => v.raise o.ct 1)).modTile t (fun T => { T with ovls := T.ovls.filter (fun x => x.id != o.id) })) t
  have hs' : s' = wakeOvl ((modSlot (s.modTile t (fun T =>
    { T with mem := T.mem.store o.base bs, v := watchRecord T.v o.base o.len 1 (BitVec.ofNat 20 (posOf t)) o.strand.val }))
    t o.slot (fun v => v.raise o.ct 1)).modTile t (fun T => { T with ovls := T.ovls.filter (fun x => x.id != o.id) })) t := by
    simp only [s', landOvl, eccWrite_of_sound herr, dropOvl]
  rw [hs', hmem, hovls]
  simp only [hv]
  simp [modSlot, hslot, VRegs.raise]

theorem execOvlDone_own {s : State} {t : TileId} {o : Ovl} (hev : s.ev = some (.ovlDone t o.id))
    (hfind : (s.tile t).ovls.find? (fun x => x.id == o.id) = some o) (hhbm : o.hbm = false) (herr : (s.tile t).errs = []) :
    execOvlDone s = .next (landOvl s t o ((s.tile t).mem.bytes (poolAddr (s.tile t).v.partw o.slot o.src.toNat) o.len)) := by
  unfold execOvlDone
  simp only [hev, hfind, hhbm, eccRead_of_sound herr, Bool.not_false, if_true]

theorem overlays : Spec.Overlays := by
  refine ⟨?_, fun o t s hfind hhbm herr hslot =>
    ⟨_, (exec_ovlDone _).trans (execOvlDone_own rfl hfind hhbm herr), landOvl_spec _ herr hslot⟩⟩
  intro p a b ct base s hr l free load taken
  refine ⟨fun hb => ⟨?_, ?_⟩, fun h32 h21 => ⟨fun hl => ⟨?_, ?_⟩, fun hpos hl32 hxb ⟨hmeet, htwo⟩ =>
    ⟨fun ht hsrc hreach => ?_, fun hsrc => ?_⟩⟩⟩
  · exact (exec_ovlLoc ..).trans (issue_trap hr (ovlAct_illegal hb))
  · exact (exec_ovlHbm ..).trans (issue_trap hr (ovlAct_illegal hb))
  · exact (exec_ovlLoc ..).trans (issue_trap hr (ovlAct_prot h32 h21 hl))
  · exact (exec_ovlHbm ..).trans (issue_trap hr (ovlAct_prot h32 h21 hl))
  · exact (exec_ovlLoc ..).trans (issue_done hr
      (ovlAct_taken h32 h21 hpos hl32 hxb ⟨hsrc, ownOk_of_reachable ht hpos hreach⟩ hmeet htwo))
  · exact (exec_ovlHbm ..).trans (issue_done hr (ovlAct_taken h32 h21 hpos hl32 hxb hsrc hmeet htwo))

/-- Settles O43: the helpers, and the overlay loads. -/
theorem helpersAndOverlays : Obligations.HelpersAndOverlays := ⟨helpers, overlays⟩

end Sys2Proof.Laws

/-! SUPPORT. What a strand that takes a precise trap is left with (R347, R348, Table 5.1), in the words of the statements. -/

namespace Sys2Proof.Laws

open Sys2Proof Sys2Proof.Machine

/-- A trap is handled where the strand is in no handler and the vector names one (R347, R348). -/
theorem trapHandled_iff (T : Tile) (S : Strand) (c : Cause) : trapHandled T S c = true ↔ Spec.handled T S c := by
  have hvec : (decide (T.v.tvec.extractLsb' 0 21 ≠ 0) = true) = (T.v.tvec.toNat % 2 ^ 21 ≠ 0) := by
    rw [decide_eq_true_eq, ← BitVec.setWidth_eq_extractLsb' (by decide), ne_eq, ← BitVec.toNat_inj, BitVec.toNat_setWidth]
    rfl
  unfold trapHandled Spec.handled
  rw [Bool.and_eq_true, Bool.not_eq_true']
  refine and_congr_right fun _ => ?_
  split
  · exact Iff.rfl
  · exact hvec.to_iff

/-- TCAUSE of a precise trap as one number (Table 4.5). -/
theorem tcauseOf_precise (i : BitVec 32) (c : Cause) :
    tcauseOf false i c = BitVec.ofNat 64 (i.toNat * 256 + (Cause.code c).toNat) := by
  have hi := i.isLt
  have hc := (Cause.code c).isLt
  have hhigh : (i.setWidth 64 <<< (8 : Nat)).toNat = i.toNat <<< 8 := by
    simp only [BitVec.toNat_shiftLeft, BitVec.toNat_setWidth, Nat.shiftLeft_eq]
    omega
  have hzero : (BitVec.ofBool false).setWidth 64 <<< (63 : Nat) = 0#64 := by decide
  apply BitVec.eq_of_toNat_eq
  rw [tcauseOf, hzero, BitVec.zero_or, BitVec.toNat_or, hhigh, BitVec.toNat_setWidth, Nat.mod_eq_of_lt (by omega),
    ← Nat.shiftLeft_add_eq_or_of_lt hc, BitVec.toNat_ofNat, Nat.shiftLeft_eq]
  omega

section
variable {s s' : State} {t : TileId} {n : StrandNo} {c : Cause} {i : BitVec 32} {ret : BitVec 21}

/-- A vote leaves a trap that has been taken. -/
theorem TrapEntered.vote (h : Spec.TrapEntered s s' t n c i ret) (c' : Cause) (k : Nat) (pc : BitVec 21) (i' : BitVec 32) :
    Spec.TrapEntered s (vote s' t c' k pc i') t n c i ret := by
  have hrest := congrArg State.cycle (vote_rest s' t c' k pc i')
  have hhbm := congrArg State.hbm (vote_rest s' t c' k pc i')
  have htier := congrArg State.tier (vote_rest s' t c' k pc i')
  have hgalley : ((Machine.vote s' t c' k pc i').tile t).galley = (s'.tile t).galley := by
    rcases vote_cases s' t c' k pc i' with e | e <;> simp [e]
  obtain ⟨htc, hpc, hgoes, hstops, hregs, hstrands, hcount, ⟨hmem, hgal⟩, hothers, hh, ht, hclock, hrec⟩ := h
  refine ⟨?_, ?_, ?_, ?_, ?_, fun m hm => ?_, ?_, ?_, fun u hu => ?_, hhbm.trans hh, htier.trans ht, hrest.trans hclock, ?_⟩
  · rwa [vote_strand]
  · rwa [vote_strand]
  · rwa [vote_strand]
  · rwa [vote_strand]
  · rwa [vote_strand]
  · rw [vote_strand, hstrands m hm]
  · rwa [vote_c]
  · rw [vote_mem, hgalley]; exact ⟨hmem, hgal⟩
  · rw [vote_tile_of_ne _ _ _ _ _ hu, hothers u hu]
  · rwa [vote_agenda]

/-- What the strand is left with, when only the strand has changed and, where it is TRAPPED, its record is on its way. -/
theorem trapEntered_of_strand {S : Strand} {ag : List (Nat × Ev)}
    (htc : S.tcause = tcauseOf false i c) (hpc : S.trappc = ret.setWidth 64)
    (hregs : S.g = (s.strand t n).g ∧ S.w = (s.strand t n).w ∧ S.p = (s.strand t n).p ∧ S.q = (s.strand t n).q ∧
      S.gE = (s.strand t n).gE ∧ S.wE = (s.strand t n).wE)
    (hgoes : trapHandled (s.tile t) (s.strand t n) c = true → S.st = .ready ∧ S.inHandler = true ∧
      S.notBefore = s.cycle + 1 ∧
      S.pc = if c = .overlay then (s.tile t).v.ovb.setWidth 21 else (s.tile t).v.tvec.setWidth 21)
    (hstops : trapHandled (s.tile t) (s.strand t n) c = false → S.st = .trapped ∧ S.pc = (s.strand t n).pc ∧
      S.inHandler = (s.strand t n).inHandler ∧ ∃ r : TrapRec, r.code = Cause.code c ∧ r.strand.toNat = n.val ∧ r.pc = ret ∧
        r.info = i ∧ r.defer = false ∧ ag = (s.post 1 (.trapRecordArrival r)).agenda) :
    Spec.TrapEntered s { s.modStrand t n (fun _ => S) with agenda := ag } t n c i ret := by
  have hself : State.strand { s.modStrand t n (fun _ => S) with agenda := ag } t n = S := strand_modStrand_self ..
  refine ⟨?_, ?_, fun h => ?_, fun h => ?_, ?_, fun m hm => ?_, ?_, ?_, fun u hu => ?_, rfl, rfl, rfl, fun h => ?_⟩
  · rw [hself, htc, tcauseOf_precise]
  · rw [hself, hpc]
  · rw [hself]
    exact hgoes ((trapHandled_iff _ _ _).2 h)
  · rw [← trapHandled_iff, Bool.not_eq_true] at h
    obtain ⟨hst, hpc, hin, -⟩ := hstops h
    rw [hself]
    exact ⟨hst, hpc, hin⟩
  · rwa [hself]
  · exact strand_modStrand_of_ne s _ (.inr hm)
  · exact congrArg VRegs.c (v_modStrand s t t n fun _ => S)
  · exact ⟨mem_modStrand s t t n fun _ => S, (congrArg Tile.galley (tile_modStrand_self s t n fun _ => S)).trans rfl⟩
  · exact tile_modStrand_of_ne s n _ hu
  · rw [← trapHandled_iff, Bool.not_eq_true] at h
    obtain ⟨-, -, -, hrec⟩ := hstops h
    exact hrec

end

/-- Every precise trap leaves what R347 and R348 say. -/
theorem trapEntered_takeTrap (s : State) (t : TileId) (n : StrandNo) (c : Cause) (i : BitVec 32) (pc succ : BitVec 21) :
    Spec.TrapEntered s (takeTrap s t n c i pc succ) t n c i (if c = .swtrap then succ else pc) := by
  have hw (x : Word) : x.extractLsb' 0 21 = x.setWidth 21 := (BitVec.setWidth_eq_extractLsb' (by decide)).symm
  have hno : (BitVec.ofNat 4 n.val).toNat = n.val := by rw [BitVec.toNat_ofNat]; omega
  rcases takeTrap_cases s t n c i pc succ with ⟨hh, -, e⟩ | ⟨hh, -, e⟩ | ⟨hh, c', e⟩
  · rw [e]
    refine TrapEntered.vote (trapEntered_of_strand ?_ ?_ ?_ ?_ ?_) _ _ _ _
    · rfl
    · rfl
    · exact ⟨rfl, rfl, rfl, rfl, rfl, rfl⟩
    · exact fun _ => ⟨rfl, rfl, rfl, by simp only [hw]⟩
    · exact fun hf => absurd (hh.symm.trans hf) (by decide)
  · rw [e]
    refine trapEntered_of_strand ?_ ?_ ?_ ?_ ?_
    · rfl
    · rfl
    · exact ⟨rfl, rfl, rfl, rfl, rfl, rfl⟩
    · exact fun _ => ⟨rfl, rfl, rfl, by simp only [hw]⟩
    · exact fun hf => absurd (hh.symm.trans hf) (by decide)
  · rw [e]
    refine TrapEntered.vote (trapEntered_of_strand ?_ ?_ ?_ ?_ ?_) _ _ _ _
    · rfl
    · rfl
    · exact ⟨rfl, rfl, rfl, rfl, rfl, rfl⟩
    · exact fun ht => absurd (hh.symm.trans ht) (by decide)
    · exact fun _ => ⟨rfl, rfl, rfl, _, rfl, hno, rfl, rfl, rfl, rfl⟩

end Sys2Proof.Laws

/-! SUPPORT and O6. What arrives at a tile (R85, R106, R109, R196, R201, R204). -/

namespace Sys2Proof.Laws

open Sys2Proof Sys2Proof.Machine

/-! ### Bytes and numbers -/

theorem natOf_lt (bs : List Byte) : natOf bs < 256 ^ bs.length := by
  induction bs with
  | nil => exact Nat.one_pos
  | cons b r ih =>
    have hb := b.isLt
    change b.toNat + 256 * natOf r < 256 ^ (r.length + 1)
    rw [pow_succ]
    omega

/-- A digit of the number of some bytes is the byte there. -/
theorem natOf_digit (bs : List Byte) (i : Nat) (h : i < bs.length) : natOf bs / 256 ^ i % 256 = (bs[i]).toNat := by
  induction bs generalizing i with
  | nil => cases h
  | cons b r ih =>
    have hb := b.isLt
    have hcons : natOf (b :: r) = b.toNat + 256 * natOf r := rfl
    cases i with
    | zero =>
      rw [hcons, pow_zero, Nat.div_one]
      simp only [List.getElem_cons_zero]
      omega
    | succ i =>
      rw [hcons, Nat.pow_succ', ← Nat.div_div_eq_div_mul, show (b.toNat + 256 * natOf r) / 256 = natOf r by omega]
      exact ih i (Nat.lt_of_succ_lt_succ h)

theorem extendTo_eq (wd : BitVec 3) (x : Nat) : extendTo wd x = Spec.extended wd x := by
  rw [extendTo, ofInt_readInt, signed_eq]
  rfl

/-! ### Sound words -/

theorem eccSlot_of_sound {s : State} {t : TileId} (h : (s.tile t).errs = []) (g : Slot) : eccSlot s t g = (s, true) := by
  simp [eccSlot, h]

/-- A fold that leaves its state leaves it. -/
theorem foldl_eq_self {α β : Type} {f : β → α → β} {l : List α} {b : β} (h : ∀ x ∈ l, f b x = b) : l.foldl f b = b := by
  induction l with
  | nil => rfl
  | cons x l ih =>
    rw [List.foldl_cons, h x List.mem_cons_self]
    exact ih fun y hy => h y (List.mem_cons_of_mem _ hy)

theorem standingRead_of_sound {s : State} {t : TileId} (h : (s.tile t).errs = []) (ofs len : Nat) :
    standingRead s t ofs len = (s, true, (List.range len).map (fun i => standingByte (s.tile t) (ofs + i))) := by
  unfold standingRead
  dsimp only
  rw [foldl_eq_self]
  intro l _
  split
  · rfl
  · split
    · rw [eccSlot_of_sound h]; rfl
    · rw [eccRead_of_sound h]; rfl

/-! ### Packets on their way -/

theorem tile_send (s : State) (a b : Nat) (engine : Bool) (own : TileId) (d : Nat) (e : Ev) (t : TileId) :
    (s.send a b engine own d e).tile t = s.tile t := by
  simp only [State.tile, State.send, sendFlow_tiles]

/-- The event that a step is given does not decide when what it sends comes. -/
theorem send_agenda_on (s : State) (ev : Ev) (a b : Nat) (engine : Bool) (own : TileId) (d : Nat) (e : Ev) :
    (State.send { s with ev := some ev } a b engine own d e).agenda = (s.send a b engine own d e).agenda := by
  rw [send_agenda, send_agenda]
  rfl

/-- Where the segment check lets an access go is where its address is placed. -/
theorem locate_of_segCheck {s : State} {ctx : Nat} {x : Word} {kind n : Nat} {u : TileId} {k : Nat}
    (h : segCheck s ctx x kind n = some (u, k)) : ∃ g, locate s ctx (eaIdx x) = some (g, u, k) := by
  unfold segCheck at h
  dsimp only at h
  split at h
  · cases h
  next g t k' hloc =>
    rw [Option.ite_none_right_eq_some] at h
    obtain ⟨-, h⟩ := h
    cases h
    exact ⟨g, hloc⟩

/-! ### A slot's registers -/

/-- Of the tiles `u` alone has changed, and no packet that is sent then comes at another time. -/
structure OnlyTile (s s' : State) (u : TileId) : Prop where
  others : ∀ t, t ≠ u → s'.tile t = s.tile t
  sends : ∀ (a b : Nat) (engine : Bool) (own : TileId) (d : Nat) (e : Ev),
    (s'.send a b engine own d e).agenda = (s.send a b engine own d e).agenda

theorem onlyTile_modTile (s : State) (u : TileId) (f : Tile → Tile) : OnlyTile s (s.modTile u f) u :=
  ⟨fun _ h => tile_modTile_of_ne s f h, send_agenda_modTile s u f⟩

/-- The event that a step is given changes no tile, nor when a packet comes. -/
theorem onlyTile_on (s : State) (ev : Ev) (u : TileId) : OnlyTile s { s with ev := some ev } u :=
  ⟨fun _ _ => rfl, send_agenda_on s ev⟩

theorem OnlyTile.trans {s s' s'' : State} {u : TileId} (h : OnlyTile s s' u) (h' : OnlyTile s' s'' u) : OnlyTile s s'' u :=
  ⟨fun t ht => (h'.others t ht).trans (h.others t ht), fun a b en own d e => (h'.sends a b en own d e).trans (h.sends a b en own d e)⟩

/-- A change of a slot's registers: it is of one tile, whose own registers are those of its resident slot. -/
theorem onlyTile_modSlot (s : State) (u : TileId) (k : Nat) (g : VRegs → VRegs) : OnlyTile s (modSlot s u k g) u := by
  unfold modSlot
  split
  · exact onlyTile_modTile ..
  · exact onlyTile_modTile ..

theorem tile_modSlot (s : State) (u : TileId) (k : Nat) (g : VRegs → VRegs) : ∃ sl, (modSlot s u k g).tile u =
    { s.tile u with v := if (s.tile u).slot = k then g (s.tile u).v else (s.tile u).v, slots := sl } := by
  unfold modSlot
  split
  next h =>
    rw [tile_modV, if_pos rfl]
    exact ⟨_, rfl⟩
  next h =>
    rw [tile_modTile_self]
    exact ⟨_, rfl⟩

theorem shadowOf_of_single {s : State} {t : TileId} (h : (s.tile t).twin = none) : shadowOf s t = none := by
  unfold shadowOf
  split
  · rfl
  · exact h

/-! ### Remote loads (R85, R106, R204) -/

/-- The bytes of a remote load of the resident slot, in a store without soft errors. -/
theorem remoteBytes_of_sound {s : State} {u : TileId} {k : Nat} (herr : (s.tile u).errs = []) (hslot : (s.tile u).slot = k)
    (ctx : Nat) (g : Group) (idx : BitVec 20) (ofs n : Nat) : remoteBytes s ctx g u k idx ofs n = (s, true,
      if foreAt (s.tile u).v.partw ofs then (s.tile u).mem.bytes (poolAddr (s.tile u).v.partw k ofs) n
      else (List.range n).map (fun i => standingByte (s.tile u) (ofs + i))) := by
  unfold remoteBytes
  simp only [slotRegs, hslot, if_true, eccRead_of_sound herr, standingRead_of_sound herr]
  split
  · rfl
  · rfl

section
variable {s : State} {r : LoadReq} {u : TileId} {k : Nat}

/-- The bytes that a load of the resident slot takes: of the foreshore, or of the standing version. -/
def loadBytes (s : State) (r : LoadReq) (u : TileId) (k : Nat) : List Byte :=
  if foreAt (s.tile u).v.partw (eaOfs r.ea) then (s.tile u).mem.bytes (poolAddr (s.tile u).v.partw k (eaOfs r.ea)) r.n
  else (List.range r.n).map (fun i => standingByte (s.tile u) (eaOfs r.ea + i))

theorem length_loadBytes : (loadBytes s r u k).length = r.n := by
  unfold loadBytes
  split
  · simp [Mem.bytes]
  · simp

theorem getElem_loadBytes {i : Nat} (hi : i < (loadBytes s r u k).length) : (loadBytes s r u k)[i] =
    if foreAt (s.tile u).v.partw (eaOfs r.ea) then (s.tile u).mem.read (poolAddr (s.tile u).v.partw k (eaOfs r.ea) + i)
    else standingByte (s.tile u) (eaOfs r.ea + i) := by
  unfold loadBytes
  split
  · simp [Mem.bytes]
  · simp

/-- The value that a load's bytes give its register (R99). -/
def loadValue (r : LoadReq) (x : Nat) : VWord :=
  match r.dst with
  | .g _ => (extendTo r.wd x).setWidth 1024
  | _ => BitVec.ofNat 1024 x

section
variable (hev : s.ev = some (.remoteLoadArrival r))
include hev

theorem execRemoteLoadArrival_refused (h : segCheck s r.src.ctx r.ea segLoad r.n = none) : execRemoteLoadArrival s =
    .next (s.send (routeOf s r.src.ctx r.src.tile r.ea) r.src.tile false r.src.tile 11 (.remoteLoadReturn r 0 .refused)) := by
  unfold execRemoteLoadArrival
  simp only [hev, h]

theorem execRemoteLoadArrival_busy (h : segCheck s r.src.ctx r.ea segLoad r.n = some (u, k))
    (hbusy : s.cycle < (s.tile u).busyUntil) :
    execRemoteLoadArrival s = .next (s.post ((s.tile u).busyUntil - s.cycle) (.remoteLoadArrival r)) := by
  obtain ⟨g, hloc⟩ := locate_of_segCheck h
  unfold execRemoteLoadArrival
  simp only [hev, h, hloc, hbusy, if_true]

theorem execRemoteLoadArrival_bound (h : segCheck s r.src.ctx r.ea segLoad r.n = some (u, k))
    (hbusy : (s.tile u).busyUntil ≤ s.cycle) (herr : (s.tile u).errs = []) (hslot : (s.tile u).slot = k) :
    execRemoteLoadArrival s = .next (s.send u r.src.tile false r.src.tile 11
      (.remoteLoadReturn r (loadValue r (natOf (loadBytes s r u k))) .accept)) := by
  obtain ⟨g, hloc⟩ := locate_of_segCheck h
  unfold execRemoteLoadArrival
  simp only [hev, h, hloc, Nat.not_lt.2 hbusy, if_false, remoteBytes_of_sound herr hslot, if_true]
  rfl

end

theorem execRemoteLoadReturn_fill {v : VWord} (hev : s.ev = some (.remoteLoadReturn r v .accept))
    (hout : opOut s r.src.tile r.src.strand r.src.op = true) : execRemoteLoadReturn s =
      .next ((opDone s r.src.tile r.src.strand r.src.op).fill r.src.tile r.src.strand r.dst v) := by
  unfold execRemoteLoadReturn
  simp only [hev, hout, if_true]

/-- An access that ends changes of its strand the outstanding accesses alone. -/
theorem strand_opDone (s : State) (t : TileId) (n : StrandNo) (id : Nat) : (opDone s t n id).strand t n =
    { s.strand t n with ops := (s.strand t n).ops.filter (fun x => x.id != id) } := strand_modStrand_self ..

theorem opOut_opDone (s : State) (t : TileId) (n : StrandNo) (id : Nat) : opOut (opDone s t n id) t n id = false := by
  rw [opOut, strand_opDone, List.any_eq_false]
  intro x hx
  simpa using (List.mem_filter.1 hx).2

section
variable {v : VWord} (hev : s.ev = some (.remoteLoadReturn r v .refused))
  (hout : opOut s r.src.tile r.src.strand r.src.op = true)
include hev hout

theorem execRemoteLoadReturn_waits (hw : trapWaits s r.src.tile r.src.strand true = true) :
    execRemoteLoadReturn s = .next (s.post 0 (.remoteLoadReturn r v .refused)) := by
  unfold execRemoteLoadReturn
  simp only [hev, hout, hw, if_true, reduceCtorEq, if_false]

/-- A refused load traps at its strand, if that is live. -/
theorem execRemoteLoadReturn_refused (hw : trapWaits s r.src.tile r.src.strand true = false) : execRemoteLoadReturn s =
    let s1 := opDone s r.src.tile r.src.strand r.src.op
    .next (if liveSt (s.strand r.src.tile r.src.strand).st then
      takePrecise s1 r.src.tile r.src.strand .prot 0 r.src.pc r.src.pc else s1) := by
  unfold execRemoteLoadReturn
  simp only [hev, hout, hw, if_true, reduceCtorEq, if_false, Bool.false_eq_true, strand_opDone]

end

/-- With no deferred trap pending, the precise one is taken. -/
theorem takePrecise_of_none {t : TileId} {n : StrandNo} {c : Cause} {i : BitVec 32} {pc succ : BitVec 21}
    (h : (s.strand t n).deferred = none) : takePrecise s t n c i pc succ = takeTrap s t n c i pc succ := by
  rw [takePrecise, h]

end

/-! ### Deltas (R196) -/

/-- Cutting no bytes gives no line. -/
theorem cutLines_nil (f ofs : Nat) : cutLines f ofs [] = [] := by cases f <;> rfl

/-- Bytes within one line are one part. -/
theorem cutLines_one {f ofs : Nat} {data : List Byte} (h0 : data ≠ []) (h : ofs % 64 + data.length ≤ 64) :
    cutLines (f + 1) ofs data = [(ofs, data)] := by
  have hroom : data.length ≤ 64 - ofs % 64 := by omega
  rw [cutLines, if_neg (by simpa using h0)]
  simp only [List.take_of_length_le hroom, List.drop_of_length_le hroom, cutLines_nil]

/-- The part of a delta of some bytes within one line. -/
def bytesPart (ofs n : Nat) (d : VWord) : DeltaPart :=
  { ofs := ofs, mask := nibMask ofs n, data := BitVec.ofNat 512 (natOf (bytesOf n d.toNat) * 256 ^ (ofs % 64)) }

theorem deltaParts_bytes {ofs n : Nat} (d : VWord) (hn : 0 < n) (h : ofs % 64 + n ≤ 64) :
    deltaParts ofs (.bytes n d) = [bytesPart ofs n d] := by
  have hne : bytesOf n d.toNat ≠ [] := List.ne_nil_of_length_pos (by rwa [length_bytesOf])
  unfold deltaParts
  dsimp only
  rw [cutLines_one hne (by rwa [length_bytesOf]), List.map_singleton, length_bytesOf]
  rfl

theorem toNat_ofNat_of_lt {w x : Nat} (h : x < 2 ^ w) : (BitVec.ofNat w x).toNat = x := by
  rw [BitVec.toNat_ofNat, Nat.mod_eq_of_lt h]

/-- The bytes of a part stand at their place of the line. -/
theorem bytesPart_data {ofs n : Nat} (d : VWord) (h : ofs % 64 + n ≤ 64) {i : Nat} (hi : i < n) :
    (bytesPart ofs n d).data.toNat / 256 ^ (ofs % 64 + i) % 256 = d.toNat / 256 ^ i % 256 := by
  have hlt : d.toNat % 256 ^ n * 256 ^ (ofs % 64) < 2 ^ 512 := by
    have hmod : d.toNat % 256 ^ n < 256 ^ n := Nat.mod_lt _ (by positivity)
    calc d.toNat % 256 ^ n * 256 ^ (ofs % 64) < 256 ^ n * 256 ^ (ofs % 64) := by gcongr
      _ = 256 ^ (n + ofs % 64) := (pow_add ..).symm
      _ ≤ 256 ^ 64 := Nat.pow_le_pow_right (by decide) (by omega)
      _ = 2 ^ (8 * 64) := (pow_mul 2 8 64).symm
      _ = 2 ^ 512 := congrArg (2 ^ ·) (by decide)
  rw [bytesPart, natOf_bytesOf, toNat_ofNat_of_lt hlt, pow_add, ← Nat.div_div_eq_div_mul,
    Nat.mul_div_cancel _ (by positivity)]
  obtain ⟨j, rfl⟩ := Nat.exists_eq_add_of_lt hi
  rw [show 256 ^ (i + j + 1) = 256 ^ i * (256 * 256 ^ j) by ring, Nat.mod_mul_right_div_self, Nat.mod_mul_right_mod]

/-- There is a free slot while the galley is not full: its numbers are fewer than those looked at. -/
theorem freeSlot_isSome {T : Tile} (h : T.galley.length < galleyCap T.v.partw) : ∃ k, freeSlot T = some k := by
  rw [← Option.isSome_iff_exists, freeSlot, if_neg (Nat.not_le.2 h), List.find?_isSome]
  by_contra hno
  push Not at hno
  have hsub : List.range (T.galley.length + 1) ⊆ T.galley.map (fun g => g.num) := by
    intro k hk
    have hused := hno k hk
    simp only [ne_eq, Bool.not_eq_true, Bool.not_eq_false', List.any_eq_true, beq_iff_eq] at hused
    exact List.mem_map.2 hused
  have hlen := (List.subperm_of_subset List.nodup_range hsub).length_le
  rw [List.length_range, List.length_map] at hlen
  omega

/-- No slot of the galley holds a write to a line. -/
def LineFree (T : Tile) (line : Nat) : Prop := ∀ g ∈ T.galley, g.ofs / 64 ≠ line

section
variable {T : Tile} {line : Nat}

theorem LineFree.not_matches (h : LineFree T line) (o : Origin) (ord : Nat) {g : Slot} (hg : g ∈ T.galley) :
    slotMatches o ord line g = false := by
  have hne : (g.ofs / 64 == line) = false := beq_false_of_ne (h g hg)
  simp [slotMatches, hne]

theorem LineFree.lastSlot (h : LineFree T line) (o : Origin) (ord : Nat) : lastSlot T o ord line = none :=
  foldl_eq_self fun g hg => by rw [h.not_matches o ord hg]; rfl

theorem LineFree.undo (h : LineFree T line) : T.galley.find? (fun g => g.kind == .undo && g.ofs / 64 == line) = none := by
  rw [List.find?_eq_none]
  intro g hg
  simp [h g hg]

theorem LineFree.detConflict (h : LineFree T line) (n : Nat) (k : WKind) : detConflict T line n k = none := by
  rw [Machine.detConflict, h.undo]

theorem LineFree.ownSlots (h : LineFree T line) : ownSlots T line = [] := by
  rw [Machine.ownSlots, List.filter_eq_nil_iff]
  intro g hg
  simp [Slot.deltaOf, Slot.here, h g hg]

theorem LineFree.deltaClash {s : State} {t : TileId} (h : LineFree (s.tile t) line) (k : Nat) (o : Origin) (add rd : Bool) :
    deltaClash s t k o line add rd = none := by
  unfold Machine.deltaClash
  dsimp only
  split
  · rfl
  · split
    next m hm =>
      obtain ⟨g, hg, hsome⟩ := List.exists_of_findSome?_eq_some hm
      rw [h.not_matches o _ hg] at hsome
      cases hsome
    next => simp only [h.detConflict, h.ownSlots, List.findSome?_nil, ite_self]

theorem LineFree.deltaConflict (h : LineFree T line) (hprof : ∀ x ∈ T.slots, ∀ e ∈ x.prof, e.1 ≠ line) (k : Nat) (o : Origin)
    (p : Profile) : deltaConflict T k o line p = false := by
  have hslot : (T.slots[k]?).bind (fun x => x.prof.find? (fun e => e.1 == line)) = none := by
    rw [Option.bind_eq_none_iff]
    intro x hx
    rw [List.find?_eq_none]
    intro e he
    simpa using hprof x (List.mem_of_getElem? hx) e he
  have howner : ownerProfile T k line = (false, 0, 0) := by
    unfold ownerProfile
    simp only [hslot, h.undo, ite_self]
  have hany : (T.galley.any fun g => slotMatches o (slotRegs T k).ord line g && g.sidx != o.vidx && g.profile.conflict p) = false := by
    rw [List.any_eq_false]
    intro g hg
    simp [h.not_matches o _ hg]
  unfold Machine.deltaConflict
  simp only [howner, hany, Bool.or_false]
  simp [Profile.conflict, Profile.some]

end

section
variable {s : State} {u : TileId} {k n : Nat} {q : Packet} {d : VWord}

/-- The slot that a delta of bytes to a line without one takes. -/
def freshSlot (T : Tile) (k num : Nat) (o : Origin) (p : DeltaPart) : Slot :=
  { num := num, kind := .plain, ofs := p.ofs, ss := o.ss, att := o.att, sidx := o.vidx, seq := o.seq, mask := p.mask,
    data := p.data, ord := (slotRegs T k).ord, ownp := true, res := p.res, wby := strandBit o.strand.val,
    rby := if p.rd then strandBit o.strand.val else 0 }

theorem acceptPart_fresh {p : DeltaPart} {num : Nat} (o : Origin) (hfree : LineFree (s.tile u) (p.ofs / 64))
    (hprof : ∀ x ∈ (s.tile u).slots, ∀ e ∈ x.prof, e.1 ≠ p.ofs / 64) (hadd : p.add = none) (hnib : p.nib = false)
    (hnum : freeSlot (s.tile u) = some num) : acceptPart s u k o p =
      .ok (s.modTile u (fun T => { T with galley := T.galley ++ [freshSlot (s.tile u) k num o p] })) := by
  unfold acceptPart
  simp only [hfree.deltaClash, hfree.deltaConflict hprof, hadd, hfree.lastSlot, hnum, hnib, Bool.false_eq_true, if_false]
  rfl

/-- A delta whose line no slot holds reads no slot as it merges. -/
theorem mergeRead_of_lineFree (hbody : q.body = .bytes n d) (hn : 0 < n) (hline : eaOfs q.ea % 64 + n ≤ 64)
    (hfree : LineFree (s.tile u) (eaOfs q.ea / 64)) : mergeRead s u k q = (s, true) := by
  have hlast : lastSlot (s.tile u) q.src (slotRegs (s.tile u) k).ord ((bytesPart (eaOfs q.ea) n d).ofs / 64) = none :=
    hfree.lastSlot ..
  unfold mergeRead
  split
  · rfl
  · rw [hbody, deltaParts_bytes d hn hline, List.foldl_cons, List.foldl_nil, hlast]
    rfl

section
variable (hbody : q.body = .bytes n d) (hn : 0 < n) (hline : eaOfs q.ea % 64 + n ≤ 64)
  (hss : q.src.ss = (slotRegs (s.tile u) k).ss) (hatt : q.src.att = (slotRegs (s.tile u) k).att.toNat)
  (hfree : LineFree (s.tile u) (eaOfs q.ea / 64))
  (hprof : ∀ x ∈ (s.tile u).slots, ∀ e ∈ x.prof, e.1 ≠ eaOfs q.ea / 64)
include hbody hn hline hss hatt hfree hprof

/-- A delta of bytes within a line that no slot holds takes a slot of the galley. -/
theorem acceptDelta_fresh {num : Nat} (hnum : freeSlot (s.tile u) = some num) : ∃ g, acceptDelta s u k q =
      (s.modTile u (fun T => { T with galley := T.galley ++ [g] }), .accept, 0) ∧ g.kind = .plain ∧ g.ofs = eaOfs q.ea ∧
      g.sidx = q.src.vidx ∧ g.ss = q.src.ss ∧ g.att = q.src.att ∧ g.data = (bytesPart (eaOfs q.ea) n d).data := by
  have hnow : ¬ (q.src.ss.toNat < (slotRegs (s.tile u) k).ss.toNat ∨
      (q.src.ss = (slotRegs (s.tile u) k).ss ∧ q.src.att < (slotRegs (s.tile u) k).att.toNat)) := by
    rw [hss, hatt]
    simp
  let p : DeltaPart := { bytesPart (eaOfs q.ea) n d with rd := q.rd.contains (eaOfs q.ea / 64) }
  have hpart : acceptPart s u k q.src p = _ := acceptPart_fresh q.src hfree hprof rfl rfl hnum
  refine ⟨freshSlot (s.tile u) k num q.src p, ?_, rfl, rfl, rfl, rfl, rfl, rfl⟩
  unfold acceptDelta
  dsimp only
  rw [if_neg hnow, hbody, deltaParts_bytes d hn hline, List.foldl_cons, List.foldl_nil]
  split
  next s' h =>
    obtain rfl := Except.ok.inj (h.symm.trans hpart)
    rfl
  next e h => cases h.symm.trans hpart

/-- Such a delta is taken and acknowledged; memory stays as it was. -/
theorem takeDelta_fresh (htwin : (s.tile u).twin = none) (hroom : (s.tile u).galley.length < galleyCap (s.tile u).v.partw) :
    ∃ g, takeDelta s u k q = sendAck (s.modTile u (fun T => { T with galley := T.galley ++ [g] })) q.src .accept u 0 ∧
      g.kind = .plain ∧ g.ofs = eaOfs q.ea ∧ g.sidx = q.src.vidx ∧ g.ss = q.src.ss ∧ g.att = q.src.att ∧
      g.data = (bytesPart (eaOfs q.ea) n d).data := by
  obtain ⟨num, hnum⟩ := freeSlot_isSome hroom
  obtain ⟨g, hacc, hg⟩ := acceptDelta_fresh hbody hn hline hss hatt hfree hprof hnum
  refine ⟨g, ?_, hg⟩
  have hshadow : shadowOf (s.modTile u (fun T => { T with galley := T.galley ++ [g] })) u = none :=
    shadowOf_of_single (by rw [tile_modTile_self]; exact htwin)
  unfold takeDelta
  simp only [mergeRead_of_lineFree hbody hn hline hfree, hacc, hbody, checkDelta, hshadow, Bool.not_true, Bool.false_eq_true,
    if_false, if_true]

end
end

/-! ### The foreshore (R201) and messages (R109) -/

section
variable {s : State} {u : TileId} {k : Nat}

/-- A write to a sound foreshore: its bytes are there at once. -/
theorem applyFore_of_sound (herr : (s.tile u).errs = []) (o : Origin) (ofs : Nat) (b : Payload) :
    let a := poolAddr (slotRegs (s.tile u) k).partw k ofs
    applyFore s u k o ofs b = (modSlot (s.modTile u (fun T =>
      { T with mem := T.mem.store a (mergeBytes b (T.mem.bytes a (Payload.len b))) })) u k
      (fun v => watchRecord v ofs (Payload.len b) 3 o.vidx o.strand.val), true) := by
  unfold applyFore
  simp only [eccRead_of_sound herr, eccWrite_of_sound herr, ite_self, Bool.not_true, Bool.false_eq_true, if_false]

/-- What a write to a sound foreshore leaves: its tile's memory has the bytes, its counters and its twin are as they were. -/
theorem applyFore_spec (herr : (s.tile u).errs = []) (o : Origin) (ofs : Nat) (b : Payload) :
    let a := poolAddr (slotRegs (s.tile u) k).partw k ofs
    ∃ s', applyFore s u k o ofs b = (s', true) ∧ OnlyTile s s' u ∧
      (s'.tile u).mem = (s.tile u).mem.store a (mergeBytes b ((s.tile u).mem.bytes a (Payload.len b))) ∧
      (s'.tile u).twin = (s.tile u).twin ∧ (s'.tile u).slot = (s.tile u).slot ∧ (s'.tile u).v.c = (s.tile u).v.c := by
  intro a
  refine ⟨_, applyFore_of_sound herr o ofs b, (onlyTile_modTile s u _).trans (onlyTile_modSlot ..), ?_⟩
  obtain ⟨sl, h⟩ := tile_modSlot (s.modTile u fun T =>
    { T with mem := T.mem.store a (mergeBytes b (T.mem.bytes a (Payload.len b))) }) u k
    fun v => watchRecord v ofs (Payload.len b) 3 o.vidx o.strand.val
  rw [h, tile_modTile_self]
  refine ⟨rfl, rfl, rfl, ?_⟩
  dsimp only
  split
  · rw [watchRecord_c]
  · rfl

/-- A packet that a step sends leaves the tiles. -/
theorem OnlyTile.sent {s s' : State} {u : TileId} (h : OnlyTile s s' u) (a b : Nat) (engine : Bool) (own : TileId) (d : Nat)
    (e : Ev) : (s'.send a b engine own d e).agenda = (s.send a b engine own d e).agenda ∧
      ∀ t, t ≠ u → (s'.send a b engine own d e).tile t = s.tile t :=
  ⟨h.sends a b engine own d e, fun t ht => (tile_send ..).trans (h.others t ht)⟩

theorem takeFore_of_sound {q : Packet} (hdet : s.det u = false) (herr : (s.tile u).errs = []) (htwin : (s.tile u).twin = none) :
    let a := poolAddr (slotRegs (s.tile u) k).partw k (eaOfs q.ea)
    ∃ s', takeFore s u k q = sendAck s' q.src .accept u 0 ∧ OnlyTile s s' u ∧
      (s'.tile u).mem = (s.tile u).mem.store a (mergeBytes q.body ((s.tile u).mem.bytes a (Payload.len q.body))) := by
  intro a
  obtain ⟨s', happ, honly, hmem, htw, -⟩ := applyFore_spec (k := k) herr q.src (eaOfs q.ea) q.body
  refine ⟨s', ?_, honly, hmem⟩
  unfold takeFore
  simp only [hdet, happ, shadowOf_of_single (htw.trans htwin), Bool.not_true, Bool.false_eq_true, if_false]

/-- A message that is taken has written its data, if it has any, and raised its counter by one. -/
theorem takeMsg_of_sound {m : MsgReq} (herr : (s.tile u).errs = []) (hslot : (s.tile u).slot = k) :
    ∃ s', takeMsg s u k m = (s', true) ∧ OnlyTile s s' u ∧ (s'.tile u).twin = (s.tile u).twin ∧
      (s'.tile u).v.c[m.ct.toNat] = (s.tile u).v.c[m.ct.toNat] + 1 ∧
      (s'.tile u).mem = if m.n = 0 then (s.tile u).mem else
        (s.tile u).mem.store (poolAddr (s.tile u).v.partw k (eaOfs m.ea)) (bytesOf m.n m.data.toNat) := by
  have hdata : ∃ s', (if m.n = 0 then (s, true) else applyFore s u k m.src (eaOfs m.ea) (.bytes m.n m.data)) = (s', true) ∧
      OnlyTile s s' u ∧ (s'.tile u).twin = (s.tile u).twin ∧ (s'.tile u).slot = k ∧ (s'.tile u).v.c = (s.tile u).v.c ∧
      (s'.tile u).mem = if m.n = 0 then (s.tile u).mem else
        (s.tile u).mem.store (poolAddr (s.tile u).v.partw k (eaOfs m.ea)) (bytesOf m.n m.data.toNat) := by
    split
    · exact ⟨s, rfl, ⟨fun _ _ => rfl, fun _ _ _ _ _ _ => rfl⟩, rfl, hslot, rfl, rfl⟩
    · obtain ⟨s', happ, honly, hmem, htw, hsl, hc⟩ := applyFore_spec (k := k) herr m.src (eaOfs m.ea) (.bytes m.n m.data)
      rw [slotRegs, if_pos hslot] at hmem
      exact ⟨s', happ, honly, htw, hsl.trans hslot, hc, hmem⟩
  obtain ⟨s', hwrite, honly, htw, hsl, hc, hmem⟩ := hdata
  obtain ⟨sl, htile⟩ := tile_modSlot s' u k fun v => v.raise m.ct 1
  rw [hsl, if_pos rfl] at htile
  refine ⟨_, ?_, honly.trans (onlyTile_modSlot s' u k fun v => v.raise m.ct 1), ?_⟩
  · unfold takeMsg
    simp only [hwrite, if_true]
  · rw [htile, ← hmem, ← htw, ← hc]
    exact ⟨rfl, by simp [VRegs.raise], rfl⟩

end

/-! ### The steps -/

/-- A store or a sum that the checks refuse changes nothing and is answered so. -/
theorem takeWrite_refused {s : State} {q : Packet} (h : writeCheck s q = none) :
    takeWrite s q = sendAck s q.src .refused (routeOf s q.src.ctx q.src.tile q.ea) 0 := by
  rw [takeWrite, h]

theorem execAckArrival_accept {s : State} {o : Origin} {i : BitVec 32} (hev : s.ev = some (.ackArrival o .accept i))
    (heng : o.engine = false) (hout : opOut s o.tile o.strand o.op = true) :
    execAckArrival s = .next (opDone s o.tile o.strand o.op) := by
  unfold execAckArrival
  simp only [hev, heng, hout, Bool.false_eq_true, if_false, if_true]

theorem max_one_eq_ite (n : Nat) : max 1 n = if n = 0 then 1 else n := by
  split <;> omega

/-- A load that passes binds the bytes that stand at its place, in the order of their addresses. -/
theorem loadBytes_spec (s : State) (r : LoadReq) (u : TileId) (k : Nat) :
    natOf (loadBytes s r u k) < 256 ^ r.n ∧
    (∀ i, i < r.n → natOf (loadBytes s r u k) / 256 ^ i % 256 =
      (if foreAt (s.tile u).v.partw (eaOfs r.ea) then
        ((s.tile u).mem.read (poolAddr (s.tile u).v.partw k (eaOfs r.ea) + i)).toNat
       else (standingByte (s.tile u) (eaOfs r.ea + i)).toNat)) := by
  refine ⟨?_, fun i hi => ?_⟩
  · have h := natOf_lt (loadBytes s r u k)
    rwa [length_loadBytes] at h
  · rw [natOf_digit _ i (by rwa [length_loadBytes]), getElem_loadBytes]
    split <;> rfl

theorem loadValue_g {r : LoadReq} {x : Nat} {d : BitVec 5} (h : r.dst = .g d) :
    loadValue r x = (Spec.extended r.wd x).setWidth 1024 := by
  rw [loadValue, h, extendTo_eq]

theorem loadValue_w {r : LoadReq} {x : Nat} {d : BitVec 4} (h : r.dst = .w d) : loadValue r x = BitVec.ofNat 1024 x := by
  rw [loadValue, h]

/-- A store of some bytes within a line to which no slot holds a write: what the step leaves. -/
theorem deltaArrival_fresh {q : Packet} {s : State} {u : TileId} {k n : Nat} {d : VWord} (hbody : q.body = .bytes n d)
    (hcheck : writeCheck s q = some (u, k)) (hfore : foreAt (slotRegs (s.tile u) k).partw (eaOfs q.ea) = false)
    (htwin : (s.tile u).twin = none) (hss : q.src.ss = (slotRegs (s.tile u) k).ss)
    (hatt : q.src.att = (slotRegs (s.tile u) k).att.toNat) (hn : 0 < n) (hline : eaOfs q.ea % 64 + n ≤ 64)
    (hfree : LineFree (s.tile u) (eaOfs q.ea / 64)) (hprof : ∀ x ∈ (s.tile u).slots, ∀ e ∈ x.prof, e.1 ≠ eaOfs q.ea / 64)
    (hroom : (s.tile u).galley.length < galleyCap (s.tile u).v.partw) : ∃ s' g,
    exec .deltaArrival { s with ev := some (.deltaArrival q) } = .next s' ∧
    (s'.tile u).galley = (s.tile u).galley ++ [g] ∧ g.kind = .plain ∧ g.ofs = eaOfs q.ea ∧ g.sidx = q.src.vidx ∧
    g.ss = q.src.ss ∧ g.att = q.src.att ∧ (s'.tile u).mem = (s.tile u).mem ∧
    (∀ i, i < n → (g.data.toNat / 256 ^ (eaOfs q.ea % 64 + i) % 256 : Nat) = d.toNat / 256 ^ i % 256) ∧
    s'.agenda = (s.send u q.src.tile false q.src.tile 8 (.ackArrival q.src .accept 0)).agenda ∧
    (∀ t, t ≠ u → s'.tile t = s.tile t) := by
  obtain ⟨g, htake, hkind, hofs, hidx, hgss, hgatt, hdata⟩ :=
    takeDelta_fresh (s := { s with ev := some (.deltaArrival q) }) hbody hn hline hss hatt hfree hprof htwin hroom
  have hstep : takeWrite { s with ev := some (.deltaArrival q) } q = takeDelta { s with ev := some (.deltaArrival q) } u k q := by
    rw [takeWrite, show writeCheck { s with ev := some (.deltaArrival q) } q = some (u, k) from hcheck]
    exact if_neg (by rw [Bool.not_eq_true]; exact hfore)
  have honly := (onlyTile_on s (.deltaArrival q) u).trans (onlyTile_modTile _ u fun T => { T with galley := T.galley ++ [g] })
  obtain ⟨hagenda, hothers⟩ := honly.sent u q.src.tile false q.src.tile 8 (.ackArrival q.src .accept 0)
  refine ⟨_, g, congrArg Host.Outcome.next (hstep.trans htake), ?_, hkind, hofs, hidx, hgss, hgatt, ?_, fun i hi => ?_, hagenda,
    hothers⟩
  · rw [sendAck, tile_send, tile_modTile_self]; rfl
  · rw [sendAck, tile_send, tile_modTile_self]; rfl
  · rw [hdata, bytesPart_data d hline hi]

/-- A store that passes into the foreshore, outside DET mode: what the step leaves. -/
theorem foreshoreWriteArrival_applied {q : Packet} {s : State} {u : TileId} {k : Nat} (hcheck : writeCheck s q = some (u, k))
    (hfore : foreAt (slotRegs (s.tile u) k).partw (eaOfs q.ea) = true) (hdet : s.det u = false)
    (herr : (s.tile u).errs = []) (htwin : (s.tile u).twin = none) : ∃ s',
    exec .foreshoreWriteArrival { s with ev := some (.foreshoreWriteArrival q) } = .next s' ∧
    (s'.tile u).mem = (s.tile u).mem.store (poolAddr (slotRegs (s.tile u) k).partw k (eaOfs q.ea))
      (mergeBytes q.body ((s.tile u).mem.bytes (poolAddr (slotRegs (s.tile u) k).partw k (eaOfs q.ea)) (Payload.len q.body))) ∧
    s'.agenda = (s.send u q.src.tile false q.src.tile 8 (.ackArrival q.src .accept 0)).agenda ∧
    (∀ t, t ≠ u → s'.tile t = s.tile t) := by
  obtain ⟨s', htake, honly, hmem⟩ :=
    takeFore_of_sound (s := { s with ev := some (.foreshoreWriteArrival q) }) (k := k) (q := q) hdet herr htwin
  have hstep : takeWrite { s with ev := some (.foreshoreWriteArrival q) } q =
      takeFore { s with ev := some (.foreshoreWriteArrival q) } u k q := by
    rw [takeWrite, show writeCheck { s with ev := some (.foreshoreWriteArrival q) } q = some (u, k) from hcheck]
    exact if_pos hfore
  obtain ⟨hagenda, hothers⟩ := ((onlyTile_on s (.foreshoreWriteArrival q) u).trans honly).sent u q.src.tile false q.src.tile 8
    (.ackArrival q.src .accept 0)
  exact ⟨_, congrArg Host.Outcome.next (hstep.trans htake), (congrArg Tile.mem (tile_send ..)).trans hmem, hagenda, hothers⟩

/-- A message that passes: what the step leaves. -/
theorem msgArrival_taken {m : MsgReq} {s : State} {u : TileId} {k : Nat}
    (hcheck : segCheck s m.src.ctx m.ea segMsg (max 1 m.n) = some (u, k)) (htwin : (s.tile u).twin = none)
    (hslot : (s.tile u).slot = k) (herr : (s.tile u).errs = []) : ∃ s',
    exec .msgArrival { s with ev := some (.msgArrival m) } = .next s' ∧
    (s'.tile u).v.c[m.ct.toNat] = (s.tile u).v.c[m.ct.toNat] + 1 ∧
    (s'.tile u).mem = (if m.n = 0 then (s.tile u).mem else
      (s.tile u).mem.store (poolAddr (s.tile u).v.partw k (eaOfs m.ea)) (bytesOf m.n m.data.toNat)) ∧
    s'.agenda = (s.send u m.src.tile false m.src.tile 8 (.ackArrival m.src .accept 0)).agenda ∧
    (∀ t, t ≠ u → s'.tile t = s.tile t) := by
  obtain ⟨s', htake, honly, htw, hcount, hmem⟩ :=
    takeMsg_of_sound (s := { s with ev := some (.msgArrival m) }) (m := m) herr hslot
  have hcheck' : segCheck { s with ev := some (.msgArrival m) } m.src.ctx m.ea segMsg (if m.n = 0 then 1 else m.n) = some (u, k) := by
    rw [← max_one_eq_ite]; exact hcheck
  obtain ⟨hagenda, hothers⟩ := ((onlyTile_on s (.msgArrival m) u).trans honly).sent u m.src.tile false m.src.tile 8
    (.ackArrival m.src .accept 0)
  refine ⟨sendAck s' m.src .accept u 0, ?_, ?_, (congrArg Tile.mem (tile_send ..)).trans hmem, hagenda, hothers⟩
  · rw [exec_msgArrival, execMsgArrival]
    simp only [hcheck', htake, shadowOf_of_single (htw.trans htwin), Bool.not_true, Bool.false_eq_true, if_false]
  · rw [sendAck, tile_send, hcount]; rfl

/-- A message that the checks refuse raises nothing. -/
theorem msgArrival_refused {m : MsgReq} {s : State} (hcheck : segCheck s m.src.ctx m.ea segMsg (max 1 m.n) = none) :
    let s0 : State := { s with ev := some (.msgArrival m) }
    exec .msgArrival s0 = .next (s0.send (routeOf s m.src.ctx m.src.tile m.ea) m.src.tile false m.src.tile 8
      (.ackArrival m.src .refused 0)) := by
  intro s0
  have hcheck' : segCheck s0 m.src.ctx m.ea segMsg (if m.n = 0 then 1 else m.n) = none := by
    rw [← max_one_eq_ite]; exact hcheck
  rw [exec_msgArrival, execMsgArrival]
  simp only [s0, hcheck']
  rfl

/-- A refused load's answer: it waits for what is still to come of its cycle, then traps at the load, if its strand is live. -/
theorem remoteLoadReturn_refused {r : LoadReq} {v : VWord} {s : State}
    (hout : opOut s r.src.tile r.src.strand r.src.op = true) :
    let t := r.src.tile
    let n := r.src.strand
    let s0 : State := { s with ev := some (.remoteLoadReturn r v .refused) }
    let s1 := opDone s0 t n r.src.op
    (trapWaits s t n true = true → exec .remoteLoadReturn s0 = .next (s0.post 0 (.remoteLoadReturn r v .refused))) ∧
    (trapWaits s t n true = false → liveSt (s.strand t n).st = true → (s.strand t n).deferred = none →
      ∃ s', exec .remoteLoadReturn s0 = .next s' ∧ Spec.TrapEntered s1 s' t n .prot 0 r.src.pc) ∧
    (trapWaits s t n true = false → liveSt (s.strand t n).st = false → exec .remoteLoadReturn s0 = .next s1) := by
  intro t n s0 s1
  refine ⟨fun hw => execRemoteLoadReturn_waits (s := s0) rfl hout hw, fun hw hlive hdef => ?_, fun hw hdead => ?_⟩
  · have hdef1 : (s1.strand t n).deferred = none := (congrArg Strand.deferred (strand_opDone s0 t n r.src.op)).trans hdef
    refine ⟨_, (execRemoteLoadReturn_refused (s := s0) rfl hout hw).trans ?_, trapEntered_takeTrap s1 t n .prot 0 r.src.pc r.src.pc⟩
    dsimp only
    rw [takePrecise_of_none hdef1]
    exact congrArg Host.Outcome.next (if_pos hlive)
  · refine (execRemoteLoadReturn_refused (s := s0) rfl hout hw).trans ?_
    exact congrArg Host.Outcome.next (if_neg (by rw [Bool.not_eq_true]; exact hdead))

/-- Settles O6: each of the six steps by the lemma about it; a load's bytes as digits of a number, a fresh delta as one slot. -/
theorem remoteArrivals : Obligations.RemoteArrivals := by
  refine ⟨fun r s h => ?_, fun r s u k h hbusy => ?_, fun r s u k h hbusy herr hslot _ => ?_, fun r v s hout => ?_,
    fun r v s hout => remoteLoadReturn_refused hout, fun q s h => ⟨?_, ?_⟩,
    fun q s u k n d hbody _ hcheck hfore htwin hss hatt hn hline hfree hprof hroom => ?_,
    fun q s u k hcheck hfore hdet herr htwin => ?_, fun m s u k hcheck htwin hslot herr => ?_,
    fun m s hcheck => msgArrival_refused hcheck, fun o i s heng hout => ⟨?_, opOut_opDone ..⟩⟩
  · exact execRemoteLoadArrival_refused (s := { s with ev := some (.remoteLoadArrival r) }) rfl h
  · exact execRemoteLoadArrival_busy (s := { s with ev := some (.remoteLoadArrival r) }) rfl h hbusy
  · obtain ⟨hlt, hdigits⟩ := loadBytes_spec s r u k
    exact ⟨natOf (loadBytes s r u k), loadValue r (natOf (loadBytes s r u k)),
      execRemoteLoadArrival_bound (s := { s with ev := some (.remoteLoadArrival r) }) rfl h hbusy herr hslot, hlt, hdigits,
      fun _ hd => loadValue_g hd, fun _ hd => loadValue_w hd⟩
  · exact execRemoteLoadReturn_fill (s := { s with ev := some (.remoteLoadReturn r v .accept) }) rfl hout
  · exact congrArg Host.Outcome.next (takeWrite_refused h)
  · exact congrArg Host.Outcome.next (takeWrite_refused h)
  · exact deltaArrival_fresh hbody hcheck hfore htwin hss hatt hn hline hfree hprof hroom
  · exact foreshoreWriteArrival_applied hcheck hfore hdet herr htwin
  · exact msgArrival_taken hcheck htwin hslot herr
  · exact execAckArrival_accept (s := { s with ev := some (.ackArrival o .accept i) }) rfl heng hout

end Sys2Proof.Laws

/-! SUPPORT and O55. The power states and the test of a cluster (R78, R238, R239, R362); kernels (R217, R244 to R248). -/

namespace Sys2Proof.Laws

open Sys2Proof Sys2Proof.Machine

/-! ### Pools (R78) -/

section
variable (s : State) (c : ClusterId)

/-- Clearing pools changes the tiles alone. -/
theorem clearPools_eq : ∃ ts, clearPools s c = { s with tiles := ts } := by
  unfold clearPools
  generalize List.range 8 = l
  induction l generalizing s with
  | nil => exact ⟨_, rfl⟩
  | cons p l ih =>
    obtain ⟨ts, h⟩ := ih (s.modTile (tileAt c p) fun T => { T with mem := [], errs := [] })
    exact ⟨ts, h⟩

theorem clearPools_mem {p : Nat} (hp : p < 8) : ((clearPools s c).tile (tileAt c p)).mem = [] := by
  suffices h : ∀ (l : List Nat) (s : State), p ∈ l ∨ (s.tile (tileAt c p)).mem = [] →
      ((l.foldl (fun s p => s.modTile (tileAt c p) fun T => { T with mem := [], errs := [] }) s).tile (tileAt c p)).mem = [] from
    h (List.range 8) s (.inl (List.mem_range.2 hp))
  intro l
  induction l with
  | nil => exact fun s h => h.resolve_left List.not_mem_nil
  | cons q l ih =>
    intro s h
    refine ih _ ?_
    rw [tile_modTile]
    split
    · exact .inr rfl
    next hne =>
      refine h.imp_left fun hmem => (List.mem_cons.1 hmem).resolve_left ?_
      rintro rfl
      exact hne rfl

/-- A cluster whose pools are cleared as its state changes. -/
theorem modCluster_clearPools (f : Cluster → Cluster) : ((clearPools s c).modCluster c f).cycle = s.cycle ∧
    ((clearPools s c).modCluster c f).cluster c = f (s.cluster c) ∧
    ∀ p, p < 8 → (((clearPools s c).modCluster c f).tile (tileAt c p)).mem = [] := by
  obtain ⟨ts, h⟩ := clearPools_eq s c
  have hmem (p : Nat) (hp : p < 8) := clearPools_mem s c hp
  generalize clearPools s c = s1 at h hmem ⊢
  subst h
  refine ⟨rfl, ?_, hmem⟩
  rw [cluster_modCluster, if_pos rfl]
  rfl

end

/-! ### Power (R78, R238) -/

theorem mem_agenda_post_self {s : State} {n d : Nat} {e : Ev} (h : s.cycle = n) : (n + d, e) ∈ (s.post d e).agenda := by
  rw [← h]
  exact mem_agenda_post.2 (.inl rfl)

section
variable {s : State} {c : ClusterId}

theorem clusterWake_gated (hev : s.ev = some (.clusterWake c)) (hp : (s.cluster c).power = .gated) :
    ∃ s', exec .clusterWake s = .next s' ∧
      s'.cluster c = { s.cluster c with power := .awake, usableAt := some (s.cycle + 12800) } ∧
      (s.cycle + 12800, .clusterUsable c) ∈ s'.agenda ∧ ∀ p, p < 8 → (s'.tile (tileAt c p)).mem = [] := by
  obtain ⟨hcycle, hcluster, hmem⟩ :=
    modCluster_clearPools s c fun k => { k with power := .awake, usableAt := some (s.cycle + 12800) }
  refine ⟨State.post _ 12800 (.clusterUsable c), ?_, (post_cluster ..).trans hcluster, mem_agenda_post_self hcycle,
    fun p hp => by rw [post_tile, hmem p hp]⟩
  rw [exec_clusterWake, execClusterWake]
  simp only [hev, hp]

theorem clusterWake_retained (hev : s.ev = some (.clusterWake c)) (hp : (s.cluster c).power = .retained) :
    ∃ s', exec .clusterWake s = .next s' ∧
      s'.cluster c = { s.cluster c with power := .awake, usableAt := some (s.cycle + 3200) } ∧
      (s.cycle + 3200, .clusterUsable c) ∈ s'.agenda ∧ s'.tiles = s.tiles := by
  refine ⟨(s.modCluster c fun k => { k with power := .awake, usableAt := some (s.cycle + 3200) }).post 3200 (.clusterUsable c),
    ?_, ?_, mem_agenda_post.2 (.inl rfl), rfl⟩
  · rw [exec_clusterWake, execClusterWake]
    simp only [hev, hp]
  · rw [post_cluster, cluster_modCluster, if_pos rfl]

/-- A cluster is usable. -/
def madeUsable (s : State) (c : ClusterId) : State := s.modCluster c fun k => { k with usableAt := none }

theorem cluster_madeUsable (s : State) (c : ClusterId) : (madeUsable s c).cluster c = { s.cluster c with usableAt := none } := by
  rw [madeUsable, cluster_modCluster, if_pos rfl]

theorem clusterGroup_madeUsable (s : State) (c : ClusterId) : clusterGroup (madeUsable s c) c = clusterGroup s c := by
  rw [clusterGroup, clusterGroup, cluster_madeUsable]
  rfl

section
variable (hev : s.ev = some (.clusterUsable c)) (hu : (s.cluster c).usableAt = some s.cycle)
include hev hu

/-- A cluster that no group holds is tested, if it was woken for that. -/
theorem clusterUsable_alone (hg : clusterGroup s c = none) : exec .clusterUsable s =
    .next (if ((madeUsable s c).cluster c).tpend then (madeUsable s c).post 0 (.testStart c) else madeUsable s c) := by
  rw [← clusterGroup_madeUsable, madeUsable] at hg
  rw [exec_clusterUsable, execClusterUsable]
  simp only [hev, hu, ne_eq, not_true, if_false, hg]
  rfl

theorem clusterUsable_group {g : Group} (hg : clusterGroup s c = some g) : exec .clusterUsable s =
    .next (if g.st = .placed ∧ allUsable (madeUsable s c) g then (madeUsable s c).post 0 (.groupStart g.id)
      else madeUsable s c) := by
  rw [← clusterGroup_madeUsable, madeUsable] at hg
  rw [exec_clusterUsable, execClusterUsable]
  simp only [hev, hu, ne_eq, not_true, if_false, hg]
  rfl

theorem clusterUsable_due : ∃ s', exec .clusterUsable s = .next s' ∧ s'.cluster c = { s.cluster c with usableAt := none } ∧
    ∀ g, clusterGroup s c = some g → g.st = .placed → allUsable s' g = true → (s.cycle, .groupStart g.id) ∈ s'.agenda := by
  cases hg : clusterGroup s c with
  | none =>
    refine ⟨_, clusterUsable_alone hev hu hg, ?_, fun g h => nomatch h⟩
    split <;> exact cluster_madeUsable s c
  | some g =>
    refine ⟨_, clusterUsable_group hev hu hg, ?_, fun g' h hst hall => ?_⟩
    · split <;> exact cluster_madeUsable s c
    · cases h
      by_cases hgo : g.st = .placed ∧ allUsable (madeUsable s c) g = true
      · rw [if_pos hgo]
        exact mem_agenda_post_self (s := madeUsable s c) (d := 0) rfl
      · rw [if_neg hgo] at hall
        exact absurd ⟨hst, hall⟩ hgo

end

theorem clusterRetain_due (hev : s.ev = some (.clusterRetain c)) (hp : (s.cluster c).power = .awake)
    (hu : (s.cluster c).usableAt = none) (hfree : clusterFree s c = true) (hon : s.disp.retd ≠ 0)
    (hidle : s.disp.retd.toNat ≤ idleOf s c) : ∃ s', exec .clusterRetain s = .next s' ∧
      s'.cluster c = { s.cluster c with power := .retained, retAt := s.cycle } ∧ s'.tiles = s.tiles := by
  refine ⟨s.modCluster c fun k => { k with power := .retained, retAt := s.cycle }, ?_, ?_, rfl⟩
  · rw [exec_clusterRetain, execClusterRetain]
    simp only [hev]
    rw [if_pos ⟨hp, by rw [hu]; rfl, hfree, hon, hidle⟩]
  · rw [cluster_modCluster, if_pos rfl]

/-- When a cluster is gated (R238). -/
theorem gateDue_of (h : (s.cluster c).power = .retained ∧ s.disp.gatd.toNat ≤ (s.cycle - (s.cluster c).retAt) / 1600 ∨
      (s.cluster c).power = .awake ∧ (s.cluster c).usableAt = none ∧ s.disp.retd = 0 ∧ s.disp.gatd.toNat ≤ idleOf s c)
    (hfree : clusterFree s c = true) (hon : s.disp.gatd ≠ 0) : gateDue s c = true := by
  have hon' : s.disp.gatd ≠ 0#16 := hon
  unfold gateDue
  rcases h with ⟨hp, hd⟩ | ⟨hp, hu, hoff, hd⟩
  · simp [hfree, hon', hp, hd]
  · simp [hfree, hon', hp, hu, hoff, hd]

theorem clusterGate_due (hev : s.ev = some (.clusterGate c)) (h : gateDue s c = true) :
    ∃ s', exec .clusterGate s = .next s' ∧ s'.cluster c = { s.cluster c with power := .gated } ∧
      ∀ p, p < 8 → (s'.tile (tileAt c p)).mem = [] := by
  obtain ⟨-, hcluster, hmem⟩ := modCluster_clearPools s c fun k => { k with power := .gated }
  refine ⟨_, ?_, hcluster, hmem⟩
  rw [exec_clusterGate, execClusterGate]
  simp only [hev, h, if_true]

/-! ### The structural test (R238, R362) -/

theorem testStart_due (hev : s.ev = some (.testStart c)) (hdue : testDue s c = true) (hp : (s.cluster c).power = .awake)
    (hu : (s.cluster c).usableAt = none) (hadm : ∀ e ∈ s.agenda, e.2 = .admissionStep → s.cycle < e.1) :
    ∃ s', exec .testStart s = .next s' ∧ s'.cluster c = { s.cluster c with power := .test, tpend := false } ∧
      (s.cycle + 4800000, .testDone c) ∈ s'.agenda ∧ ∀ p, p < 8 → (s'.tile (tileAt c p)).mem = [] := by
  have hnone : s.agenda.any (fun e => decide (e.1 ≤ s.cycle) && e.2 == .admissionStep) = false := by
    rw [List.any_eq_false]
    intro e he h
    rw [Bool.and_eq_true, decide_eq_true_eq, beq_iff_eq] at h
    exact absurd (hadm e he h.2) (Nat.not_lt.2 h.1)
  obtain ⟨hcycle, hcluster, hmem⟩ := modCluster_clearPools s c fun k => { k with power := .test, tpend := false }
  refine ⟨State.post _ 4800000 (.testDone c), ?_, (post_cluster ..).trans hcluster, mem_agenda_post_self hcycle,
    fun p hp => by rw [post_tile, hmem p hp]⟩
  rw [exec_testStart, execTestStart]
  simp only [hev, hnone, Bool.false_eq_true, if_false]
  rw [if_pos ⟨hdue, hp, by rw [hu]; rfl⟩]

/-- A counter of runs keeps its 12 bits. -/
theorem saturated_lt (x : Nat) (h : x < 4096) : (if x < 4095 then x + 1 else x) < 4096 := by
  split <;> omega

/-- VALID, FAIL, and what lies below them in a unit's record (Table 20.2). -/
theorem testRecord_eq (old : Word) {kind : Nat} (hk : kind < 4) (cyc : Nat) : ∃ r, r < 2 ^ 62 ∧
    testRecord old kind cyc = BitVec.ofNat 64 (2 ^ 63 + (if kind = 0 then 0 else 2 ^ 62) + r) := by
  have hruns := saturated_lt _ (old.extractLsb' 48 12).isLt
  have hfails := (old.extractLsb' 36 12).isLt
  have hfails' := saturated_lt _ hfails
  have hcyc : cyc / 2 ^ 20 % 2 ^ 36 < 2 ^ 36 := Nat.mod_lt _ (by decide)
  unfold testRecord
  dsimp only
  generalize (if (old.extractLsb' 48 12).toNat < 4095 then _ else _) = runs at hruns ⊢
  generalize (if (old.extractLsb' 36 12).toNat < 4095 then _ else _) = fails' at hfails' ⊢
  generalize (old.extractLsb' 36 12).toNat = fails at hfails ⊢
  generalize cyc / 2 ^ 20 % 2 ^ 36 = y at hcyc ⊢
  refine ⟨kind * 2 ^ 60 + runs * 2 ^ 48 + (if kind = 0 then fails else fails') * 2 ^ 36 + y, ?_, by simp only [Nat.add_assoc]⟩
  split <;> omega

theorem testBit_valid {f r : Nat} (hf : f = 0 ∨ f = 2 ^ 62) (hr : r < 2 ^ 62) : (2 ^ 63 + f + r).testBit 63 = true := by
  rw [Nat.testBit_eq_decide_div_mod_eq, decide_eq_true_eq]
  omega

theorem testBit_fail {f r : Nat} (hf : f = 0 ∨ f = 2 ^ 62) (hr : r < 2 ^ 62) :
    (2 ^ 63 + f + r).testBit 62 = decide (f ≠ 0) := by
  rw [Nat.testBit_eq_decide_div_mod_eq, decide_eq_decide]
  omega

/-- A test leaves VALID in a record, and FAIL just where a part failed. -/
theorem testRecord_bits (old : Word) {kind : Nat} (hk : kind < 4) (cyc : Nat) :
    (testRecord old kind cyc).getLsbD 63 = true ∧ (testRecord old kind cyc).getLsbD 62 = decide (kind ≠ 0) := by
  obtain ⟨r, hr, h⟩ := testRecord_eq old hk cyc
  have hf : (if kind = 0 then 0 else 2 ^ 62) = 0 ∨ (if kind = 0 then 0 else 2 ^ 62) = 2 ^ 62 := by
    split
    · exact .inl rfl
    · exact .inr rfl
  rw [h, BitVec.getLsbD_ofNat, BitVec.getLsbD_ofNat, testBit_valid hf hr, testBit_fail hf hr]
  refine ⟨rfl, ?_⟩
  split
  next h => simp [h]
  next h => simp [h]

/-- The failing parts of a unit in a test's free value: the router and its links have one part. -/
def testKind (f u : Nat) : Nat := if u = 8 then f / 4 ^ u % 2 else f / 4 ^ u % 4

theorem testKind_lt (f u : Nat) : testKind f u < 4 := by
  unfold testKind
  split <;> omega

theorem testDone_spec (hev : s.ev = some (.testDone c)) (hp : (s.cluster c).power = .test) :
    ∃ s' f, exec .testDone s = .next s' ∧ (s'.cluster c).power = .awake ∧ (s'.cluster c).tfail = f ∧
      (f = true ↔ ∃ u, ∃ h : u < 9, ((s'.cluster c).records[u]).getLsbD 62 = true) ∧
      ∀ u, (h : u < 9) → ((s'.cluster c).records[u]).getLsbD 63 = true := by
  let kind := testKind s.freshNat.1
  obtain ⟨-, hcluster, -⟩ := modCluster_clearPools s.freshNat.2 c fun k =>
    { k with power := .awake, tfail := (List.range 9).any (fun u => decide (kind u ≠ 0))
             records := k.records.mapFinIdx (fun u r _ => testRecord r (kind u) s.cycle) }
  have hbits (u : Nat) (h : u < 9) := testRecord_bits ((s.freshNat.2.cluster c).records[u]) (testKind_lt s.freshNat.1 u) s.cycle
  refine ⟨_, (List.range 9).any (fun u => decide (kind u ≠ 0)), ?_, by rw [hcluster], by rw [hcluster], ?_, fun u h => ?_⟩
  · rw [exec_testDone, execTestDone]
    simp only [hev, hp, ne_eq, not_true, if_false]
    rfl
  · rw [List.any_eq_true]
    constructor
    · rintro ⟨u, hu, hk⟩
      refine ⟨u, List.mem_range.1 hu, ?_⟩
      simp only [hcluster, Vector.getElem_mapFinIdx]
      rw [(hbits u (List.mem_range.1 hu)).2]
      exact hk
    · rintro ⟨u, hu, hk⟩
      simp only [hcluster, Vector.getElem_mapFinIdx] at hk
      rw [(hbits u hu).2] at hk
      exact ⟨u, List.mem_range.2 hu, hk⟩
  · simp only [hcluster, Vector.getElem_mapFinIdx]
    exact (hbits u h).1

end

theorem clusterSteps : Spec.ClusterSteps := by
  intro s c k
  exact ⟨fun hp => clusterWake_gated (s := Spec.on s (.clusterWake c)) rfl hp,
    fun hp => clusterWake_retained (s := Spec.on s (.clusterWake c)) rfl hp,
    fun hu => clusterUsable_due (s := Spec.on s (.clusterUsable c)) rfl hu,
    fun hp hu hfree hon hidle => clusterRetain_due (s := Spec.on s (.clusterRetain c)) rfl hp hu hfree hon hidle,
    fun h hfree hon => clusterGate_due (s := Spec.on s (.clusterGate c)) rfl (gateDue_of (s := Spec.on s (.clusterGate c)) h hfree hon),
    fun hdue hp hu hadm => testStart_due (s := Spec.on s (.testStart c)) rfl hdue hp hu hadm,
    fun hp => testDone_spec (s := Spec.on s (.testDone c)) rfl hp⟩

/-! ### Kernels (R217, R244 to R248) -/

theorem OnlyHbm.ctx {s s' : State} (h : OnlyHbm s s') (k : Nat) : s'.ctx k = s.ctx k := by
  rw [h]
  rfl

theorem onlyHbm_pinImage (s : State) (ctx : Nat) (pages : List Word) : OnlyHbm s (pinImage s ctx pages).1 := by
  refine onlyHbm_foldl_fst (r := (s, [])) fun r va => ?_
  split
  · rfl
  · exact onlyHbm_setLeaf ..

/-- Changing a kernel of a context and finding it, where the change keeps its image. -/
theorem kernel_modKernel {x : Ctx} {k : Word} {j : Kernel} {f : Kernel → Kernel} (h : x.kernel k = some j)
    (hf : ∀ j, (f j).kimg = j.kimg) : (x.modKernel k f).kernel k = some (f j) := by
  have hkimg : j.kimg = k := beq_iff_eq.1 (List.find?_some (p := fun j : Kernel => j.kimg == k) h)
  have hfun : (fun j : Kernel => j.kimg == k) ∘ (fun j => if j.kimg = k then f j else j) = fun j => j.kimg == k := by
    funext j
    simp only [Function.comp_apply]
    split
    · rw [hf]
    · rfl
  rw [Ctx.kernel] at h
  rw [Ctx.kernel, Ctx.modKernel, List.find?_map, hfun, h, Option.map_some, if_pos hkimg]

/-- A kernel that is loaded is found at its image: any other record of that image is gone. -/
theorem find?_loaded (l : List Kernel) {k : Word} {j : Kernel} (h : j.kimg = k) :
    (l.filter (fun i => i.kimg != k) ++ [j]).find? (fun i => i.kimg == k) = some j := by
  have hnone : (l.filter (fun i => i.kimg != k)).find? (fun i => i.kimg == k) = none := by
    rw [List.find?_eq_none]
    intro i hi
    simpa using (List.mem_filter.1 hi).2
  rw [List.find?_append, hnone, Option.none_or, List.find?_singleton, if_pos (beq_iff_eq.2 h)]

section
variable {s : State} {c : Nat} {k : Word}

/-- An image that passes the checks gives its nodes at least one attempt. -/
theorem attempts_of_loadCheck {h : Header} (hcheck : loadCheck s c k h = none) : h.field 6 2 / 16 % 16 ≠ 0 := by
  unfold loadCheck at hcheck
  dsimp only at hcheck
  rw [Option.map_eq_none_iff, List.findIdx?_eq_none_iff] at hcheck
  have hatt := hcheck _ (List.mem_cons_of_mem _ List.mem_cons_self)
  rw [Bool.not_eq_false', decide_eq_true_eq] at hatt
  exact hatt

/-- What loading leaves of the context and of the tiles. -/
theorem ctx_loadKernel (h : Header) (hc : c < 32) : ∃ pages, (loadKernel s c k h).ctx c = { s.ctx c with
    meas := sha384 (wide (s.ctx c).meas ++ wide (sha384 (readHbm s c k h.ilen)))
    kernels := (s.ctx c).kernels.filter (fun j => j.kimg != k) ++ [kernelOfHeader k h pages] } ∧
    (loadKernel s c k h).tiles = s.tiles := by
  have hpin := onlyHbm_pinImage s c (imagePages k h.ilen)
  refine ⟨(pinImage s c (imagePages k h.ilen)).2, ?_, hpin.tiles⟩
  rw [loadKernel, ctx_modCtx _ c _ hc, if_pos rfl, hpin.ctx]

section
variable (hev : s.ev = some (.kernelLoadRequest c k))
include hev

theorem kernelLoadRequest_wrongState (h : ((s.ctx c).st ≠ .building ∧ (s.ctx c).st ≠ .live) ∨ k.toNat % 4096 ≠ 0) :
    exec .kernelLoadRequest s = .next (s.report (.refusedRequest c)) := by
  rw [exec_kernelLoadRequest, execKernelLoadRequest]
  simp only [hev]
  rw [if_pos h]

/-- An image that may be read is decided by its checks. -/
theorem kernelLoadRequest_checked (hst : (s.ctx c).st = .building ∨ (s.ctx c).st = .live) (hal : k.toNat % 4096 = 0)
    (hnew : (s.ctx c).kernels.all (fun j => j.st == .retired || j.kimg != k) = true)
    (hroom : ((s.ctx c).kernels.filter (fun j => j.st != .retired)).length < 1024)
    (hread : imageReadable s c k 256 = true)
    (hbehind : imageBehind s c k (256 + 16 * (headerOf s c k).nsec + (headerOf s c k).ilen) = false) :
    (∀ n, loadCheck s c k (headerOf s c k) = some n → exec .kernelLoadRequest s = .next (s.report (.loadRefused c k n))) ∧
    (loadCheck s c k (headerOf s c k) = none → exec .kernelLoadRequest s = .next (loadKernel s c k (headerOf s c k))) := by
  have hstate : ¬ (((s.ctx c).st ≠ .building ∧ (s.ctx c).st ≠ .live) ∨ k.toNat % 4096 ≠ 0) := by
    rintro (⟨hb, hl⟩ | hn)
    · exact hst.elim hb hl
    · exact hn hal
  have hno : ((s.ctx c).kernels.filter (fun j => j.st != .retired)).any (fun j => j.kimg == k) = false := by
    rw [List.any_eq_false]
    intro j hj hk
    obtain ⟨hmem, hlive⟩ := List.mem_filter.1 hj
    have hother := List.all_eq_true.1 hnew j hmem
    rcases Bool.or_eq_true_iff.1 hother with h | h
    · exact bne_iff_ne.1 hlive (beq_iff_eq.1 h)
    · exact bne_iff_ne.1 h (beq_iff_eq.1 hk)
  rw [exec_kernelLoadRequest, execKernelLoadRequest]
  simp only [hev]
  rw [if_neg hstate, if_neg (by rw [hno]; simpa using hroom), if_neg (by simp [hread]), if_neg (by simp [hbehind])]
  exact ⟨fun n hn => by rw [hn], fun hn => by rw [hn]⟩

end

/-- What a request to load a kernel leaves once its image has passed. -/
theorem kernelLoadRequest_loaded (hstep : exec .kernelLoadRequest s = .next (loadKernel s c k (headerOf s c k)))
    (hcheck : loadCheck s c k (headerOf s c k) = none) (hc : c < 32) : ∃ s' j, exec .kernelLoadRequest s = .next s' ∧
      (s'.ctx c).kernel k = some j ∧ j.st = .loaded ∧ j.groups = 0 ∧
      j.partw = (headerOf s c k).partw &&& BitVec.ofNat 64 (2 ^ 60 - 1) ∧
      j.entries = (headerOf s c k).entries ∧ j.att ≠ 0 ∧
      (s'.ctx c).meas = sha384 (beBytes 48 (s.ctx c).meas.toNat ++
        beBytes 48 (sha384 (readHbm s c k (headerOf s c k).ilen)).toNat) ∧ s'.tiles = s.tiles := by
  obtain ⟨pages, hctx, htiles⟩ := ctx_loadKernel (s := s) (k := k) (headerOf s c k) hc
  refine ⟨_, kernelOfHeader k (headerOf s c k) pages, hstep, ?_, rfl, rfl, rfl, rfl, attempts_of_loadCheck hcheck, ?_, htiles⟩
  · rw [hctx]
    exact find?_loaded _ rfl
  · rw [hctx]
    rfl

section
variable {j : Kernel} (hk : (s.ctx c).kernel k = some j)
include hk

theorem kernelResetRequest_reset (hev : s.ev = some (.kernelResetRequest c k)) (hc : c < 32) (hst : j.st = .failed)
    (hg : j.groups = 0) : ∃ s', exec .kernelResetRequest s = .next s' ∧ (s'.ctx c).kernel k = some { j with st := .loaded } := by
  refine ⟨s.modCtx c fun x => x.modKernel k fun j => { j with st := .loaded }, ?_, ?_⟩
  · rw [exec_kernelResetRequest, execKernelResetRequest]
    simp only [hev, hk]
    rw [if_pos ⟨hst, hg⟩]
  · rw [ctx_modCtx _ c _ hc, if_pos rfl]
    exact kernel_modKernel hk fun _ => rfl

theorem kernelResetRequest_refused (hev : s.ev = some (.kernelResetRequest c k)) (h : j.st ≠ .failed ∨ j.groups ≠ 0) :
    exec .kernelResetRequest s = .next (s.report (.refusedRequest c)) := by
  rw [exec_kernelResetRequest, execKernelResetRequest]
  simp only [hev, hk]
  rw [if_neg (by tauto)]

theorem kernelRetireRequest_retired (hev : s.ev = some (.kernelRetireRequest c k)) (hc : c < 32)
    (hst : j.st = .loaded ∨ j.st = .failed) (hg : j.groups = 0) :
    ∃ s', exec .kernelRetireRequest s = .next s' ∧ (s'.ctx c).kernel k = some { j with st := .retired } := by
  refine ⟨(unpinImage s c j).modCtx c fun x => x.modKernel k fun j => { j with st := .retired }, ?_, ?_⟩
  · rw [exec_kernelRetireRequest, execKernelRetireRequest]
    simp only [hev, hk]
    rw [if_pos ⟨hst, hg⟩]
  · rw [ctx_modCtx _ c _ hc, if_pos rfl, (onlyHbm_unpinImage _ c j).ctx]
    exact kernel_modKernel hk fun _ => rfl

theorem kernelRetireRequest_refused (hev : s.ev = some (.kernelRetireRequest c k))
    (h : (j.st ≠ .loaded ∧ j.st ≠ .failed) ∨ j.groups ≠ 0) :
    exec .kernelRetireRequest s = .next (s.report (.refusedRequest c)) := by
  rw [exec_kernelRetireRequest, execKernelRetireRequest]
  simp only [hev, hk]
  rw [if_neg (by tauto)]

end

section
variable (hk : (s.ctx c).kernel k = none)
include hk

theorem kernelResetRequest_unknown (hev : s.ev = some (.kernelResetRequest c k)) :
    exec .kernelResetRequest s = .next (s.report (.refusedRequest c)) := by
  rw [exec_kernelResetRequest, execKernelResetRequest]
  simp only [hev, hk]

theorem kernelRetireRequest_unknown (hev : s.ev = some (.kernelRetireRequest c k)) :
    exec .kernelRetireRequest s = .next (s.report (.refusedRequest c)) := by
  rw [exec_kernelRetireRequest, execKernelRetireRequest]
  simp only [hev, hk]

end

end

theorem kernelSteps : Spec.KernelSteps := by
  refine ⟨fun s c k => ⟨fun h => ?_, fun hst hal hroom hread hbehind => ?_⟩, fun s c k j hc hk => ⟨?_, ?_, ?_, ?_⟩,
    fun s c k hk => ⟨?_, ?_⟩⟩
  · exact kernelLoadRequest_wrongState (s := Spec.on s (.kernelLoadRequest c k)) rfl h
  · obtain ⟨hnew, hfew⟩ := hroom
    obtain ⟨hrefused, hpassed⟩ :=
      kernelLoadRequest_checked (s := Spec.on s (.kernelLoadRequest c k)) rfl hst hal hnew hfew hread hbehind
    exact ⟨hrefused, fun hn hc => kernelLoadRequest_loaded (hpassed hn) hn hc⟩
  · exact fun hst hg => kernelResetRequest_reset (s := Spec.on s (.kernelResetRequest c k)) hk rfl hc hst hg
  · exact fun h => kernelResetRequest_refused (s := Spec.on s (.kernelResetRequest c k)) hk rfl h
  · exact fun hst hg => kernelRetireRequest_retired (s := Spec.on s (.kernelRetireRequest c k)) hk rfl hc hst hg
  · exact fun h => kernelRetireRequest_refused (s := Spec.on s (.kernelRetireRequest c k)) hk rfl h
  · exact kernelResetRequest_unknown (s := Spec.on s (.kernelResetRequest c k)) hk rfl
  · exact kernelRetireRequest_unknown (s := Spec.on s (.kernelRetireRequest c k)) hk rfl

/-- Settles O55, from the steps of a cluster's power and test and those of a kernel, one lemma to a case. -/
theorem kernelAndClusterSteps : Obligations.KernelAndClusterSteps := ⟨clusterSteps, kernelSteps⟩

end Sys2Proof.Laws

/-! SUPPORT and O36. The scalar operations of Table 5.4 (R33, R34, R61, R99): the model computes in integers and cuts the result to
the width, the statement in bit vectors of the width. -/

namespace Sys2Proof.Laws

open Sys2Proof Sys2Proof.Machine

/-! ### Operands of a width as numbers (R33) -/

section
variable {w : Nat}

theorem wrapInt_eq (z : Int) : wrapInt w z = (BitVec.ofInt w z).toNat := by
  rw [wrapInt, BitVec.toNat_ofInt]
  push_cast
  rfl

theorem ofInt_asInt (sg : Bool) (x : BitVec w) : BitVec.ofInt w (Spec.asInt sg x) = x := by
  cases sg with
  | false => exact (BitVec.ofInt_natCast ..).trans ((BitVec.ofNat_toNat ..).trans (BitVec.setWidth_eq x))
  | true => exact BitVec.ofInt_toInt

theorem wrapInt_asInt (sg : Bool) (x : BitVec w) : wrapInt w (Spec.asInt sg x) = x.toNat := by
  rw [wrapInt_eq, ofInt_asInt]

theorem asInt_eq_zero (sg : Bool) (y : BitVec w) : Spec.asInt sg y = 0 ↔ y = 0 := by
  cases sg with
  | false => simp [Spec.asInt, BitVec.toNat_eq]
  | true => simp [Spec.asInt, ← BitVec.toInt_inj]

theorem below_eq (sg : Bool) (x y : BitVec w) : Spec.below w sg x y = decide (Spec.asInt sg x < Spec.asInt sg y) := by
  cases sg with
  | false => simp [Spec.below, Spec.asInt, BitVec.ult_eq_decide]
  | true => simp [Spec.below, Spec.asInt, BitVec.slt_eq_decide]

/-- Extending an operand to another width keeps its number. -/
theorem ofInt_asInt_extend (sg : Bool) (x : BitVec w) (v : Nat) :
    BitVec.ofInt v (Spec.asInt sg x) = if sg then x.signExtend v else x.setWidth v := by
  cases sg with
  | false => exact (BitVec.ofInt_natCast ..).trans (BitVec.ofNat_toNat ..)
  | true => rfl

/-- The upper half of a number of twice the width. -/
theorem extractLsb'_ofInt (z : Int) : (BitVec.ofInt (2 * w) z).extractLsb' w w = BitVec.ofInt w (z / 2 ^ w) := by
  apply BitVec.eq_of_toNat_eq
  rw [BitVec.extractLsb'_toNat, BitVec.toNat_ofInt, BitVec.toNat_ofInt, Nat.shiftRight_eq_div_pow, two_mul, pow_add]
  have hpos : (0 : Int) < 2 ^ w := by positivity
  push_cast
  zify
  have h1 := Int.emod_nonneg z (mul_pos hpos hpos).ne'
  rw [Int.toNat_of_nonneg h1, Int.toNat_of_nonneg (Int.emod_nonneg _ hpos.ne')]
  rw [Int.emod_def z, Int.sub_ediv_of_dvd _ (by exact ⟨2 ^ w * (z / (2 ^ w * 2 ^ w)), by ring⟩)]
  rw [mul_assoc, Int.mul_ediv_cancel_left _ hpos.ne', Int.sub_mul_emod_self_left]

end

/-! ### The functions of Table 5.4 -/

/-- The integer function of a form gives, cut to the width, what its operation on bit vectors gives. -/
def Realizes (f : Nat → Int → Int → Int) (op : Spec.BinOp) : Prop :=
  ∀ w, 0 < w → ∀ (sg : Bool) (x y : BitVec w), BitVec.ofInt w (f w (Spec.asInt sg x) (Spec.asInt sg y)) = op w sg x y

theorem realizes_fAdd : Realizes fAdd fun _ _ x y => x + y := fun w _ sg x y => by
  rw [fAdd, BitVec.ofInt_add, ofInt_asInt, ofInt_asInt]

theorem realizes_fSub : Realizes fSub fun _ _ x y => x - y := fun w _ sg x y => by
  rw [fSub, Int.sub_eq_add_neg, BitVec.ofInt_add, BitVec.ofInt_neg, ofInt_asInt, ofInt_asInt, ← BitVec.sub_eq_add_neg]

theorem realizes_fMul : Realizes fMul fun _ _ x y => x * y := fun w _ sg x y => by
  rw [fMul, BitVec.ofInt_mul, ofInt_asInt, ofInt_asInt]

theorem realizes_fMulh : Realizes fMulh Spec.mulHigh := fun w _ sg x y => by
  rw [fMulh, ← extractLsb'_ofInt, BitVec.ofInt_mul, ofInt_asInt_extend, ofInt_asInt_extend]
  cases sg
  · rfl
  · rfl

theorem realizes_fDiv : Realizes fDiv Spec.quot := fun w hw sg x y => by
  unfold fDiv Spec.quot
  simp only [asInt_eq_zero]
  by_cases hy : y = 0
  · rw [if_pos hy, if_pos hy]
    exact (BitVec.ofInt_neg (n := 1)).trans BitVec.neg_one_eq_allOnes
  · rw [if_neg hy, if_neg hy]
    cases sg with
    | false => exact ofInt_asInt false (x.udiv y)
    | true =>
      apply BitVec.eq_of_toInt_eq
      rw [BitVec.toInt_ofInt]
      exact (BitVec.toInt_sdiv ..).symm

theorem realizes_fRem : Realizes fRem Spec.remd := fun w _ sg x y => by
  unfold fRem Spec.remd
  simp only [asInt_eq_zero]
  by_cases hy : y = 0
  · rw [if_pos hy, if_pos hy, ofInt_asInt]
  · rw [if_neg hy, if_neg hy]
    cases sg with
    | false => exact ofInt_asInt false (x.umod y)
    | true => exact (congrArg (BitVec.ofInt w) (BitVec.toInt_srem x y).symm).trans BitVec.ofInt_toInt

theorem realizes_fAnd : Realizes fAnd fun _ _ x y => x &&& y := fun w _ sg x y => by
  rw [fAnd, wrapInt_asInt, wrapInt_asInt]
  exact ofInt_asInt false (x &&& y)

theorem realizes_fOr : Realizes fOr fun _ _ x y => x ||| y := fun w _ sg x y => by
  rw [fOr, wrapInt_asInt, wrapInt_asInt]
  exact ofInt_asInt false (x ||| y)

theorem realizes_fXor : Realizes fXor fun _ _ x y => x ^^^ y := fun w _ sg x y => by
  rw [fXor, wrapInt_asInt, wrapInt_asInt]
  exact ofInt_asInt false (x ^^^ y)

theorem realizes_fAndn : Realizes fAndn fun _ _ x y => x &&& ~~~y := fun w _ sg x y => by
  rw [fAndn, wrapInt_asInt, wrapInt_asInt, ← BitVec.toNat_not]
  exact ofInt_asInt false (x &&& ~~~y)

theorem realizes_fShl : Realizes fShl fun w _ x y => x <<< (y.toNat % w) := fun w _ sg x y => by
  rw [fShl, wrapInt_asInt, wrapInt_asInt, BitVec.ofInt_natCast]
  exact BitVec.eq_of_toNat_eq (by rw [BitVec.toNat_ofNat, BitVec.toNat_shiftLeft, Nat.shiftLeft_eq])

theorem realizes_fShr : Realizes fShr fun w _ x y => x >>> (y.toNat % w) := fun w _ sg x y => by
  rw [fShr, wrapInt_asInt, wrapInt_asInt, ← Nat.shiftRight_eq_div_pow]
  exact ofInt_asInt false (x >>> (y.toNat % w))

theorem realizes_fSra : Realizes fSra fun w _ x y => x.sshiftRight (y.toNat % w) := fun w _ sg x y => by
  rw [fSra, wrapInt_asInt, wrapInt_asInt, readInt_toNat]
  exact congrArg (BitVec.ofInt w) (Int.shiftRight_eq_div_pow ..).symm

theorem realizes_fRot : Realizes fRot fun w _ x y => x.rotateLeft (y.toNat % w) := fun w hw sg x y => by
  rw [fRot, wrapInt_asInt, wrapInt_asInt, BitVec.ofInt_natCast]
  apply BitVec.eq_of_toNat_eq
  have hk : y.toNat % w < w := Nat.mod_lt _ hw
  have hlow : x.toNat / 2 ^ (w - y.toNat % w) < 2 ^ (y.toNat % w) := by
    rw [Nat.div_lt_iff_lt_mul (by positivity), ← pow_add, Nat.add_sub_cancel' hk.le]
    exact x.isLt
  have hhigh : x.toNat * 2 ^ (y.toNat % w) % 2 ^ w = x.toNat % 2 ^ (w - y.toNat % w) * 2 ^ (y.toNat % w) := by
    rw [← Nat.mul_mod_mul_right, ← pow_add, Nat.sub_add_cancel hk.le]
  have hsum := (x.rotateLeft (y.toNat % w)).isLt
  rw [BitVec.toNat_rotateLeft, Nat.mod_eq_of_lt hk, Nat.shiftLeft_eq, hhigh, Nat.shiftRight_eq_div_pow, ← Nat.shiftLeft_eq,
    ← Nat.shiftLeft_add_eq_or_of_lt hlow, Nat.shiftLeft_eq] at hsum
  rw [BitVec.toNat_ofNat, BitVec.toNat_rotateLeft, Nat.mod_eq_of_lt hk, Nat.shiftLeft_eq, ← Nat.mod_add_mod, hhigh,
    Nat.mod_eq_of_lt hsum, Nat.shiftRight_eq_div_pow, ← Nat.shiftLeft_eq, Nat.shiftLeft_add_eq_or_of_lt hlow]

theorem realizes_fMin : Realizes fMin fun w sg x y => if Spec.below w sg y x then y else x := fun w _ sg x y => by
  simp only [fMin, below_eq, decide_eq_true_eq]
  by_cases h : Spec.asInt sg x ≤ Spec.asInt sg y
  · rw [if_pos h, if_neg (not_lt.2 h), ofInt_asInt]
  · rw [if_neg h, if_pos (not_le.1 h), ofInt_asInt]

theorem realizes_fMax : Realizes fMax fun w sg x y => if Spec.below w sg x y then y else x := fun w _ sg x y => by
  simp only [fMax, below_eq, decide_eq_true_eq]
  by_cases h : Spec.asInt sg x ≤ Spec.asInt sg y
  · rw [if_pos h, ofInt_asInt]
    by_cases hlt : Spec.asInt sg x < Spec.asInt sg y
    · rw [if_pos hlt]
    · rw [if_neg hlt, ← ofInt_asInt sg x, ← ofInt_asInt sg y, le_antisymm h (not_lt.1 hlt)]
  · rw [if_neg h, if_neg (mt le_of_lt h), ofInt_asInt]

/-! ### The forms -/

section
variable {f : Nat → Int → Int → Int} {op : Spec.BinOp}

/-- The numbers of the operands as R99 reads them. -/
theorem readInt_setWidth (sg : Bool) (w : Nat) (a : Word) : readInt sg w a.toNat = Spec.asInt sg (a.setWidth w) := by
  rw [← readInt_toNat]
  simp [readInt]

theorem aluRes_of_width (h : Realizes f op) {wd : BitVec 3} {w : Nat} (hw : 8 * widthBytes wd = w) (hpos : 0 < w) (a b : Word) :
    let r := op w (wd.getLsbD 2) (a.setWidth w) (b.setWidth w)
    aluRes f wd a b = if wd.getLsbD 2 then r.signExtend 64 else r.setWidth 64 := by
  subst hw
  dsimp only
  rw [aluRes, signed_eq, ofInt_readInt, ofNat_wrapInt, readInt_setWidth, readInt_setWidth, h _ hpos]

theorem aluRes_eq (h : Realizes f op) (wd : BitVec 3) (a b : Word) : aluRes f wd a b = Spec.aluResult op wd a b :=
  aluRes_of_width h (by revert wd; decide) (by revert wd; decide) a b

variable {s : State} {p : Pred} {o : AluOps}

theorem aluNow_next (hf : Realizes f op) (h : Ready s p .any (aluSrcs o) [.g o.d]) : aluNow f p o s =
    .next (retired s (putG s o.d (Spec.aluResult op o.wd (gOf s o.a) (Spec.operandB s o))) 8) := by
  rw [← aluRes_eq hf]
  exact issue_ready h

theorem aluLate_next (hf : Realizes f op) (lat : Nat) (h : Ready s p .any (aluSrcs o) [.g o.d]) : aluLate lat f p o s =
    .next (retired s (putGLater s o.d (Spec.aluResult op o.wd (gOf s o.a) (Spec.operandB s o)) lat) 8) := by
  rw [← aluRes_eq hf]
  exact issue_ready h

end

theorem scalarResults : Spec.ScalarResults := by
  unfold Spec.ScalarResults Spec.aluForms
  simp only [List.forall_mem_cons]
  exact ⟨fun _ _ _ h => (exec_add ..).trans (aluNow_next realizes_fAdd h),
    fun _ _ _ h => (exec_sub ..).trans (aluNow_next realizes_fSub h),
    fun _ _ _ h => (exec_and ..).trans (aluNow_next realizes_fAnd h),
    fun _ _ _ h => (exec_or ..).trans (aluNow_next realizes_fOr h),
    fun _ _ _ h => (exec_xor ..).trans (aluNow_next realizes_fXor h),
    fun _ _ _ h => (exec_andn ..).trans (aluNow_next realizes_fAndn h),
    fun _ _ _ h => (exec_shl ..).trans (aluNow_next realizes_fShl h),
    fun _ _ _ h => (exec_shr ..).trans (aluNow_next realizes_fShr h),
    fun _ _ _ h => (exec_sra ..).trans (aluNow_next realizes_fSra h),
    fun _ _ _ h => (exec_rot ..).trans (aluNow_next realizes_fRot h),
    fun _ _ _ h => (exec_min ..).trans (aluNow_next realizes_fMin h),
    fun _ _ _ h => (exec_max ..).trans (aluNow_next realizes_fMax h), List.forall_mem_nil _⟩

theorem scalarLateResults : Spec.ScalarLateResults := by
  unfold Spec.ScalarLateResults Spec.aluLateForms
  simp only [List.forall_mem_cons]
  exact ⟨fun _ _ _ h => (exec_mul ..).trans (aluLate_next realizes_fMul 3 h),
    fun _ _ _ h => (exec_mulh ..).trans (aluLate_next realizes_fMulh 3 h),
    fun _ _ _ h => (exec_div ..).trans (aluLate_next realizes_fDiv 20 h),
    fun _ _ _ h => (exec_rem ..).trans (aluLate_next realizes_fRem 20 h), List.forall_mem_nil _⟩

/-- Settles O36: each form is issued alike, and its function is the operation on bit vectors that the statement names. -/
theorem scalarArithmetic : Obligations.ScalarArithmetic := ⟨scalarResults, scalarLateResults⟩

end Sys2Proof.Laws

/-! SUPPORT and O3. `waitc` (R104): the wait at issue, and what the end of a cycle makes of it. -/

namespace Sys2Proof.Laws

open Sys2Proof Sys2Proof.Machine

/-- The threshold of `waitc`: 32 bits of a sum of words are those of the sum of the numbers. -/
theorem waitc_threshold (a : Word) (imm : BitVec 36) :
    (a + imm.setWidth 64).setWidth 32 = BitVec.ofNat 32 (a.toNat + imm.toNat) := by
  apply BitVec.eq_of_toNat_eq
  simp only [BitVec.toNat_setWidth, BitVec.toNat_add, BitVec.toNat_ofNat]
  omega

/-- A strand whose wait and instruction end goes on at the successor, `d` cycles from now. -/
theorem strand_complete (s : State) (t : TileId) (n : StrandNo) (d : Nat) : (complete s t n d).strand t n =
    { s.strand t n with
      st := .ready, wait := .idle, notBefore := s.cycle + d, passed := false
      pc := successor (s.strand t n).pc (s.strand t n).wlen } := strand_modStrand_self ..

@[simp] theorem v_complete (s : State) (t u : TileId) (n : StrandNo) (d : Nat) : ((complete s t n d).tile u).v = (s.tile u).v :=
  v_modStrand ..

@[simp] theorem strand_setP (s : State) (t : TileId) (n : StrandNo) (d : BitVec 3) (b : Bool) :
    (setP s t n d b).strand t n = (s.strand t n).wp d b := strand_modStrand_self ..

@[simp] theorem v_setP (s : State) (t u : TileId) (n : StrandNo) (d : BitVec 3) (b : Bool) :
    ((setP s t n d b).tile u).v = (s.tile u).v := v_modStrand ..

/-- Of a strand a predicate write changes the predicates alone. -/
theorem wp_eq (S : Strand) (d : BitVec 3) (b : Bool) : ∃ q, S.wp d b = { S with p := q } := by
  unfold Strand.wp
  split
  · exact ⟨S.p, rfl⟩
  · exact ⟨_, rfl⟩

/-- A wait that ends with its instruction and a predicate: the strand is READY at the successor with the predicate set. -/
theorem complete_setP (s : State) (t : TileId) (n : StrandNo) (pf : BitVec 3) (b : Bool) (d : Nat) :
    let S' := (complete (setP s t n pf b) t n d).strand t n
    S'.st = .ready ∧ S'.notBefore = s.cycle + d ∧ S'.pc = successor (s.strand t n).pc (s.strand t n).wlen ∧
      (pf ≠ 0 → S'.rp pf = b) ∧ S'.g = (s.strand t n).g := by
  intro S'
  have hS' : S' = _ := strand_complete ..
  have hrp : S'.rp pf = ((s.strand t n).wp pf b).rp pf := by rw [hS', strand_setP]; rfl
  obtain ⟨q, hq⟩ := wp_eq (s.strand t n) pf b
  refine ⟨by rw [hS'], by rw [hS']; rfl, by rw [hS', strand_setP, hq], fun hpf => ?_, by rw [hS', strand_setP, hq]⟩
  rw [hrp, rp_wp, if_neg hpf, if_pos rfl]

section
variable {s : State} {t : TileId} {n : StrandNo} {thr : BitVec 32} {ct : BitVec 4} {sub : Bool} {pf : BitVec 3} {start tmo : Nat}

theorem tickStrand_counter (hst : (s.strand t n).st = .waiting) (hw : (s.strand t n).wait = .counter thr ct sub pf start tmo) :
    tickStrand s t n = compareCounter s t n thr ct sub pf start tmo := by
  unfold tickStrand
  simp only [hst, hw]

/-- The counter's level is at the threshold or above it. -/
theorem compareCounter_reached (h : thr.toNat ≤ (s.tile t).v.c[ct.toNat].toNat) :
    let c := (s.tile t).v.c[ct.toNat]
    let s' := compareCounter s t n thr ct sub pf start tmo
    (s'.tile t).v.c[ct.toNat] = (if sub then c - thr else c) ∧ (s'.strand t n).st = .ready ∧
      (s'.strand t n).notBefore = s.cycle + 1 ∧ (s'.strand t n).pc = successor (s.strand t n).pc (s.strand t n).wlen ∧
      (pf ≠ 0 → (s'.strand t n).rp pf = false) ∧ s'.agenda = s.agenda := by
  unfold compareCounter
  dsimp only
  rw [if_pos h]
  cases sub with
  | false =>
    obtain ⟨hst, hnb, hpc, hrp, -⟩ := complete_setP s t n pf false 1
    exact ⟨by simp, hst, hnb, hpc, hrp, rfl⟩
  | true =>
    obtain ⟨hst, hnb, hpc, hrp, -⟩ := complete_setP
      (s.modV t fun v => { v with c := v.c.set ct.toNat ((s.tile t).v.c[ct.toNat] - thr) }) t n pf false 1
    rw [strand_modV] at hpc
    exact ⟨by simp, hst, hnb, hpc, hrp, rfl⟩

theorem compareCounter_timeout (h : (s.tile t).v.c[ct.toNat].toNat < thr.toNat) (htmo : tmo ≠ 0)
    (hdue : start + tmo ≤ s.cycle) : compareCounter s t n thr ct sub pf start tmo = s.post 1 (.waitcTimeout t n) :=
  (if_neg (Nat.not_le.2 h)).trans (if_pos ⟨htmo, hdue⟩)

theorem compareCounter_waits (h : (s.tile t).v.c[ct.toNat].toNat < thr.toNat) (htmo : tmo = 0 ∨ s.cycle < start + tmo) :
    compareCounter s t n thr ct sub pf start tmo = s :=
  (if_neg (Nat.not_le.2 h)).trans (if_neg (by omega))

end

/-- Settles O3: the wait at issue, then the comparison by level and timeout. -/
theorem waitOnCounter : Obligations.WaitOnCounter := by
  refine ⟨fun p sub a b ct pf imm s h => ?_, fun s t n thr ct sub pf start tmo hst hw => ?_⟩
  · rw [← waitc_threshold]
    exact (exec_waitc ..).trans (issue_block h rfl)
  · dsimp only
    rw [tickStrand_counter hst hw]
    exact ⟨compareCounter_reached, compareCounter_timeout, compareCounter_waits⟩

end Sys2Proof.Laws

/-! SUPPORT and O39. Loads on a local path (R97, R105, R193, R207, R208): where an access goes on, the lines it is cut into, and
what a line gives, outside DET mode and in it. -/

namespace Sys2Proof.Laws

open Sys2Proof Sys2Proof.Machine

/-! ### Ranges and their lines -/

theorem bytesOfCode_cases (wd : BitVec 3) :
    Spec.bytesOfCode wd = 1 ∨ Spec.bytesOfCode wd = 2 ∨ Spec.bytesOfCode wd = 4 ∨ Spec.bytesOfCode wd = 8 := by
  revert wd
  decide

/-- An aligned value of a width code lies within one line. -/
theorem withinLine {x : Word} {wd : BitVec 3} (h : x.toNat % Spec.bytesOfCode wd = 0) :
    Spec.ofsOf x % 64 + Spec.bytesOfCode wd ≤ 64 := by
  unfold Spec.ofsOf
  rcases bytesOfCode_cases wd with hn | hn | hn | hn <;> rw [hn] at h ⊢ <;> omega

/-- A part of a range is not empty and lies in it. -/
theorem mem_cutLines {f ofs : Nat} {data : List Byte} {c : Nat × List Byte} (hc : c ∈ cutLines f ofs data) :
    ofs ≤ c.1 ∧ 0 < c.2.length ∧ c.1 + c.2.length ≤ ofs + data.length := by
  induction f generalizing ofs data with
  | zero => cases hc
  | succ f ih =>
    rw [cutLines] at hc
    split at hc
    · cases hc
    next hne =>
      have hlen : 0 < data.length := List.length_pos_of_ne_nil (by simpa using hne)
      rcases List.mem_cons.1 hc with rfl | hc
      · simp only [List.length_take]
        omega
      · obtain ⟨hlow, hpos, hhigh⟩ := ih hc
        rw [List.length_drop] at hhigh
        omega

theorem bytes_add (m : Mem) (a x y : Nat) : m.bytes a (x + y) = m.bytes a x ++ m.bytes (a + x) y := by
  simp only [Mem.bytes, List.range_add, List.map_append, List.map_map, Nat.add_assoc]
  rfl

/-- The bytes of the parts are those of the range. -/
theorem flatMap_cutLines (m : Mem) (d : Nat) {f ofs : Nat} {data : List Byte} (h : ofs % 64 + data.length ≤ 64 * f) :
    (cutLines f ofs data).flatMap (fun c => m.bytes (c.1 + d) c.2.length) = m.bytes (ofs + d) data.length := by
  induction f generalizing ofs data with
  | zero =>
    rw [List.eq_nil_of_length_eq_zero (show data.length = 0 by omega)]
    rfl
  | succ f ih =>
    rw [cutLines]
    split
    next hnil =>
      rw [List.isEmpty_iff.1 hnil]
      rfl
    next =>
      rw [List.flatMap_cons]
      by_cases hone : data.length ≤ 64 - ofs % 64
      · simp only [List.take_of_length_le hone, List.drop_of_length_le hone, cutLines_nil, List.flatMap_nil, List.append_nil]
      · rw [ih (by rw [List.length_drop]; omega), List.length_take, List.length_drop, Nat.min_eq_left (by omega),
          Nat.add_right_comm, ← bytes_add, Nat.add_sub_cancel' (by omega)]

/-- Where a reachable range stands in the pool (R259): all of it is shifted alike. -/
theorem poolAddr_shift {w : Word} {ofs len : Nat} (h : Spec.reachable w ofs len) (slot : Nat) :
    ∃ d, ∀ o, ofs ≤ o → o < ofs + len → poolAddr w slot o = o + d := by
  have hpart {k : Nat} (hk : k < 6) (hin : Spec.liesIn w k ofs len) {o : Nat} (hlow : ofs ≤ o) (hhigh : o < ofs + len) :
      foreAt w o = (some k == some 5) := by
    obtain ⟨hbase, hlimit⟩ := hin
    rw [foreAt, partOf_eq hk Nat.one_pos ⟨hbase.trans hlow, by omega⟩]
  rcases h with hin | hin | hin
  · exact ⟨0, fun o hlow hhigh => if_neg (by rw [hpart (by decide) hin hlow hhigh]; decide)⟩
  · exact ⟨0, fun o hlow hhigh => if_neg (by rw [hpart (by decide) hin hlow hhigh]; decide)⟩
  · exact ⟨_, fun o hlow hhigh => if_pos (by rw [hpart (by decide) hin hlow hhigh]; decide)⟩

/-- The number of some bytes of a memory holds them. -/
theorem holds_bytes (T : Tile) (a len : Nat) : Spec.holds T a len (natOf (T.mem.bytes a len)) := by
  intro i hi
  rw [natOf_digit _ _ (by simpa [Mem.bytes] using hi)]
  simp [Mem.bytes]

theorem length_bytes (m : Mem) (a len : Nat) : (m.bytes a len).length = len := by simp [Mem.bytes]

/-! ### Places that go on (R81, R97) -/

section
variable {s : State} {x : Word} {len : Nat}

/-- An access to the own store goes on; a store besides needs a range that no collective claims, outside DET mode, and before
the arrival or in the foreshore. -/
theorem localPlace_own {wr : Bool} (h : Spec.OwnAccess s x len) (hlen : 0 < len)
    (hwr : wr = true → claimed (here s).v (Spec.ofsOf x) len = false ∧ s.det s.cur.1 = false ∧
      ((here s).v.bstate ≠ 2 ∨ Spec.liesIn (here s).v.partw 5 (Spec.ofsOf x) len)) :
    localPlace s s.cur.1 s.cur.2 x len wr = .ok (s.cur.1, Spec.ofsOf x) := by
  obtain ⟨ht, haligned, hown, hpart, horder, -⟩ := h
  have hplace : ownPlace s s.cur.1 s.cur.2 (Spec.ofsOf x) len wr = .ok (s.cur.1, Spec.ofsOf x) := by
    have hok : ownOk s s.cur.1 (Spec.ofsOf x) len = true := by
      rw [ownOk, if_neg ht]
      exact dataOk_of_reachable hlen hpart
    have horder' : ownOverlap (s.tile s.cur.1) s.cur.2 (Spec.ofsOf x) len = [] := horder
    cases wr with
    | false => simp [ownPlace, hok, horder']
    | true =>
      obtain ⟨hclaim, hdet, hearly⟩ := hwr rfl
      have hclaim' : claimed (s.tile s.cur.1).v (Spec.ofsOf x) len = false := hclaim
      have hlate : foreAt (s.tile s.cur.1).v.partw (Spec.ofsOf x) = false → ¬ (s.tile s.cur.1).v.bstate = 2 := by
        intro hfore
        refine hearly.resolve_right fun ⟨hbase, hlimit⟩ => ?_
        have hin : foreAt (s.tile s.cur.1).v.partw (Spec.ofsOf x) = true :=
          beq_iff_eq.2 (partOf_eq (by decide) Nat.one_pos ⟨hbase, le_trans (by omega) hlimit⟩)
        exact absurd (hin.symm.trans hfore) (by decide)
      simpa [ownPlace, hok, horder', hclaim', hdet] using hlate
  unfold localPlace
  dsimp only
  rw [if_neg (not_not.2 haligned)]
  rcases hown with hlow | ⟨-, hge, hlt, hpos⟩
  · rw [if_pos hlow]
    exact hplace
  · rw [if_neg (by omega), if_neg (not_or.2 ⟨by omega, not_or.2 ⟨by omega, ht⟩⟩), if_pos hpos]
    exact hplace

/-- Another position of a cluster is another tile's. -/
theorem tileAt_ne {t k : Nat} (hk : k < 8) (h : k ≠ posOf t) : tileAt (clusterOf t) k ≠ t := by
  intro heq
  have hpos : t / 32 % 32 % 2 * 4 + t % 32 % 4 = k := by
    have hcluster : (t / 1024 * 128 + t / 32 % 32 / 2 * 8 + t % 32 / 4) / 128 * 1024 +
        ((t / 1024 * 128 + t / 32 % 32 / 2 * 8 + t % 32 / 4) % 128 / 8 * 2 + k / 4 % 2) * 32 +
        (t / 1024 * 128 + t / 32 % 32 / 2 * 8 + t % 32 / 4) % 8 * 4 + k % 4 = t := heq
    have hdie : (t / 1024 * 128 + t / 32 % 32 / 2 * 8 + t % 32 / 4) / 128 = t / 1024 := by omega
    omega
  exact h hpos.symm

/-- A tile whose window may be used runs the same kernel. -/
theorem det_of_sibling {t u : TileId} (h : siblingOk s t u = true) : s.det u = s.det t := by
  unfold siblingOk at h
  split at h
  next g hg =>
    simp only [Bool.and_eq_true, beq_iff_eq] at h
    obtain ⟨⟨hrun, hgroup⟩, -⟩ := h
    have hsame : s.groupOf u = s.groupOf t := by
      rw [State.groupOf, if_pos hrun, hgroup]
      rw [State.groupOf, Option.ite_none_right_eq_some] at hg
      obtain ⟨hrun', hg⟩ := hg
      have hid := List.find?_some hg
      rw [State.groupOf, if_pos hrun', beq_iff_eq.1 hid]
    rw [State.det, State.det, State.kernelOf, State.kernelOf, hsame]
  next => cases h

/-- An access through the window goes on at the sibling. -/
theorem localPlace_window {u : TileId} (h : Spec.WindowAccess s x len u) (hlen : 0 < len) :
    localPlace s s.cur.1 s.cur.2 x len false = .ok (u, Spec.ofsOf x) := by
  obtain ⟨ht, haligned, ⟨hge, hlt⟩, hother, rfl, hgroup, hpart, hgate, hdet, -⟩ := h
  have hplace : windowPlace s s.cur.1 (tileAt (clusterOf s.cur.1) (x.toNat / 2 ^ 21 % 8)) (Spec.ofsOf x) len false =
      .ok (tileAt (clusterOf s.cur.1) (x.toNat / 2 ^ 21 % 8), Spec.ofsOf x) := by
    unfold windowPlace
    simp only [hgroup, partOf_eq (k := 2) (by decide) hlen hpart, hdet, hgate, beq_self_eq_true, Bool.not_true, Bool.or_false,
      Bool.false_and, Bool.false_eq_true, if_false]
  unfold localPlace
  dsimp only
  rw [if_neg (not_not.2 haligned), if_neg (by omega), if_neg (not_or.2 ⟨by omega, not_or.2 ⟨by omega, ht⟩⟩), if_neg hother]
  exact hplace

end

/-! ### Reads outside DET mode -/

section
variable {s : State} {t : TileId}

theorem lineRead_plain (hdet : s.det t = false) (herr : (s.tile t).errs = []) (n ofs len : Nat) : lineRead s t n ofs len =
    .ok (s, (s.tile t).mem.bytes (poolAddr (s.tile t).v.partw (s.tile t).slot ofs) len) := by
  unfold lineRead
  simp only [hdet, Bool.false_and, Bool.false_eq_true, if_false, eccRead_of_sound herr, if_true]

/-- A fold that reads on, its state as it was. -/
theorem foldl_append_ok {α : Type} {f : Except WErr (State × List Byte) → α → Except WErr (State × List Byte)}
    {g : α → List Byte} (h : ∀ c bs, f (.ok (s, bs)) c = .ok (s, bs ++ g c)) (l : List α) (bs : List Byte) :
    l.foldl f (.ok (s, bs)) = .ok (s, bs ++ l.flatMap g) := by
  induction l generalizing bs with
  | nil => simp
  | cons c l ih => rw [List.foldl_cons, h, ih, List.flatMap_cons, List.append_assoc]

/-- A read gives the bytes of its parts. -/
theorem localRead_parts (hdet : s.det t = false) (herr : (s.tile t).errs = []) (n ofs len : Nat) : localRead s t n ofs len =
    .ok (s, (cutLines (len / 64 + 2) ofs (List.replicate len 0)).flatMap fun c =>
      (s.tile t).mem.bytes (poolAddr (s.tile t).v.partw (s.tile t).slot c.1) c.2.length) := by
  unfold localRead
  generalize cutLines (len / 64 + 2) ofs (List.replicate len 0) = l
  rw [foldl_append_ok (g := fun c =>
    (s.tile t).mem.bytes (poolAddr (s.tile t).v.partw (s.tile t).slot c.1) c.2.length), List.nil_append]
  intro c bs
  simp only [lineRead_plain hdet herr]

/-- A read of a range that stands in the pool as a whole gives its bytes. -/
theorem localRead_range {d ofs len : Nat} (hdet : s.det t = false) (herr : (s.tile t).errs = []) (n : Nat)
    (hd : ∀ o, ofs ≤ o → o < ofs + len → poolAddr (s.tile t).v.partw (s.tile t).slot o = o + d) :
    localRead s t n ofs len = .ok (s, (s.tile t).mem.bytes (ofs + d) len) := by
  have hfuel : ofs % 64 + (List.replicate len (0 : Byte)).length ≤ 64 * (len / 64 + 2) := by
    rw [List.length_replicate]
    omega
  have hparts := flatMap_cutLines (s.tile t).mem d hfuel
  rw [List.length_replicate] at hparts
  rw [localRead_parts hdet herr, ← hparts]
  refine congrArg (fun bs => Except.ok (s, bs)) (List.flatMap_congr fun c hc => ?_)
  obtain ⟨hlow, hpos, hhigh⟩ := mem_cutLines hc
  rw [List.length_replicate] at hhigh
  rw [hd c.1 hlow (by omega)]

end

/-! ### Loads outside DET mode -/

section
variable {s : State} {t u : TileId} {n : StrandNo} {x : Word} {len : Nat} {k : State → Nat → Nat → State}

/-- A load whose place goes on and whose words give values: its latency is that of its path (Table 5.3). -/
theorem loadAct_of_read {ofs : Nat} {r : State × List Byte} (hplace : localPlace s t n x len false = .ok (u, ofs))
    (hread : localRead s u n.val ofs len = .ok r) :
    loadAct s t n x len k = .done (k r.1 (natOf r.2) (if u = t then 3 else 6)) := by
  rw [loadAct, hplace]
  simp only [hread]

/-- The bytes of the own store that a reachable range holds. -/
theorem localRead_own (h : Spec.OwnAccess s x len) (hdet : s.det s.cur.1 = false) (n : Nat) :
    localRead s s.cur.1 n (Spec.ofsOf x) len = .ok (s, (here s).mem.bytes (Spec.place s (Spec.ofsOf x)) len) := by
  obtain ⟨d, hd⟩ := poolAddr_shift h.part (here s).slot
  rw [localRead_range hdet h.sound n hd]
  cases len with
  | zero => rfl
  | succ len => rw [Spec.place, hd _ le_rfl (by omega)]; rfl

/-- The bytes of a sibling's store that a range of its scratch partition holds. -/
theorem localRead_window (h : Spec.WindowAccess s x len u) (n : Nat) :
    localRead s u n (Spec.ofsOf x) len = .ok (s, (s.tile u).mem.bytes (Spec.ofsOf x) len) := by
  obtain ⟨-, -, -, -, -, hgroup, ⟨hbase, hlimit⟩, -, hdet, herr⟩ := h
  refine localRead_range (d := 0) ((det_of_sibling hgroup).trans hdet) herr n fun o hlow hhigh => ?_
  have hpart : partOf (s.tile u).v.partw o 1 = some 2 := partOf_eq (by decide) Nat.one_pos ⟨hbase.trans hlow, by omega⟩
  rw [poolAddr, foreAt, hpart]
  rfl

theorem loadAct_own (h : Spec.OwnAccess s x len) (hlen : 0 < len) (hdet : s.det s.cur.1 = false) :
    loadAct s s.cur.1 s.cur.2 x len k = .done (k s (natOf ((here s).mem.bytes (Spec.place s (Spec.ofsOf x)) len)) 3) := by
  rw [loadAct_of_read (localPlace_own h hlen nofun) (localRead_own h hdet _), if_pos rfl]

theorem loadAct_window (h : Spec.WindowAccess s x len u) (hlen : 0 < len) :
    loadAct s s.cur.1 s.cur.2 x len k = .done (k s (natOf ((s.tile u).mem.bytes (Spec.ofsOf x) len)) 6) := by
  have hne : u ≠ s.cur.1 := by
    rw [h.pos]
    exact tileAt_ne (Nat.mod_lt _ (by decide)) h.other
  rw [loadAct_of_read (localPlace_window h hlen) (localRead_window h _), if_neg hne]

/-- A register holds 128 bytes as they stand. -/
theorem holds_register (T : Tile) (a : Nat) : Spec.holds T a 128 (BitVec.ofNat 1024 (natOf (T.mem.bytes a 128))).toNat := by
  have hlt : natOf (T.mem.bytes a 128) < 2 ^ 1024 := by
    have h := natOf_lt (T.mem.bytes a 128)
    rw [length_bytes, show (256 : Nat) = 2 ^ 8 from rfl, ← pow_mul] at h
    exact h
  rw [toNat_ofNat_of_lt hlt]
  exact holds_bytes T a 128

end

section
variable {s s' : State} {p : Pred} {a : GSrc} {imm : BitVec 26}

/-- A load of a width code whose effect is the delivery of a number. -/
theorem ld_next {wd : BitVec 3} {d : BitVec 5} {v lat : Nat} (h : Ready s p .any [.g a] [.g d]) (hcur : s'.cur = s.cur)
    (hload : ∀ k, loadAct s s.cur.1 s.cur.2 (Spec.ea s a imm) (Spec.bytesOfCode wd) k = .done (k s' v lat)) :
    exec (.ld p wd d a imm) s = .next (retired s (putGLater s' d (Spec.extended wd v) lat) 8) := by
  rw [← extendTo_eq, putGLater, hcur]
  exact (exec_ld ..).trans (issue_done h (hload _))

theorem ldw_next {d : BitVec 4} {v lat : Nat} (h : Ready s p .any [.g a] [.w d])
    (hload : ∀ k, loadAct s s.cur.1 s.cur.2 (Spec.ea s a imm) 128 k = .done (k s v lat)) :
    exec (.ldw p d a imm) s = .next (retired s (putV s (.w d) (BitVec.ofNat 1024 v) lat) 8) :=
  (exec_ldw ..).trans (issue_done h (hload _))

end

theorem localLoads : Spec.LocalLoads :=
  ⟨fun _ wd _ _ _ _ h hdet ha => ⟨_, holds_bytes _ _ _, ld_next h rfl fun _ => loadAct_own ha (bytesOfCode_pos wd) hdet⟩,
    fun _ _ _ _ _ h hdet ha => ⟨_, holds_register _ _, ldw_next h fun _ => loadAct_own ha (by decide) hdet⟩,
    fun _ wd _ _ _ _ _ h ha => ⟨_, holds_bytes _ _ _, ld_next h rfl fun _ => loadAct_window ha (bytesOfCode_pos wd)⟩,
    fun _ _ _ _ _ _ h ha => ⟨_, holds_register _ _, ldw_next h fun _ => loadAct_window ha (by decide)⟩⟩

/-! ### Reads in DET mode (R207, R208) -/

/-- What a strand sees of a line that it has not written beside another: the working copy, when no other strand's store has written
it, and else the standing version of an UNDO slot. -/
theorem detView_cases {T : Tile} {line n : Nat} (h : (∀ g ∈ ownSlots T line, otherStrand g.wby n = none) ∨
      (∀ g ∈ ownSlots T line, g.wby.getLsbD n = false)) :
    (detView T line n = .work ∧ ∀ g ∈ ownSlots T line, g.kind = .undo → otherStrand g.wby n = none) ∨
    ∃ g, (ownSlots T line).find? (fun g => g.kind == .undo && (otherStrand g.wby n).isSome) = some g ∧
      detView T line n = .stand g := by
  unfold detView
  dsimp only
  cases hsome : (ownSlots T line).findSome? (fun g => otherStrand g.wby n) with
  | none => exact .inl ⟨rfl, fun g hg _ => List.findSome?_eq_none_iff.1 hsome g hg⟩
  | some o =>
    obtain ⟨g₀, hg₀, ho⟩ := List.exists_of_findSome?_eq_some hsome
    have hmine : ((ownSlots T line).any fun g => g.wby.getLsbD n) = false := by
      rcases h with hnone | hclear
      · cases (hnone g₀ hg₀).symm.trans ho
      · rw [List.any_eq_false]
        intro g hg
        rw [hclear g hg]
        decide
    simp only [hmine, Bool.false_eq_true, if_false]
    cases hfind : (ownSlots T line).find? (fun g => g.kind == .undo && (otherStrand g.wby n).isSome) with
    | none =>
      refine .inl ⟨rfl, fun g hg hkind => ?_⟩
      simpa [hkind] using List.find?_eq_none.1 hfind g hg
    | some g => exact .inr ⟨g, rfl, rfl⟩

/-- Where every UNDO slot of a line tells of another strand, the first of them is the line's UNDO slot. -/
theorem standingSlot_eq {T : Tile} {line n : Nat} {g : Slot}
    (hall : ∀ g ∈ ownSlots T line, g.kind = .undo → otherStrand g.wby n ≠ none)
    (h : (ownSlots T line).find? (fun g => g.kind == .undo && (otherStrand g.wby n).isSome) = some g) :
    T.galley.find? (fun g => g.kind == .undo && g.ofs / 64 == line) = some g := by
  rw [← h, ownSlots, List.find?_filter]
  refine List.find?_congr fun g hg => ?_
  by_cases hkind : g.kind = .undo
  · by_cases hline : g.ofs / 64 = line
    · have hmem : g ∈ ownSlots T line := List.mem_filter.2 ⟨hg, by simp [hkind, hline]⟩
      simp [hkind, hline, Option.isSome_iff_ne_none.2 (hall g hmem hkind)]
    · simp [hkind, hline, Slot.deltaOf]
  · simp [hkind]

/-- A byte of the standing version, from the UNDO slot of its line. -/
theorem standingByte_of_slot {T : Tile} {a : Nat} {g : Slot}
    (h : T.galley.find? (fun g => g.kind == .undo && g.ofs / 64 == a / 64) = some g) :
    (standingByte T a).toNat = g.data.toNat / 256 ^ (a % 64) % 256 := by
  rw [standingByte, h]
  rw [BitVec.extractLsb'_toNat, Nat.shiftRight_eq_div_pow, pow_mul]
  rfl

/-- Some bytes of a slot's line as digits of their number. -/
theorem slotBytes_digit (data : Nat) {k len i : Nat} (h : k + len ≤ 64) (hi : i < len) :
    natOf (((bytesOf 64 data).drop k).take len) / 256 ^ i % 256 = data / 256 ^ (k + i) % 256 := by
  have hlen : i < (((bytesOf 64 data).drop k).take len).length := by
    rw [List.length_take, List.length_drop, length_bytesOf]
    omega
  rw [natOf_digit _ _ hlen]
  simp [bytesOf]

section
variable {s : State} {t : TileId} {n ofs len : Nat}

/-- A read within one line is that line's. -/
theorem localRead_of_line {r : State × List Byte} (hlen : 0 < len) (hline : ofs % 64 + len ≤ 64)
    (h : lineRead s t n ofs len = .ok r) : localRead s t n ofs len = .ok r := by
  unfold localRead
  rw [cutLines_one (by rw [List.ne_nil_iff_length_pos, List.length_replicate]; exact hlen) (by rwa [List.length_replicate])]
  simp only [List.foldl_cons, List.foldl_nil, List.length_replicate, h, List.nil_append]

theorem not_foreAt_of_versionedAt {w : Word} (h : versionedAt w ofs = true) : foreAt w ofs = false := by
  unfold versionedAt at h
  unfold foreAt
  split at h
  next k hk =>
    rw [hk]
    rcases Bool.or_eq_true _ _ ▸ h with hk | hk <;> rw [beq_iff_eq.1 hk] <;> rfl
  next => cases h

/-- The state after a read of the working copy in DET mode: the slots and the deltas on their way tell of it (R208). -/
def readNoted (s : State) (t : TileId) (line n : Nat) : State := noteFlying (s.modTile t fun T => noteRead T line n) t line n

/-- What is noted of deltas on their way changes no tile. -/
theorem tile_noteFlying (s : State) (t u : TileId) (line n : Nat) : (noteFlying s t line n).tile u = s.tile u := rfl

theorem tile_readNoted (s : State) (t : TileId) (line n : Nat) : (readNoted s t line n).tile t = noteRead (s.tile t) line n :=
  (tile_noteFlying ..).trans (tile_modTile_self ..)

theorem readNoted_mem (s : State) (t u : TileId) (line n : Nat) : ((readNoted s t line n).tile u).mem = (s.tile u).mem := by
  rw [readNoted, tile_noteFlying, tile_modTile]
  split
  next h => rw [h]; rfl
  next => rfl

theorem lineRead_work (hdet : s.det t = true) (hver : versionedAt (s.tile t).v.partw ofs = true) (herr : (s.tile t).errs = [])
    (hview : detView (s.tile t) (ofs / 64) n = .work) :
    lineRead s t n ofs len = .ok (readNoted s t (ofs / 64) n, (s.tile t).mem.bytes ofs len) := by
  have htile := tile_readNoted s t (ofs / 64) n
  have herr' : ((readNoted s t (ofs / 64) n).tile t).errs = [] := by rw [htile]; exact herr
  have hecc := eccRead_of_sound herr' false ofs len
  unfold lineRead
  simp only [hdet, hver, hview, Bool.and_self, if_true, poolAddr, not_foreAt_of_versionedAt hver, Bool.false_eq_true, if_false]
  rw [readNoted] at hecc htile
  simp only [hecc, htile, if_true]
  rfl

theorem lineRead_stand {g : Slot} (hdet : s.det t = true) (hver : versionedAt (s.tile t).v.partw ofs = true)
    (herr : (s.tile t).errs = []) (hview : detView (s.tile t) (ofs / 64) n = .stand g) : lineRead s t n ofs len =
      .ok (noteFlying s t (ofs / 64) n, ((bytesOf 64 g.data.toNat).drop (ofs % 64)).take len) := by
  have herr' : ((noteFlying s t (ofs / 64) n).tile t).errs = [] := herr
  unfold lineRead
  simp only [hdet, hver, hview, Bool.and_self, if_true, eccSlot_of_sound herr']

end

theorem detLoads : Spec.DetLoads := by
  intro p wd d a imm s h hdet ha ofs hver gs hview
  have hpos := bytesOfCode_pos wd
  have hline := withinLine ha.aligned
  have hnext {r : State × List Byte} (hcur : r.1.cur = s.cur)
      (hread : lineRead s s.cur.1 s.cur.2.val ofs (Spec.bytesOfCode wd) = .ok r) :
      exec (.ld p wd d a imm) s = .next (retired s (putGLater r.1 d (Spec.extended wd (natOf r.2)) 3) 8) := by
    refine ld_next h hcur fun k => ?_
    rw [loadAct_of_read (localPlace_own ha hpos nofun) (localRead_of_line hpos hline hread), if_pos rfl]
  rcases detView_cases hview with ⟨hwork, hnone⟩ | ⟨g, hg, hstand⟩
  · exact ⟨_, _, hnext rfl (lineRead_work hdet hver ha.sound hwork), fun t => readNoted_mem s s.cur.1 t _ _,
      (congrArg Tile.strands (tile_readNoted ..)).trans rfl, rfl, fun _ => holds_bytes _ _ _,
      fun ⟨g, hg, hkind⟩ hall => absurd (hnone g hg hkind) (hall g hg hkind)⟩
  · have hmem := List.mem_of_find?_eq_some hg
    have hkind : g.kind = .undo ∧ (otherStrand g.wby s.cur.2.val).isSome = true := by
      simpa using List.find?_some hg
    refine ⟨_, _, hnext rfl (lineRead_stand hdet hver ha.sound hstand), fun _ => rfl, rfl, rfl,
      fun hnone => ?_, fun _ hall i hi => ?_⟩
    · rw [hnone g hmem hkind.1] at hkind
      cases hkind.2
    · have hslot := standingSlot_eq hall hg
      have hin : (ofs + i) / 64 = ofs / 64 := by omega
      rw [standingByte_of_slot (hin ▸ hslot), slotBytes_digit _ hline hi]
      congr 3
      omega

/-- Settles O39: the bytes that a local path gives outside DET mode, and the view of a line in it. -/
theorem localReads : Obligations.LocalReads := ⟨localLoads, detLoads⟩

end Sys2Proof.Laws

/-! SUPPORT and O5. A store to the own store within one line (R105, R193, R194, R201), and the locks (R111). -/

namespace Sys2Proof.Laws

open Sys2Proof Sys2Proof.Machine

/-! ### The standing version through a store (R193, R194) -/

section
variable {T : Tile} {a line : Nat}

/-- A change of memory leaves the standing version of a logged line, and of every byte that it leaves. -/
theorem standingByte_mem {m : Mem} (h : logged T (a / 64) = true ∨ m.read a = T.mem.read a) :
    standingByte { T with mem := m } a = standingByte T a := by
  unfold standingByte
  dsimp only
  cases hfind : T.galley.find? (fun g => g.kind == .undo && g.ofs / 64 == a / 64) with
  | some g => rfl
  | none =>
    refine h.resolve_left fun hlog => ?_
    obtain ⟨g, hg, hmatch⟩ := List.any_eq_true.1 hlog
    exact List.find?_eq_none.1 hfind g hg hmatch

/-- Notes in the slots that leave their kinds, lines and data leave the standing version. -/
theorem standingByte_map {f : Slot → Slot} (hf : ∀ g, (f g).kind = g.kind ∧ (f g).ofs = g.ofs ∧ (f g).data = g.data) :
    standingByte { T with galley := T.galley.map f } a = standingByte T a := by
  have hmatch : ((fun g : Slot => g.kind == .undo && g.ofs / 64 == a / 64) ∘ f) =
      fun g => g.kind == .undo && g.ofs / 64 == a / 64 := by
    funext g
    obtain ⟨hkind, hofs, -⟩ := hf g
    simp only [Function.comp, hkind, hofs]
  unfold standingByte
  dsimp only
  rw [List.find?_map, hmatch]
  cases T.galley.find? (fun g => g.kind == .undo && g.ofs / 64 == a / 64) with
  | some g =>
    obtain ⟨-, -, hdata⟩ := hf g
    exact congrArg (fun d => BitVec.extractLsb' _ 8 d) hdata
  | none => rfl

theorem standingByte_noteWrite (w : Writer) (k : WKind) (ofs : Nat) :
    standingByte (noteWrite T line w k ofs) a = standingByte T a := by
  refine standingByte_map fun g => ?_
  split
  · cases k <;> exact ⟨rfl, rfl, rfl⟩
  · exact ⟨rfl, rfl, rfl⟩

/-- The UNDO slot of a line as its working copy stands (R194). -/
def undoSlot (T : Tile) (line num : Nat) : Slot :=
  { num := num, kind := .undo, ofs := line * 64, ss := T.v.ss, att := T.v.att.toNat
    data := BitVec.ofNat 512 (natOf (T.mem.bytes (line * 64) 64)) }

/-- A tile with a line logged (R194). -/
def withUndo (T : Tile) (line num : Nat) : Tile := { T with galley := T.galley ++ [undoSlot T line num] }

theorem logged_withUndo (num : Nat) : logged (withUndo T line num) line = true := by
  simp [logged, withUndo, undoSlot]

/-- A byte of a line as its UNDO slot holds it. -/
theorem undoSlot_byte (num : Nat) (h : a / 64 = line) :
    (undoSlot T line num).data.extractLsb' (8 * (a % 64)) 8 = T.mem.read a := by
  have hlt : natOf (T.mem.bytes (line * 64) 64) < 2 ^ 512 := by
    have h := natOf_lt (T.mem.bytes (line * 64) 64)
    rwa [length_bytes, show (256 : Nat) = 2 ^ 8 from rfl, ← pow_mul] at h
  apply BitVec.eq_of_toNat_eq
  rw [undoSlot, BitVec.extractLsb'_toNat, toNat_ofNat_of_lt hlt, Nat.shiftRight_eq_div_pow, pow_mul]
  have hholds := holds_bytes T (line * 64) 64 (a % 64) (Nat.mod_lt _ (by decide))
  rw [show line * 64 + a % 64 = a by omega] at hholds
  exact hholds.symm

/-- Logging a line leaves its standing version. -/
theorem standingByte_withUndo (num : Nat) : standingByte (withUndo T line num) a = standingByte T a := by
  unfold standingByte withUndo
  dsimp only
  rw [List.find?_append]
  cases hfind : T.galley.find? (fun g => g.kind == .undo && g.ofs / 64 == a / 64) with
  | some g => rfl
  | none =>
    by_cases h : a / 64 = line
    · have hmatch : (undoSlot T line num).ofs / 64 = a / 64 := by
        rw [h]
        exact Nat.mul_div_cancel _ (by decide)
      simp [hmatch, undoSlot_byte num h, show (undoSlot T line num).kind = .undo from rfl]
    · have hmatch : ¬ (undoSlot T line num).ofs / 64 = a / 64 := by
        intro he
        exact h (he.symm.trans (Nat.mul_div_cancel _ (by decide)))
      simp [hmatch]

end

/-! ### What a store leaves -/

/-- The tile `t` has come to be `T'`; no other tile, no other memory and no clock has changed. -/
structure BecomesTile (s s' : State) (t : TileId) (T' : Tile) : Prop where
  tile : s'.tile t = T'
  others : ∀ u, u ≠ t → s'.tile u = s.tile u
  hbm : s'.hbm = s.hbm
  tier : s'.tier = s.tier
  cur : s'.cur = s.cur
  cycle : s'.cycle = s.cycle

theorem becomesTile_modTile (s : State) (t : TileId) (f : Tile → Tile) : BecomesTile s (s.modTile t f) t (f (s.tile t)) :=
  ⟨tile_modTile_self .., fun _ h => tile_modTile_of_ne s f h, rfl, rfl, rfl, rfl⟩

theorem BecomesTile.trans {s s₁ s₂ : State} {t : TileId} {T₁ T₂ : Tile} (h : BecomesTile s s₁ t T₁)
    (h' : BecomesTile s₁ s₂ t T₂) : BecomesTile s s₂ t T₂ :=
  ⟨h'.tile, fun u hu => (h'.others u hu).trans (h.others u hu), h'.hbm.trans h.hbm, h'.tier.trans h.tier, h'.cur.trans h.cur,
    h'.cycle.trans h.cycle⟩

/-- A store of bytes at a place of a tile's pool keeps registers, strands and the standing version. -/
structure Stored (T T' : Tile) (at_ : Nat) (data : List Byte) : Prop where
  mem : T'.mem = T.mem.store at_ data
  v : T'.v = T.v
  strands : T'.strands = T.strands
  standing : ∀ a, versionedAt T.v.partw a = true → standingByte T' a = standingByte T a

section
variable {s s' : State} {t : TileId} {T T' : Tile} {at_ : Nat} {data : List Byte}

/-- Such a store is what the statements say of one. -/
theorem BecomesTile.storesOnly (h : BecomesTile s s' t T') (hst : Stored (s.tile t) T' at_ data) :
    Spec.StoresOnly s s' t at_ data.length := by
  obtain ⟨rfl, hothers, hhbm, htier, hcur, hcycle⟩ := h
  refine ⟨fun a ha => ?_, hst.standing, hst.strands, by rw [hst.v], by rw [hst.v]; exact ⟨rfl, rfl, rfl⟩, hothers,
    hhbm, htier, hcur, hcycle⟩
  rw [hst.mem, read_store, if_neg ha]

/-- The bytes of a number stand where they have been stored. -/
theorem Stored.holds {n x : Nat} (h : Stored T T' at_ (bytesOf n x)) : Spec.holds T' at_ n (x % 256 ^ n) := by
  intro i hi
  rw [h.mem, read_store, if_pos ⟨by omega, by rw [length_bytesOf]; omega⟩, Nat.add_sub_cancel_left]
  simp only [bytesOf, List.getD_eq_getElem?_getD, List.getElem?_map, List.getElem?_range hi, Option.map_some, Option.getD_some,
    BitVec.toNat_ofNat]
  obtain ⟨j, rfl⟩ := Nat.exists_eq_add_of_lt hi
  rw [show 256 ^ (i + j + 1) = 256 ^ i * (256 * 256 ^ j) by ring, Nat.mod_mul_right_div_self, Nat.mod_mul_right_mod]

/-- A store of the foreshore (R201). -/
theorem stored_fore {ofs : Nat} (slot : Nat) (hin : Spec.liesIn T.v.partw 5 ofs data.length) :
    Stored T { T with mem := T.mem.store (poolAddr T.v.partw slot ofs) data } (poolAddr T.v.partw slot ofs) data := by
  refine ⟨rfl, rfl, rfl, fun a ha => standingByte_mem (.inr (read_store_outside _ _ (.inl ?_)))⟩
  have hbelow : a < partBase T.v.partw 5 := by
    unfold versionedAt at ha
    split at ha
    next k hk =>
      have hlimit := List.find?_some hk
      simp only [decide_eq_true_eq] at hlimit
      have hk5 : k < 5 := by
        rcases Bool.or_eq_true _ _ ▸ ha with hk | hk <;> rw [beq_iff_eq.1 hk] <;> decide
      exact lt_of_lt_of_le (by omega) (partLimit_le_partBase _ hk5)
    next => cases ha
  refine lt_of_lt_of_le (hbelow.trans_le hin.1) ?_
  unfold poolAddr
  split
  · exact Nat.le_add_right ..
  · exact le_rfl

/-- A store of the versioned store within a logged line (R193, R194). -/
theorem stored_versioned {ofs : Nat} (w : Writer) (k : WKind) (hline : ofs % 64 + data.length ≤ 64)
    (hlog : logged T (ofs / 64) = true) :
    Stored T (noteWrite { T with mem := T.mem.store ofs data } (ofs / 64) w k ofs) ofs data := by
  refine ⟨rfl, rfl, rfl, fun a _ => (standingByte_noteWrite ..).trans (standingByte_mem ?_)⟩
  by_cases ha : ofs ≤ a ∧ a < ofs + data.length
  · rw [show a / 64 = ofs / 64 by omega]
    exact .inl hlog
  · exact .inr (by rw [read_store, if_neg ha])

end

/-! ### A strand's store outside DET mode -/

/-- A tile whose line is logged (R194): the working copy, the registers and the standing version are as they were. -/
structure LineLogged (T T₁ : Tile) (line : Nat) : Prop where
  logged : Machine.logged T₁ line = true
  mem : T₁.mem = T.mem
  v : T₁.v = T.v
  strands : T₁.strands = T.strands
  errs : T₁.errs = T.errs
  standing : ∀ a, standingByte T₁ a = standingByte T a

theorem LineLogged.stored {T T₁ T' : Tile} {line at_ : Nat} {data : List Byte} (h : LineLogged T T₁ line)
    (hst : Stored T₁ T' at_ data) : Stored T T' at_ data :=
  ⟨hst.mem.trans (by rw [h.mem]), hst.v.trans h.v, hst.strands.trans h.strands,
    fun a ha => (hst.standing a (by rwa [h.v])).trans (h.standing a)⟩

section
variable {s : State} {t : TileId} {line : Nat}

/-- A line that is logged, or for which the galley has a slot, is logged after `logLine`. -/
theorem logLine_ok (herr : (s.tile t).errs = [])
    (h : logged (s.tile t) line = true ∨ (s.tile t).galley.length < galleyCap (s.tile t).v.partw) :
    ∃ s₁ T₁, logLine s t line = .ok s₁ ∧ BecomesTile s s₁ t T₁ ∧ LineLogged (s.tile t) T₁ line := by
  unfold logLine
  dsimp only
  by_cases hlog : logged (s.tile t) line = true
  · rw [if_pos hlog]
    exact ⟨s, _, rfl, ⟨rfl, fun _ _ => rfl, rfl, rfl, rfl, rfl⟩, hlog, rfl, rfl, rfl, rfl, fun _ => rfl⟩
  · obtain ⟨num, hnum⟩ := freeSlot_isSome (h.resolve_left hlog)
    rw [if_neg hlog, hnum]
    simp only [eccRead_of_sound herr, Bool.not_true, Bool.false_eq_true, if_false]
    exact ⟨_, withUndo (s.tile t) line num, rfl, becomesTile_modTile .., logged_withUndo num, rfl, rfl, rfl, rfl,
      fun _ => standingByte_withUndo num⟩

variable {n : StrandNo} {ofs : Nat} {data : List Byte}

theorem lineWrite_fore (herr : (s.tile t).errs = []) (hver : versionedAt (s.tile t).v.partw ofs = false) :
    lineWrite s t (.strand n) .plain ofs data = .ok (s.modTile t fun T =>
      { T with mem := T.mem.store (poolAddr (s.tile t).v.partw (s.tile t).slot ofs) data }) := by
  unfold lineWrite
  simp only [hver, eccWrite_of_sound herr, Writer.isStrand, Bool.not_false, or_true, if_true, Bool.not_true, Bool.false_eq_true,
    if_false]
  rfl

theorem lineWrite_versioned {s₁ : State} (ht : t ≠ monitorTile) (hver : versionedAt (s.tile t).v.partw ofs = true)
    (hdet : s.det t = false) (hforeign : foreignConflict (s.tile t) (ofs / 64) (WKind.profile .plain ofs) = false)
    (hlog : logLine s t (ofs / 64) = .ok s₁) (herr : (s₁.tile t).errs = []) :
    lineWrite s t (.strand n) .plain ofs data = .ok (s₁.modTile t fun T =>
      noteWrite { T with mem := T.mem.store ofs data } (ofs / 64) (.strand n) .plain ofs) := by
  unfold lineWrite
  simp only [ht, hver, hdet, hforeign, hlog, eccWrite_of_sound herr, Writer.isStrand, Bool.not_true, Bool.not_false,
    Bool.false_eq_true, or_self, if_false, if_true, Bool.and_false, Bool.false_and]
  rfl

end

section
variable {s : State} {x : Word} {data : List Byte}

/-- No other tile's inbound write stands on a line of a range that a strand may write (R202). -/
theorem foreignConflict_of_writable {u : TileId} {ofs len : Nat} (h : Spec.Writable s u ofs len) (hlen : 0 < len) (p : Profile) :
    foreignConflict (s.tile u) (ofs / 64) p = false := by
  rw [foreignConflict, List.any_eq_false]
  intro g hg hconf
  simp only [Slot.here, Slot.own, Bool.and_eq_true, Bool.or_eq_true, Bool.not_eq_true', Bool.or_eq_false_iff, bne_iff_ne,
    beq_iff_eq, beq_eq_false_iff_ne] at hconf
  obtain ⟨⟨⟨⟨hline, hout⟩, -⟩, hundo, hother⟩, -⟩ := hconf
  have hkind : g.kind = .plain ∨ g.kind = .add := by
    cases hk : g.kind with
    | undo => exact absurd hk hundo
    | plain => exact .inl rfl
    | add => exact .inr rfl
    | out => exact absurd hk hout
  exact hother (h.quiet g hg hkind ⟨hline.ge, by omega⟩)

/-- A strand's store to its own store outside DET mode, within one line: the bytes stand at their place. -/
theorem lineWrite_own (h : Spec.OwnStore s x data.length) (hlen : 0 < data.length) (hdet : s.det s.cur.1 = false)
    (hline : Spec.ofsOf x % 64 + data.length ≤ 64) :
    ∃ s' T', lineWrite s s.cur.1 (.strand s.cur.2) .plain (Spec.ofsOf x) data = .ok s' ∧ BecomesTile s s' s.cur.1 T' ∧
      Stored (here s) T' (Spec.place s (Spec.ofsOf x)) data := by
  obtain ⟨⟨ht, -, -, hpart, -, herr⟩, hwritable, -, -, -⟩ := h
  have hplain {k : Nat} (hk : k < 6) (hin : Spec.liesIn (here s).v.partw k (Spec.ofsOf x) data.length) :
      partOf (here s).v.partw (Spec.ofsOf x) 1 = some k := partOf_eq hk Nat.one_pos ⟨hin.1, le_trans (by omega) hin.2⟩
  by_cases hfore : Spec.liesIn (here s).v.partw 5 (Spec.ofsOf x) data.length
  · have hver : versionedAt (here s).v.partw (Spec.ofsOf x) = false := by
      rw [versionedAt, hplain (by decide) hfore]
      rfl
    exact ⟨_, _, lineWrite_fore herr hver, becomesTile_modTile .., stored_fore _ hfore⟩
  · have hver : versionedAt (here s).v.partw (Spec.ofsOf x) = true := by
      rcases hpart with hin | hin | hin
      · rw [versionedAt, hplain (by decide) hin]; rfl
      · rw [versionedAt, hplain (by decide) hin]; rfl
      · exact absurd hin hfore
    have hroom : logged (here s) (Spec.ofsOf x / 64) = true ∨ (here s).galley.length < galleyCap (here s).v.partw := by
      rcases hwritable.room with hin | hlog | hfree
      · exact absurd hin hfore
      · exact .inl (hlog _ ⟨le_rfl, by omega⟩)
      · exact .inr (Nat.lt_of_lt_of_le (Nat.lt_add_of_pos_right Nat.two_pos) hfree)
    obtain ⟨s₁, T₁, hlog, hbec, hlogged⟩ := logLine_ok herr hroom
    have herr₁ : (s₁.tile s.cur.1).errs = [] := by rw [hbec.tile, hlogged.errs]; exact herr
    have hplace : Spec.place s (Spec.ofsOf x) = Spec.ofsOf x := by
      rw [Spec.place, poolAddr, not_foreAt_of_versionedAt hver]
      rfl
    have hwrite := becomesTile_modTile s₁ s.cur.1 fun T =>
      noteWrite { T with mem := T.mem.store (Spec.ofsOf x) data } (Spec.ofsOf x / 64) (.strand s.cur.2) .plain (Spec.ofsOf x)
    rw [hbec.tile] at hwrite
    rw [hplace]
    exact ⟨_, _, lineWrite_versioned ht hver hdet (foreignConflict_of_writable hwritable hlen _) hlog herr₁,
      hbec.trans hwrite, hlogged.stored (stored_versioned _ _ hline hlogged.logged)⟩

end

/-! ### Lock bits (R111) -/

/-- The number of a lock bit, from the line of the offset. -/
theorem lockBit_eq (x : Word) :
    lockBit (Spec.ofsOf x) = BitVec.ofNat 8 ((Spec.ofsOf x / 64) ^^^ (Spec.ofsOf x / 64 / 256)) := by
  have hlt : Spec.ofsOf x / 64 < 2 ^ 15 := by
    have : Spec.ofsOf x < 2 ^ 21 := Nat.mod_lt _ (by decide)
    omega
  apply BitVec.eq_of_toNat_eq
  unfold lockBit
  rw [BitVec.toNat_setWidth, BitVec.toNat_xor, BitVec.toNat_ushiftRight, toNat_ofNat_of_lt hlt, BitVec.toNat_ofNat,
    Nat.shiftRight_eq_div_pow]

/-- The holder's bit, as the forms test it. -/
theorem any_mine_iff (h : Option LockBit) (pos strand : Nat) :
    h.any (fun l => l.pos == pos && l.strand == strand) = true ↔ ∃ l, h = some l ∧ l.pos = pos ∧ l.strand = strand := by
  cases h with
  | none => simp
  | some l => simp

/-- A bit that is cleared is held by nobody. -/
theorem clearLock_clear (s : State) (u : TileId) (h : BitVec 8) : ∀ l ∈ ((clearLock s u h).tile u).locks, l.h ≠ h := by
  have hlocks : ((clearLock s u h).tile u).locks = (s.tile u).locks.filter (fun l => l.h != h) := by
    unfold clearLock
    dsimp only
    split
    · rw [post_tile, tile_modTile_self]
    · rw [tile_modTile_self]
  intro l hl
  rw [hlocks] at hl
  simpa using (List.mem_filter.1 hl).2

theorem clearLock_cur (s : State) (u : TileId) (h : BitVec 8) : (clearLock s u h).cur = s.cur := by
  unfold clearLock
  dsimp only
  split
  · rfl
  · rfl

/-- A strand's store to its own store outside DET mode, of a value within one line. -/
theorem putLocal_own {s : State} {x : Word} {data : List Byte} (h : Spec.OwnStore s x data.length) (hlen : 0 < data.length)
    (hdet : s.det s.cur.1 = false) (hline : Spec.ofsOf x % 64 + data.length ≤ 64) :
    ∃ s' T', putLocal s s.cur.1 s.cur.2 (s.cur.1, Spec.ofsOf x) .plain data = .ok s' ∧ BecomesTile s s' s.cur.1 T' ∧
      Stored (here s) T' (Spec.place s (Spec.ofsOf x)) data := by
  obtain ⟨s', T', hwrite, hbec, hst⟩ := lineWrite_own h hlen hdet hline
  refine ⟨s', T', ?_, hbec, hst⟩
  have hwatch : (!(s.strand s.cur.1 s.cur.2).suppress && watchTraps (s.tile s.cur.1).v (Spec.ofsOf x) data.length) = false := by
    rw [Bool.and_eq_false_iff, Bool.not_eq_false']
    exact h.unwatched
  have hstrand : strandWrite s s.cur.1 (.strand s.cur.2) .plain (Spec.ofsOf x) data = .ok s' := by
    unfold strandWrite
    rw [cutLines_one (List.ne_nil_of_length_pos hlen) hline]
    exact hwrite
  unfold putLocal
  simp only [if_true, hwatch, Bool.false_eq_true, if_false, hstrand]

section
variable {s : State} {p : Pred} {wd : BitVec 3} {a b : GSrc} {imm : BitVec 26} {k : BitVec 8}

theorem loadPlace_own (ha : Spec.OwnAccess s (Spec.ea s a imm) (Spec.bytesOfCode wd)) :
    localPlace s s.cur.1 s.cur.2 (eaOf s s.cur.1 s.cur.2 a imm) (widthBytes wd) false =
      .ok (s.cur.1, Spec.ofsOf (Spec.ea s a imm)) := localPlace_own ha (bytesOfCode_pos wd) nofun

theorem storePlace_own (ha : Spec.OwnStore s (Spec.ea s a imm) (Spec.bytesOfCode wd)) (hdet : s.det s.cur.1 = false) :
    localPlace s s.cur.1 s.cur.2 (eaOf s s.cur.1 s.cur.2 a imm) (widthBytes wd) true =
      .ok (s.cur.1, Spec.ofsOf (Spec.ea s a imm)) :=
  localPlace_own ha.access (bytesOfCode_pos wd) fun _ => ⟨ha.writable.unclaimed, hdet, ha.early⟩

/-! ### `ldl` -/

section
variable {d : BitVec 5} (h : Ready s p .any [.g a] [.g d])
include h

theorem ldl_det (hdet : s.det s.cur.1 = true) : exec (.ldl p wd d a imm) s = .next (trapTaken s 8 .detban 0) :=
  (exec_ldl ..).trans (issue_trap h (if_pos hdet))

variable (hdet : s.det s.cur.1 = false) (ha : Spec.OwnAccess s (Spec.ea s a imm) (Spec.bytesOfCode wd))
  (hk : lockBit (Spec.ofsOf (Spec.ea s a imm)) = k)
include hdet ha hk

/-- The bit is clear and is not being granted, and the strand holds fewer than four. -/
theorem ldl_taken (hclear : lockHolder s s.cur.1 k = none) (hgrant : grantDue s s.cur.1 k = false)
    (hfew : locksHeld s s.cur.1 s.cur.2 < 4) :
    let at_ := Spec.place s (Spec.ofsOf (Spec.ea s a imm))
    exec (.ldl p wd d a imm) s = .next (retired s (putGLater (setLock s s.cur.1 k (posOf s.cur.1) s.cur.2) d
      (Spec.extended wd (natOf ((here s).mem.bytes at_ (Spec.bytesOfCode wd)))) 3) 8) := by
  intro at_
  have hread : localRead s s.cur.1 s.cur.2.val (Spec.ofsOf (Spec.ea s a imm)) (widthBytes wd) = .ok (s, _) :=
    localRead_own ha hdet s.cur.2.val
  refine (exec_ldl ..).trans (issue_done h ?_)
  simp only [hdet, loadPlace_own ha, hk, hclear, hgrant, hread, Nat.not_le.2 hfew, Bool.false_eq_true, Option.any_none,
    Option.isSome_none, or_self, if_false, extendTo_eq]
  rfl

/-- Another strand holds the bit. -/
theorem ldl_waits (hheld : ∃ l, lockHolder s s.cur.1 k = some l ∧ ¬ (l.pos = posOf s.cur.1 ∧ l.strand = s.cur.2.val))
    (hfew : locksHeld s s.cur.1 s.cur.2 < 4) : exec (.ldl p wd d a imm) s =
      .next (blocked s s 8 (.lock s.cur.1 k (Spec.ofsOf (Spec.ea s a imm)) wd d)) := by
  obtain ⟨l, hl, hother⟩ := hheld
  refine (exec_ldl ..).trans (issue_block h ?_)
  simp [hdet, loadPlace_own ha, hk, hl, hother, Nat.not_le.2 hfew]

/-- The strand holds the bit, or four. -/
theorem ldl_refused (hheld : (∃ l, lockHolder s s.cur.1 k = some l ∧ l.pos = posOf s.cur.1 ∧ l.strand = s.cur.2.val) ∨
    4 ≤ locksHeld s s.cur.1 s.cur.2) : exec (.ldl p wd d a imm) s = .next (trapTaken s 8 .lock 0) := by
  refine (exec_ldl ..).trans (issue_trap h ?_)
  simp only [hdet, loadPlace_own ha, hk, any_mine_iff, if_pos hheld, Bool.false_eq_true, if_false]

end

/-! ### `stu` -/

section
variable (h : Ready s p .any [.g a, .g b] [])
include h

theorem stu_det (hdet : s.det s.cur.1 = true) : exec (.stu p wd a b imm) s = .next (trapTaken s 8 .detban 0) :=
  (exec_stu ..).trans (issue_trap h (if_pos hdet))

variable (hdet : s.det s.cur.1 = false) (ha : Spec.OwnStore s (Spec.ea s a imm) (Spec.bytesOfCode wd))
  (hk : lockBit (Spec.ofsOf (Spec.ea s a imm)) = k)
include hdet ha hk

/-- The holder stores, and the bit is clear. -/
theorem stu_cleared (hheld : ∃ l, lockHolder s s.cur.1 k = some l ∧ l.pos = posOf s.cur.1 ∧ l.strand = s.cur.2.val) :
    ∃ s', exec (.stu p wd a b imm) s = .next (retired s (clearLock s' s.cur.1 k) 8) ∧
      Spec.StoresOnly s s' s.cur.1 (Spec.place s (Spec.ofsOf (Spec.ea s a imm))) (Spec.bytesOfCode wd) ∧
      Spec.holds (here s') (Spec.place s (Spec.ofsOf (Spec.ea s a imm))) (Spec.bytesOfCode wd)
        ((gOf s b).toNat % 256 ^ Spec.bytesOfCode wd) := by
  have hlen : (bytesOf (Spec.bytesOfCode wd) (gOf s b).toNat).length = Spec.bytesOfCode wd := length_bytesOf ..
  obtain ⟨s', T', hput, hbec, hst⟩ := putLocal_own (data := bytesOf (Spec.bytesOfCode wd) (gOf s b).toNat) (by rwa [hlen])
    (by rw [hlen]; exact bytesOfCode_pos wd) hdet (by rw [hlen]; exact withinLine ha.access.aligned)
  have hput' : putLocal s s.cur.1 s.cur.2 (s.cur.1, Spec.ofsOf (Spec.ea s a imm)) .plain
      (bytesOf (widthBytes wd) (gv s s.cur.1 s.cur.2 b).toNat) = .ok s' := hput
  refine ⟨s', (exec_stu ..).trans (issue_done h ?_), hlen ▸ hbec.storesOnly hst, ?_⟩
  · simp only [hdet, storePlace_own ha hdet, hk, (any_mine_iff ..).2 hheld, hput', Bool.not_true, Bool.false_eq_true, if_false]
  · have hhere : here s' = T' := by rw [here, hbec.cur, hbec.tile]
    rw [hhere]
    exact hst.holds

/-- Another strand holds the bit, or none. -/
theorem stu_refused (hheld : ∀ l, lockHolder s s.cur.1 k = some l → ¬ (l.pos = posOf s.cur.1 ∧ l.strand = s.cur.2.val)) :
    exec (.stu p wd a b imm) s = .next (trapTaken s 8 .lock 0) := by
  have hno : ((lockHolder s s.cur.1 k).any fun l => l.pos == posOf s.cur.1 && l.strand == s.cur.2.val) = false := by
    rw [Bool.eq_false_iff, ne_eq, any_mine_iff]
    exact fun ⟨l, hl, hmine⟩ => hheld l hl hmine
  refine (exec_stu ..).trans (issue_trap h ?_)
  simp only [hdet, storePlace_own ha hdet, hk, hno, Bool.not_false, Bool.false_eq_true, if_false, if_true]

end
end

/-- Settles O5: where the place goes on, the bit decides; `ldl` reads as a load does, `stu` writes as a store does. -/
theorem locks : Obligations.Locks := by
  intro p wd d a b imm s n x ofs h mine
  have hk : lockBit ofs = h := lockBit_eq x
  refine ⟨ldl_det, stu_det,
    fun hr hdet ha => ⟨fun hclear hgrant hfew => ?_, ldl_waits hr hdet ha hk, ldl_refused hr hdet ha hk⟩,
    fun hr hdet ha => ⟨fun hheld => ?_, stu_refused hr hdet ha hk⟩⟩
  · have hnone : lockHolder s s.cur.1 h = none :=
      List.find?_eq_none.2 fun l hl => by simpa using hclear l hl
    exact ⟨_, _, ldl_taken hr hdet ha hk hnone hgrant hfew, holds_bytes _ _ _, rfl⟩
  · obtain ⟨s', hexec, honly, hholds⟩ := stu_cleared hr hdet ha hk hheld
    refine ⟨s', _, hexec, honly, hholds, rfl, ?_⟩
    rw [here, clearLock_cur, honly.cur]
    exact clearLock_clear s' s.cur.1 h

end Sys2Proof.Laws

/-! SUPPORT and O7. Steps of a tile (R95, R104, R111, R323, R349, R354): results, timeouts, lock grants,
deferred traps, soft errors. -/

namespace Sys2Proof.Laws

open Sys2Proof Sys2Proof.Machine

/-! ### Results (R95) -/

section
variable {s : State} {t : TileId} {n : StrandNo} {d : Dst} {v : VWord}

theorem execResultDelivery_fill (hev : s.ev = some (.resultDelivery t n (s.strand t n).gen d v)) :
    execResultDelivery s = .next (s.fill t n d v) := by
  unfold execResultDelivery
  simp only [hev, if_true]

/-- A result of an earlier generation that no slot has asked for is dropped. -/
theorem execResultDelivery_stale {gen : Nat} (hev : s.ev = some (.resultDelivery t n gen d v)) (hgen : gen ≠ (s.strand t n).gen)
    (hasked : ∀ x ∈ (s.tile t).slots, ∀ o ∈ x.asked, ¬ (o.strand = n ∧ o.gen = gen ∧ d = .g o.d)) :
    execResultDelivery s = .next s := by
  have hnone : (s.tile t).slots.findIdx? (fun x => x.asked.any fun o => o.strand == n && o.gen == gen && d == .g o.d) = none := by
    rw [List.findIdx?_eq_none_iff]
    intro x hx
    rw [List.any_eq_false]
    intro o ho hmine
    simp only [Bool.and_eq_true, beq_iff_eq, and_assoc] at hmine
    exact hasked x hx o ho hmine
  unfold execResultDelivery
  simp only [hev, hgen.symm, if_false, hnone]

end

section
variable {S : Strand}

/-- A strand that waits for registers issues in the cycle in which the last of them is full (R86). -/
theorem woken_of_full {rs : List Dst} (now : Nat) (hst : S.st = .waiting) (hw : S.wait = .regs rs)
    (hfull : ∀ r ∈ rs, S.isEmpty r = false) : S.woken now = { S with st := .ready, wait := .idle, notBefore := now } := by
  have hany : (rs.any fun r => S.isEmpty r) = false := by
    rw [List.any_eq_false]
    exact fun r hr => by simp [hfull r hr]
  unfold Strand.woken
  simp only [hst, hw, hany, Bool.false_eq_true, if_false]

/-- Every other strand stays as it is. -/
theorem woken_of_empty (now : Nat) (h : ∀ rs, S.st = .waiting → S.wait = .regs rs → ∃ r ∈ rs, S.isEmpty r = true) :
    S.woken now = S := by
  unfold Strand.woken
  split
  next rs hst hw => rw [if_pos (List.any_eq_true.2 (h rs hst hw))]
  next => rfl

end

theorem fill_eq (s : State) (t : TileId) (n : StrandNo) (d : Dst) (v : VWord) :
    s.fill t n d v = s.modStrand t n fun _ => ((s.strand t n).deliver d v).woken s.cycle := rfl

/-! ### Timeouts (R104, R323) -/

/-- What a strand is left with whose timeout ends its wait. -/
theorem complete_timeout (s : State) (t : TileId) (n : StrandNo) (pf : BitVec 3) : let s' := complete (setP s t n pf true) t n 0
    (s'.strand t n).st = .ready ∧ (s'.strand t n).pc = successor (s.strand t n).pc (s.strand t n).wlen ∧
      (pf ≠ 0 → (s'.strand t n).rp pf = true) ∧ (s'.strand t n).g = (s.strand t n).g ∧ (s'.tile t).v = (s.tile t).v := by
  obtain ⟨hst, -, hpc, hrp, hg⟩ := complete_setP s t n pf true 0
  exact ⟨hst, hpc, hrp, hg, by rw [v_complete, v_setP]⟩

section
variable {s : State} {t : TileId} {n : StrandNo} {pf : BitVec 3} {start tmo : Nat}

theorem execWaitcTimeout_due {thr : BitVec 32} {ct : BitVec 4} {sub : Bool} (hev : s.ev = some (.waitcTimeout t n))
    (hst : (s.strand t n).st = .waiting) (hw : (s.strand t n).wait = .counter thr ct sub pf start tmo)
    (hdue : tmo ≠ 0 ∧ start + tmo < s.cycle) : execWaitcTimeout s = .next (complete (setP s t n pf true) t n 0) := by
  unfold execWaitcTimeout
  simp only [hev, hst, hw]
  rw [if_pos hdue]

theorem execWaitpTimeout_due {x k : Nat} (hev : s.ev = some (.waitpTimeout t n))
    (hst : (s.strand t n).st = .waiting) (hw : (s.strand t n).wait = .precision x k pf start tmo)
    (hdue : tmo ≠ 0 ∧ start + tmo < s.cycle) : execWaitpTimeout s = .next (complete (setP s t n pf true) t n 0) := by
  unfold execWaitpTimeout
  simp only [hev, hst, hw]
  rw [if_pos hdue]

end

/-! ### Lock grants (R111) -/

section
variable {s : State} {u t : TileId} {h : BitVec 8} {pos : Nat} {n : StrandNo} {ofs : Nat} {wd : BitVec 3} {d : BitVec 5}

/-- The waiter's `ldl` completes as a load. -/
theorem execLockGrant_next (hev : s.ev = some (.lockGrant u h)) (hfree : lockHolder s u h = none)
    (hnext : nextHolder s u h = some (pos, n)) (ht : tileAt (clusterOf u) pos = t)
    (hw : (s.strand t n).wait = .lock u h ofs wd d) (herr : (s.tile u).errs = []) (hdet : s.det u = false) :
    ∃ v, execLockGrant s = .next (laterG (complete (setLock s u h pos n) t n 1) t n d v 3) := by
  subst ht
  unfold execLockGrant
  simp only [hev, hfree, hnext, hw, localRead_parts hdet herr, Option.isSome_none, Bool.false_eq_true, if_false]
  exact ⟨_, rfl⟩

/-- A change of a strand leaves the lock bits of every tile. -/
theorem locks_modStrand (s : State) (t u : TileId) (n : StrandNo) (f : Strand → Strand) :
    ((s.modStrand t n f).tile u).locks = (s.tile u).locks := by
  rw [tile_modStrand]
  split
  next h => rw [h]; rfl
  next => rfl

theorem locks_laterG (s : State) (t u : TileId) (n : StrandNo) (d : BitVec 5) (v : Word) (lat : Nat) :
    ((laterG s t n d v lat).tile u).locks = (s.tile u).locks := by
  unfold laterG
  split
  · rfl
  · exact locks_modStrand ..

/-- A strand whose register is to be filled later: the register is empty, but for g0. -/
theorem strand_laterG (s : State) (t : TileId) (n : StrandNo) (d : BitVec 5) (v : Word) (lat : Nat) :
    (laterG s t n d v lat).strand t n = (s.strand t n).markEmpty (gdst d) := by
  unfold laterG gdst
  split
  · rfl
  · rw [laterD, post_strand, strand_modStrand_self]

end

@[simp] theorem markEmpty_st (S : Strand) (d : Dst) : (S.markEmpty d).st = S.st := by
  cases d with
  | g r => rw [Strand.markEmpty]; split <;> rfl
  | _ => rfl

/-! ### Deferred traps (R349) -/

/-- The fields of TCAUSE of a deferred trap (Table 4.5). -/
theorem tcauseOf_deferred (i : BitVec 32) (c : Cause) : (tcauseOf true i c).getLsbD 63 = true ∧
    (tcauseOf true i c).extractLsb' 0 8 = Cause.code c ∧ (tcauseOf true i c).extractLsb' 8 32 = i := by
  unfold tcauseOf
  generalize Cause.code c = k
  have hhigh (j : Nat) (hj : j < 63) : ((BitVec.ofBool true).setWidth 64 <<< (63 : Nat)).getLsbD j = false := by
    rw [BitVec.getLsbD_shiftLeft, decide_eq_true hj, Bool.not_true, Bool.and_false, Bool.false_and]
  refine ⟨by simp, ?_, ?_⟩
  · refine BitVec.eq_of_getLsbD_eq fun j hj => ?_
    rw [BitVec.getLsbD_extractLsb', BitVec.getLsbD_or, BitVec.getLsbD_or, hhigh _ (by omega)]
    simp [hj, show j < 64 by omega]
  · refine BitVec.eq_of_getLsbD_eq fun j hj => ?_
    rw [BitVec.getLsbD_extractLsb', BitVec.getLsbD_or, BitVec.getLsbD_or, hhigh _ (by omega)]
    simp [hj, show 8 + j < 64 by omega]

section
variable {s : State} {t : TileId} {n : StrandNo} {d : Deferred}

theorem execDeferredTrap_waits (hev : s.ev = some (.deferredTrap t n)) (hd : (s.strand t n).deferred = some d)
    (hw : trapWaits s t n false = true) : execDeferredTrap s = .next (s.post 0 (.deferredTrap t n)) := by
  unfold execDeferredTrap
  simp only [hev, hd, hw, if_true]

theorem execDeferredTrap_taken (hev : s.ev = some (.deferredTrap t n)) (hd : (s.strand t n).deferred = some d)
    (hw : trapWaits s t n false = false) (hrun : (s.tile t).running = true) (hlive : liveSt (s.strand t n).st = true) :
    execDeferredTrap s = .next (takeDeferred s t n d) := by
  unfold execDeferredTrap
  simp only [hev, hd, hw, hrun, hlive, Bool.and_self, Bool.false_eq_true, if_false, if_true]

/-- What a strand is left with that takes a deferred trap. -/
theorem strand_takeDeferred (s : State) (t : TileId) (n : StrandNo) (d : Deferred) : (takeDeferred s t n d).strand t n =
    { s.strand t n with
      st := .trapped, wait := .idle, deferred := none, refusedOnce := true
      tcause := tcauseOf true d.info d.code, trappc := d.pc.setWidth 64 } := by
  unfold takeDeferred
  dsimp only
  obtain ⟨c, hvote⟩ := trappedVote_vote _ t d.code n d.pc d.info
  rw [hvote, vote_strand, sendRecord, post_strand, strand_modStrand_self]

end

/-! ### Soft errors (R354) -/

theorem execSoftError_place {s : State} {t : TileId} {q : ErrPlace} {due : Bool} (hev : s.ev = some (.softError t q due))
    (hq : ∀ c, q ≠ .hbm c) :
    execSoftError s = .next (s.modTile t (fun T => { T with errs := T.errs ++ [{ place := q, due := due }] })) := by
  unfold execSoftError
  rw [hev]
  cases q with
  | hbm c => exact absurd rfl (hq c)
  | _ => rfl

/-- Settles O7: each step by the lemma that says what it comes to. -/
theorem tileSteps : Obligations.TileSteps := by
  refine ⟨fun t n d v s => ?_, fun t n d v s => ⟨fun rs hst hw hfull => ?_, fun h => ?_⟩, fun t n gen d v s hgen hasked => ?_,
    fun t n thr ct sub pf start tmo s hst hw htmo hdue => ?_, fun t n x k pf start tmo s hst hw htmo hdue => ?_,
    fun u h pos n ofs wd d s hfree hnext => ?_, fun t n d s hd hw => ?_, fun t n d s hd hw hrun hlive => ?_,
    fun t q due s hq => ?_⟩
  · exact (exec_resultDelivery _).trans (execResultDelivery_fill rfl)
  · rw [fill_eq, woken_of_full _ hst hw hfull]
  · rw [fill_eq, woken_of_empty _ h]
  · exact (exec_resultDelivery _).trans (execResultDelivery_stale rfl hgen hasked)
  · exact ⟨_, (exec_waitcTimeout _).trans (execWaitcTimeout_due rfl hst hw ⟨htmo, hdue⟩), complete_timeout ..⟩
  · exact ⟨_, (exec_waitpTimeout _).trans (execWaitpTimeout_due rfl hst hw ⟨htmo, hdue⟩), complete_timeout ..⟩
  · intro t hw herr hdet
    obtain ⟨v, hexec⟩ := execLockGrant_next (s := Spec.on s (.lockGrant u h)) rfl hfree hnext rfl hw herr hdet
    refine ⟨_, (exec_lockGrant _).trans hexec, ?_, ?_, ?_⟩
    · rw [locks_laterG, complete, locks_modStrand, setLock, tile_modTile_self]
      rfl
    · rw [strand_laterG, markEmpty_st, strand_complete]
    · rw [strand_laterG, isEmpty_markEmpty_gdst]
  · exact (exec_deferredTrap _).trans (execDeferredTrap_waits rfl hd hw)
  · refine ⟨_, (exec_deferredTrap _).trans (execDeferredTrap_taken rfl hd hw hrun hlive), ?_⟩
    rw [strand_takeDeferred]
    obtain ⟨hdefer, hcode, hinfo⟩ := tcauseOf_deferred d.info d.code
    exact ⟨rfl, hdefer, hcode, hinfo, rfl, rfl, rfl⟩
  · exact (exec_softError _).trans (execSoftError_place rfl hq)

end Sys2Proof.Laws

/-! SUPPORT and O42. `fence` (R112) and the watchpoints (R113, Table 5.7). -/

namespace Sys2Proof.Laws

open Sys2Proof Sys2Proof.Machine

/-! ### `fence` -/

/-- The strand's accesses in the scope that are still to be performed (R112, R211). -/
def fencedOps (s : State) (sc : BitVec 2) : List Nat :=
  ((self s).ops.filter fun o => !o.away && inScope s s.cur.1 o.target sc.toNat && opWaits s s.cur.1 s.cur.2 o.id).map
    fun o => o.id

/-- Its adder commands. -/
def fencedAdds (s : State) : List Nat := ((here s).addQ.filter fun c => c.strand == s.cur.2).map fun c => c.seq

/-- Its drain deltas into the scope. -/
def fencedDrains (s : State) (sc : BitVec 2) : List Nat :=
  ((here s).drains.filter fun d => d.strand == s.cur.2 && !segAway s (here s).ctx d.dst &&
    inScope s s.cur.1 (routeOf s (here s).ctx s.cur.1 d.dst) sc.toNat).map fun d => d.seq

section
variable {s : State} {p : Pred} {sc : BitVec 2}

theorem inScope_iff (s : State) (sc : BitVec 2) (u : TileId) : inScope s s.cur.1 u sc.toNat = true ↔ Spec.scope s sc u := by
  have hlt : sc.toNat < 4 := sc.isLt
  unfold inScope Spec.scope
  generalize sc.toNat = k at *
  match k with
  | 0 => simp
  | 1 => simp
  | 2 => simp
  | 3 => simp [here]

theorem mem_fencedOps (i : Nat) : i ∈ fencedOps s sc ↔ ∃ o, Spec.fenced s sc o ∧ o.id = i := by
  simp [fencedOps, List.mem_map, List.mem_filter, inScope_iff, Spec.fenced, and_assoc]

theorem mem_fencedDrains (q : Nat) : q ∈ fencedDrains s sc ↔ ∃ d ∈ (here s).drains, d.strand = s.cur.2 ∧
    segAway s (here s).ctx d.dst = false ∧ Spec.scope s sc (routeOf s (here s).ctx s.cur.1 d.dst) ∧ d.seq = q := by
  simp [fencedDrains, List.mem_map, List.mem_filter, inScope_iff, and_assoc]

theorem fence_passes (h : Ready s p .any [] []) (hops : fencedOps s sc = []) (hadds : fencedAdds s ++ fencedDrains s sc = []) :
    exec (.fence p sc) s = .next (retired s s 8) :=
  (exec_fence ..).trans (issue_done h (if_pos ⟨hops, hadds⟩))

theorem fence_waits (h : Ready s p .any [] []) (hsome : ¬ (fencedOps s sc = [] ∧ fencedAdds s ++ fencedDrains s sc = [])) :
    exec (.fence p sc) s = .next (blocked s s 8 (.fence (fencedOps s sc) (fencedAdds s ++ fencedDrains s sc))) :=
  (exec_fence ..).trans (issue_block h (if_neg hsome))

end

theorem fence : Spec.Fence := by
  intro p sc s h adds drs
  have hdrains : fencedDrains s sc = [] ↔ ∀ q, ¬ drs q := by
    rw [List.eq_nil_iff_forall_not_mem]
    exact forall_congr' fun q => not_congr (mem_fencedDrains q)
  have hops : fencedOps s sc = [] ↔ ∀ o, ¬ Spec.fenced s sc o := by
    rw [List.eq_nil_iff_forall_not_mem]
    refine ⟨fun hno o ho => hno o.id ((mem_fencedOps _).2 ⟨o, ho, rfl⟩), fun hno i hi => ?_⟩
    obtain ⟨o, ho, -⟩ := (mem_fencedOps i).1 hi
    exact hno o ho
  have hnone : (fencedOps s sc = [] ∧ fencedAdds s ++ fencedDrains s sc = []) ↔
      (∀ o, ¬ Spec.fenced s sc o) ∧ adds = [] ∧ ∀ q, ¬ drs q := by
    rw [List.append_eq_nil_iff, hops, hdrains]
    rfl
  refine ⟨fun hpass => ?_, fun hwait => ⟨_, _, fence_waits h fun hboth => ?_, mem_fencedOps, fun q => ?_⟩⟩
  · obtain ⟨hempty, hadds⟩ := hnone.2 hpass
    exact fence_passes h hempty hadds
  · obtain ⟨hno, hnoadd, hnodr⟩ := hnone.1 hboth
    rcases hwait with ⟨o, ho⟩ | hadd | ⟨q, hq⟩
    · exact hno o ho
    · exact hadd hnoadd
    · exact hnodr q hq
  · rw [List.mem_append, mem_fencedDrains]
    rfl

/-! ### Watchpoints -/

section
variable {s : State} {p : Pred} {a b : GSrc}

theorem wptSet_next {n fl : BitVec 2} (h : Ready s p .any [.g a, .g b] []) : exec (.wptSet p n a b fl) s =
    if (gOf s b).toNat = 0 ∨ capOf s.cur.1 < (gOf s a).toNat + (gOf s b).toNat then .next (trapTaken s 12 .prot 0)
    else .next (retired s (modHere s (fun v =>
      { v with wpt := v.wpt.set n.toNat { base := gOf s a, len := gOf s b, fl := fl, record := 0 } })) 12) := by
  have hzero : gOf s b = 0 ↔ (gOf s b).toNat = 0 := BitVec.toNat_eq (y := 0)
  split
  next hbad => exact (exec_wptSet ..).trans (issue_trap h (if_pos (hbad.imp_left hzero.2)))
  next hgood => exact (exec_wptSet ..).trans (issue_done h (if_neg (mt (Or.imp_left hzero.1) hgood)))

/-- A strand's own store outside DET mode to bytes watched with FL[0] = 1, its suppression off. -/
theorem storeAct_watched {x : Word} {len : Nat} {data : List Byte} (hdata : data.length = len) (ha : Spec.OwnAccess s x len)
    (hlen : 0 < len) (hclaim : claimed (here s).v (Spec.ofsOf x) len = false)
    (hearly : (here s).v.bstate ≠ 2 ∨ Spec.liesIn (here s).v.partw 5 (Spec.ofsOf x) len) (hdet : s.det s.cur.1 = false)
    (hoff : (self s).suppress = false) (hwatch : watchTraps (here s).v (Spec.ofsOf x) len = true) (k : WKind) :
    storeAct s s.cur.1 s.cur.2 x k data = .trap .watch 0 := by
  subst hdata
  have hput : putLocal s s.cur.1 s.cur.2 (s.cur.1, Spec.ofsOf x) k data = .error (.trap .watch 0) :=
    (if_pos rfl).trans (if_pos (Bool.and_eq_true_iff.2 ⟨congrArg not hoff, hwatch⟩))
  rw [storeAct, localPlace_own ha hlen fun _ => ⟨hclaim, hdet, hearly⟩]
  simp only [hput]

theorem watchTraps_of_hit {v : VRegs} {ofs len : Nat} (h : ∃ w ∈ v.wpt.toList, w.fl.getLsbD 0 = true ∧
    ofs < w.base.toNat + w.len.toNat ∧ w.base.toNat < ofs + len) : watchTraps v ofs len = true := by
  obtain ⟨w, hw, hfl, hhit⟩ := h
  rw [watchTraps, ← Vector.any_toList, List.any_eq_true]
  exact ⟨w, hw, Bool.and_eq_true_iff.2 ⟨hfl, decide_eq_true hhit⟩⟩

end

theorem watchpoints : Spec.Watchpoints :=
  ⟨fun _ _ _ _ _ _ h => wptSet_next h, fun _ _ _ h => (exec_wptClr ..).trans (issue_done h rfl),
    fun _ _ _ _ h => (exec_wptRd ..).trans (issue_done h rfl),
    fun _ wd _ _ _ _ h ha hclaim hearly hdet hoff hhit => (exec_st ..).trans (issue_trap h
      (storeAct_watched (length_bytesOf ..) ha (bytesOfCode_pos wd) hclaim hearly hdet hoff (watchTraps_of_hit hhit) _))⟩

/-- Settles O42: what a fence waits for as members of its lists, and the four forms of a watchpoint's life. -/
theorem fenceAndWatchpoints : Obligations.FenceAndWatchpoints := ⟨fence, watchpoints⟩

end Sys2Proof.Laws

/-! SUPPORT and O40. A store through the sibling window (R97, R203) where the sibling is the root monitor's position: a tile number
of R15 is below 4,096, but the statement speaks of every number, and 4,097 names a place of the cluster in which 4,096 stands. -/

namespace Sys2Proof.Laws

open Sys2Proof Sys2Proof.Machine

/-- A PARTW: code 1, register file 3, scratch 16, accumulator 8, galley 2, foreshore 1 granules. -/
def strayPartw : Word := 0x0004020201000C01

/-- A tile of group 1. -/
def strayTile : Tile := { running := true, group := 1, ctx := 1, v := { partw := strayPartw } }

/-- Group 1, hosted at the positions 4,096 and 4,097. -/
def strayGroup : Group := { id := 1, ctx := 1, st := .running, v := 2, hosts := [4096, 4097], node := ⟨3, 0, 0, 0, 0⟩ }

/-- Strand 0 at position 4,097 issues: g1 names the first scratch byte of the cluster's position 0, which is 4,096; g2 is 1. -/
def strayStore : State :=
  let base : State := { State.reset with
    tiles := [(4096, strayTile), (4097, strayTile)], groups := [strayGroup]
    clusters := [(512, { gate := true })], cur := (4097, 0) }
  putG (putG base 1 0x1010000) 2 1

theorem strayStore_ready : Ready strayStore ⟨0, false⟩ .any [.g ⟨1, false⟩, .g ⟨2, false⟩] [] where
  pred := by decide +kernel
  mode := trivial
  full := by decide +kernel
  streams := by decide +kernel
  free := nofun
  room := rfl
  early := by decide +kernel

theorem strayStore_access : Spec.WindowAccess strayStore (Spec.ea strayStore ⟨1, false⟩ (0 : BitVec 26)) 1 4096 where
  tile := by decide
  aligned := by decide +kernel
  window := by decide +kernel
  other := by decide +kernel
  pos := by decide +kernel
  group := by decide +kernel
  part := by decide +kernel
  gate := by decide +kernel
  det := by decide +kernel
  sound := by decide +kernel

theorem strayStore_writable : Spec.Writable strayStore 4096 0x10000 1 where
  unclaimed := by decide +kernel
  quiet := by decide +kernel
  room := .inr (.inr (by decide +kernel))
  open_ := by decide +kernel

/-- The store writes the byte and no UNDO slot, so what stood there as the standing version, 0, has become 1. -/
theorem strayStore_runs : (match exec (.st ⟨0, false⟩ 3 ⟨1, false⟩ ⟨2, false⟩ 0) strayStore with
    | .next s' => decide (standingByte (s'.tile 4096) 0x10000 = 1) | _ => false) = true := by decide +kernel

/-- The end of an instruction leaves the other tiles. -/
theorem retired_tile_of_ne {s : State} (s' : State) (len : Nat) {u : TileId} (h : u ≠ s.cur.1) :
    (retired s s' len).tile u = s'.tile u :=
  (tile_modStrand_of_ne _ _ _ h).trans (tile_modTile_of_ne _ _ h)

/-- Refutes O40: at `strayStore` a store through the window goes to the monitor's position, whose store keeps no standing version,
and the standing version of the byte does not stay. -/
theorem not_localWrites : ¬ Obligations.LocalWrites := by
  rintro ⟨-, hwindow⟩
  have hofs : Spec.ofsOf (Spec.ea strayStore ⟨1, false⟩ (0 : BitVec 26)) = 0x10000 := by decide +kernel
  obtain ⟨s', hexec, honly, -⟩ := hwindow ⟨0, false⟩ 3 ⟨1, false⟩ ⟨2, false⟩ 0 strayStore 4096 strayStore_ready
    strayStore_access (hofs ▸ strayStore_writable) (by decide +kernel)
  have hnow : standingByte (s'.tile 4096) 0x10000 = 1 := by
    have hruns := strayStore_runs
    rw [hexec] at hruns
    rw [← retired_tile_of_ne (s := strayStore) s' 8 (by decide)]
    exact of_decide_eq_true hruns
  have hbefore : standingByte (strayStore.tile 4096) 0x10000 = 0 := by decide +kernel
  have hstays := honly.standing 0x10000 (by decide +kernel)
  rw [hnow, hbefore] at hstays
  exact absurd hstays (by decide)

end Sys2Proof.Laws
